-- ==== Sys2Proof/Word.lean ====
section
/-! DEFINITION. The word types of the machine: a Palette element, a scalar and an instruction word have 32
bits (R34, R170), and memory is addressed by the byte (R6). -/

namespace Sys2Proof

/-- A 32-bit word: a Palette element, a scalar, an instruction word. -/
abbrev Word := BitVec 32

/-- A byte of memory (R6). -/
abbrev Byte := BitVec 8

end Sys2Proof
end

