-- ==== Sys2Proof/Syntax.lean ====
section
/-! DEFINITION. The steps of the GVM-24: one constructor of `Instr` per row of the opcode table. The words
of the main stream, of the matrix stream and of the Carder carry the fields of their encodings as numbers
(`Sys2Proof/WellFormed.lean` bounds them); a step that has no encoding (an event of the machine or an act
of the world outside it) carries what names the thing it acts on. -/

namespace Sys2Proof

/-- The immediate of a word of majors 00010 and 00101 (R177, R214, R239): the IMM field, or with L = 1 the
raw 32 bits of the next slot. -/
inductive Imm where
  | short (i : Nat)
  | lit (w : Nat)
  deriving DecidableEq, Repr

/-- The target offset of a branching word (R176, R177): the OFF field as its unsigned code, or the raw
32 bits of the next slot when OFF has the literal code. -/
inductive Tgt where
  | off (o : Nat)
  | lit (w : Nat)
  deriving DecidableEq, Repr

/-- The PCIe AtomicOps of R296. -/
inductive HostAtomic where
  | fetchAdd | swap | cas
  deriving DecidableEq, Repr

/-- A block of a class L delivery (R353): the handle, BASELO, COUNT, the block number b, and the elements
of rows 2b and 2b + 1 (64 words, row 2b first). `sender` tells the deliveries of all senders apart: a block belongs to one
delivery, and the manual does not say what shows which (DESIGN CHOICE, log entry 86). -/
structure LBlock where
  handle : Nat
  baselo : Nat
  count : Nat
  b : Nat
  data : List Nat
  sender : Nat
  deriving DecidableEq, Repr

/-- One constructor per row of the opcode table. -/
inductive Instr where
  /-- `CLAUSE`, R172: Clause header: the clause starts once every flag in its wait mask is zero, and it sets the flag-select fields and length for its words. -/
  | clause (w : Nat) (a : Nat) (b : Nat) (l : Nat) (y : Nat)
  /-- `NOP`, R226: Occupies one issue cycle of its candidate and has no other effect. -/
  | nop
  /-- `S_MOV_B32`, R213: Writes scalar B to scalar D. -/
  | sMovB32 (c : Bool) (d : Nat) (b : Nat)
  /-- `S_ADD_N32`, R213: Scalar addition modulo 2^32. -/
  | sAddN32 (c : Bool) (d : Nat) (b : Nat)
  /-- `S_SUB_N32`, R213: Scalar subtraction modulo 2^32. -/
  | sSubN32 (c : Bool) (d : Nat) (b : Nat)
  /-- `S_MUL_N32`, R213: Low 32 bits of the scalar product. -/
  | sMulN32 (c : Bool) (d : Nat) (b : Nat)
  /-- `S_MULHI_N32`, R213: High 32 bits of the unsigned scalar product. -/
  | sMulhiN32 (c : Bool) (d : Nat) (b : Nat)
  /-- `S_MULHI_S32`, R213: High 32 bits of the signed scalar product. -/
  | sMulhiS32 (c : Bool) (d : Nat) (b : Nat)
  /-- `S_AND_B32`, R213: Scalar bitwise AND. -/
  | sAndB32 (c : Bool) (d : Nat) (b : Nat)
  /-- `S_OR_B32`, R213: Scalar bitwise OR. -/
  | sOrB32 (c : Bool) (d : Nat) (b : Nat)
  /-- `S_XOR_B32`, R213: Scalar bitwise XOR. -/
  | sXorB32 (c : Bool) (d : Nat) (b : Nat)
  /-- `S_NOT_B32`, R213: Writes the bitwise complement of scalar B to D. -/
  | sNotB32 (c : Bool) (d : Nat) (b : Nat)
  /-- `S_SHL_B32`, R213: Scalar shift left by the amount modulo 32. -/
  | sShlB32 (c : Bool) (d : Nat) (b : Nat)
  /-- `S_SHR_N32`, R213: Scalar logical shift right by the amount modulo 32. -/
  | sShrN32 (c : Bool) (d : Nat) (b : Nat)
  /-- `S_SHR_S32`, R213: Scalar arithmetic shift right by the amount modulo 32. -/
  | sShrS32 (c : Bool) (d : Nat) (b : Nat)
  /-- `S_MIN_N32`, R213: Unsigned scalar minimum. -/
  | sMinN32 (c : Bool) (d : Nat) (b : Nat)
  /-- `S_MIN_S32`, R213: Signed scalar minimum. -/
  | sMinS32 (c : Bool) (d : Nat) (b : Nat)
  /-- `S_MAX_N32`, R213: Unsigned scalar maximum. -/
  | sMaxN32 (c : Bool) (d : Nat) (b : Nat)
  /-- `S_MAX_S32`, R213: Signed scalar maximum. -/
  | sMaxS32 (c : Bool) (d : Nat) (b : Nat)
  /-- `S_MOV_B64`, R213: Copies a scalar pair. -/
  | sMovB64 (c : Bool) (d : Nat) (b : Nat)
  /-- `S_ADD_N64`, R213: 64-bit scalar pair addition modulo 2^64. -/
  | sAddN64 (c : Bool) (d : Nat) (b : Nat)
  /-- `S_SUB_N64`, R213: 64-bit scalar pair subtraction modulo 2^64. -/
  | sSubN64 (c : Bool) (d : Nat) (b : Nat)
  /-- `S_MUL_N64`, R213: Low 64 bits of the scalar pair product. -/
  | sMulN64 (c : Bool) (d : Nat) (b : Nat)
  /-- `S_AND_B64`, R213: 64-bit scalar bitwise AND. -/
  | sAndB64 (c : Bool) (d : Nat) (b : Nat)
  /-- `S_OR_B64`, R213: 64-bit scalar bitwise OR. -/
  | sOrB64 (c : Bool) (d : Nat) (b : Nat)
  /-- `S_XOR_B64`, R213: 64-bit scalar bitwise XOR. -/
  | sXorB64 (c : Bool) (d : Nat) (b : Nat)
  /-- `S_SHL_B64`, R213: 64-bit scalar shift left by the amount modulo 64. -/
  | sShlB64 (c : Bool) (d : Nat) (b : Nat)
  /-- `S_SHR_N64`, R213: 64-bit scalar logical shift right. -/
  | sShrN64 (c : Bool) (d : Nat) (b : Nat)
  /-- `S_SHR_S64`, R213: 64-bit scalar arithmetic shift right. -/
  | sShrS64 (c : Bool) (d : Nat) (b : Nat)
  /-- `SI_MOV_B32`, R214: Writes a sign-extended immediate or literal to a scalar. -/
  | siMovB32 (c : Bool) (d : Nat) (i : Imm)
  /-- `SI_ADD_N32`, R214: Adds a sign-extended immediate to a scalar. -/
  | siAddN32 (c : Bool) (d : Nat) (i : Imm)
  /-- `SI_MUL_N32`, R214: Multiplies a scalar by a sign-extended immediate. -/
  | siMulN32 (c : Bool) (d : Nat) (i : Imm)
  /-- `SI_AND_B32`, R214: ANDs a scalar with a zero-extended immediate. -/
  | siAndB32 (c : Bool) (d : Nat) (i : Imm)
  /-- `SI_OR_B32`, R214: ORs a scalar with a zero-extended immediate. -/
  | siOrB32 (c : Bool) (d : Nat) (i : Imm)
  /-- `SI_XOR_B32`, R214: XORs a scalar with a zero-extended immediate. -/
  | siXorB32 (c : Bool) (d : Nat) (i : Imm)
  /-- `SI_SHL_B32`, R214: Shifts a scalar left by an immediate amount. -/
  | siShlB32 (c : Bool) (d : Nat) (i : Imm)
  /-- `SI_SHR_N32`, R214: Shifts a scalar right logically by an immediate amount. -/
  | siShrN32 (c : Bool) (d : Nat) (i : Imm)
  /-- `SI_SHR_S32`, R214: Shifts a scalar right arithmetically by an immediate amount. -/
  | siShrS32 (c : Bool) (d : Nat) (i : Imm)
  /-- `SI_MOV_B64`, R214: Writes a sign-extended immediate to a scalar pair. -/
  | siMovB64 (c : Bool) (d : Nat) (i : Imm)
  /-- `SI_ADD_N64`, R214: Adds a sign-extended immediate to a scalar pair. -/
  | siAddN64 (c : Bool) (d : Nat) (i : Imm)
  /-- `BEQ`, R215: Moves every slice of the candidate to the target when two scalars are equal. -/
  | beq (c : Bool) (a : Nat) (b : Nat) (o : Tgt)
  /-- `BNE`, R215: Scalar branch when two scalars differ. -/
  | bne (c : Bool) (a : Nat) (b : Nat) (o : Tgt)
  /-- `BLT_S32`, R215: Scalar branch on signed less than. -/
  | bltS32 (c : Bool) (a : Nat) (b : Nat) (o : Tgt)
  /-- `BGE_S32`, R215: Scalar branch on signed greater or equal. -/
  | bgeS32 (c : Bool) (a : Nat) (b : Nat) (o : Tgt)
  /-- `BLT_N32`, R215: Scalar branch on unsigned less than. -/
  | bltN32 (c : Bool) (a : Nat) (b : Nat) (o : Tgt)
  /-- `BGE_N32`, R215: Scalar branch on unsigned greater or equal. -/
  | bgeN32 (c : Bool) (a : Nat) (b : Nat) (o : Tgt)
  /-- `V_ADD_N32`, R238: Per-lane addition modulo 2^32. -/
  | vAddN32 (c : Bool) (d : Nat) (a : Nat) (s : Nat) (b : Nat)
  /-- `V_SUB_N32`, R238: Per-lane subtraction modulo 2^32. -/
  | vSubN32 (c : Bool) (d : Nat) (a : Nat) (s : Nat) (b : Nat)
  /-- `V_MUL_N32`, R238: Per-lane low product. -/
  | vMulN32 (c : Bool) (d : Nat) (a : Nat) (s : Nat) (b : Nat)
  /-- `V_MULHI_N32`, R238: Per-lane unsigned high product. -/
  | vMulhiN32 (c : Bool) (d : Nat) (a : Nat) (s : Nat) (b : Nat)
  /-- `V_MULHI_S32`, R238: Per-lane signed high product. -/
  | vMulhiS32 (c : Bool) (d : Nat) (a : Nat) (s : Nat) (b : Nat)
  /-- `V_AND_B32`, R238: Per-lane bitwise AND. -/
  | vAndB32 (c : Bool) (d : Nat) (a : Nat) (s : Nat) (b : Nat)
  /-- `V_OR_B32`, R238: Per-lane bitwise OR. -/
  | vOrB32 (c : Bool) (d : Nat) (a : Nat) (s : Nat) (b : Nat)
  /-- `V_XOR_B32`, R238: Per-lane bitwise XOR. -/
  | vXorB32 (c : Bool) (d : Nat) (a : Nat) (s : Nat) (b : Nat)
  /-- `V_SHL_B32`, R238: Per-lane shift left. -/
  | vShlB32 (c : Bool) (d : Nat) (a : Nat) (s : Nat) (b : Nat)
  /-- `V_SHR_N32`, R238: Per-lane logical shift right. -/
  | vShrN32 (c : Bool) (d : Nat) (a : Nat) (s : Nat) (b : Nat)
  /-- `V_SHR_S32`, R238: Per-lane arithmetic shift right. -/
  | vShrS32 (c : Bool) (d : Nat) (a : Nat) (s : Nat) (b : Nat)
  /-- `V_MIN_N32`, R238: Per-lane unsigned minimum. -/
  | vMinN32 (c : Bool) (d : Nat) (a : Nat) (s : Nat) (b : Nat)
  /-- `V_MIN_S32`, R238: Per-lane signed minimum. -/
  | vMinS32 (c : Bool) (d : Nat) (a : Nat) (s : Nat) (b : Nat)
  /-- `V_MAX_N32`, R238: Per-lane unsigned maximum. -/
  | vMaxN32 (c : Bool) (d : Nat) (a : Nat) (s : Nat) (b : Nat)
  /-- `V_MAX_S32`, R238: Per-lane signed maximum. -/
  | vMaxS32 (c : Bool) (d : Nat) (a : Nat) (s : Nat) (b : Nat)
  /-- `V_ADDSAT_S32`, R238: Per-lane signed addition clamped to the 32-bit range. -/
  | vAddsatS32 (c : Bool) (d : Nat) (a : Nat) (s : Nat) (b : Nat)
  /-- `VI_ADD_N32`, R239: Per-lane addition of a sign-extended immediate. -/
  | viAddN32 (c : Bool) (d : Nat) (a : Nat) (i : Imm)
  /-- `VI_SUB_N32`, R239: Per-lane subtraction of a sign-extended immediate. -/
  | viSubN32 (c : Bool) (d : Nat) (a : Nat) (i : Imm)
  /-- `VI_MUL_N32`, R239: Per-lane product with a sign-extended immediate. -/
  | viMulN32 (c : Bool) (d : Nat) (a : Nat) (i : Imm)
  /-- `VI_MULHI_N32`, R239: Per-lane unsigned high product with a zero-extended immediate. -/
  | viMulhiN32 (c : Bool) (d : Nat) (a : Nat) (i : Imm)
  /-- `VI_MULHI_S32`, R239: Per-lane signed high product with a sign-extended immediate. -/
  | viMulhiS32 (c : Bool) (d : Nat) (a : Nat) (i : Imm)
  /-- `VI_AND_B32`, R239: Per-lane AND with a zero-extended immediate. -/
  | viAndB32 (c : Bool) (d : Nat) (a : Nat) (i : Imm)
  /-- `VI_OR_B32`, R239: Per-lane OR with a zero-extended immediate. -/
  | viOrB32 (c : Bool) (d : Nat) (a : Nat) (i : Imm)
  /-- `VI_XOR_B32`, R239: Per-lane XOR with a zero-extended immediate. -/
  | viXorB32 (c : Bool) (d : Nat) (a : Nat) (i : Imm)
  /-- `VI_SHL_B32`, R239: Per-lane shift left by an immediate. -/
  | viShlB32 (c : Bool) (d : Nat) (a : Nat) (i : Imm)
  /-- `VI_SHR_N32`, R239: Per-lane logical shift right by an immediate. -/
  | viShrN32 (c : Bool) (d : Nat) (a : Nat) (i : Imm)
  /-- `VI_SHR_S32`, R239: Per-lane arithmetic shift right by an immediate. -/
  | viShrS32 (c : Bool) (d : Nat) (a : Nat) (i : Imm)
  /-- `VI_MIN_N32`, R239: Per-lane unsigned minimum with an immediate. -/
  | viMinN32 (c : Bool) (d : Nat) (a : Nat) (i : Imm)
  /-- `VI_MIN_S32`, R239: Per-lane signed minimum with a sign-extended immediate. -/
  | viMinS32 (c : Bool) (d : Nat) (a : Nat) (i : Imm)
  /-- `VI_MAX_N32`, R239: Per-lane unsigned maximum with an immediate. -/
  | viMaxN32 (c : Bool) (d : Nat) (a : Nat) (i : Imm)
  /-- `VI_MAX_S32`, R239: Per-lane signed maximum with a sign-extended immediate. -/
  | viMaxS32 (c : Bool) (d : Nat) (a : Nat) (i : Imm)
  /-- `FADD_F32`, R240: Per-lane FP32 addition rounded once under MODE. -/
  | faddF32 (c : Bool) (d : Nat) (a : Nat) (s : Nat) (b : Nat)
  /-- `FSUB_F32`, R240: Per-lane FP32 subtraction. -/
  | fsubF32 (c : Bool) (d : Nat) (a : Nat) (s : Nat) (b : Nat)
  /-- `FMUL_F32`, R240: Per-lane FP32 multiplication. -/
  | fmulF32 (c : Bool) (d : Nat) (a : Nat) (s : Nat) (b : Nat)
  /-- `FMIN_F32`, R240: Per-lane FP32 minimum with NaN and signed-zero rules. -/
  | fminF32 (c : Bool) (d : Nat) (a : Nat) (s : Nat) (b : Nat)
  /-- `FMAX_F32`, R240: Per-lane FP32 maximum with NaN and signed-zero rules. -/
  | fmaxF32 (c : Bool) (d : Nat) (a : Nat) (s : Nat) (b : Nat)
  /-- `FABS_F32`, R240: Clears bit 31 of each lane's element. -/
  | fabsF32 (c : Bool) (d : Nat) (a : Nat)
  /-- `FNEG_F32`, R240: Inverts bit 31 of each lane's element. -/
  | fnegF32 (c : Bool) (d : Nat) (a : Nat)
  /-- `FCPSGN_F32`, R240: Takes bits 30:0 of A with the sign of B. -/
  | fcpsgnF32 (c : Bool) (d : Nat) (a : Nat) (s : Nat) (b : Nat)
  /-- `FMA_F32`, R241: Per-lane fused A·B + D, rounded once. -/
  | fmaF32 (c : Bool) (d : Nat) (a : Nat) (s : Nat) (b : Nat)
  /-- `FNMA_F32`, R241: Per-lane fused D − A·B, rounded once. -/
  | fnmaF32 (c : Bool) (d : Nat) (a : Nat) (s : Nat) (b : Nat)
  /-- `FADD_F16`, R242: Paired FP16 addition on both halves. -/
  | faddF16 (c : Bool) (d : Nat) (a : Nat) (s : Nat) (b : Nat)
  /-- `FSUB_F16`, R242: Paired FP16 subtraction. -/
  | fsubF16 (c : Bool) (d : Nat) (a : Nat) (s : Nat) (b : Nat)
  /-- `FMUL_F16`, R242: Paired FP16 multiplication. -/
  | fmulF16 (c : Bool) (d : Nat) (a : Nat) (s : Nat) (b : Nat)
  /-- `FMA_F16`, R242: Paired FP16 fused multiply-add. -/
  | fmaF16 (c : Bool) (d : Nat) (a : Nat) (s : Nat) (b : Nat)
  /-- `FADD_BF16`, R242: Paired BF16 addition. -/
  | faddBf16 (c : Bool) (d : Nat) (a : Nat) (s : Nat) (b : Nat)
  /-- `FSUB_BF16`, R242: Paired BF16 subtraction. -/
  | fsubBf16 (c : Bool) (d : Nat) (a : Nat) (s : Nat) (b : Nat)
  /-- `FMUL_BF16`, R242: Paired BF16 multiplication. -/
  | fmulBf16 (c : Bool) (d : Nat) (a : Nat) (s : Nat) (b : Nat)
  /-- `FMA_BF16`, R242: Paired BF16 fused multiply-add. -/
  | fmaBf16 (c : Bool) (d : Nat) (a : Nat) (s : Nat) (b : Nat)
  /-- `FMIN_F16`, R242: Paired FP16 minimum. -/
  | fminF16 (c : Bool) (d : Nat) (a : Nat) (s : Nat) (b : Nat)
  /-- `FMAX_F16`, R242: Paired FP16 maximum. -/
  | fmaxF16 (c : Bool) (d : Nat) (a : Nat) (s : Nat) (b : Nat)
  /-- `FMIN_BF16`, R242: Paired BF16 minimum. -/
  | fminBf16 (c : Bool) (d : Nat) (a : Nat) (s : Nat) (b : Nat)
  /-- `FMAX_BF16`, R242: Paired BF16 maximum. -/
  | fmaxBf16 (c : Bool) (d : Nat) (a : Nat) (s : Nat) (b : Nat)
  /-- `VCMP_EQ`, R243: Sets the predicate per lane where A equals B, typed by TY. -/
  | vcmpEq (c : Bool) (t : Nat) (p : Nat) (a : Nat) (s : Nat) (b : Nat)
  /-- `VCMP_NE`, R243: Sets the predicate per lane where A differs from B. -/
  | vcmpNe (c : Bool) (t : Nat) (p : Nat) (a : Nat) (s : Nat) (b : Nat)
  /-- `VCMP_LT`, R243: Sets the predicate per lane where A is less than B. -/
  | vcmpLt (c : Bool) (t : Nat) (p : Nat) (a : Nat) (s : Nat) (b : Nat)
  /-- `VCMP_LE`, R243: Sets the predicate per lane where A is at most B. -/
  | vcmpLe (c : Bool) (t : Nat) (p : Nat) (a : Nat) (s : Nat) (b : Nat)
  /-- `VCMP_GT`, R243: Sets the predicate per lane where A is greater than B. -/
  | vcmpGt (c : Bool) (t : Nat) (p : Nat) (a : Nat) (s : Nat) (b : Nat)
  /-- `VCMP_GE`, R243: Sets the predicate per lane where A is at least B. -/
  | vcmpGe (c : Bool) (t : Nat) (p : Nat) (a : Nat) (s : Nat) (b : Nat)
  /-- `PAND`, R244: Per-lane AND of two predicates. -/
  | pand (c : Bool) (d : Nat) (a : Nat) (b : Nat)
  /-- `POR`, R244: Per-lane OR of two predicates. -/
  | por (c : Bool) (d : Nat) (a : Nat) (b : Nat)
  /-- `PXOR`, R244: Per-lane XOR of two predicates. -/
  | pxor (c : Bool) (d : Nat) (a : Nat) (b : Nat)
  /-- `PNOT`, R244: Per-lane negation of a predicate. -/
  | pnot (c : Bool) (d : Nat) (a : Nat)
  /-- `CVT`, R246: Widens a narrow element to FP32 or narrows FP32 to a format, with scale, rounding and overflow handling. -/
  | cvt (c : Bool) (s : Nat) (t : Nat) (r : Nat) (x : Option Nat) (d : Nat) (a : Nat)
  /-- `RCP_F32`, R247: Per-lane reciprocal within 1 ulp. -/
  | rcpF32 (c : Bool) (d : Nat) (a : Nat)
  /-- `RSQRT_F32`, R247: Per-lane reciprocal square root. -/
  | rsqrtF32 (c : Bool) (d : Nat) (a : Nat)
  /-- `SQRT_F32`, R247: Per-lane correctly rounded square root. -/
  | sqrtF32 (c : Bool) (d : Nat) (a : Nat)
  /-- `EXP2_F32`, R247: Per-lane base-2 exponential. -/
  | exp2F32 (c : Bool) (d : Nat) (a : Nat)
  /-- `LOG2_F32`, R247: Per-lane base-2 logarithm. -/
  | log2F32 (c : Bool) (d : Nat) (a : Nat)
  /-- `SINPI_F32`, R247: Per-lane sin(πx). -/
  | sinpiF32 (c : Bool) (d : Nat) (a : Nat)
  /-- `COSPI_F32`, R247: Per-lane cos(πx). -/
  | cospiF32 (c : Bool) (d : Nat) (a : Nat)
  /-- `TANH_F32`, R247: Per-lane hyperbolic tangent. -/
  | tanhF32 (c : Bool) (d : Nat) (a : Nat)
  /-- `SIGM_F32`, R247: Per-lane logistic sigmoid. -/
  | sigmF32 (c : Bool) (d : Nat) (a : Nat)
  /-- `ERF_F32`, R247: Per-lane error function. -/
  | erfF32 (c : Bool) (d : Nat) (a : Nat)
  /-- `VGET_B32`, R248: Each lane reads its own element of a row named by its index plus an offset. -/
  | vgetB32 (c : Bool) (d : Nat) (i : Nat) (w : Nat) (j : Nat)
  /-- `VPUT_B32`, R248: Each lane writes its own element of a row named by its index plus an offset. -/
  | vputB32 (c : Bool) (d : Nat) (i : Nat) (w : Nat) (j : Nat)
  /-- `XREAD_B32`, R249: Each lane reads the element of a named row and lane, reporting dead sources in p6. -/
  | xreadB32 (c : Bool) (d : Nat) (i : Nat) (w : Nat) (j : Nat)
  /-- `XWRITE_B32`, R249: Each lane writes its value to a named row and lane, the highest lane winning collisions. -/
  | xwriteB32 (c : Bool) (d : Nat) (i : Nat) (w : Nat) (j : Nat)
  /-- `SHFL_IDX_B32`, R250: Each lane takes the element of the lane its index names. -/
  | shflIdxB32 (c : Bool) (d : Nat) (i : Nat) (j : Nat)
  /-- `SHFL_UP_B32`, R250: Each lane takes the element d lanes below it. -/
  | shflUpB32 (c : Bool) (d : Nat) (i : Nat) (j : Nat)
  /-- `SHFL_DOWN_B32`, R250: Each lane takes the element d lanes above it. -/
  | shflDownB32 (c : Bool) (d : Nat) (i : Nat) (j : Nat)
  /-- `SHFL_XOR_B32`, R250: Each lane takes the element of lane L xor d. -/
  | shflXorB32 (c : Bool) (d : Nat) (i : Nat) (j : Nat)
  /-- `BALLOT_B32`, R251: Writes a scalar with one bit per live active lane's predicate. -/
  | ballotB32 (c : Bool) (d : Nat) (a : Nat)
  /-- `VOTE_ANY`, R251: Writes the OR of a predicate over the candidate's live active lanes to each of them. -/
  | voteAny (c : Bool) (d : Nat) (a : Nat)
  /-- `VOTE_ALL`, R251: Writes the AND of a predicate over the candidate's live active lanes to each of them. -/
  | voteAll (c : Bool) (d : Nat) (a : Nat)
  /-- `PMOV_B32`, R251: Writes 1 or 0 per lane from a predicate into a row. -/
  | pmovB32 (c : Bool) (d : Nat) (a : Nat)
  /-- `PTEST_B32`, R251: Sets a predicate per lane where the row element is nonzero. -/
  | ptestB32 (c : Bool) (d : Nat) (i : Nat)
  /-- `LD_B8`, R260: Per-lane indexed byte load with no flag. -/
  | ldB8 (c : Bool) (f : Nat) (d : Nat) (i : Nat) (s : Nat)
  /-- `LD_B16`, R260: Per-lane indexed 16-bit load with no flag. -/
  | ldB16 (c : Bool) (f : Nat) (d : Nat) (i : Nat) (s : Nat)
  /-- `LD_B32`, R260: Per-lane indexed 32-bit load with no flag. -/
  | ldB32 (c : Bool) (f : Nat) (d : Nat) (i : Nat) (s : Nat)
  /-- `LD_B8_FA`, R260: Per-lane indexed byte load counted on flag A. -/
  | ldB8Fa (c : Bool) (f : Nat) (d : Nat) (i : Nat) (s : Nat)
  /-- `LD_B16_FA`, R260: Per-lane indexed 16-bit load counted on flag A. -/
  | ldB16Fa (c : Bool) (f : Nat) (d : Nat) (i : Nat) (s : Nat)
  /-- `LD_B32_FA`, R260: Per-lane indexed 32-bit load counted on flag A. -/
  | ldB32Fa (c : Bool) (f : Nat) (d : Nat) (i : Nat) (s : Nat)
  /-- `LD_B8_FB`, R260: Per-lane indexed byte load counted on flag B. -/
  | ldB8Fb (c : Bool) (f : Nat) (d : Nat) (i : Nat) (s : Nat)
  /-- `LD_B16_FB`, R260: Per-lane indexed 16-bit load counted on flag B. -/
  | ldB16Fb (c : Bool) (f : Nat) (d : Nat) (i : Nat) (s : Nat)
  /-- `LD_B32_FB`, R260: Per-lane indexed 32-bit load counted on flag B. -/
  | ldB32Fb (c : Bool) (f : Nat) (d : Nat) (i : Nat) (s : Nat)
  /-- `ST_B8`, R260: Per-lane indexed byte store. -/
  | stB8 (c : Bool) (f : Nat) (d : Nat) (i : Nat) (s : Nat)
  /-- `ST_B16`, R260: Per-lane indexed 16-bit store. -/
  | stB16 (c : Bool) (f : Nat) (d : Nat) (i : Nat) (s : Nat)
  /-- `ST_B32`, R260: Per-lane indexed 32-bit store. -/
  | stB32 (c : Bool) (f : Nat) (d : Nat) (i : Nat) (s : Nat)
  /-- `LD_SCALAR_ADDRESS`, R261: Load from one scalar address, optionally acquiring at a scope, into a scalar or every lane. -/
  | ldScalarAddress (c : Bool) (z : Nat) (f : Nat) (e : Nat) (o : Nat) (k : Nat) (d : Nat) (s : Nat)
  /-- `ST_SCALAR_ADDRESS`, R261: Store to one scalar address, optionally releasing at a scope. -/
  | stScalarAddress (c : Bool) (z : Nat) (e : Nat) (o : Nat) (k : Nat) (d : Nat) (s : Nat)
  /-- `ATOM_ADD_N32`, R263: Atomic 32-bit add at the home pseudo-channel, returning the old value. -/
  | atomAddN32 (c : Bool) (o : Nat) (k : Nat) (f : Nat) (d : Nat) (u : Nat) (a : Nat)
  /-- `ATOM_ADD_N64`, R263: Atomic 64-bit add. -/
  | atomAddN64 (c : Bool) (o : Nat) (k : Nat) (f : Nat) (d : Nat) (u : Nat) (a : Nat)
  /-- `ATOM_ADD_F32`, R263: Atomic FP32 add rounded RNE. -/
  | atomAddF32 (c : Bool) (o : Nat) (k : Nat) (f : Nat) (d : Nat) (u : Nat) (a : Nat)
  /-- `ATOM_MIN_S32`, R263: Atomic signed minimum. -/
  | atomMinS32 (c : Bool) (o : Nat) (k : Nat) (f : Nat) (d : Nat) (u : Nat) (a : Nat)
  /-- `ATOM_MIN_N32`, R263: Atomic unsigned minimum. -/
  | atomMinN32 (c : Bool) (o : Nat) (k : Nat) (f : Nat) (d : Nat) (u : Nat) (a : Nat)
  /-- `ATOM_MAX_S32`, R263: Atomic signed maximum. -/
  | atomMaxS32 (c : Bool) (o : Nat) (k : Nat) (f : Nat) (d : Nat) (u : Nat) (a : Nat)
  /-- `ATOM_MAX_N32`, R263: Atomic unsigned maximum. -/
  | atomMaxN32 (c : Bool) (o : Nat) (k : Nat) (f : Nat) (d : Nat) (u : Nat) (a : Nat)
  /-- `ATOM_AND_B32`, R263: Atomic bitwise AND. -/
  | atomAndB32 (c : Bool) (o : Nat) (k : Nat) (f : Nat) (d : Nat) (u : Nat) (a : Nat)
  /-- `ATOM_OR_B32`, R263: Atomic bitwise OR. -/
  | atomOrB32 (c : Bool) (o : Nat) (k : Nat) (f : Nat) (d : Nat) (u : Nat) (a : Nat)
  /-- `ATOM_XOR_B32`, R263: Atomic bitwise XOR. -/
  | atomXorB32 (c : Bool) (o : Nat) (k : Nat) (f : Nat) (d : Nat) (u : Nat) (a : Nat)
  /-- `ATOM_XCHG_B32`, R263: Atomic 32-bit exchange. -/
  | atomXchgB32 (c : Bool) (o : Nat) (k : Nat) (f : Nat) (d : Nat) (u : Nat) (a : Nat)
  /-- `ATOM_CAS_B32`, R263: Atomic 32-bit compare and swap. -/
  | atomCasB32 (c : Bool) (o : Nat) (k : Nat) (f : Nat) (d : Nat) (u : Nat) (a : Nat)
  /-- `ATOM_XCHG_B64`, R263: Atomic 64-bit exchange. -/
  | atomXchgB64 (c : Bool) (o : Nat) (k : Nat) (f : Nat) (d : Nat) (u : Nat) (a : Nat)
  /-- `ATOM_CAS_B64`, R263: Atomic 64-bit compare and swap. -/
  | atomCasB64 (c : Bool) (o : Nat) (k : Nat) (f : Nat) (d : Nat) (u : Nat) (a : Nat)
  /-- `SWLD_B32`, R267: Reads a swatch row's front bank through a handle, each lane its own element. -/
  | swldB32 (c : Bool) (f : Nat) (d : Nat) (h : Nat)
  /-- `SWST_B32`, R267: Writes a swatch row through a handle without waiting, arrival codes going to the writer's barrier. -/
  | swstB32 (c : Bool) (d : Nat) (h : Nat) (n : Nat)
  /-- `SWATOM_ADD_N32`, R267: Atomic add on a swatch element returning the old value. -/
  | swatomAddN32 (c : Bool) (f : Nat) (d : Nat) (h : Nat) (n : Nat)
  /-- `SWATOM_CAS_B32`, R267: Atomic compare and swap on a swatch element. -/
  | swatomCasB32 (c : Bool) (f : Nat) (d : Nat) (h : Nat) (n : Nat)
  /-- `SWRED_ADD_N32`, R267: Reduction add into a swatch element with no return. -/
  | swredAddN32 (c : Bool) (d : Nat) (h : Nat) (n : Nat)
  /-- `SWRED_OR_B32`, R267: Reduction OR into a swatch element with no return. -/
  | swredOrB32 (c : Bool) (d : Nat) (h : Nat) (n : Nat)
  /-- `SWLD_B32_FAR`, R267: Swatch read on another module named in the route operand. -/
  | swldB32Far (c : Bool) (f : Nat) (d : Nat) (h : Nat)
  /-- `SWST_B32_FAR`, R267: Swatch write on another module. -/
  | swstB32Far (c : Bool) (d : Nat) (h : Nat) (n : Nat)
  /-- `SWATOM_ADD_N32_FAR`, R267: Swatch atomic add on another module. -/
  | swatomAddN32Far (c : Bool) (f : Nat) (d : Nat) (h : Nat) (n : Nat)
  /-- `SWATOM_CAS_B32_FAR`, R267: Swatch compare and swap on another module. -/
  | swatomCasB32Far (c : Bool) (f : Nat) (d : Nat) (h : Nat) (n : Nat)
  /-- `SWRED_ADD_N32_FAR`, R267: Swatch reduction add on another module. -/
  | swredAddN32Far (c : Bool) (d : Nat) (h : Nat) (n : Nat)
  /-- `SWRED_OR_B32_FAR`, R267: Swatch reduction OR on another module. -/
  | swredOrB32Far (c : Bool) (d : Nat) (h : Nat) (n : Nat)
  /-- `EXPORT`, R48: Declares a swatch over rows and returns its handle, with pool-held operands. -/
  | exportSwatch (c : Bool) (i : Nat)
  /-- `COPY_ROWS`, R102: Copies whole rows from memory into a group frame or team rows, reported by barrier and batch. -/
  | copyRows (c : Bool) (w : Nat) (d : Nat) (s : Nat) (n : Nat)
  /-- `COPY_COL`, R102: Copies elements from memory into one lane of consecutive rows. -/
  | copyCol (c : Bool) (d : Nat) (s : Nat) (n : Nat)
  /-- `COPY_ROWS_X24`, R115: Copies 2:4-compressed rows from memory, expanding them by metadata. -/
  | copyRowsX24 (c : Bool) (w : Nat) (d : Nat) (s : Nat) (n : Nat)
  /-- `COPY_SWATCH`, R113: Multicasts rows to up to eight swatches, one delivery each. -/
  | copySwatch (c : Bool) (w : Nat) (d : Nat) (s : Nat) (n : Nat)
  /-- `COPY_OUT_TEAM`, R102: Copies rows to memory, releasing at team scope. -/
  | copyOutTeam (c : Bool) (w : Nat) (d : Nat) (s : Nat) (n : Nat)
  /-- `COPY_OUT_CLU`, R102: Copies rows to memory, releasing at cluster scope. -/
  | copyOutClu (c : Bool) (w : Nat) (d : Nat) (s : Nat) (n : Nat)
  /-- `COPY_OUT_DIE`, R102: Copies rows to memory, releasing at die scope. -/
  | copyOutDie (c : Bool) (w : Nat) (d : Nat) (s : Nat) (n : Nat)
  /-- `COPY_OUT_MOD`, R102: Copies rows to memory, releasing at module scope. -/
  | copyOutMod (c : Bool) (w : Nat) (d : Nat) (s : Nat) (n : Nat)
  /-- `COPY_OUT_SYS`, R102: Copies rows to memory, releasing at system scope. -/
  | copyOutSys (c : Bool) (w : Nat) (d : Nat) (s : Nat) (n : Nat)
  /-- `COPY_OUT_C24_TEAM`, R116: Copies rows to memory compacted 2:4, releasing at team scope. -/
  | copyOutC24Team (c : Bool) (w : Nat) (d : Nat) (s : Nat) (n : Nat)
  /-- `COPY_OUT_C24_CLU`, R116: Compacting copy out at cluster scope. -/
  | copyOutC24Clu (c : Bool) (w : Nat) (d : Nat) (s : Nat) (n : Nat)
  /-- `COPY_OUT_C24_DIE`, R116: Compacting copy out at die scope. -/
  | copyOutC24Die (c : Bool) (w : Nat) (d : Nat) (s : Nat) (n : Nat)
  /-- `COPY_OUT_C24_MOD`, R116: Compacting copy out at module scope. -/
  | copyOutC24Mod (c : Bool) (w : Nat) (d : Nat) (s : Nat) (n : Nat)
  /-- `COPY_OUT_C24_SYS`, R116: Compacting copy out at system scope. -/
  | copyOutC24Sys (c : Bool) (w : Nat) (d : Nat) (s : Nat) (n : Nat)
  /-- `WALK`, R149: Starts a Carder walk that emits a sparse layout into dense rows. -/
  | walk (c : Bool) (w : Nat) (d : Nat) (s : Nat) (n : Nat)
  /-- `GATHER`, R137: Fetches up to 1,024 indexed table elements through the gather engines, faults becoming zeros and mask bits. -/
  | gather (c : Bool) (i : Nat)
  /-- `SCATTER`, R141: Stores or combines up to 1,024 indexed elements into a table at their home pseudo-channels. -/
  | scatter (c : Bool) (i : Nat)
  /-- `SHBIND`, R143: Binds a shadow window so that loads from it gather table elements. -/
  | shbind (c : Bool) (i : Nat)
  /-- `SHBIND_OFF`, R143: Unbinds a shadow window. -/
  | shbindOff (c : Bool) (i : Nat)
  /-- `ARRIVE`, R109: Counts one arrival on a barrier as a team-scope release. -/
  | arrive (c : Bool) (n : Nat)
  /-- `BINIT`, R111: Sets a barrier's reload and arrivals and clears its error record. -/
  | binit (c : Bool) (n : Nat) (s : Nat)
  /-- `BREAD`, R111: Reads a whole barrier into four scalars in one cycle. -/
  | bread (c : Bool) (n : Nat) (s : Nat)
  /-- `TWAIT`, R112: Bounded wait for a barrier phase, writing the outcome to a predicate. -/
  | twait (c : Bool) (p : Nat) (n : Nat) (s : Nat)
  /-- `SWAP`, R53: Exchanges front and shadow banks of every double-banked swatch exported with the barrier. -/
  | swap (c : Bool) (n : Nat)
  /-- `FENCE`, R266: Holds the candidate until its earlier accesses are performed at the scope. -/
  | fence (c : Bool) (k : Nat)
  /-- `CBATCH`, R106: Closes the group's outstanding engine operations into a numbered batch. -/
  | cbatch (c : Bool) (s : Nat)
  /-- `WAITB`, R107: Waits until a batch and all earlier batches are complete. -/
  | waitb (c : Bool) (s : Nat)
  /-- `WAITB_PRED`, R107: Waits for a batch and writes whether it was clean to a predicate. -/
  | waitbPred (c : Bool) (p : Nat) (s : Nat)
  /-- `BRA`, R64: Divergent branch that masks a split slice and pushes a DEFER token. -/
  | bra (c : Bool) (p : Nat) (o : Tgt)
  /-- `BRA_U`, R63: Uniform branch that traps when the lanes disagree. -/
  | braU (c : Bool) (p : Nat) (o : Tgt)
  /-- `CALL`, R223: Writes the return packet to a link scalar and moves every slice to the target. -/
  | call (c : Bool) (d : Nat) (o : Tgt)
  /-- `RET`, R224: Moves every slice to the packet held in a scalar. -/
  | ret (c : Bool) (d : Nat)
  /-- `EXIT`, R69: Ends every slice of the issuing candidate. -/
  | exit (c : Bool)
  /-- `MARK`, R66: Pushes a MARK token with the current mask in each slice. -/
  | mark (c : Bool) (o : Tgt)
  /-- `JOIN`, R67: Ends the current side and unwinds the token stack. -/
  | join (c : Bool)
  /-- `BRK`, R68: Sends predicated lanes out to a MARK entry past n marks. -/
  | brk (c : Bool) (p : Nat) (n : Nat)
  /-- `REGANG`, R73: Waits until every live slice stands at the same regang and rejoins them into one candidate. -/
  | regang (c : Bool) (n : Nat)
  /-- `SGET_SCALAR`, R227: Reads a system register into a scalar or scalar pair. -/
  | sgetScalar (c : Bool) (r : Nat) (d : Nat)
  /-- `SGET_VECTOR`, R227: Reads a system register into a vector row, each lane its own value. -/
  | sgetVector (c : Bool) (r : Nat) (d : Nat)
  /-- `SPUT`, R228: Writes a writable system register from a scalar or pair. -/
  | sput (c : Bool) (r : Nat) (s : Nat)
  /-- `TRAP`, R232: Raises a trap to the system handler with a code from 0x20 to 0xFF. -/
  | trap (c : Bool) (n : Nat)
  /-- `TRAP_REGISTER_HANDLER`, R314: System service 0x20 that registers or unregisters a user handler for an eligible trap code. -/
  | trapRegisterHandler (c : Bool)
  /-- `TRAP_KILL_SERVICE`, R314: System service 0x21 that kills the team with an error record carrying s0. -/
  | trapKillService (c : Bool)
  /-- `RTE`, R233: Returns from a trap, restoring slice state and resuming at TRAPPC. -/
  | rte (c : Bool)
  /-- `INV`, R164: Runs the following routine repeatedly per lane to invert a monotone function inside a bracket. -/
  | inv (c : Bool) (i : Nat)
  /-- `VRED_ADD_F32`, R252: FP32 sum over the candidate's live active lanes in the fixed tree. -/
  | vredAddF32 (c : Bool) (d : Nat) (a : Nat) (s : Nat)
  /-- `VRED_ADD_N32`, R252: Integer sum over live active lanes. -/
  | vredAddN32 (c : Bool) (d : Nat) (a : Nat) (s : Nat)
  /-- `VRED_MIN_F32`, R252: FP32 minimum over live active lanes. -/
  | vredMinF32 (c : Bool) (d : Nat) (a : Nat) (s : Nat)
  /-- `VRED_MAX_F32`, R252: FP32 maximum over live active lanes. -/
  | vredMaxF32 (c : Bool) (d : Nat) (a : Nat) (s : Nat)
  /-- `VRED_MIN_S32`, R252: Signed minimum over live active lanes. -/
  | vredMinS32 (c : Bool) (d : Nat) (a : Nat) (s : Nat)
  /-- `VRED_MAX_S32`, R252: Signed maximum over live active lanes. -/
  | vredMaxS32 (c : Bool) (d : Nat) (a : Nat) (s : Nat)
  /-- `VRED_AND_B32`, R252: Bitwise AND over live active lanes. -/
  | vredAndB32 (c : Bool) (d : Nat) (a : Nat) (s : Nat)
  /-- `VRED_OR_B32`, R252: Bitwise OR over live active lanes. -/
  | vredOrB32 (c : Bool) (d : Nat) (a : Nat) (s : Nat)
  /-- `VRED_LM_F32`, R253: FP32 sum over valid-marked lanes, rescaled by lanes over valid count, with the count. -/
  | vredLmF32 (c : Bool) (d : Nat) (a : Nat) (s : Nat) (m : Nat)
  /-- `VRED_LM_BF16`, R253: Paired BF16 rescaled sum over valid-marked lanes, with the count. -/
  | vredLmBf16 (c : Bool) (d : Nat) (a : Nat) (s : Nat) (m : Nat)
  /-- `BUMP`, R155: Hands one pool chunk to each live active lane by one atomic on the pool descriptor. -/
  | bump (c : Bool) (p : Nat) (d : Nat) (s : Nat)
  /-- `APPEND_B32`, R158: Appends predicated lanes' 32-bit values to a chunked list at the gather engine. -/
  | appendB32 (c : Bool) (f : Nat) (p : Nat) (d : Nat) (s : Nat)
  /-- `APPEND_B64`, R158: Appends predicated lanes' 64-bit values to a chunked list. -/
  | appendB64 (c : Bool) (f : Nat) (p : Nat) (d : Nat) (s : Nat)
  /-- `ENQ`, R274: Submits a packet to a user queue after a module-scope release, waiting for room. -/
  | enq (c : Bool) (s : Nat)
  /-- `ENQ_PRED`, R274: Offers a packet to a user queue once and writes acceptance to a predicate. -/
  | enqPred (c : Bool) (p : Nat) (s : Nat)
  /-- `MNOP`, R281: Matrix-stream word with no effect. -/
  | mnop
  /-- `QMOV`, R278: Copies one stream scalar to another. -/
  | qmov (d : Nat) (a : Nat)
  /-- `QADD`, R278: Stream scalar addition modulo 2^32. -/
  | qadd (d : Nat) (a : Nat) (b : Nat)
  /-- `QSUB`, R278: Stream scalar subtraction modulo 2^32. -/
  | qsub (d : Nat) (a : Nat) (b : Nat)
  /-- `QMUL`, R278: Stream scalar low product. -/
  | qmul (d : Nat) (a : Nat) (b : Nat)
  /-- `QAND`, R278: Stream scalar bitwise AND. -/
  | qand (d : Nat) (a : Nat) (b : Nat)
  /-- `QOR`, R278: Stream scalar bitwise OR. -/
  | qor (d : Nat) (a : Nat) (b : Nat)
  /-- `QSHL`, R278: Stream scalar shift left. -/
  | qshl (d : Nat) (a : Nat) (b : Nat)
  /-- `QSHR`, R278: Stream scalar logical shift right. -/
  | qshr (d : Nat) (a : Nat) (b : Nat)
  /-- `QLI`, R279: Loads a zero-extended 16-bit immediate into a stream scalar. -/
  | qli (d : Nat) (i : Nat)
  /-- `QLIH`, R279: Loads a 16-bit immediate into the high half of a stream scalar. -/
  | qlih (d : Nat) (i : Nat)
  /-- `QRD`, R280: Reads one element of a team row into a stream scalar with its valid bit. -/
  | qrd (d : Nat) (w : Nat) (l : Nat)
  /-- `MWAIT`, R130: Stream waits without limit for a barrier phase, acquiring it. -/
  | mwait (n : Nat) (k : Nat)
  /-- `MARRIVE`, R282: Waits for the stream's earlier words to complete and then counts one arrival. -/
  | marrive (n : Nat)
  /-- `MLOOP`, R130: Decrements a stream scalar and branches while it is nonzero. -/
  | mloop (d : Nat) (o : Nat)
  /-- `MKEEP`, R132: Yields the next kept key block and its diagonal flag, or branches when exhausted. -/
  | mkeep (d : Nat) (o : Nat)
  /-- `MJMP`, R281: Unconditional stream branch. -/
  | mjmp (o : Nat)
  /-- `MEND`, R281: Ends the stream's fetch while issued long words complete. -/
  | mend
  /-- `MMA`, R124: Multiplies C-group operand rows and accumulates into a tile segment by segment. -/
  | mma (i : Nat)
  /-- `MZERO`, R127: Sets every element of a tile to +0 and valid. -/
  | mzero (t : Nat)
  /-- `MLOAD`, R285: Loads a tile from C-group rows, widening exactly. -/
  | mload (t : Nat) (v : Nat) (q : Nat) (n : Nat)
  /-- `MSTORE`, R129: Converts a tile into C-group rows, handling overflow by saturation, NaN or outlier list. -/
  | mstore (t : Nat) (v : Nat) (q : Nat) (n : Nat)
  /-- `MACQ`, R127: Waits for a free core tile and maps a tile name to it. -/
  | macq (t : Nat) (q : Nat)
  /-- `MREL`, R127: Unmaps a tile name and frees its core tile. -/
  | mrel (t : Nat)
  /-- `MMASK`, R131: Reads an attention-mask parameter block and resets the kept-block iterator. -/
  | mmask (q : Nat)
  /-- `CNOP`, R290: Carder word with no effect. -/
  | cnop
  /-- `CMOV`, R290: Copies a Carder register. -/
  | cmov (d : Nat) (a : Nat)
  /-- `CLI`, R290: Loads a sign-extended immediate into a Carder register. -/
  | cli (d : Nat) (i : Nat)
  /-- `CADD`, R290: 64-bit Carder addition. -/
  | cadd (d : Nat) (a : Nat) (b : Nat)
  /-- `CSUB`, R290: 64-bit Carder subtraction. -/
  | csub (d : Nat) (a : Nat) (b : Nat)
  /-- `CMUL`, R290: Low 64 bits of a Carder product. -/
  | cmul (d : Nat) (a : Nat) (b : Nat)
  /-- `CAND`, R290: Carder bitwise AND. -/
  | cand (d : Nat) (a : Nat) (b : Nat)
  /-- `COR`, R290: Carder bitwise OR. -/
  | cor (d : Nat) (a : Nat) (b : Nat)
  /-- `CADDI`, R290: Adds a sign-extended immediate to a Carder register. -/
  | caddi (d : Nat) (a : Nat) (i : Nat)
  /-- `CSHLI`, R290: Shifts a Carder register left by an immediate. -/
  | cshli (d : Nat) (a : Nat) (n : Nat)
  /-- `CSHRI`, R290: Shifts a Carder register right logically by an immediate. -/
  | cshri (d : Nat) (a : Nat) (n : Nat)
  /-- `CRD8`, R291: Starts a 1-byte memory read into a Carder register. -/
  | crd8 (d : Nat) (a : Nat) (i : Nat)
  /-- `CRD16`, R291: Starts a 2-byte memory read into a Carder register. -/
  | crd16 (d : Nat) (a : Nat) (i : Nat)
  /-- `CRD32`, R291: Starts a 4-byte memory read into a Carder register. -/
  | crd32 (d : Nat) (a : Nat) (i : Nat)
  /-- `CRD64`, R291: Starts an 8-byte memory read into a Carder register. -/
  | crd64 (d : Nat) (a : Nat) (i : Nat)
  /-- `CEMIT8`, R292: Emits 8 bits at a position of the walk's region. -/
  | cemit8 (a : Nat) (b : Nat)
  /-- `CEMIT16`, R292: Emits 16 bits at a position of the walk's region. -/
  | cemit16 (a : Nat) (b : Nat)
  /-- `CEMIT32`, R292: Emits 32 bits at a position of the walk's region, setting the element valid. -/
  | cemit32 (a : Nat) (b : Nat)
  /-- `CBEQ`, R290: Carder branch when two registers are equal. -/
  | cbeq (a : Nat) (b : Nat) (t : Nat)
  /-- `CBNE`, R290: Carder branch when two registers differ. -/
  | cbne (a : Nat) (b : Nat) (t : Nat)
  /-- `CBLT`, R290: Carder branch on unsigned less than. -/
  | cblt (a : Nat) (b : Nat) (t : Nat)
  /-- `CBGE`, R290: Carder branch on unsigned greater or equal. -/
  | cbge (a : Nat) (b : Nat) (t : Nat)
  /-- `CJMP`, R290: Unconditional Carder branch. -/
  | cjmp (t : Nat)
  /-- `CEND`, R152: Ends the walk, releasing its sectors, lock and writes to the team. -/
  | cend
  /-- `CARDER_READ_RETURN`, R291: A Carder read returns to its register, or its failure ends the walk. -/
  | carderReadReturn (walk : Nat) (rd : Nat)
  /-- `WALK_STEP_LIMIT`, R293: A walk that has executed STEPS words ends with CSTEP. -/
  | walkStepLimit (walk : Nat)
  /-- `POWER_ON`, R374: The module powers on with counters zero, ALARMPOL unlocked and the boot ROM waiting for BOOTGO. -/
  | powerOn
  /-- `CORE_START`, R376: A core reaches its staggered start time and becomes placeable. -/
  | coreStart (core : Nat)
  /-- `TEAM_PLACEMENT`, R306: A die distributor places the next team of a launch on a core that satisfies the placement conditions. -/
  | teamPlacement (die : Nat)
  /-- `STEAL_REQUEST`, R307: A distributor with a free core asks the next die for an untouched chunk of teams. -/
  | stealRequest (die : Nat)
  /-- `TEAM_RETIREMENT`, R27: A team whose groups have ended and operations completed frees its rows, tiles and stream and ages its swatches. -/
  | teamRetirement (team : Nat)
  /-- `TRAP_ENTRY`, R310: A raised trap stops the group's other candidates, saves slice state in the trap frame and starts the handler as one gang. -/
  | trapEntry (team : Nat) (group : Nat)
  /-- `TIMER_MATCH`, R33: TICK reaches a nonzero TCMP, disarming it and taking TRAP_TIMER when a user handler is registered. -/
  | timerMatch (team : Nat) (group : Nat)
  /-- `TWAIT_TIMEOUT`, R60: A twait that has waited 2,048 ACLK ends with its predicate false. -/
  | twaitTimeout (team : Nat) (group : Nat) (slice : Nat)
  /-- `SOFT_EVENT`, R364: A pending soft-error event is taken as TRAP_SOFT at the first boundary outside a handler. -/
  | softEvent (team : Nat) (group : Nat)
  /-- `TRAP_DEADLANE`, R362: A group with no live lane takes TRAP_DEADLANE and its team is killed. -/
  | trapDeadlane (team : Nat) (group : Nat)
  /-- `MIRROR_BUILD`, R366: A background copy of an allocated run into its mirror run, after which the run is covered. -/
  | mirrorBuild (core : Nat) (row : Nat)
  /-- `CODE_FETCH_RETURN`, R217: A fetched code packet returns, or its translation, permission or ECC failure traps the waiting word. -/
  | codeFetchReturn (team : Nat) (group : Nat) (slice : Nat)
  /-- `TRANSLATION_WALK`, R327: A TLB miss walks the partition's four-level tables and installs or fails the translation. -/
  | translationWalk (team : Nat) (group : Nat) (slice : Nat)
  /-- `PSEUDO_CHANNEL_READ`, R77: A read request is performed at its home pseudo-channel and its sector returned. -/
  | pseudoChannelRead (req : Nat) (piece : Nat)
  /-- `PSEUDO_CHANNEL_WRITE`, R385: A write request is applied at its home pseudo-channel, refused as partial on a poisoned sector. -/
  | pseudoChannelWrite (req : Nat) (piece : Nat)
  /-- `PSEUDO_CHANNEL_ATOMIC`, R100: An atomic request is applied at the home pseudo-channel, lanes in ascending order. -/
  | pseudoChannelAtomic (req : Nat) (piece : Nat)
  /-- `WRITE_ACKNOWLEDGE`, R79: The home pseudo-channel or far module acknowledges a write, letting waiting releases and fences complete. -/
  | writeAcknowledge (req : Nat) (piece : Nat)
  /-- `PREFETCH_ISSUE`, R146: A pseudo-channel's prefetcher reads a sector ahead into its buffer. -/
  | prefetchIssue (die : Nat) (sector : Nat)
  /-- `LOAD_SECTOR_LANDING`, R54: A load's sector lands in its destination, clearing pending rows and decrementing its flag. -/
  | loadSectorLanding (req : Nat) (piece : Nat)
  /-- `ATOMIC_REPLY_LANDING`, R264: An atomic or bump reply lands in its destination and the word completes. -/
  | atomicReplyLanding (req : Nat) (piece : Nat)
  /-- `COPY_SECTOR_LANDING`, R109: A copy sector lands, setting valid bits and taking one from the barrier's SECTORS. -/
  | copySectorLanding (op : Nat) (unit : Nat)
  /-- `COPY_SECTOR_FAULT`, R105: A copy sector fails translation, permission or ECC and is subtracted from SECTORS with the fault recorded. -/
  | copySectorFault (op : Nat) (unit : Nat)
  /-- `GATHER_ENGINE_REQUEST`, R137: A gather engine receives element requests, reads each distinct sector once and extracts elements or faults positions. -/
  | gatherEngineRequest (op : Nat) (sector : Nat)
  /-- `GATHER_REPLY_LANDING`, R138: A gather reply line lands in destination rows, the fault mask row following the last position. -/
  | gatherReplyLanding (op : Nat)
  /-- `SCATTER_POSITION_APPLY`, R141: A scatter position is stored or combined at its home pseudo-channel, or faulted. -/
  | scatterPositionApply (op : Nat) (pos : Nat)
  /-- `APPEND_APPLY`, R158: The gather engine applies one append request to its list, taking chunks as needed. -/
  | appendApply (req : Nat)
  /-- `BUMP_APPLY`, R155: The pool descriptor's NEXT is advanced and chunks assigned to the requesting lanes. -/
  | bumpApply (req : Nat)
  /-- `OUTLIER_LIST_REQUEST`, R199: A cvt outlier request takes k list slots together or none at the COUNT word's pseudo-channel. -/
  | outlierListRequest (req : Nat)
  /-- `OUTLIER_REPLY`, R199: The outlier reply returns, completing the cvt or raising TRAP_OLIST. -/
  | outlierReply (req : Nat)
  /-- `SWATCH_ACCESS_ARRIVAL`, R51: A swatch access reaches the home die, which checks generation, scope, rights, bounds, residence and lock. -/
  | swatchAccessArrival (req : Nat)
  /-- `SWATCH_LANDING`, R88: An admitted swatch write, atomic or reduction lands at the owner's rows and arrives on the export barrier. -/
  | swatchLanding (req : Nat)
  /-- `SWATCH_REPLY_LANDING`, R268: A swatch read or atomic's data, or a refusal code, returns to the accessor. -/
  | swatchReplyLanding (req : Nat)
  /-- `SWATCH_DELIVERY_ARRIVAL`, R113: The first piece of a copy.swatch delivery reaches the home die and the delivery is admitted or refused. -/
  | swatchDeliveryArrival (op : Nat) (dest : Nat)
  /-- `SWATCH_DELIVERY_LANDED`, R113: The last piece of an admitted delivery lands and one arrival counts on the owner's barrier. -/
  | swatchDeliveryLanded (op : Nat) (dest : Nat)
  /-- `MMA_SEGMENT`, R124: One K-segment of an mma is checked and applied to the tile, the last counting the completion arrival. -/
  | mmaSegment (op : Nat)
  /-- `TILE_WORD_COMPLETION`, R277: An mzero, mload or mstore completes on its tile path after 136 ACLK. -/
  | tileWordCompletion (op : Nat)
  /-- `MACQ_GRANT`, R127: A freed core tile is granted to a waiting macq. -/
  | macqGrant (team : Nat)
  /-- `MACQ_DEADLOCK_FAIL`, R128: When the core is deadlocked for tiles, the youngest waiting team's macq fails with 0. -/
  | macqDeadlockFail (core : Nat)
  /-- `ARRAY_POWER_GATE`, R377: An outer-product array idle for 4,096 ACLK is power-gated. -/
  | arrayPowerGate (core : Nat) (quad : Nat)
  /-- `PREEMPTION_STOP`, R317: A team is stopped, its long work settled or aborted, and its image written to a save slot. -/
  | preemptionStop (team : Nat)
  /-- `TEAM_RESTORE`, R324: A pre-empted team is placed again, its image written back and its operations resumed. -/
  | teamRestore (team : Nat)
  /-- `PENDING_SCAN`, R300: The scheduler scans the pending array and maps queues that have packets and can get a slot. -/
  | pendingScan (part : Nat) (queue : Nat)
  /-- `HEAD_POLL`, R300: A mapped slot reads its head packet header and consumes it when nonzero. -/
  | headPoll (slot : Nat)
  /-- `KERNEL`, R302: Launch packet: checks the descriptor and budgets and launches the grid. -/
  | kernel (slot : Nat)
  /-- `COND`, R302: Conditional packet: tests a memory word and skips packets by the result. -/
  | cond (slot : Nat)
  /-- `WAIT`, R302: Token wait packet: holds the queue until a token reaches its target. -/
  | wait (slot : Nat)
  /-- `TOKEN_WAIT_SATISFIED`, R95: A token reaches a waiting queue's target, releasing the queue with an acquire. -/
  | tokenWaitSatisfied (slot : Nat)
  /-- `SIGNAL`, R302: Signal packet: adds a value to a token atomically. -/
  | signal (slot : Nat)
  /-- `COMPACT`, R302: Compact packet: sets the next kernel's grid from a count word. -/
  | compact (slot : Nat)
  /-- `BARRIER`, R302: Barrier packet: completes as soon as it starts after earlier packets. -/
  | barrier (slot : Nat)
  /-- `SLICE_EXPIRY`, R304: A queue's time slice expires, unmapping it if a waiter of equal or lower class exists. -/
  | sliceExpiry (slot : Nat)
  /-- `ENQ_ROOM_RETRY`, R274: A waiting enq offers its packet again once the queue has room. -/
  | enqRoomRetry (team : Nat) (group : Nat) (slice : Nat)
  /-- `WATCHDOG_EXPIRY`, R371: A slot timer reaches the partition's TIMEOUT, starting a drain and reset. -/
  | watchdogExpiry (slot : Nat)
  /-- `RESET_COMPLETE`, R372: The drained partition's resources are freed, BUSY falls and RESETS rises. -/
  | resetComplete (part : Nat)
  /-- `WDCTL_RESET`, R357: A write of WDCTL.RESET starts the drain and reset of the partition. -/
  | wdctlReset (part : Nat) (value : Nat)
  /-- `HOST_ACCESS`, R337: A host memory request through BAR2 is performed under the key slot in B2CTL. -/
  | hostAccess (off : Nat) (len : Nat) (data : List Nat)
  /-- `HOST_ATOMICOP`, R296: A host PCIe AtomicOp into module memory is performed at the home pseudo-channel. -/
  | hostAtomicop (off : Nat) (op : HostAtomic) (x : Nat) (n : Nat) (wide : Bool)
  /-- `HOST_COMPLETION_ERROR`, R297: A host completion with an error or poison is settled as a poisoned reply or packet fault. -/
  | hostCompletionError (req : Nat) (piece : Nat)
  /-- `COMPLETION_TIMEOUT`, R297: A host access receives no completion within the PCIe timeout and is settled as a failure. -/
  | completionTimeout (req : Nat) (piece : Nat)
  /-- `PRIMARY_LINK_DOWN`, R295: The primary PCIe link goes down, leaving management unavailable while work runs on. -/
  | primaryLinkDown
  /-- `REGISTER_WRITE`, R8: A write to a register with no row of its own sets its RW fields and clears its W1C bits. -/
  | registerWrite (off : Nat) (size : Nat) (value : Nat)
  /-- `QCFG_WRITE`, R298: Sets a partition's slot limit and queue count unless limits are exceeded. -/
  | qcfgWrite (part : Nat) (value : Nat)
  /-- `PTROOT_WRITE`, R331: Sets the partition's table root while idle, removing its TLB translations. -/
  | ptrootWrite (part : Nat) (value : Nat)
  /-- `SHBASE_WRITE`, R331: Sets the partition's shadow region base while the partition is idle. -/
  | shbaseWrite (part : Nat) (value : Nat)
  /-- `SHSIZE_WRITE`, R331: Sets the partition's shadow region size while the partition is idle. -/
  | shsizeWrite (part : Nat) (value : Nat)
  /-- `TLBINV`, R330: Starts an invalidation of a virtual range in every TLB of the partition. -/
  | tlbinv (part : Nat) (value : Nat)
  /-- `TLBINV_COMPLETE`, R330: The invalidation ends and BUSY falls once old translations and their accesses are gone. -/
  | tlbinvComplete (part : Nat)
  /-- `CLUOWN_WRITE`, R333: Assigns a cluster to a partition unless teams are on it. -/
  | cluownWrite (cluster : Nat) (value : Nat)
  /-- `KSCTL_WRITE`, R335: Sets a key slot's enable and owner on every die. -/
  | ksctlWrite (slot : Nat) (value : Nat)
  /-- `KSKEY1_WRITE`, R335: Writes a key slot's data key while the slot is disabled. -/
  | kskey1Write (slot : Nat) (value : Nat)
  /-- `KSKEY2_WRITE`, R335: Writes a key slot's tweak key while the slot is disabled. -/
  | kskey2Write (slot : Nat) (value : Nat)
  /-- `BOOTGO`, R338: Starts the signature check of the firmware image. -/
  | bootgo (value : Nat)
  /-- `BOOT_CHECK_COMPLETE`, R338: The ROM finishes the SM2 check and starts the firmware or raises FWSIG. -/
  | bootCheckComplete
  /-- `ATTCMD_GO`, R339: Starts an attestation report over the nonce and module state. -/
  | attcmdGo (value : Nat)
  /-- `ATTESTATION_REPORT_WRITTEN`, R339: The signed report is written to ATTDEST and GO falls, or ERR is set. -/
  | attestationReportWritten (ok : Bool)
  /-- `ALARMPOL_WRITE`, R340: Sets alarm policies and optionally locks them until power-off. -/
  | alarmpolWrite (value : Nat)
  /-- `ALARMRAISE`, R334: A write raises alarm source SOFTWARE. -/
  | alarmraise (value : Nat)
  /-- `ALARM_EVENT`, R340: An alarm source raises an event, which is logged and acted on by its policy. -/
  | alarmEvent (source : Nat) (die : Nat) (part : Nat)
  /-- `MODID_WRITE`, R326: Sets this module's number unless a team is resident or pre-empted. -/
  | modidWrite (value : Nat)
  /-- `OPTLTO_WRITE`, R356: Sets a partition's class L end time, ignoring a zero value. -/
  | optltoWrite (part : Nat) (value : Nat)
  /-- `CLR`, R348: LNKCTL.CLR clears a link module's counters. -/
  | clr (die : Nat) (edge : Nat) (mod : Nat)
  /-- `WIDEN`, R346: LNKCTL.WIDEN retrains a link module at x64. -/
  | widen (die : Nat) (edge : Nat) (mod : Nat)
  /-- `LINK_OFF`, R347: LNKCTL.OFF takes a link module down and moves its channels. -/
  | linkOff (die : Nat) (edge : Nat) (mod : Nat) (value : Nat)
  /-- `FLIT_SEND`, R343: A free link module packs ready requests of one channel into a numbered data flit. -/
  | flitSend (die : Nat) (edge : Nat) (chan : Nat)
  /-- `DATA_FLIT_RECEIVE`, R345: A receiver accepts, discards as duplicate, NAKs or retrains on an arriving data flit. -/
  | dataFlitReceive (die : Nat) (edge : Nat) (mod : Nat) (crcOk : Bool)
  /-- `ACK_RECEIVE`, R344: An ACK frees held flits up to its sequence; with edge 4, at the die's optical port, `mod` is the ACK's sequence. -/
  | ackReceive (die : Nat) (edge : Nat) (mod : Nat) (crcOk : Bool)
  /-- `NAK_RECEIVE`, R344: A NAK frees earlier flits and resends from the expected sequence; with edge 4, at the die's optical port, `mod` is that sequence. -/
  | nakReceive (die : Nat) (edge : Nat) (mod : Nat) (crcOk : Bool)
  /-- `REPLAY_TIMEOUT`, R344: The oldest held flit waits ACKTO without acknowledgement and every held flit is resent; edge 4 is the die's optical port. -/
  | replayTimeout (die : Nat) (edge : Nat) (chan : Nat)
  /-- `ACK_DELAY_EXPIRY`, R345: 8 ns after an unacknowledged acceptance, the receiver sends an ACK; edge 4 is the die's optical port. -/
  | ackDelayExpiry (die : Nat) (edge : Nat) (chan : Nat)
  /-- `RETRAIN_COMPLETE`, R346: A retrain ends and senders replay from the receivers' expected sequences; with edge 4, at the die's optical port, `mod` counts the wavelengths left out if `laneFail`. -/
  | retrainComplete (die : Nat) (edge : Nat) (mod : Nat) (ok : Bool) (laneFail : Bool)
  /-- `EDGE_HOLD_EXPIRY`, R347: After 1 ms with no module up, held requests on the edge get poisoned replies. -/
  | edgeHoldExpiry (die : Nat) (edge : Nat)
  /-- `RTSWAP`, R350: Starts draining a partition's requests to switch its routing bank. -/
  | rtswap (die : Nat) (value : Nat)
  /-- `ROUTE_SWAP_COMPLETE`, R350: The drain ends, RTBANK flips and the partition's requests are admitted again. -/
  | routeSwapComplete (die : Nat)
  /-- `CLASS_S_BLOCK_RECEIVE`, R352: An optical class S block is received under the sequence and replay rules. -/
  | classSBlockReceive (port : Nat) (seq : Nat) (crcOk : Bool)
  /-- `OPTICAL_PORT_DOWN`, R351: An optical port goes down and its class S traffic moves to the next port for the module. -/
  | opticalPortDown (port : Nat)
  /-- `CLASS_L_BLOCK_ARRIVAL`, R354: A class L block arrives, admitting its delivery on the first block and landing its rows. -/
  | classLBlockArrival (port : Nat) (block : LBlock) (crcOk : Bool)
  /-- `CLASS_L_TIMEOUT`, R354: OPTLTO passes after admission and the class L delivery ends with zero fill and validity mask. -/
  | classLTimeout (delivery : Nat)
  /-- `POWER_THROTTLE`, R375: Firmware lowers or raises ACLK by 100 MHz as draw passes the cap. -/
  | powerThrottle (draw : Nat)
  /-- `DIE_TEMPERATURE`, R375: A die reaching 95 °C is slowed alone, and 110 °C raises TEMP. -/
  | dieTemperature (die : Nat) (temp : Nat)
  /-- `AGEING_MEASUREMENT`, R378: Firmware measures an empty cluster's path delays and sets MARGIN, INDEX or RETIRE. -/
  | ageingMeasurement (cluster : Nat) (margin : Nat) (index : Nat)
  /-- `TMSNAP_GO`, R380: Latches every telemetry counter of the die and sets FROZEN. -/
  | tmsnapGo (die : Nat) (value : Nat)
  /-- `FROZEN_WRITE`, R380: Writing FROZEN returns the die's telemetry reads to live values or keeps them latched. -/
  | frozenWrite (die : Nat) (value : Nat)
  /-- `PRIMARY_LINK_RETURN`, R295: The primary PCIe link comes back up and management through its physical function becomes available again. -/
  | primaryLinkReturn
  /-- `POWER_OFF`, R374: The module loses power, stopping everything on it and ending the lock on ALARMPOL. -/
  | powerOff
  /-- `PALETTE_SOFT_ERROR`, R365: A soft error corrupts bits of a Palette element, making it correctable or uncorrectable under its check bits. -/
  | paletteSoftError (core : Nat) (row : Nat) (lane : Nat) (fatal : Bool)
  /-- `HBM_UNCORRECTABLE_ERROR`, R385: An HBM sector suffers an error that its check bits cannot correct, so that it returns uncorrectable until it is written whole. -/
  | hbmUncorrectableError (sector : Nat)
  /-- `INV_ROUND`, R168: One round of a running inv in which each unfinished lane evaluates the routine once and narrows its bracket, the last round completing the instruction. -/
  | invRound (team : Nat) (group : Nat) (slice : Nat)
  /-- `FLUSHING_READ_COMPLETION`, R79: The host's completion of the flushing read behind posted writes arrives, letting a sys-scope release or fence complete. -/
  | flushingReadCompletion (req : Nat)
  /-- `OPTICAL_BLOCK_SEND`, R353: An optical port sends a class S or class L block by its class weights, class L sectors leaving the sender's barrier once handed over. -/
  | opticalBlockSend (port : Nat)
  deriving DecidableEq, Repr

/-- The matrix stream words by themselves, so that the step that runs one need not build an `Instr` (whose
later constructors lie beyond the tags that compiled code can make; `StreamOp.instr` is the instruction). -/
inductive StreamOp where
  | mnop
  | qmov (d : Nat) (a : Nat)
  | qadd (d : Nat) (a : Nat) (b : Nat)
  | qsub (d : Nat) (a : Nat) (b : Nat)
  | qmul (d : Nat) (a : Nat) (b : Nat)
  | qand (d : Nat) (a : Nat) (b : Nat)
  | qor (d : Nat) (a : Nat) (b : Nat)
  | qshl (d : Nat) (a : Nat) (b : Nat)
  | qshr (d : Nat) (a : Nat) (b : Nat)
  | qli (d : Nat) (i : Nat)
  | qlih (d : Nat) (i : Nat)
  | qrd (d : Nat) (w : Nat) (l : Nat)
  | mwait (n : Nat) (k : Nat)
  | marrive (n : Nat)
  | mloop (d : Nat) (o : Nat)
  | mkeep (d : Nat) (o : Nat)
  | mjmp (o : Nat)
  | mend
  | mma (i : Nat)
  | mzero (t : Nat)
  | mload (t : Nat) (v : Nat) (q : Nat) (n : Nat)
  | mstore (t : Nat) (v : Nat) (q : Nat) (n : Nat)
  | macq (t : Nat) (q : Nat)
  | mrel (t : Nat)
  | mmask (q : Nat)
  deriving DecidableEq, Repr

/-- The Carder words by themselves, so that the step that runs one need not build an `Instr` (whose
later constructors lie beyond the tags that compiled code can make; `CarderOp.instr` is the instruction). -/
inductive CarderOp where
  | cnop
  | cmov (d : Nat) (a : Nat)
  | cli (d : Nat) (i : Nat)
  | cadd (d : Nat) (a : Nat) (b : Nat)
  | csub (d : Nat) (a : Nat) (b : Nat)
  | cmul (d : Nat) (a : Nat) (b : Nat)
  | cand (d : Nat) (a : Nat) (b : Nat)
  | cor (d : Nat) (a : Nat) (b : Nat)
  | caddi (d : Nat) (a : Nat) (i : Nat)
  | cshli (d : Nat) (a : Nat) (n : Nat)
  | cshri (d : Nat) (a : Nat) (n : Nat)
  | crd8 (d : Nat) (a : Nat) (i : Nat)
  | crd16 (d : Nat) (a : Nat) (i : Nat)
  | crd32 (d : Nat) (a : Nat) (i : Nat)
  | crd64 (d : Nat) (a : Nat) (i : Nat)
  | cemit8 (a : Nat) (b : Nat)
  | cemit16 (a : Nat) (b : Nat)
  | cemit32 (a : Nat) (b : Nat)
  | cbeq (a : Nat) (b : Nat) (t : Nat)
  | cbne (a : Nat) (b : Nat) (t : Nat)
  | cblt (a : Nat) (b : Nat) (t : Nat)
  | cbge (a : Nat) (b : Nat) (t : Nat)
  | cjmp (t : Nat)
  | cend
  deriving DecidableEq, Repr

end Sys2Proof
end

