-- ==== Sys2Proof/WellFormed.lean ====
section
/-! DEFINITION. The well-formed words: every field within the width its encoding gives it, and no reserved
value in a defined field (R175, R176, R177, R183). A step that has no encoding is well-formed. -/

namespace Sys2Proof

/-- The field that stands in the word for an immediate: IMM, or the L bit (worth `lbit`) with IMM zero. -/
def Imm.field (i : Imm) (lbit : Nat) : Nat :=
  match i with
  | .short v => v
  | .lit _ => lbit

/-- The literal slot of an immediate, if it has one (R177). -/
def Imm.literal : Imm → List Nat
  | .short _ => []
  | .lit v => [v]

/-- IMM fits its field; a literal form carries no chain bit and its literal has 32 bits (R177). -/
def Imm.wf (i : Imm) (c : Bool) (lim : Nat) : Bool :=
  match i with
  | .short v => decide (v < lim)
  | .lit v => !c && decide (v < 4294967296)

/-- The OFF field of a target: its code, or the literal code `lcode` (R176). -/
def Tgt.field (o : Tgt) (lcode : Nat) : Nat :=
  match o with
  | .off v => v
  | .lit _ => lcode

/-- The literal slot of a target, if it has one (R177). -/
def Tgt.literal : Tgt → List Nat
  | .off _ => []
  | .lit v => [v]

/-- OFF fits its field, whose literal code is half its range, and is not that code; a literal form carries
no chain bit and its literal has 32 bits (R176, R177). -/
def Tgt.wf (o : Tgt) (c : Bool) (lcode : Nat) : Bool :=
  match o with
  | .off v => decide (v < 2 * lcode) && decide (v ≠ lcode)
  | .lit v => !c && decide (v < 4294967296)

/-- A scope code is 0 to 5, and 0 where no ordering is written (R175, R176). -/
def scopeOk (ord k : Nat) : Bool := decide (k < 6) && (decide (ord ≠ 0) || decide (k = 0))

/-- The extension literal of `cvt` carries no chain bit beside it and has 32 bits (R177). -/
def litOk (c : Bool) (x : Option Nat) : Bool :=
  match x with
  | none => true
  | some v => !c && decide (v < 4294967296)

/-- The positions a narrow element of a format code may have in its 32-bit element (R196). -/
def cvtPositions (code : Nat) : Nat :=
  if code = 1 ∨ code = 2 then 2
  else if code = 7 ∨ code = 8 ∨ code = 10 then 8
  else if 3 ≤ code ∧ code ≤ 9 then 4
  else 1

/-- Checks 1 and 2 of R245 on the fields of `cvt` (with R196 to R198): exactly one side is FP32, no
reserved value, and an extension whose OVF, POS and SE the narrow side allows. -/
def cvtOk (s t r : Nat) (x : Option Nat) : Bool :=
  let v := x.getD 0
  let n := if s = 0 then t else s
  let ovf := v / 64 % 4
  let pos := v / 256 % 8
  let se := v / 262144 % 2
  decide (s ≤ 12) && decide (t ≤ 12) && decide (r ≤ 4) && (decide (s = 0) != decide (t = 0))
    && decide (ovf ≠ 3) && decide (v % 64 = 0) && decide (v / 67108864 % 64 = 0)
    && !(decide (se = 1) && (decide (n ≤ 2) || decide (11 ≤ n))) && !(decide (se = 0) && decide (n = 8))
    && decide (pos < cvtPositions n)
    && !(decide (ovf = 2) && (decide (t = 0) || decide (11 ≤ t)))

/-- The well-formed instructions. -/
def Instr.wf : Instr → Bool
  | .clause w a b l y => decide (w < 4096) && decide (a < 16) && decide (b < 16) && decide (l < 32) && decide (y < 2)
  | .nop => true
  | .sMovB32 _ d b => decide (d < 1024) && decide (b < 1024)
  | .sAddN32 _ d b => decide (d < 1024) && decide (b < 1024)
  | .sSubN32 _ d b => decide (d < 1024) && decide (b < 1024)
  | .sMulN32 _ d b => decide (d < 1024) && decide (b < 1024)
  | .sMulhiN32 _ d b => decide (d < 1024) && decide (b < 1024)
  | .sMulhiS32 _ d b => decide (d < 1024) && decide (b < 1024)
  | .sAndB32 _ d b => decide (d < 1024) && decide (b < 1024)
  | .sOrB32 _ d b => decide (d < 1024) && decide (b < 1024)
  | .sXorB32 _ d b => decide (d < 1024) && decide (b < 1024)
  | .sNotB32 _ d b => decide (d < 1024) && decide (b < 1024)
  | .sShlB32 _ d b => decide (d < 1024) && decide (b < 1024)
  | .sShrN32 _ d b => decide (d < 1024) && decide (b < 1024)
  | .sShrS32 _ d b => decide (d < 1024) && decide (b < 1024)
  | .sMinN32 _ d b => decide (d < 1024) && decide (b < 1024)
  | .sMinS32 _ d b => decide (d < 1024) && decide (b < 1024)
  | .sMaxN32 _ d b => decide (d < 1024) && decide (b < 1024)
  | .sMaxS32 _ d b => decide (d < 1024) && decide (b < 1024)
  | .sMovB64 _ d b => decide (d < 1024) && decide (b < 1024)
  | .sAddN64 _ d b => decide (d < 1024) && decide (b < 1024)
  | .sSubN64 _ d b => decide (d < 1024) && decide (b < 1024)
  | .sMulN64 _ d b => decide (d < 1024) && decide (b < 1024)
  | .sAndB64 _ d b => decide (d < 1024) && decide (b < 1024)
  | .sOrB64 _ d b => decide (d < 1024) && decide (b < 1024)
  | .sXorB64 _ d b => decide (d < 1024) && decide (b < 1024)
  | .sShlB64 _ d b => decide (d < 1024) && decide (b < 1024)
  | .sShrN64 _ d b => decide (d < 1024) && decide (b < 1024)
  | .sShrS64 _ d b => decide (d < 1024) && decide (b < 1024)
  | .siMovB32 c d i => decide (d < 1024) && i.wf c 2048
  | .siAddN32 c d i => decide (d < 1024) && i.wf c 2048
  | .siMulN32 c d i => decide (d < 1024) && i.wf c 2048
  | .siAndB32 c d i => decide (d < 1024) && i.wf c 2048
  | .siOrB32 c d i => decide (d < 1024) && i.wf c 2048
  | .siXorB32 c d i => decide (d < 1024) && i.wf c 2048
  | .siShlB32 c d i => decide (d < 1024) && i.wf c 2048
  | .siShrN32 c d i => decide (d < 1024) && i.wf c 2048
  | .siShrS32 c d i => decide (d < 1024) && i.wf c 2048
  | .siMovB64 c d i => decide (d < 1024) && i.wf c 2048
  | .siAddN64 c d i => decide (d < 1024) && i.wf c 2048
  | .beq c a b o => decide (a < 1024) && decide (b < 128) && o.wf c 32
  | .bne c a b o => decide (a < 1024) && decide (b < 128) && o.wf c 32
  | .bltS32 c a b o => decide (a < 1024) && decide (b < 128) && o.wf c 32
  | .bgeS32 c a b o => decide (a < 1024) && decide (b < 128) && o.wf c 32
  | .bltN32 c a b o => decide (a < 1024) && decide (b < 128) && o.wf c 32
  | .bgeN32 c a b o => decide (a < 1024) && decide (b < 128) && o.wf c 32
  | .vAddN32 _ d a s b => decide (d < 128) && decide (a < 128) && decide (s < 2) && decide (b < 128)
  | .vSubN32 _ d a s b => decide (d < 128) && decide (a < 128) && decide (s < 2) && decide (b < 128)
  | .vMulN32 _ d a s b => decide (d < 128) && decide (a < 128) && decide (s < 2) && decide (b < 128)
  | .vMulhiN32 _ d a s b => decide (d < 128) && decide (a < 128) && decide (s < 2) && decide (b < 128)
  | .vMulhiS32 _ d a s b => decide (d < 128) && decide (a < 128) && decide (s < 2) && decide (b < 128)
  | .vAndB32 _ d a s b => decide (d < 128) && decide (a < 128) && decide (s < 2) && decide (b < 128)
  | .vOrB32 _ d a s b => decide (d < 128) && decide (a < 128) && decide (s < 2) && decide (b < 128)
  | .vXorB32 _ d a s b => decide (d < 128) && decide (a < 128) && decide (s < 2) && decide (b < 128)
  | .vShlB32 _ d a s b => decide (d < 128) && decide (a < 128) && decide (s < 2) && decide (b < 128)
  | .vShrN32 _ d a s b => decide (d < 128) && decide (a < 128) && decide (s < 2) && decide (b < 128)
  | .vShrS32 _ d a s b => decide (d < 128) && decide (a < 128) && decide (s < 2) && decide (b < 128)
  | .vMinN32 _ d a s b => decide (d < 128) && decide (a < 128) && decide (s < 2) && decide (b < 128)
  | .vMinS32 _ d a s b => decide (d < 128) && decide (a < 128) && decide (s < 2) && decide (b < 128)
  | .vMaxN32 _ d a s b => decide (d < 128) && decide (a < 128) && decide (s < 2) && decide (b < 128)
  | .vMaxS32 _ d a s b => decide (d < 128) && decide (a < 128) && decide (s < 2) && decide (b < 128)
  | .vAddsatS32 _ d a s b => decide (d < 128) && decide (a < 128) && decide (s < 2) && decide (b < 128)
  | .viAddN32 c d a i => decide (d < 128) && decide (a < 128) && i.wf c 128
  | .viSubN32 c d a i => decide (d < 128) && decide (a < 128) && i.wf c 128
  | .viMulN32 c d a i => decide (d < 128) && decide (a < 128) && i.wf c 128
  | .viMulhiN32 c d a i => decide (d < 128) && decide (a < 128) && i.wf c 128
  | .viMulhiS32 c d a i => decide (d < 128) && decide (a < 128) && i.wf c 128
  | .viAndB32 c d a i => decide (d < 128) && decide (a < 128) && i.wf c 128
  | .viOrB32 c d a i => decide (d < 128) && decide (a < 128) && i.wf c 128
  | .viXorB32 c d a i => decide (d < 128) && decide (a < 128) && i.wf c 128
  | .viShlB32 c d a i => decide (d < 128) && decide (a < 128) && i.wf c 128
  | .viShrN32 c d a i => decide (d < 128) && decide (a < 128) && i.wf c 128
  | .viShrS32 c d a i => decide (d < 128) && decide (a < 128) && i.wf c 128
  | .viMinN32 c d a i => decide (d < 128) && decide (a < 128) && i.wf c 128
  | .viMinS32 c d a i => decide (d < 128) && decide (a < 128) && i.wf c 128
  | .viMaxN32 c d a i => decide (d < 128) && decide (a < 128) && i.wf c 128
  | .viMaxS32 c d a i => decide (d < 128) && decide (a < 128) && i.wf c 128
  | .faddF32 _ d a s b => decide (d < 128) && decide (a < 128) && decide (s < 2) && decide (b < 128)
  | .fsubF32 _ d a s b => decide (d < 128) && decide (a < 128) && decide (s < 2) && decide (b < 128)
  | .fmulF32 _ d a s b => decide (d < 128) && decide (a < 128) && decide (s < 2) && decide (b < 128)
  | .fminF32 _ d a s b => decide (d < 128) && decide (a < 128) && decide (s < 2) && decide (b < 128)
  | .fmaxF32 _ d a s b => decide (d < 128) && decide (a < 128) && decide (s < 2) && decide (b < 128)
  | .fabsF32 _ d a => decide (d < 128) && decide (a < 128)
  | .fnegF32 _ d a => decide (d < 128) && decide (a < 128)
  | .fcpsgnF32 _ d a s b => decide (d < 128) && decide (a < 128) && decide (s < 2) && decide (b < 128)
  | .fmaF32 _ d a s b => decide (d < 128) && decide (a < 128) && decide (s < 2) && decide (b < 128)
  | .fnmaF32 _ d a s b => decide (d < 128) && decide (a < 128) && decide (s < 2) && decide (b < 128)
  | .faddF16 _ d a s b => decide (d < 128) && decide (a < 128) && decide (s < 2) && decide (b < 128)
  | .fsubF16 _ d a s b => decide (d < 128) && decide (a < 128) && decide (s < 2) && decide (b < 128)
  | .fmulF16 _ d a s b => decide (d < 128) && decide (a < 128) && decide (s < 2) && decide (b < 128)
  | .fmaF16 _ d a s b => decide (d < 128) && decide (a < 128) && decide (s < 2) && decide (b < 128)
  | .faddBf16 _ d a s b => decide (d < 128) && decide (a < 128) && decide (s < 2) && decide (b < 128)
  | .fsubBf16 _ d a s b => decide (d < 128) && decide (a < 128) && decide (s < 2) && decide (b < 128)
  | .fmulBf16 _ d a s b => decide (d < 128) && decide (a < 128) && decide (s < 2) && decide (b < 128)
  | .fmaBf16 _ d a s b => decide (d < 128) && decide (a < 128) && decide (s < 2) && decide (b < 128)
  | .fminF16 _ d a s b => decide (d < 128) && decide (a < 128) && decide (s < 2) && decide (b < 128)
  | .fmaxF16 _ d a s b => decide (d < 128) && decide (a < 128) && decide (s < 2) && decide (b < 128)
  | .fminBf16 _ d a s b => decide (d < 128) && decide (a < 128) && decide (s < 2) && decide (b < 128)
  | .fmaxBf16 _ d a s b => decide (d < 128) && decide (a < 128) && decide (s < 2) && decide (b < 128)
  | .vcmpEq _ t p a s b => decide (t < 4) && decide (p < 8) && decide (a < 128) && decide (s < 2) && decide (b < 128) && decide (t ≠ 3) && decide (p ≠ 7)
  | .vcmpNe _ t p a s b => decide (t < 4) && decide (p < 8) && decide (a < 128) && decide (s < 2) && decide (b < 128) && decide (t ≠ 3) && decide (p ≠ 7)
  | .vcmpLt _ t p a s b => decide (t < 4) && decide (p < 8) && decide (a < 128) && decide (s < 2) && decide (b < 128) && decide (t ≠ 3) && decide (p ≠ 7)
  | .vcmpLe _ t p a s b => decide (t < 4) && decide (p < 8) && decide (a < 128) && decide (s < 2) && decide (b < 128) && decide (t ≠ 3) && decide (p ≠ 7)
  | .vcmpGt _ t p a s b => decide (t < 4) && decide (p < 8) && decide (a < 128) && decide (s < 2) && decide (b < 128) && decide (t ≠ 3) && decide (p ≠ 7)
  | .vcmpGe _ t p a s b => decide (t < 4) && decide (p < 8) && decide (a < 128) && decide (s < 2) && decide (b < 128) && decide (t ≠ 3) && decide (p ≠ 7)
  | .pand _ d a b => decide (d < 8) && decide (a < 8) && decide (b < 8) && decide (d ≠ 7)
  | .por _ d a b => decide (d < 8) && decide (a < 8) && decide (b < 8) && decide (d ≠ 7)
  | .pxor _ d a b => decide (d < 8) && decide (a < 8) && decide (b < 8) && decide (d ≠ 7)
  | .pnot _ d a => decide (d < 8) && decide (a < 8) && decide (d ≠ 7)
  | .cvt c s t r x d a => decide (s < 16) && decide (t < 16) && decide (r < 8) && litOk c x && decide (d < 128) && decide (a < 128) && cvtOk s t r x
  | .rcpF32 _ d a => decide (d < 128) && decide (a < 128)
  | .rsqrtF32 _ d a => decide (d < 128) && decide (a < 128)
  | .sqrtF32 _ d a => decide (d < 128) && decide (a < 128)
  | .exp2F32 _ d a => decide (d < 128) && decide (a < 128)
  | .log2F32 _ d a => decide (d < 128) && decide (a < 128)
  | .sinpiF32 _ d a => decide (d < 128) && decide (a < 128)
  | .cospiF32 _ d a => decide (d < 128) && decide (a < 128)
  | .tanhF32 _ d a => decide (d < 128) && decide (a < 128)
  | .sigmF32 _ d a => decide (d < 128) && decide (a < 128)
  | .erfF32 _ d a => decide (d < 128) && decide (a < 128)
  | .vgetB32 _ d i w j => decide (d < 128) && decide (i < 128) && decide (w < 2) && decide (j < 128)
  | .vputB32 _ d i w j => decide (d < 128) && decide (i < 128) && decide (w < 2) && decide (j < 128)
  | .xreadB32 _ d i w j => decide (d < 128) && decide (i < 128) && decide (w < 2) && decide (j < 128)
  | .xwriteB32 _ d i w j => decide (d < 128) && decide (i < 128) && decide (w < 2) && decide (j < 128)
  | .shflIdxB32 _ d i j => decide (d < 128) && decide (i < 128) && decide (j < 128)
  | .shflUpB32 _ d i j => decide (d < 128) && decide (i < 128) && decide (j < 32)
  | .shflDownB32 _ d i j => decide (d < 128) && decide (i < 128) && decide (j < 32)
  | .shflXorB32 _ d i j => decide (d < 128) && decide (i < 128) && decide (j < 32)
  | .ballotB32 _ d a => decide (d < 128) && decide (a < 8)
  | .voteAny _ d a => decide (d < 8) && decide (a < 8) && decide (d ≠ 7)
  | .voteAll _ d a => decide (d < 8) && decide (a < 8) && decide (d ≠ 7)
  | .pmovB32 _ d a => decide (d < 128) && decide (a < 8)
  | .ptestB32 _ d i => decide (d < 8) && decide (i < 128) && decide (d ≠ 7)
  | .ldB8 _ f d i s => decide (f < 4) && decide (d < 128) && decide (i < 128) && decide (s < 64)
  | .ldB16 _ f d i s => decide (f < 4) && decide (d < 128) && decide (i < 128) && decide (s < 64)
  | .ldB32 _ f d i s => decide (f < 4) && decide (d < 128) && decide (i < 128) && decide (s < 64)
  | .ldB8Fa _ f d i s => decide (f < 4) && decide (d < 128) && decide (i < 128) && decide (s < 64)
  | .ldB16Fa _ f d i s => decide (f < 4) && decide (d < 128) && decide (i < 128) && decide (s < 64)
  | .ldB32Fa _ f d i s => decide (f < 4) && decide (d < 128) && decide (i < 128) && decide (s < 64)
  | .ldB8Fb _ f d i s => decide (f < 4) && decide (d < 128) && decide (i < 128) && decide (s < 64)
  | .ldB16Fb _ f d i s => decide (f < 4) && decide (d < 128) && decide (i < 128) && decide (s < 64)
  | .ldB32Fb _ f d i s => decide (f < 4) && decide (d < 128) && decide (i < 128) && decide (s < 64)
  | .stB8 _ f d i s => decide (f < 4) && decide (d < 128) && decide (i < 128) && decide (s < 64)
  | .stB16 _ f d i s => decide (f < 4) && decide (d < 128) && decide (i < 128) && decide (s < 64)
  | .stB32 _ f d i s => decide (f < 4) && decide (d < 128) && decide (i < 128) && decide (s < 64)
  | .ldScalarAddress _ z f e o k d s => decide (z < 4) && decide (f < 4) && decide (e < 2) && decide (o < 2) && decide (k < 8) && decide (d < 128) && decide (s < 64) && decide (f ≠ 3) && scopeOk o k
  | .stScalarAddress _ z e o k d s => decide (z < 4) && decide (e < 2) && decide (o < 2) && decide (k < 8) && decide (d < 128) && decide (s < 64) && scopeOk o k
  | .atomAddN32 _ o k f d u a => decide (o < 4) && decide (k < 8) && decide (f < 4) && decide (d < 128) && decide (u < 2) && decide (a < 128) && decide (f ≠ 3) && scopeOk o k
  | .atomAddN64 _ o k f d u a => decide (o < 4) && decide (k < 8) && decide (f < 4) && decide (d < 128) && decide (u < 2) && decide (a < 128) && decide (f ≠ 3) && scopeOk o k
  | .atomAddF32 _ o k f d u a => decide (o < 4) && decide (k < 8) && decide (f < 4) && decide (d < 128) && decide (u < 2) && decide (a < 128) && decide (f ≠ 3) && scopeOk o k
  | .atomMinS32 _ o k f d u a => decide (o < 4) && decide (k < 8) && decide (f < 4) && decide (d < 128) && decide (u < 2) && decide (a < 128) && decide (f ≠ 3) && scopeOk o k
  | .atomMinN32 _ o k f d u a => decide (o < 4) && decide (k < 8) && decide (f < 4) && decide (d < 128) && decide (u < 2) && decide (a < 128) && decide (f ≠ 3) && scopeOk o k
  | .atomMaxS32 _ o k f d u a => decide (o < 4) && decide (k < 8) && decide (f < 4) && decide (d < 128) && decide (u < 2) && decide (a < 128) && decide (f ≠ 3) && scopeOk o k
  | .atomMaxN32 _ o k f d u a => decide (o < 4) && decide (k < 8) && decide (f < 4) && decide (d < 128) && decide (u < 2) && decide (a < 128) && decide (f ≠ 3) && scopeOk o k
  | .atomAndB32 _ o k f d u a => decide (o < 4) && decide (k < 8) && decide (f < 4) && decide (d < 128) && decide (u < 2) && decide (a < 128) && decide (f ≠ 3) && scopeOk o k
  | .atomOrB32 _ o k f d u a => decide (o < 4) && decide (k < 8) && decide (f < 4) && decide (d < 128) && decide (u < 2) && decide (a < 128) && decide (f ≠ 3) && scopeOk o k
  | .atomXorB32 _ o k f d u a => decide (o < 4) && decide (k < 8) && decide (f < 4) && decide (d < 128) && decide (u < 2) && decide (a < 128) && decide (f ≠ 3) && scopeOk o k
  | .atomXchgB32 _ o k f d u a => decide (o < 4) && decide (k < 8) && decide (f < 4) && decide (d < 128) && decide (u < 2) && decide (a < 128) && decide (f ≠ 3) && scopeOk o k
  | .atomCasB32 _ o k f d u a => decide (o < 4) && decide (k < 8) && decide (f < 4) && decide (d < 128) && decide (u < 2) && decide (a < 128) && decide (f ≠ 3) && scopeOk o k
  | .atomXchgB64 _ o k f d u a => decide (o < 4) && decide (k < 8) && decide (f < 4) && decide (d < 128) && decide (u < 2) && decide (a < 128) && decide (f ≠ 3) && scopeOk o k
  | .atomCasB64 _ o k f d u a => decide (o < 4) && decide (k < 8) && decide (f < 4) && decide (d < 128) && decide (u < 2) && decide (a < 128) && decide (f ≠ 3) && scopeOk o k
  | .swldB32 _ f d h => decide (f < 4) && decide (d < 128) && decide (h < 128) && decide (f ≠ 3)
  | .swstB32 _ d h n => decide (d < 128) && decide (h < 128) && decide (n < 64)
  | .swatomAddN32 _ f d h n => decide (f < 4) && decide (d < 128) && decide (h < 128) && decide (n < 64) && decide (f ≠ 3)
  | .swatomCasB32 _ f d h n => decide (f < 4) && decide (d < 128) && decide (h < 128) && decide (n < 64) && decide (f ≠ 3)
  | .swredAddN32 _ d h n => decide (d < 128) && decide (h < 128) && decide (n < 64)
  | .swredOrB32 _ d h n => decide (d < 128) && decide (h < 128) && decide (n < 64)
  | .swldB32Far _ f d h => decide (f < 4) && decide (d < 128) && decide (h < 128) && decide (f ≠ 3)
  | .swstB32Far _ d h n => decide (d < 128) && decide (h < 128) && decide (n < 64)
  | .swatomAddN32Far _ f d h n => decide (f < 4) && decide (d < 128) && decide (h < 128) && decide (n < 64) && decide (f ≠ 3)
  | .swatomCasB32Far _ f d h n => decide (f < 4) && decide (d < 128) && decide (h < 128) && decide (n < 64) && decide (f ≠ 3)
  | .swredAddN32Far _ d h n => decide (d < 128) && decide (h < 128) && decide (n < 64)
  | .swredOrB32Far _ d h n => decide (d < 128) && decide (h < 128) && decide (n < 64)
  | .exportSwatch _ i => decide (i < 4096)
  | .copyRows _ w d s n => decide (w < 2) && decide (d < 128) && decide (s < 128) && decide (n < 64)
  | .copyCol _ d s n => decide (d < 128) && decide (s < 128) && decide (n < 64)
  | .copyRowsX24 _ w d s n => decide (w < 2) && decide (d < 128) && decide (s < 128) && decide (n < 64)
  | .copySwatch _ w d s n => decide (w < 2) && decide (d < 128) && decide (s < 128) && decide (n < 64)
  | .copyOutTeam _ w d s n => decide (w < 2) && decide (d < 128) && decide (s < 128) && decide (n < 64)
  | .copyOutClu _ w d s n => decide (w < 2) && decide (d < 128) && decide (s < 128) && decide (n < 64)
  | .copyOutDie _ w d s n => decide (w < 2) && decide (d < 128) && decide (s < 128) && decide (n < 64)
  | .copyOutMod _ w d s n => decide (w < 2) && decide (d < 128) && decide (s < 128) && decide (n < 64)
  | .copyOutSys _ w d s n => decide (w < 2) && decide (d < 128) && decide (s < 128) && decide (n < 64)
  | .copyOutC24Team _ w d s n => decide (w < 2) && decide (d < 128) && decide (s < 128) && decide (n < 64)
  | .copyOutC24Clu _ w d s n => decide (w < 2) && decide (d < 128) && decide (s < 128) && decide (n < 64)
  | .copyOutC24Die _ w d s n => decide (w < 2) && decide (d < 128) && decide (s < 128) && decide (n < 64)
  | .copyOutC24Mod _ w d s n => decide (w < 2) && decide (d < 128) && decide (s < 128) && decide (n < 64)
  | .copyOutC24Sys _ w d s n => decide (w < 2) && decide (d < 128) && decide (s < 128) && decide (n < 64)
  | .walk _ w d s n => decide (w < 2) && decide (d < 128) && decide (s < 128) && decide (n < 64)
  | .gather _ i => decide (i < 4096)
  | .scatter _ i => decide (i < 4096)
  | .shbind _ i => decide (i < 4096)
  | .shbindOff _ i => decide (i < 4096)
  | .arrive _ n => decide (n < 64)
  | .binit _ n s => decide (n < 64) && decide (s < 1024)
  | .bread _ n s => decide (n < 64) && decide (s < 1024)
  | .twait _ p n s => decide (p < 8) && decide (n < 64) && decide (s < 1024) && decide (p ≠ 7)
  | .swap _ n => decide (n < 64)
  | .fence _ k => decide (k < 8) && decide (k < 6)
  | .cbatch _ s => decide (s < 1024)
  | .waitb _ s => decide (s < 1024)
  | .waitbPred _ p s => decide (p < 8) && decide (s < 1024) && decide (p ≠ 7)
  | .bra c p o => decide (p < 8) && o.wf c 8192
  | .braU c p o => decide (p < 8) && o.wf c 8192
  | .call c d o => decide (d < 1024) && o.wf c 2048
  | .ret _ d => decide (d < 1024)
  | .exit _ => true
  | .mark c o => o.wf c 8192
  | .join _ => true
  | .brk _ p n => decide (p < 8) && decide (n < 16)
  | .regang _ n => decide (n < 16)
  | .sgetScalar _ r d => decide (r < 32) && decide (d < 1024) && decide (r < 14) && decide (r ≠ 0)
  | .sgetVector _ r d => decide (r < 32) && decide (d < 128) && decide (r < 14)
  | .sput _ r s => decide (r < 32) && decide (s < 1024) && decide (r < 14)
  | .trap _ n => decide (n < 256) && decide (0x22 ≤ n)
  | .trapRegisterHandler _ => true
  | .trapKillService _ => true
  | .rte _ => true
  | .inv _ i => decide (i < 4096)
  | .vredAddF32 _ d a s => decide (d < 128) && decide (a < 128) && decide (s < 2)
  | .vredAddN32 _ d a s => decide (d < 128) && decide (a < 128) && decide (s < 2)
  | .vredMinF32 _ d a s => decide (d < 128) && decide (a < 128) && decide (s < 2)
  | .vredMaxF32 _ d a s => decide (d < 128) && decide (a < 128) && decide (s < 2)
  | .vredMinS32 _ d a s => decide (d < 128) && decide (a < 128) && decide (s < 2)
  | .vredMaxS32 _ d a s => decide (d < 128) && decide (a < 128) && decide (s < 2)
  | .vredAndB32 _ d a s => decide (d < 128) && decide (a < 128) && decide (s < 2)
  | .vredOrB32 _ d a s => decide (d < 128) && decide (a < 128) && decide (s < 2)
  | .vredLmF32 _ d a s m => decide (d < 128) && decide (a < 128) && decide (s < 2) && decide (m < 128)
  | .vredLmBf16 _ d a s m => decide (d < 128) && decide (a < 128) && decide (s < 2) && decide (m < 128)
  | .bump _ p d s => decide (p < 8) && decide (d < 128) && decide (s < 128) && decide (p ≠ 7)
  | .appendB32 _ f p d s => decide (f < 4) && decide (p < 8) && decide (d < 128) && decide (s < 128) && decide (f ≠ 3)
  | .appendB64 _ f p d s => decide (f < 4) && decide (p < 8) && decide (d < 128) && decide (s < 128) && decide (f ≠ 3)
  | .enq _ s => decide (s < 128)
  | .enqPred _ p s => decide (p < 8) && decide (s < 128) && decide (p ≠ 7)
  | .mnop => true
  | .qmov d a => decide (d < 64) && decide (a < 64)
  | .qadd d a b => decide (d < 64) && decide (a < 64) && decide (b < 64)
  | .qsub d a b => decide (d < 64) && decide (a < 64) && decide (b < 64)
  | .qmul d a b => decide (d < 64) && decide (a < 64) && decide (b < 64)
  | .qand d a b => decide (d < 64) && decide (a < 64) && decide (b < 64)
  | .qor d a b => decide (d < 64) && decide (a < 64) && decide (b < 64)
  | .qshl d a b => decide (d < 64) && decide (a < 64) && decide (b < 64)
  | .qshr d a b => decide (d < 64) && decide (a < 64) && decide (b < 64)
  | .qli d i => decide (d < 64) && decide (i < 65536)
  | .qlih d i => decide (d < 64) && decide (i < 65536)
  | .qrd d w l => decide (d < 64) && decide (w < 256) && decide (l < 32)
  | .mwait n k => decide (n < 64) && decide (k < 64)
  | .marrive n => decide (n < 64)
  | .mloop d o => decide (d < 64) && decide (o < 65536)
  | .mkeep d o => decide (d < 64) && decide (o < 65536)
  | .mjmp o => decide (o < 65536)
  | .mend => true
  | .mma i => decide (i < 4096)
  | .mzero t => decide (t < 8)
  | .mload t v q n => decide (t < 8) && decide (v < 128) && decide (q < 64) && decide (n < 64)
  | .mstore t v q n => decide (t < 8) && decide (v < 128) && decide (q < 64) && decide (n < 64)
  | .macq t q => decide (t < 8) && decide (q < 64)
  | .mrel t => decide (t < 8)
  | .mmask q => decide (q < 64)
  | .cnop => true
  | .cmov d a => decide (d < 16) && decide (a < 16)
  | .cli d i => decide (d < 16) && decide (i < 32768)
  | .cadd d a b => decide (d < 16) && decide (a < 16) && decide (b < 16)
  | .csub d a b => decide (d < 16) && decide (a < 16) && decide (b < 16)
  | .cmul d a b => decide (d < 16) && decide (a < 16) && decide (b < 16)
  | .cand d a b => decide (d < 16) && decide (a < 16) && decide (b < 16)
  | .cor d a b => decide (d < 16) && decide (a < 16) && decide (b < 16)
  | .caddi d a i => decide (d < 16) && decide (a < 16) && decide (i < 32768)
  | .cshli d a n => decide (d < 16) && decide (a < 16) && decide (n < 64)
  | .cshri d a n => decide (d < 16) && decide (a < 16) && decide (n < 64)
  | .crd8 d a i => decide (d < 16) && decide (a < 16) && decide (i < 32768)
  | .crd16 d a i => decide (d < 16) && decide (a < 16) && decide (i < 32768)
  | .crd32 d a i => decide (d < 16) && decide (a < 16) && decide (i < 32768)
  | .crd64 d a i => decide (d < 16) && decide (a < 16) && decide (i < 32768)
  | .cemit8 a b => decide (a < 16) && decide (b < 16)
  | .cemit16 a b => decide (a < 16) && decide (b < 16)
  | .cemit32 a b => decide (a < 16) && decide (b < 16)
  | .cbeq a b t => decide (a < 16) && decide (b < 16) && decide (t < 256)
  | .cbne a b t => decide (a < 16) && decide (b < 16) && decide (t < 256)
  | .cblt a b t => decide (a < 16) && decide (b < 16) && decide (t < 256)
  | .cbge a b t => decide (a < 16) && decide (b < 16) && decide (t < 256)
  | .cjmp t => decide (t < 256)
  | .cend => true
  | .carderReadReturn _ _ => true
  | .walkStepLimit _ => true
  | .powerOn => true
  | .coreStart _ => true
  | .teamPlacement _ => true
  | .stealRequest _ => true
  | .teamRetirement _ => true
  | .trapEntry _ _ => true
  | .timerMatch _ _ => true
  | .twaitTimeout _ _ _ => true
  | .softEvent _ _ => true
  | .trapDeadlane _ _ => true
  | .mirrorBuild _ _ => true
  | .codeFetchReturn _ _ _ => true
  | .translationWalk _ _ _ => true
  | .pseudoChannelRead _ _ => true
  | .pseudoChannelWrite _ _ => true
  | .pseudoChannelAtomic _ _ => true
  | .writeAcknowledge _ _ => true
  | .prefetchIssue _ _ => true
  | .loadSectorLanding _ _ => true
  | .atomicReplyLanding _ _ => true
  | .copySectorLanding _ _ => true
  | .copySectorFault _ _ => true
  | .gatherEngineRequest _ _ => true
  | .gatherReplyLanding _ => true
  | .scatterPositionApply _ _ => true
  | .appendApply _ => true
  | .bumpApply _ => true
  | .outlierListRequest _ => true
  | .outlierReply _ => true
  | .swatchAccessArrival _ => true
  | .swatchLanding _ => true
  | .swatchReplyLanding _ => true
  | .swatchDeliveryArrival _ _ => true
  | .swatchDeliveryLanded _ _ => true
  | .mmaSegment _ => true
  | .tileWordCompletion _ => true
  | .macqGrant _ => true
  | .macqDeadlockFail _ => true
  | .arrayPowerGate _ _ => true
  | .preemptionStop _ => true
  | .teamRestore _ => true
  | .pendingScan _ _ => true
  | .headPoll _ => true
  | .kernel _ => true
  | .cond _ => true
  | .wait _ => true
  | .tokenWaitSatisfied _ => true
  | .signal _ => true
  | .compact _ => true
  | .barrier _ => true
  | .sliceExpiry _ => true
  | .enqRoomRetry _ _ _ => true
  | .watchdogExpiry _ => true
  | .resetComplete _ => true
  | .wdctlReset _ _ => true
  | .hostAccess _ _ _ => true
  | .hostAtomicop _ _ _ _ _ => true
  | .hostCompletionError _ _ => true
  | .completionTimeout _ _ => true
  | .primaryLinkDown => true
  | .registerWrite _ _ _ => true
  | .qcfgWrite _ _ => true
  | .ptrootWrite _ _ => true
  | .shbaseWrite _ _ => true
  | .shsizeWrite _ _ => true
  | .tlbinv _ _ => true
  | .tlbinvComplete _ => true
  | .cluownWrite _ _ => true
  | .ksctlWrite _ _ => true
  | .kskey1Write _ _ => true
  | .kskey2Write _ _ => true
  | .bootgo _ => true
  | .bootCheckComplete => true
  | .attcmdGo _ => true
  | .attestationReportWritten _ => true
  | .alarmpolWrite _ => true
  | .alarmraise _ => true
  | .alarmEvent _ _ _ => true
  | .modidWrite _ => true
  | .optltoWrite _ _ => true
  | .clr _ _ _ => true
  | .widen _ _ _ => true
  | .linkOff _ _ _ _ => true
  | .flitSend _ _ _ => true
  | .dataFlitReceive _ _ _ _ => true
  | .ackReceive _ _ _ _ => true
  | .nakReceive _ _ _ _ => true
  | .replayTimeout _ _ _ => true
  | .ackDelayExpiry _ _ _ => true
  | .retrainComplete _ _ _ _ _ => true
  | .edgeHoldExpiry _ _ => true
  | .rtswap _ _ => true
  | .routeSwapComplete _ => true
  | .classSBlockReceive _ _ _ => true
  | .opticalPortDown _ => true
  | .classLBlockArrival _ _ _ => true
  | .classLTimeout _ => true
  | .powerThrottle _ => true
  | .dieTemperature _ _ => true
  | .ageingMeasurement _ _ _ => true
  | .tmsnapGo _ _ => true
  | .frozenWrite _ _ => true
  | .primaryLinkReturn => true
  | .powerOff => true
  | .paletteSoftError _ _ _ _ => true
  | .hbmUncorrectableError _ => true
  | .invRound _ _ _ => true
  | .flushingReadCompletion _ => true
  | .opticalBlockSend _ => true

end Sys2Proof
end

