-- ==== Sys2Proof/Decode.lean ====
section
/-! DEFINITION. Decoding of the three instruction sets (R170 to R185, R275, R289), total on every word and
rejecting by the subcode of TRAP_ILLEGAL (R183), and after it the encoder. -/

namespace Sys2Proof

/-- Bits `[lo + n - 1 : lo]` of `w` (R5). -/
def fld (w lo n : Nat) : Nat := w / 2 ^ lo % 2 ^ n

/-- What decoding a word gives: an instruction, or the subcode of its TRAP_ILLEGAL (R183). -/
inductive Decoded where
  | ok (i : Instr)
  | illegal (sub : Nat)
  deriving DecidableEq, Repr

/-- The little-endian word in four bytes (R6, R170). -/
def wordOfBytes (b : List Byte) : Nat := b.foldr (fun x acc => x.toNat + 256 * acc) 0

/-- The four bytes of a word, the least significant first (R6). -/
def bytesOfWord (w : Nat) : List Byte :=
  [BitVec.ofNat 8 w, BitVec.ofNat 8 (w / 256), BitVec.ofNat 8 (w / 65536), BitVec.ofNat 8 (w / 16777216)]

/-- The clause header (R172). -/
def decodeHeader (w : Nat) (c : Bool) : Decoded :=
  if c = true then .illegal 3
  else .ok (.clause (fld w 14 12) (fld w 10 4) (fld w 6 4) (fld w 1 5) (fld w 0 1))

/-- Major 01001, `cvt` (R245 checks 1 and 2, R177): the word's own reserved values, the placement of the
extension literal, then the reserved fields and values of the extension. -/
def decodeCvt (slot w lit : Nat) (c : Bool) : Decoded :=
  let s := fld w 22 4
  let t := fld w 18 4
  let r := fld w 15 3
  let x : Option Nat := if fld w 14 1 = 1 then some lit else none
  if 12 < s ∨ 12 < t ∨ 4 < r ∨ (s = 0 ∧ t = 0) ∨ (s ≠ 0 ∧ t ≠ 0) then .illegal 4
  else if x.isSome = true ∧ (slot = 2 ∨ c = true) then .illegal 5
  else if fld (x.getD 0) 0 6 ≠ 0 ∨ fld (x.getD 0) 26 6 ≠ 0 then .illegal 3
  else if cvtOk s t r x = false then .illegal 4
  else .ok (.cvt c s t r x (fld w 7 7) (fld w 0 7))

/-- Major 00001 of the main stream (R179): the minor first, then the reserved fields, then the reserved
values, then the placement of a literal (R183). -/
def decodeSR (_slot w _lit : Nat) (c : Bool) : Decoded :=
  match (fld w 20 6) with
  | 0 => .ok (.sMovB32 c (fld w 10 10) (fld w 0 10))
  | 1 => .ok (.sAddN32 c (fld w 10 10) (fld w 0 10))
  | 2 => .ok (.sSubN32 c (fld w 10 10) (fld w 0 10))
  | 3 => .ok (.sMulN32 c (fld w 10 10) (fld w 0 10))
  | 4 => .ok (.sMulhiN32 c (fld w 10 10) (fld w 0 10))
  | 5 => .ok (.sMulhiS32 c (fld w 10 10) (fld w 0 10))
  | 6 => .ok (.sAndB32 c (fld w 10 10) (fld w 0 10))
  | 7 => .ok (.sOrB32 c (fld w 10 10) (fld w 0 10))
  | 8 => .ok (.sXorB32 c (fld w 10 10) (fld w 0 10))
  | 9 => .ok (.sNotB32 c (fld w 10 10) (fld w 0 10))
  | 10 => .ok (.sShlB32 c (fld w 10 10) (fld w 0 10))
  | 11 => .ok (.sShrN32 c (fld w 10 10) (fld w 0 10))
  | 12 => .ok (.sShrS32 c (fld w 10 10) (fld w 0 10))
  | 13 => .ok (.sMinN32 c (fld w 10 10) (fld w 0 10))
  | 14 => .ok (.sMinS32 c (fld w 10 10) (fld w 0 10))
  | 15 => .ok (.sMaxN32 c (fld w 10 10) (fld w 0 10))
  | 16 => .ok (.sMaxS32 c (fld w 10 10) (fld w 0 10))
  | 17 => .ok (.sMovB64 c (fld w 10 10) (fld w 0 10))
  | 18 => .ok (.sAddN64 c (fld w 10 10) (fld w 0 10))
  | 19 => .ok (.sSubN64 c (fld w 10 10) (fld w 0 10))
  | 20 => .ok (.sMulN64 c (fld w 10 10) (fld w 0 10))
  | 21 => .ok (.sAndB64 c (fld w 10 10) (fld w 0 10))
  | 22 => .ok (.sOrB64 c (fld w 10 10) (fld w 0 10))
  | 23 => .ok (.sXorB64 c (fld w 10 10) (fld w 0 10))
  | 24 => .ok (.sShlB64 c (fld w 10 10) (fld w 0 10))
  | 25 => .ok (.sShrN64 c (fld w 10 10) (fld w 0 10))
  | 26 => .ok (.sShrS64 c (fld w 10 10) (fld w 0 10))
  | _ => .illegal 2

/-- Major 00010 of the main stream (R179): the minor first, then the reserved fields, then the reserved
values, then the placement of a literal (R183). -/
def decodeSI (slot w lit : Nat) (c : Bool) : Decoded :=
  match (fld w 22 4) with
  | 0 => if (fld w 11 1) = 0 then .ok (.siMovB32 c (fld w 12 10) (.short (fld w 0 11))) else if (fld w 0 11) ≠ 0 then .illegal 3 else if slot = 2 ∨ c = true then .illegal 5 else .ok (.siMovB32 c (fld w 12 10) (.lit lit))
  | 1 => if (fld w 11 1) = 0 then .ok (.siAddN32 c (fld w 12 10) (.short (fld w 0 11))) else if (fld w 0 11) ≠ 0 then .illegal 3 else if slot = 2 ∨ c = true then .illegal 5 else .ok (.siAddN32 c (fld w 12 10) (.lit lit))
  | 2 => if (fld w 11 1) = 0 then .ok (.siMulN32 c (fld w 12 10) (.short (fld w 0 11))) else if (fld w 0 11) ≠ 0 then .illegal 3 else if slot = 2 ∨ c = true then .illegal 5 else .ok (.siMulN32 c (fld w 12 10) (.lit lit))
  | 3 => if (fld w 11 1) = 0 then .ok (.siAndB32 c (fld w 12 10) (.short (fld w 0 11))) else if (fld w 0 11) ≠ 0 then .illegal 3 else if slot = 2 ∨ c = true then .illegal 5 else .ok (.siAndB32 c (fld w 12 10) (.lit lit))
  | 4 => if (fld w 11 1) = 0 then .ok (.siOrB32 c (fld w 12 10) (.short (fld w 0 11))) else if (fld w 0 11) ≠ 0 then .illegal 3 else if slot = 2 ∨ c = true then .illegal 5 else .ok (.siOrB32 c (fld w 12 10) (.lit lit))
  | 5 => if (fld w 11 1) = 0 then .ok (.siXorB32 c (fld w 12 10) (.short (fld w 0 11))) else if (fld w 0 11) ≠ 0 then .illegal 3 else if slot = 2 ∨ c = true then .illegal 5 else .ok (.siXorB32 c (fld w 12 10) (.lit lit))
  | 6 => if (fld w 11 1) = 0 then .ok (.siShlB32 c (fld w 12 10) (.short (fld w 0 11))) else if (fld w 0 11) ≠ 0 then .illegal 3 else if slot = 2 ∨ c = true then .illegal 5 else .ok (.siShlB32 c (fld w 12 10) (.lit lit))
  | 7 => if (fld w 11 1) = 0 then .ok (.siShrN32 c (fld w 12 10) (.short (fld w 0 11))) else if (fld w 0 11) ≠ 0 then .illegal 3 else if slot = 2 ∨ c = true then .illegal 5 else .ok (.siShrN32 c (fld w 12 10) (.lit lit))
  | 8 => if (fld w 11 1) = 0 then .ok (.siShrS32 c (fld w 12 10) (.short (fld w 0 11))) else if (fld w 0 11) ≠ 0 then .illegal 3 else if slot = 2 ∨ c = true then .illegal 5 else .ok (.siShrS32 c (fld w 12 10) (.lit lit))
  | 9 => if (fld w 11 1) = 0 then .ok (.siMovB64 c (fld w 12 10) (.short (fld w 0 11))) else if (fld w 0 11) ≠ 0 then .illegal 3 else if slot = 2 ∨ c = true then .illegal 5 else .ok (.siMovB64 c (fld w 12 10) (.lit lit))
  | 10 => if (fld w 11 1) = 0 then .ok (.siAddN64 c (fld w 12 10) (.short (fld w 0 11))) else if (fld w 0 11) ≠ 0 then .illegal 3 else if slot = 2 ∨ c = true then .illegal 5 else .ok (.siAddN64 c (fld w 12 10) (.lit lit))
  | _ => .illegal 2

/-- Major 00011 of the main stream (R179): the minor first, then the reserved fields, then the reserved
values, then the placement of a literal (R183). -/
def decodeSB (slot w lit : Nat) (c : Bool) : Decoded :=
  match (fld w 23 3) with
  | 0 => if (fld w 0 6) = 32 then if slot = 2 ∨ c = true then .illegal 5 else .ok (.beq c (fld w 13 10) (fld w 6 7) (.lit lit)) else .ok (.beq c (fld w 13 10) (fld w 6 7) (.off (fld w 0 6)))
  | 1 => if (fld w 0 6) = 32 then if slot = 2 ∨ c = true then .illegal 5 else .ok (.bne c (fld w 13 10) (fld w 6 7) (.lit lit)) else .ok (.bne c (fld w 13 10) (fld w 6 7) (.off (fld w 0 6)))
  | 2 => if (fld w 0 6) = 32 then if slot = 2 ∨ c = true then .illegal 5 else .ok (.bltS32 c (fld w 13 10) (fld w 6 7) (.lit lit)) else .ok (.bltS32 c (fld w 13 10) (fld w 6 7) (.off (fld w 0 6)))
  | 3 => if (fld w 0 6) = 32 then if slot = 2 ∨ c = true then .illegal 5 else .ok (.bgeS32 c (fld w 13 10) (fld w 6 7) (.lit lit)) else .ok (.bgeS32 c (fld w 13 10) (fld w 6 7) (.off (fld w 0 6)))
  | 4 => if (fld w 0 6) = 32 then if slot = 2 ∨ c = true then .illegal 5 else .ok (.bltN32 c (fld w 13 10) (fld w 6 7) (.lit lit)) else .ok (.bltN32 c (fld w 13 10) (fld w 6 7) (.off (fld w 0 6)))
  | 5 => if (fld w 0 6) = 32 then if slot = 2 ∨ c = true then .illegal 5 else .ok (.bgeN32 c (fld w 13 10) (fld w 6 7) (.lit lit)) else .ok (.bgeN32 c (fld w 13 10) (fld w 6 7) (.off (fld w 0 6)))
  | _ => .illegal 2

/-- Major 00100 of the main stream (R179): the minor first, then the reserved fields, then the reserved
values, then the placement of a literal (R183). -/
def decodeVR (_slot w _lit : Nat) (c : Bool) : Decoded :=
  match (fld w 22 4) with
  | 0 => .ok (.vAddN32 c (fld w 15 7) (fld w 8 7) (fld w 7 1) (fld w 0 7))
  | 1 => .ok (.vSubN32 c (fld w 15 7) (fld w 8 7) (fld w 7 1) (fld w 0 7))
  | 2 => .ok (.vMulN32 c (fld w 15 7) (fld w 8 7) (fld w 7 1) (fld w 0 7))
  | 3 => .ok (.vMulhiN32 c (fld w 15 7) (fld w 8 7) (fld w 7 1) (fld w 0 7))
  | 4 => .ok (.vMulhiS32 c (fld w 15 7) (fld w 8 7) (fld w 7 1) (fld w 0 7))
  | 5 => .ok (.vAndB32 c (fld w 15 7) (fld w 8 7) (fld w 7 1) (fld w 0 7))
  | 6 => .ok (.vOrB32 c (fld w 15 7) (fld w 8 7) (fld w 7 1) (fld w 0 7))
  | 7 => .ok (.vXorB32 c (fld w 15 7) (fld w 8 7) (fld w 7 1) (fld w 0 7))
  | 8 => .ok (.vShlB32 c (fld w 15 7) (fld w 8 7) (fld w 7 1) (fld w 0 7))
  | 9 => .ok (.vShrN32 c (fld w 15 7) (fld w 8 7) (fld w 7 1) (fld w 0 7))
  | 10 => .ok (.vShrS32 c (fld w 15 7) (fld w 8 7) (fld w 7 1) (fld w 0 7))
  | 11 => .ok (.vMinN32 c (fld w 15 7) (fld w 8 7) (fld w 7 1) (fld w 0 7))
  | 12 => .ok (.vMinS32 c (fld w 15 7) (fld w 8 7) (fld w 7 1) (fld w 0 7))
  | 13 => .ok (.vMaxN32 c (fld w 15 7) (fld w 8 7) (fld w 7 1) (fld w 0 7))
  | 14 => .ok (.vMaxS32 c (fld w 15 7) (fld w 8 7) (fld w 7 1) (fld w 0 7))
  | 15 => .ok (.vAddsatS32 c (fld w 15 7) (fld w 8 7) (fld w 7 1) (fld w 0 7))
  | _ => .illegal 2

/-- Major 00101 of the main stream (R179): the minor first, then the reserved fields, then the reserved
values, then the placement of a literal (R183). -/
def decodeVI (slot w lit : Nat) (c : Bool) : Decoded :=
  match (fld w 22 4) with
  | 0 => if (fld w 7 1) = 0 then .ok (.viAddN32 c (fld w 15 7) (fld w 8 7) (.short (fld w 0 7))) else if (fld w 0 7) ≠ 0 then .illegal 3 else if slot = 2 ∨ c = true then .illegal 5 else .ok (.viAddN32 c (fld w 15 7) (fld w 8 7) (.lit lit))
  | 1 => if (fld w 7 1) = 0 then .ok (.viSubN32 c (fld w 15 7) (fld w 8 7) (.short (fld w 0 7))) else if (fld w 0 7) ≠ 0 then .illegal 3 else if slot = 2 ∨ c = true then .illegal 5 else .ok (.viSubN32 c (fld w 15 7) (fld w 8 7) (.lit lit))
  | 2 => if (fld w 7 1) = 0 then .ok (.viMulN32 c (fld w 15 7) (fld w 8 7) (.short (fld w 0 7))) else if (fld w 0 7) ≠ 0 then .illegal 3 else if slot = 2 ∨ c = true then .illegal 5 else .ok (.viMulN32 c (fld w 15 7) (fld w 8 7) (.lit lit))
  | 3 => if (fld w 7 1) = 0 then .ok (.viMulhiN32 c (fld w 15 7) (fld w 8 7) (.short (fld w 0 7))) else if (fld w 0 7) ≠ 0 then .illegal 3 else if slot = 2 ∨ c = true then .illegal 5 else .ok (.viMulhiN32 c (fld w 15 7) (fld w 8 7) (.lit lit))
  | 4 => if (fld w 7 1) = 0 then .ok (.viMulhiS32 c (fld w 15 7) (fld w 8 7) (.short (fld w 0 7))) else if (fld w 0 7) ≠ 0 then .illegal 3 else if slot = 2 ∨ c = true then .illegal 5 else .ok (.viMulhiS32 c (fld w 15 7) (fld w 8 7) (.lit lit))
  | 5 => if (fld w 7 1) = 0 then .ok (.viAndB32 c (fld w 15 7) (fld w 8 7) (.short (fld w 0 7))) else if (fld w 0 7) ≠ 0 then .illegal 3 else if slot = 2 ∨ c = true then .illegal 5 else .ok (.viAndB32 c (fld w 15 7) (fld w 8 7) (.lit lit))
  | 6 => if (fld w 7 1) = 0 then .ok (.viOrB32 c (fld w 15 7) (fld w 8 7) (.short (fld w 0 7))) else if (fld w 0 7) ≠ 0 then .illegal 3 else if slot = 2 ∨ c = true then .illegal 5 else .ok (.viOrB32 c (fld w 15 7) (fld w 8 7) (.lit lit))
  | 7 => if (fld w 7 1) = 0 then .ok (.viXorB32 c (fld w 15 7) (fld w 8 7) (.short (fld w 0 7))) else if (fld w 0 7) ≠ 0 then .illegal 3 else if slot = 2 ∨ c = true then .illegal 5 else .ok (.viXorB32 c (fld w 15 7) (fld w 8 7) (.lit lit))
  | 8 => if (fld w 7 1) = 0 then .ok (.viShlB32 c (fld w 15 7) (fld w 8 7) (.short (fld w 0 7))) else if (fld w 0 7) ≠ 0 then .illegal 3 else if slot = 2 ∨ c = true then .illegal 5 else .ok (.viShlB32 c (fld w 15 7) (fld w 8 7) (.lit lit))
  | 9 => if (fld w 7 1) = 0 then .ok (.viShrN32 c (fld w 15 7) (fld w 8 7) (.short (fld w 0 7))) else if (fld w 0 7) ≠ 0 then .illegal 3 else if slot = 2 ∨ c = true then .illegal 5 else .ok (.viShrN32 c (fld w 15 7) (fld w 8 7) (.lit lit))
  | 10 => if (fld w 7 1) = 0 then .ok (.viShrS32 c (fld w 15 7) (fld w 8 7) (.short (fld w 0 7))) else if (fld w 0 7) ≠ 0 then .illegal 3 else if slot = 2 ∨ c = true then .illegal 5 else .ok (.viShrS32 c (fld w 15 7) (fld w 8 7) (.lit lit))
  | 11 => if (fld w 7 1) = 0 then .ok (.viMinN32 c (fld w 15 7) (fld w 8 7) (.short (fld w 0 7))) else if (fld w 0 7) ≠ 0 then .illegal 3 else if slot = 2 ∨ c = true then .illegal 5 else .ok (.viMinN32 c (fld w 15 7) (fld w 8 7) (.lit lit))
  | 12 => if (fld w 7 1) = 0 then .ok (.viMinS32 c (fld w 15 7) (fld w 8 7) (.short (fld w 0 7))) else if (fld w 0 7) ≠ 0 then .illegal 3 else if slot = 2 ∨ c = true then .illegal 5 else .ok (.viMinS32 c (fld w 15 7) (fld w 8 7) (.lit lit))
  | 13 => if (fld w 7 1) = 0 then .ok (.viMaxN32 c (fld w 15 7) (fld w 8 7) (.short (fld w 0 7))) else if (fld w 0 7) ≠ 0 then .illegal 3 else if slot = 2 ∨ c = true then .illegal 5 else .ok (.viMaxN32 c (fld w 15 7) (fld w 8 7) (.lit lit))
  | 14 => if (fld w 7 1) = 0 then .ok (.viMaxS32 c (fld w 15 7) (fld w 8 7) (.short (fld w 0 7))) else if (fld w 0 7) ≠ 0 then .illegal 3 else if slot = 2 ∨ c = true then .illegal 5 else .ok (.viMaxS32 c (fld w 15 7) (fld w 8 7) (.lit lit))
  | _ => .illegal 2

/-- Major 00110 of the main stream (R179): the minor first, then the reserved fields, then the reserved
values, then the placement of a literal (R183). -/
def decodeF32 (_slot w _lit : Nat) (c : Bool) : Decoded :=
  match (fld w 22 4) with
  | 0 => .ok (.faddF32 c (fld w 15 7) (fld w 8 7) (fld w 7 1) (fld w 0 7))
  | 1 => .ok (.fsubF32 c (fld w 15 7) (fld w 8 7) (fld w 7 1) (fld w 0 7))
  | 2 => .ok (.fmulF32 c (fld w 15 7) (fld w 8 7) (fld w 7 1) (fld w 0 7))
  | 3 => .ok (.fminF32 c (fld w 15 7) (fld w 8 7) (fld w 7 1) (fld w 0 7))
  | 4 => .ok (.fmaxF32 c (fld w 15 7) (fld w 8 7) (fld w 7 1) (fld w 0 7))
  | 5 => if (fld w 0 8) ≠ 0 then .illegal 3 else .ok (.fabsF32 c (fld w 15 7) (fld w 8 7))
  | 6 => if (fld w 0 8) ≠ 0 then .illegal 3 else .ok (.fnegF32 c (fld w 15 7) (fld w 8 7))
  | 7 => .ok (.fcpsgnF32 c (fld w 15 7) (fld w 8 7) (fld w 7 1) (fld w 0 7))
  | _ => .illegal 2

/-- Major 00111 of the main stream (R179): the minor first, then the reserved fields, then the reserved
values, then the placement of a literal (R183). -/
def decodeFMA (_slot w _lit : Nat) (c : Bool) : Decoded :=
  match (fld w 22 4) with
  | 0 => .ok (.fmaF32 c (fld w 15 7) (fld w 8 7) (fld w 7 1) (fld w 0 7))
  | 1 => .ok (.fnmaF32 c (fld w 15 7) (fld w 8 7) (fld w 7 1) (fld w 0 7))
  | 2 => .ok (.faddF16 c (fld w 15 7) (fld w 8 7) (fld w 7 1) (fld w 0 7))
  | 3 => .ok (.fsubF16 c (fld w 15 7) (fld w 8 7) (fld w 7 1) (fld w 0 7))
  | 4 => .ok (.fmulF16 c (fld w 15 7) (fld w 8 7) (fld w 7 1) (fld w 0 7))
  | 5 => .ok (.fmaF16 c (fld w 15 7) (fld w 8 7) (fld w 7 1) (fld w 0 7))
  | 6 => .ok (.faddBf16 c (fld w 15 7) (fld w 8 7) (fld w 7 1) (fld w 0 7))
  | 7 => .ok (.fsubBf16 c (fld w 15 7) (fld w 8 7) (fld w 7 1) (fld w 0 7))
  | 8 => .ok (.fmulBf16 c (fld w 15 7) (fld w 8 7) (fld w 7 1) (fld w 0 7))
  | 9 => .ok (.fmaBf16 c (fld w 15 7) (fld w 8 7) (fld w 7 1) (fld w 0 7))
  | 10 => .ok (.fminF16 c (fld w 15 7) (fld w 8 7) (fld w 7 1) (fld w 0 7))
  | 11 => .ok (.fmaxF16 c (fld w 15 7) (fld w 8 7) (fld w 7 1) (fld w 0 7))
  | 12 => .ok (.fminBf16 c (fld w 15 7) (fld w 8 7) (fld w 7 1) (fld w 0 7))
  | 13 => .ok (.fmaxBf16 c (fld w 15 7) (fld w 8 7) (fld w 7 1) (fld w 0 7))
  | _ => .illegal 2

/-- Major 01000 of the main stream (R179): the minor first, then the reserved fields, then the reserved
values, then the placement of a literal (R183). -/
def decodeVC (_slot w _lit : Nat) (c : Bool) : Decoded :=
  match (fld w 23 3) with
  | 0 => if (fld w 21 2) = 3 then .illegal 2 else if (fld w 18 3) ≠ 0 then .illegal 3 else if (fld w 15 3) = 7 then .illegal 4 else .ok (.vcmpEq c (fld w 21 2) (fld w 15 3) (fld w 8 7) (fld w 7 1) (fld w 0 7))
  | 1 => if (fld w 21 2) = 3 then .illegal 2 else if (fld w 18 3) ≠ 0 then .illegal 3 else if (fld w 15 3) = 7 then .illegal 4 else .ok (.vcmpNe c (fld w 21 2) (fld w 15 3) (fld w 8 7) (fld w 7 1) (fld w 0 7))
  | 2 => if (fld w 21 2) = 3 then .illegal 2 else if (fld w 18 3) ≠ 0 then .illegal 3 else if (fld w 15 3) = 7 then .illegal 4 else .ok (.vcmpLt c (fld w 21 2) (fld w 15 3) (fld w 8 7) (fld w 7 1) (fld w 0 7))
  | 3 => if (fld w 21 2) = 3 then .illegal 2 else if (fld w 18 3) ≠ 0 then .illegal 3 else if (fld w 15 3) = 7 then .illegal 4 else .ok (.vcmpLe c (fld w 21 2) (fld w 15 3) (fld w 8 7) (fld w 7 1) (fld w 0 7))
  | 4 => if (fld w 21 2) = 3 then .illegal 2 else if (fld w 18 3) ≠ 0 then .illegal 3 else if (fld w 15 3) = 7 then .illegal 4 else .ok (.vcmpGt c (fld w 21 2) (fld w 15 3) (fld w 8 7) (fld w 7 1) (fld w 0 7))
  | 5 => if (fld w 21 2) = 3 then .illegal 2 else if (fld w 18 3) ≠ 0 then .illegal 3 else if (fld w 15 3) = 7 then .illegal 4 else .ok (.vcmpGe c (fld w 21 2) (fld w 15 3) (fld w 8 7) (fld w 7 1) (fld w 0 7))
  | 6 => match (fld w 21 2) with
      | 0 => if (fld w 18 3) ≠ 0 then .illegal 3 else if (fld w 11 4) ≠ 0 then .illegal 3 else if (fld w 3 5) ≠ 0 then .illegal 3 else if (fld w 15 3) = 7 then .illegal 4 else .ok (.pand c (fld w 15 3) (fld w 8 3) (fld w 0 3))
      | 1 => if (fld w 18 3) ≠ 0 then .illegal 3 else if (fld w 11 4) ≠ 0 then .illegal 3 else if (fld w 3 5) ≠ 0 then .illegal 3 else if (fld w 15 3) = 7 then .illegal 4 else .ok (.por c (fld w 15 3) (fld w 8 3) (fld w 0 3))
      | 2 => if (fld w 18 3) ≠ 0 then .illegal 3 else if (fld w 11 4) ≠ 0 then .illegal 3 else if (fld w 3 5) ≠ 0 then .illegal 3 else if (fld w 15 3) = 7 then .illegal 4 else .ok (.pxor c (fld w 15 3) (fld w 8 3) (fld w 0 3))
      | 3 => if (fld w 18 3) ≠ 0 then .illegal 3 else if (fld w 11 4) ≠ 0 then .illegal 3 else if (fld w 3 5) ≠ 0 then .illegal 3 else if (fld w 0 3) ≠ 0 then .illegal 3 else if (fld w 15 3) = 7 then .illegal 4 else .ok (.pnot c (fld w 15 3) (fld w 8 3))
      | _ => .illegal 2
  | _ => .illegal 2

/-- Major 01010 of the main stream (R179): the minor first, then the reserved fields, then the reserved
values, then the placement of a literal (R183). -/
def decodeTR (_slot w _lit : Nat) (c : Bool) : Decoded :=
  match (fld w 22 4) with
  | 0 => if (fld w 0 8) ≠ 0 then .illegal 3 else .ok (.rcpF32 c (fld w 15 7) (fld w 8 7))
  | 1 => if (fld w 0 8) ≠ 0 then .illegal 3 else .ok (.rsqrtF32 c (fld w 15 7) (fld w 8 7))
  | 2 => if (fld w 0 8) ≠ 0 then .illegal 3 else .ok (.sqrtF32 c (fld w 15 7) (fld w 8 7))
  | 3 => if (fld w 0 8) ≠ 0 then .illegal 3 else .ok (.exp2F32 c (fld w 15 7) (fld w 8 7))
  | 4 => if (fld w 0 8) ≠ 0 then .illegal 3 else .ok (.log2F32 c (fld w 15 7) (fld w 8 7))
  | 5 => if (fld w 0 8) ≠ 0 then .illegal 3 else .ok (.sinpiF32 c (fld w 15 7) (fld w 8 7))
  | 6 => if (fld w 0 8) ≠ 0 then .illegal 3 else .ok (.cospiF32 c (fld w 15 7) (fld w 8 7))
  | 7 => if (fld w 0 8) ≠ 0 then .illegal 3 else .ok (.tanhF32 c (fld w 15 7) (fld w 8 7))
  | 8 => if (fld w 0 8) ≠ 0 then .illegal 3 else .ok (.sigmF32 c (fld w 15 7) (fld w 8 7))
  | 9 => if (fld w 0 8) ≠ 0 then .illegal 3 else .ok (.erfF32 c (fld w 15 7) (fld w 8 7))
  | _ => .illegal 2

/-- Major 01011 of the main stream (R179): the minor first, then the reserved fields, then the reserved
values, then the placement of a literal (R183). -/
def decodeLX (_slot w _lit : Nat) (c : Bool) : Decoded :=
  match (fld w 22 4) with
  | 0 => .ok (.vgetB32 c (fld w 15 7) (fld w 8 7) (fld w 7 1) (fld w 0 7))
  | 1 => .ok (.vputB32 c (fld w 15 7) (fld w 8 7) (fld w 7 1) (fld w 0 7))
  | 2 => .ok (.xreadB32 c (fld w 15 7) (fld w 8 7) (fld w 7 1) (fld w 0 7))
  | 3 => .ok (.xwriteB32 c (fld w 15 7) (fld w 8 7) (fld w 7 1) (fld w 0 7))
  | 4 => if (fld w 7 1) ≠ 0 then .illegal 3 else .ok (.shflIdxB32 c (fld w 15 7) (fld w 8 7) (fld w 0 7))
  | 5 => if (fld w 7 1) ≠ 0 then .illegal 3 else if (fld w 5 2) ≠ 0 then .illegal 3 else .ok (.shflUpB32 c (fld w 15 7) (fld w 8 7) (fld w 0 5))
  | 6 => if (fld w 7 1) ≠ 0 then .illegal 3 else if (fld w 5 2) ≠ 0 then .illegal 3 else .ok (.shflDownB32 c (fld w 15 7) (fld w 8 7) (fld w 0 5))
  | 7 => if (fld w 7 1) ≠ 0 then .illegal 3 else if (fld w 5 2) ≠ 0 then .illegal 3 else .ok (.shflXorB32 c (fld w 15 7) (fld w 8 7) (fld w 0 5))
  | 8 => if (fld w 7 1) ≠ 0 then .illegal 3 else if (fld w 0 7) ≠ 0 then .illegal 3 else if (fld w 11 4) ≠ 0 then .illegal 3 else .ok (.ballotB32 c (fld w 15 7) (fld w 8 3))
  | 9 => if (fld w 7 1) ≠ 0 then .illegal 3 else if (fld w 0 7) ≠ 0 then .illegal 3 else if (fld w 11 4) ≠ 0 then .illegal 3 else if (fld w 18 4) ≠ 0 then .illegal 3 else if (fld w 15 3) = 7 then .illegal 4 else .ok (.voteAny c (fld w 15 3) (fld w 8 3))
  | 10 => if (fld w 7 1) ≠ 0 then .illegal 3 else if (fld w 0 7) ≠ 0 then .illegal 3 else if (fld w 11 4) ≠ 0 then .illegal 3 else if (fld w 18 4) ≠ 0 then .illegal 3 else if (fld w 15 3) = 7 then .illegal 4 else .ok (.voteAll c (fld w 15 3) (fld w 8 3))
  | 11 => if (fld w 7 1) ≠ 0 then .illegal 3 else if (fld w 0 7) ≠ 0 then .illegal 3 else if (fld w 11 4) ≠ 0 then .illegal 3 else .ok (.pmovB32 c (fld w 15 7) (fld w 8 3))
  | 12 => if (fld w 7 1) ≠ 0 then .illegal 3 else if (fld w 0 7) ≠ 0 then .illegal 3 else if (fld w 18 4) ≠ 0 then .illegal 3 else if (fld w 15 3) = 7 then .illegal 4 else .ok (.ptestB32 c (fld w 15 3) (fld w 8 7))
  | _ => .illegal 2

/-- Major 01100 of the main stream (R179): the minor first, then the reserved fields, then the reserved
values, then the placement of a literal (R183). -/
def decodeM (_slot w _lit : Nat) (c : Bool) : Decoded :=
  match (fld w 22 4) with
  | 0 => .ok (.ldB8 c (fld w 20 2) (fld w 13 7) (fld w 6 7) (fld w 0 6))
  | 1 => .ok (.ldB16 c (fld w 20 2) (fld w 13 7) (fld w 6 7) (fld w 0 6))
  | 2 => .ok (.ldB32 c (fld w 20 2) (fld w 13 7) (fld w 6 7) (fld w 0 6))
  | 3 => .ok (.ldB8Fa c (fld w 20 2) (fld w 13 7) (fld w 6 7) (fld w 0 6))
  | 4 => .ok (.ldB16Fa c (fld w 20 2) (fld w 13 7) (fld w 6 7) (fld w 0 6))
  | 5 => .ok (.ldB32Fa c (fld w 20 2) (fld w 13 7) (fld w 6 7) (fld w 0 6))
  | 6 => .ok (.ldB8Fb c (fld w 20 2) (fld w 13 7) (fld w 6 7) (fld w 0 6))
  | 7 => .ok (.ldB16Fb c (fld w 20 2) (fld w 13 7) (fld w 6 7) (fld w 0 6))
  | 8 => .ok (.ldB32Fb c (fld w 20 2) (fld w 13 7) (fld w 6 7) (fld w 0 6))
  | 9 => .ok (.stB8 c (fld w 20 2) (fld w 13 7) (fld w 6 7) (fld w 0 6))
  | 10 => .ok (.stB16 c (fld w 20 2) (fld w 13 7) (fld w 6 7) (fld w 0 6))
  | 11 => .ok (.stB32 c (fld w 20 2) (fld w 13 7) (fld w 6 7) (fld w 0 6))
  | 12 => if (fld w 18 2) = 3 then .illegal 4 else if 5 < (fld w 13 3) then .illegal 4 else if (fld w 16 1) = 0 ∧ (fld w 13 3) ≠ 0 then .illegal 4 else .ok (.ldScalarAddress c (fld w 20 2) (fld w 18 2) (fld w 17 1) (fld w 16 1) (fld w 13 3) (fld w 6 7) (fld w 0 6))
  | 13 => if (fld w 18 2) ≠ 0 then .illegal 4 else if 5 < (fld w 13 3) then .illegal 4 else if (fld w 16 1) = 0 ∧ (fld w 13 3) ≠ 0 then .illegal 4 else .ok (.stScalarAddress c (fld w 20 2) (fld w 17 1) (fld w 16 1) (fld w 13 3) (fld w 6 7) (fld w 0 6))
  | _ => .illegal 2

/-- Major 01101 of the main stream (R179): the minor first, then the reserved fields, then the reserved
values, then the placement of a literal (R183). -/
def decodeAT (_slot w _lit : Nat) (c : Bool) : Decoded :=
  match (fld w 22 4) with
  | 0 => if (fld w 15 2) = 3 then .illegal 4 else if 5 < (fld w 17 3) then .illegal 4 else if (fld w 20 2) = 0 ∧ (fld w 17 3) ≠ 0 then .illegal 4 else .ok (.atomAddN32 c (fld w 20 2) (fld w 17 3) (fld w 15 2) (fld w 8 7) (fld w 7 1) (fld w 0 7))
  | 1 => if (fld w 15 2) = 3 then .illegal 4 else if 5 < (fld w 17 3) then .illegal 4 else if (fld w 20 2) = 0 ∧ (fld w 17 3) ≠ 0 then .illegal 4 else .ok (.atomAddN64 c (fld w 20 2) (fld w 17 3) (fld w 15 2) (fld w 8 7) (fld w 7 1) (fld w 0 7))
  | 2 => if (fld w 15 2) = 3 then .illegal 4 else if 5 < (fld w 17 3) then .illegal 4 else if (fld w 20 2) = 0 ∧ (fld w 17 3) ≠ 0 then .illegal 4 else .ok (.atomAddF32 c (fld w 20 2) (fld w 17 3) (fld w 15 2) (fld w 8 7) (fld w 7 1) (fld w 0 7))
  | 3 => if (fld w 15 2) = 3 then .illegal 4 else if 5 < (fld w 17 3) then .illegal 4 else if (fld w 20 2) = 0 ∧ (fld w 17 3) ≠ 0 then .illegal 4 else .ok (.atomMinS32 c (fld w 20 2) (fld w 17 3) (fld w 15 2) (fld w 8 7) (fld w 7 1) (fld w 0 7))
  | 4 => if (fld w 15 2) = 3 then .illegal 4 else if 5 < (fld w 17 3) then .illegal 4 else if (fld w 20 2) = 0 ∧ (fld w 17 3) ≠ 0 then .illegal 4 else .ok (.atomMinN32 c (fld w 20 2) (fld w 17 3) (fld w 15 2) (fld w 8 7) (fld w 7 1) (fld w 0 7))
  | 5 => if (fld w 15 2) = 3 then .illegal 4 else if 5 < (fld w 17 3) then .illegal 4 else if (fld w 20 2) = 0 ∧ (fld w 17 3) ≠ 0 then .illegal 4 else .ok (.atomMaxS32 c (fld w 20 2) (fld w 17 3) (fld w 15 2) (fld w 8 7) (fld w 7 1) (fld w 0 7))
  | 6 => if (fld w 15 2) = 3 then .illegal 4 else if 5 < (fld w 17 3) then .illegal 4 else if (fld w 20 2) = 0 ∧ (fld w 17 3) ≠ 0 then .illegal 4 else .ok (.atomMaxN32 c (fld w 20 2) (fld w 17 3) (fld w 15 2) (fld w 8 7) (fld w 7 1) (fld w 0 7))
  | 7 => if (fld w 15 2) = 3 then .illegal 4 else if 5 < (fld w 17 3) then .illegal 4 else if (fld w 20 2) = 0 ∧ (fld w 17 3) ≠ 0 then .illegal 4 else .ok (.atomAndB32 c (fld w 20 2) (fld w 17 3) (fld w 15 2) (fld w 8 7) (fld w 7 1) (fld w 0 7))
  | 8 => if (fld w 15 2) = 3 then .illegal 4 else if 5 < (fld w 17 3) then .illegal 4 else if (fld w 20 2) = 0 ∧ (fld w 17 3) ≠ 0 then .illegal 4 else .ok (.atomOrB32 c (fld w 20 2) (fld w 17 3) (fld w 15 2) (fld w 8 7) (fld w 7 1) (fld w 0 7))
  | 9 => if (fld w 15 2) = 3 then .illegal 4 else if 5 < (fld w 17 3) then .illegal 4 else if (fld w 20 2) = 0 ∧ (fld w 17 3) ≠ 0 then .illegal 4 else .ok (.atomXorB32 c (fld w 20 2) (fld w 17 3) (fld w 15 2) (fld w 8 7) (fld w 7 1) (fld w 0 7))
  | 10 => if (fld w 15 2) = 3 then .illegal 4 else if 5 < (fld w 17 3) then .illegal 4 else if (fld w 20 2) = 0 ∧ (fld w 17 3) ≠ 0 then .illegal 4 else .ok (.atomXchgB32 c (fld w 20 2) (fld w 17 3) (fld w 15 2) (fld w 8 7) (fld w 7 1) (fld w 0 7))
  | 11 => if (fld w 15 2) = 3 then .illegal 4 else if 5 < (fld w 17 3) then .illegal 4 else if (fld w 20 2) = 0 ∧ (fld w 17 3) ≠ 0 then .illegal 4 else .ok (.atomCasB32 c (fld w 20 2) (fld w 17 3) (fld w 15 2) (fld w 8 7) (fld w 7 1) (fld w 0 7))
  | 12 => if (fld w 15 2) = 3 then .illegal 4 else if 5 < (fld w 17 3) then .illegal 4 else if (fld w 20 2) = 0 ∧ (fld w 17 3) ≠ 0 then .illegal 4 else .ok (.atomXchgB64 c (fld w 20 2) (fld w 17 3) (fld w 15 2) (fld w 8 7) (fld w 7 1) (fld w 0 7))
  | 13 => if (fld w 15 2) = 3 then .illegal 4 else if 5 < (fld w 17 3) then .illegal 4 else if (fld w 20 2) = 0 ∧ (fld w 17 3) ≠ 0 then .illegal 4 else .ok (.atomCasB64 c (fld w 20 2) (fld w 17 3) (fld w 15 2) (fld w 8 7) (fld w 7 1) (fld w 0 7))
  | _ => .illegal 2

/-- Major 01110 of the main stream (R179): the minor first, then the reserved fields, then the reserved
values, then the placement of a literal (R183). -/
def decodeSW (_slot w _lit : Nat) (c : Bool) : Decoded :=
  match (fld w 22 4) with
  | 0 => if (fld w 0 6) ≠ 0 then .illegal 3 else if (fld w 20 2) = 3 then .illegal 4 else .ok (.swldB32 c (fld w 20 2) (fld w 13 7) (fld w 6 7))
  | 1 => if (fld w 20 2) ≠ 0 then .illegal 3 else .ok (.swstB32 c (fld w 13 7) (fld w 6 7) (fld w 0 6))
  | 2 => if (fld w 20 2) = 3 then .illegal 4 else .ok (.swatomAddN32 c (fld w 20 2) (fld w 13 7) (fld w 6 7) (fld w 0 6))
  | 3 => if (fld w 20 2) = 3 then .illegal 4 else .ok (.swatomCasB32 c (fld w 20 2) (fld w 13 7) (fld w 6 7) (fld w 0 6))
  | 4 => if (fld w 20 2) ≠ 0 then .illegal 3 else .ok (.swredAddN32 c (fld w 13 7) (fld w 6 7) (fld w 0 6))
  | 5 => if (fld w 20 2) ≠ 0 then .illegal 3 else .ok (.swredOrB32 c (fld w 13 7) (fld w 6 7) (fld w 0 6))
  | 8 => if (fld w 0 6) ≠ 0 then .illegal 3 else if (fld w 20 2) = 3 then .illegal 4 else .ok (.swldB32Far c (fld w 20 2) (fld w 13 7) (fld w 6 7))
  | 9 => if (fld w 20 2) ≠ 0 then .illegal 3 else .ok (.swstB32Far c (fld w 13 7) (fld w 6 7) (fld w 0 6))
  | 10 => if (fld w 20 2) = 3 then .illegal 4 else .ok (.swatomAddN32Far c (fld w 20 2) (fld w 13 7) (fld w 6 7) (fld w 0 6))
  | 11 => if (fld w 20 2) = 3 then .illegal 4 else .ok (.swatomCasB32Far c (fld w 20 2) (fld w 13 7) (fld w 6 7) (fld w 0 6))
  | 12 => if (fld w 20 2) ≠ 0 then .illegal 3 else .ok (.swredAddN32Far c (fld w 13 7) (fld w 6 7) (fld w 0 6))
  | 13 => if (fld w 20 2) ≠ 0 then .illegal 3 else .ok (.swredOrB32Far c (fld w 13 7) (fld w 6 7) (fld w 0 6))
  | 15 => if (fld w 18 4) ≠ 0 then .illegal 2 else if (fld w 12 6) ≠ 0 then .illegal 3 else .ok (.exportSwatch c (fld w 0 12))
  | _ => .illegal 2

/-- Major 01111 of the main stream (R179): the minor first, then the reserved fields, then the reserved
values, then the placement of a literal (R183). -/
def decodeCP (_slot w _lit : Nat) (c : Bool) : Decoded :=
  match (fld w 22 4) with
  | 0 => if (fld w 0 1) ≠ 0 then .illegal 3 else .ok (.copyRows c (fld w 21 1) (fld w 14 7) (fld w 7 7) (fld w 1 6))
  | 1 => if (fld w 0 1) ≠ 0 then .illegal 3 else if (fld w 21 1) ≠ 0 then .illegal 4 else .ok (.copyCol c (fld w 14 7) (fld w 7 7) (fld w 1 6))
  | 2 => if (fld w 0 1) ≠ 0 then .illegal 3 else .ok (.copyRowsX24 c (fld w 21 1) (fld w 14 7) (fld w 7 7) (fld w 1 6))
  | 3 => if (fld w 0 1) ≠ 0 then .illegal 3 else .ok (.copySwatch c (fld w 21 1) (fld w 14 7) (fld w 7 7) (fld w 1 6))
  | 4 => if (fld w 0 1) ≠ 0 then .illegal 3 else .ok (.copyOutTeam c (fld w 21 1) (fld w 14 7) (fld w 7 7) (fld w 1 6))
  | 5 => if (fld w 0 1) ≠ 0 then .illegal 3 else .ok (.copyOutClu c (fld w 21 1) (fld w 14 7) (fld w 7 7) (fld w 1 6))
  | 6 => if (fld w 0 1) ≠ 0 then .illegal 3 else .ok (.copyOutDie c (fld w 21 1) (fld w 14 7) (fld w 7 7) (fld w 1 6))
  | 7 => if (fld w 0 1) ≠ 0 then .illegal 3 else .ok (.copyOutMod c (fld w 21 1) (fld w 14 7) (fld w 7 7) (fld w 1 6))
  | 8 => if (fld w 0 1) ≠ 0 then .illegal 3 else .ok (.copyOutSys c (fld w 21 1) (fld w 14 7) (fld w 7 7) (fld w 1 6))
  | 9 => if (fld w 0 1) ≠ 0 then .illegal 3 else .ok (.copyOutC24Team c (fld w 21 1) (fld w 14 7) (fld w 7 7) (fld w 1 6))
  | 10 => if (fld w 0 1) ≠ 0 then .illegal 3 else .ok (.copyOutC24Clu c (fld w 21 1) (fld w 14 7) (fld w 7 7) (fld w 1 6))
  | 11 => if (fld w 0 1) ≠ 0 then .illegal 3 else .ok (.copyOutC24Die c (fld w 21 1) (fld w 14 7) (fld w 7 7) (fld w 1 6))
  | 12 => if (fld w 0 1) ≠ 0 then .illegal 3 else .ok (.copyOutC24Mod c (fld w 21 1) (fld w 14 7) (fld w 7 7) (fld w 1 6))
  | 13 => if (fld w 0 1) ≠ 0 then .illegal 3 else .ok (.copyOutC24Sys c (fld w 21 1) (fld w 14 7) (fld w 7 7) (fld w 1 6))
  | 14 => if (fld w 0 1) ≠ 0 then .illegal 3 else .ok (.walk c (fld w 21 1) (fld w 14 7) (fld w 7 7) (fld w 1 6))
  | 15 => match (fld w 18 4) with
      | 0 => if (fld w 12 6) ≠ 0 then .illegal 3 else .ok (.gather c (fld w 0 12))
      | 1 => if (fld w 12 6) ≠ 0 then .illegal 3 else .ok (.scatter c (fld w 0 12))
      | 2 => if (fld w 12 6) ≠ 0 then .illegal 3 else .ok (.shbind c (fld w 0 12))
      | 3 => if (fld w 12 6) ≠ 0 then .illegal 3 else .ok (.shbindOff c (fld w 0 12))
      | _ => .illegal 2
  | _ => .illegal 2

/-- Major 10000 of the main stream (R179): the minor first, then the reserved fields, then the reserved
values, then the placement of a literal (R183). -/
def decodeBF (_slot w _lit : Nat) (c : Bool) : Decoded :=
  match (fld w 22 4) with
  | 0 => if (fld w 19 3) ≠ 0 then .illegal 3 else if (fld w 10 3) ≠ 0 then .illegal 3 else if (fld w 0 10) ≠ 0 then .illegal 3 else .ok (.arrive c (fld w 13 6))
  | 1 => if (fld w 19 3) ≠ 0 then .illegal 3 else if (fld w 10 3) ≠ 0 then .illegal 3 else .ok (.binit c (fld w 13 6) (fld w 0 10))
  | 2 => if (fld w 19 3) ≠ 0 then .illegal 3 else if (fld w 10 3) ≠ 0 then .illegal 3 else .ok (.bread c (fld w 13 6) (fld w 0 10))
  | 3 => if (fld w 10 3) ≠ 0 then .illegal 3 else if (fld w 19 3) = 7 then .illegal 4 else .ok (.twait c (fld w 19 3) (fld w 13 6) (fld w 0 10))
  | 4 => if (fld w 19 3) ≠ 0 then .illegal 3 else if (fld w 10 3) ≠ 0 then .illegal 3 else if (fld w 0 10) ≠ 0 then .illegal 3 else .ok (.swap c (fld w 13 6))
  | 5 => if (fld w 19 3) ≠ 0 then .illegal 3 else if (fld w 13 6) ≠ 0 then .illegal 3 else if (fld w 0 10) ≠ 0 then .illegal 3 else if 5 < (fld w 10 3) then .illegal 4 else .ok (.fence c (fld w 10 3))
  | 6 => if (fld w 19 3) ≠ 0 then .illegal 3 else if (fld w 13 6) ≠ 0 then .illegal 3 else if (fld w 10 3) ≠ 0 then .illegal 3 else .ok (.cbatch c (fld w 0 10))
  | 7 => if (fld w 19 3) ≠ 0 then .illegal 3 else if (fld w 13 6) ≠ 0 then .illegal 3 else if (fld w 10 3) ≠ 0 then .illegal 3 else .ok (.waitb c (fld w 0 10))
  | 8 => if (fld w 13 6) ≠ 0 then .illegal 3 else if (fld w 10 3) ≠ 0 then .illegal 3 else if (fld w 19 3) = 7 then .illegal 4 else .ok (.waitbPred c (fld w 19 3) (fld w 0 10))
  | _ => .illegal 2

/-- Major 10001 of the main stream (R179): the minor first, then the reserved fields, then the reserved
values, then the placement of a literal (R183). -/
def decodeBranch (slot w lit : Nat) (c : Bool) : Decoded :=
  match (fld w 22 4) with
  | 0 => if (fld w 14 4) ≠ 0 then .illegal 3 else if (fld w 21 1) = 0 then (if (fld w 0 14) = 8192 then if slot = 2 ∨ c = true then .illegal 5 else .ok (.bra c (fld w 18 3) (.lit lit)) else .ok (.bra c (fld w 18 3) (.off (fld w 0 14)))) else if (fld w 0 14) = 8192 then if slot = 2 ∨ c = true then .illegal 5 else .ok (.braU c (fld w 18 3) (.lit lit)) else .ok (.braU c (fld w 18 3) (.off (fld w 0 14)))
  | 1 => if (fld w 0 12) = 2048 then if slot = 2 ∨ c = true then .illegal 5 else .ok (.call c (fld w 12 10) (.lit lit)) else .ok (.call c (fld w 12 10) (.off (fld w 0 12)))
  | 2 => if (fld w 0 12) ≠ 0 then .illegal 3 else .ok (.ret c (fld w 12 10))
  | 3 => if (fld w 0 22) ≠ 0 then .illegal 3 else .ok (.exit c)
  | _ => .illegal 2

/-- Major 10010 of the main stream (R179): the minor first, then the reserved fields, then the reserved
values, then the placement of a literal (R183). -/
def decodeToken (slot w lit : Nat) (c : Bool) : Decoded :=
  match (fld w 22 4) with
  | 0 => if (fld w 14 8) ≠ 0 then .illegal 3 else if (fld w 0 14) = 8192 then if slot = 2 ∨ c = true then .illegal 5 else .ok (.mark c (.lit lit)) else .ok (.mark c (.off (fld w 0 14)))
  | 1 => if (fld w 0 22) ≠ 0 then .illegal 3 else .ok (.join c)
  | 2 => if (fld w 21 1) ≠ 0 then .illegal 3 else if (fld w 0 14) ≠ 0 then .illegal 3 else .ok (.brk c (fld w 18 3) (fld w 14 4))
  | 3 => if (fld w 18 4) ≠ 0 then .illegal 3 else if (fld w 0 14) ≠ 0 then .illegal 3 else .ok (.regang c (fld w 14 4))
  | _ => .illegal 2

/-- Major 10011 of the main stream (R179): the minor first, then the reserved fields, then the reserved
values, then the placement of a literal (R183). -/
def decodeSY (_slot w _lit : Nat) (c : Bool) : Decoded :=
  match (fld w 22 4) with
  | 0 => if (fld w 10 6) ≠ 0 then .illegal 3 else if 13 < (fld w 16 5) then .illegal 4 else if (fld w 21 1) = 0 then (if (fld w 16 5) = 0 then .illegal 4 else .ok (.sgetScalar c (fld w 16 5) (fld w 0 10))) else if (fld w 7 3) ≠ 0 then .illegal 3 else .ok (.sgetVector c (fld w 16 5) (fld w 0 7))
  | 1 => if (fld w 10 6) ≠ 0 then .illegal 3 else if (fld w 21 1) ≠ 0 then .illegal 4 else if 13 < (fld w 16 5) then .illegal 4 else .ok (.sput c (fld w 16 5) (fld w 0 10))
  | 2 => if (fld w 8 14) ≠ 0 then .illegal 3 else if (fld w 0 8) < 0x20 then .illegal 4 else if (fld w 0 8) = 0x20 then .ok (.trapRegisterHandler c) else if (fld w 0 8) = 0x21 then .ok (.trapKillService c) else .ok (.trap c (fld w 0 8))
  | 3 => if (fld w 0 22) ≠ 0 then .illegal 3 else .ok (.rte c)
  | _ => .illegal 2

/-- Major 10100 of the main stream (R179): the minor first, then the reserved fields, then the reserved
values, then the placement of a literal (R183). -/
def decodeInv (_slot w _lit : Nat) (c : Bool) : Decoded :=
  match (fld w 22 4) with
  | 0 => if (fld w 18 4) ≠ 0 then .illegal 2 else if (fld w 12 6) ≠ 0 then .illegal 3 else .ok (.inv c (fld w 0 12))
  | _ => .illegal 2

/-- Major 10101 of the main stream (R179): the minor first, then the reserved fields, then the reserved
values, then the placement of a literal (R183). -/
def decodeRD (_slot w _lit : Nat) (c : Bool) : Decoded :=
  match (fld w 22 4) with
  | 0 => if (fld w 0 7) ≠ 0 then .illegal 3 else .ok (.vredAddF32 c (fld w 15 7) (fld w 8 7) (fld w 7 1))
  | 1 => if (fld w 0 7) ≠ 0 then .illegal 3 else .ok (.vredAddN32 c (fld w 15 7) (fld w 8 7) (fld w 7 1))
  | 2 => if (fld w 0 7) ≠ 0 then .illegal 3 else .ok (.vredMinF32 c (fld w 15 7) (fld w 8 7) (fld w 7 1))
  | 3 => if (fld w 0 7) ≠ 0 then .illegal 3 else .ok (.vredMaxF32 c (fld w 15 7) (fld w 8 7) (fld w 7 1))
  | 4 => if (fld w 0 7) ≠ 0 then .illegal 3 else .ok (.vredMinS32 c (fld w 15 7) (fld w 8 7) (fld w 7 1))
  | 5 => if (fld w 0 7) ≠ 0 then .illegal 3 else .ok (.vredMaxS32 c (fld w 15 7) (fld w 8 7) (fld w 7 1))
  | 6 => if (fld w 0 7) ≠ 0 then .illegal 3 else .ok (.vredAndB32 c (fld w 15 7) (fld w 8 7) (fld w 7 1))
  | 7 => if (fld w 0 7) ≠ 0 then .illegal 3 else .ok (.vredOrB32 c (fld w 15 7) (fld w 8 7) (fld w 7 1))
  | 8 => .ok (.vredLmF32 c (fld w 15 7) (fld w 8 7) (fld w 7 1) (fld w 0 7))
  | 9 => .ok (.vredLmBf16 c (fld w 15 7) (fld w 8 7) (fld w 7 1) (fld w 0 7))
  | _ => .illegal 2

/-- Major 10110 of the main stream (R179): the minor first, then the reserved fields, then the reserved
values, then the placement of a literal (R183). -/
def decodeEQ (_slot w _lit : Nat) (c : Bool) : Decoded :=
  match (fld w 22 4) with
  | 0 => if (fld w 0 3) ≠ 0 then .illegal 3 else if (fld w 20 2) ≠ 0 then .illegal 3 else if (fld w 17 3) = 7 then .illegal 4 else .ok (.bump c (fld w 17 3) (fld w 10 7) (fld w 3 7))
  | 1 => if (fld w 0 3) ≠ 0 then .illegal 3 else if (fld w 20 2) = 3 then .illegal 4 else .ok (.appendB32 c (fld w 20 2) (fld w 17 3) (fld w 10 7) (fld w 3 7))
  | 2 => if (fld w 0 3) ≠ 0 then .illegal 3 else if (fld w 20 2) = 3 then .illegal 4 else .ok (.appendB64 c (fld w 20 2) (fld w 17 3) (fld w 10 7) (fld w 3 7))
  | 3 => if (fld w 0 3) ≠ 0 then .illegal 3 else if (fld w 20 2) ≠ 0 then .illegal 3 else if (fld w 10 7) ≠ 0 then .illegal 3 else if (fld w 17 3) = 7 then .ok (.enq c (fld w 3 7)) else .ok (.enqPred c (fld w 17 3) (fld w 3 7))
  | _ => .illegal 2

/-- The word `w` in slot `slot` of a packet of the main stream, with the raw bits of the next slot `lit`
(R171, R176, R179). -/
def decodeMain (slot w lit : Nat) : Decoded :=
  let c := fld w 31 1 = 1
  match fld w 26 5 with
  | 0 => if w = 0 then .ok .nop else .illegal 1
  | 9 => decodeCvt slot w lit c
  | 1 => decodeSR slot w lit c
  | 2 => decodeSI slot w lit c
  | 3 => decodeSB slot w lit c
  | 4 => decodeVR slot w lit c
  | 5 => decodeVI slot w lit c
  | 6 => decodeF32 slot w lit c
  | 7 => decodeFMA slot w lit c
  | 8 => decodeVC slot w lit c
  | 10 => decodeTR slot w lit c
  | 11 => decodeLX slot w lit c
  | 12 => decodeM slot w lit c
  | 13 => decodeAT slot w lit c
  | 14 => decodeSW slot w lit c
  | 15 => decodeCP slot w lit c
  | 16 => decodeBF slot w lit c
  | 17 => decodeBranch slot w lit c
  | 18 => decodeToken slot w lit c
  | 19 => decodeSY slot w lit c
  | 20 => decodeInv slot w lit c
  | 21 => decodeRD slot w lit c
  | 22 => decodeEQ slot w lit c
  | 31 => decodeHeader w c
  | _ => .illegal 1

/-- A word of the matrix stream (R184, R275, R276): bit 31 first, then the major, the minor and the
reserved fields. -/
def decodeStreamOp (w : Nat) : Except Nat StreamOp :=
  if fld w 31 1 = 1 then .error 3 else
  match fld w 26 5 with
  | 0 => if w = 0 then .ok .mnop else .error 1
  | 1 => match (fld w 22 4) with
    | 0 => if (fld w 0 4) ≠ 0 then .error 3 else if (fld w 4 6) ≠ 0 then .error 3 else .ok (.qmov (fld w 16 6) (fld w 10 6))
    | 1 => if (fld w 0 4) ≠ 0 then .error 3 else .ok (.qadd (fld w 16 6) (fld w 10 6) (fld w 4 6))
    | 2 => if (fld w 0 4) ≠ 0 then .error 3 else .ok (.qsub (fld w 16 6) (fld w 10 6) (fld w 4 6))
    | 3 => if (fld w 0 4) ≠ 0 then .error 3 else .ok (.qmul (fld w 16 6) (fld w 10 6) (fld w 4 6))
    | 4 => if (fld w 0 4) ≠ 0 then .error 3 else .ok (.qand (fld w 16 6) (fld w 10 6) (fld w 4 6))
    | 5 => if (fld w 0 4) ≠ 0 then .error 3 else .ok (.qor (fld w 16 6) (fld w 10 6) (fld w 4 6))
    | 6 => if (fld w 0 4) ≠ 0 then .error 3 else .ok (.qshl (fld w 16 6) (fld w 10 6) (fld w 4 6))
    | 7 => if (fld w 0 4) ≠ 0 then .error 3 else .ok (.qshr (fld w 16 6) (fld w 10 6) (fld w 4 6))
    | 8 => .ok (.qli (fld w 16 6) (fld w 0 16))
    | 9 => .ok (.qlih (fld w 16 6) (fld w 0 16))
    | 10 => if (fld w 14 2) ≠ 0 then .error 3 else if (fld w 0 1) ≠ 0 then .error 3 else .ok (.qrd (fld w 16 6) (fld w 6 8) (fld w 1 5))
    | _ => .error 2
  | 2 => match (fld w 22 4) with
    | 0 => if (fld w 0 10) ≠ 0 then .error 3 else .ok (.mwait (fld w 16 6) (fld w 10 6))
    | 1 => if (fld w 0 16) ≠ 0 then .error 3 else .ok (.marrive (fld w 16 6))
    | _ => .error 2
  | 3 => match (fld w 22 4) with
    | 0 => .ok (.mloop (fld w 16 6) (fld w 0 16))
    | 1 => .ok (.mkeep (fld w 16 6) (fld w 0 16))
    | 2 => if (fld w 16 6) ≠ 0 then .error 3 else .ok (.mjmp (fld w 0 16))
    | 3 => if (fld w 0 22) ≠ 0 then .error 3 else .ok (.mend)
    | _ => .error 2
  | 4 => match (fld w 22 4) with
    | 0 => if (fld w 18 4) ≠ 0 then .error 2 else if (fld w 12 6) ≠ 0 then .error 3 else .ok (.mma (fld w 0 12))
    | _ => .error 2
  | 5 => match (fld w 22 4) with
    | 0 => if (fld w 0 19) ≠ 0 then .error 3 else .ok (.mzero (fld w 19 3))
    | 1 => .ok (.mload (fld w 19 3) (fld w 12 7) (fld w 6 6) (fld w 0 6))
    | 2 => .ok (.mstore (fld w 19 3) (fld w 12 7) (fld w 6 6) (fld w 0 6))
    | _ => .error 2
  | 6 => match (fld w 22 4) with
    | 0 => if (fld w 16 3) ≠ 0 then .error 3 else if (fld w 0 10) ≠ 0 then .error 3 else .ok (.macq (fld w 19 3) (fld w 10 6))
    | 1 => if (fld w 0 19) ≠ 0 then .error 3 else .ok (.mrel (fld w 19 3))
    | 2 => if (fld w 16 6) ≠ 0 then .error 3 else if (fld w 0 10) ≠ 0 then .error 3 else .ok (.mmask (fld w 10 6))
    | _ => .error 2
  | _ => .error 1

/-- A word of a Carder section (R185, R289, R290); `none` is a reserved OP or a nonzero field that the word
does not use, which ends the walk with CILL. -/
def decodeCarderOp (w : Nat) : Option CarderOp :=
  match fld w 27 5 with
  | 0 => if (fld w 0 27) ≠ 0 then none else some (.cnop)
  | 1 => if (fld w 0 19) ≠ 0 then none else some (.cmov (fld w 23 4) (fld w 19 4))
  | 2 => if (fld w 15 8) ≠ 0 then none else some (.cli (fld w 23 4) (fld w 0 15))
  | 3 => if (fld w 0 15) ≠ 0 then none else some (.cadd (fld w 23 4) (fld w 19 4) (fld w 15 4))
  | 4 => if (fld w 0 15) ≠ 0 then none else some (.csub (fld w 23 4) (fld w 19 4) (fld w 15 4))
  | 5 => if (fld w 0 15) ≠ 0 then none else some (.cmul (fld w 23 4) (fld w 19 4) (fld w 15 4))
  | 6 => if (fld w 0 15) ≠ 0 then none else some (.cand (fld w 23 4) (fld w 19 4) (fld w 15 4))
  | 7 => if (fld w 0 15) ≠ 0 then none else some (.cor (fld w 23 4) (fld w 19 4) (fld w 15 4))
  | 8 => if (fld w 15 4) ≠ 0 then none else some (.caddi (fld w 23 4) (fld w 19 4) (fld w 0 15))
  | 9 => if (fld w 6 13) ≠ 0 then none else some (.cshli (fld w 23 4) (fld w 19 4) (fld w 0 6))
  | 10 => if (fld w 6 13) ≠ 0 then none else some (.cshri (fld w 23 4) (fld w 19 4) (fld w 0 6))
  | 11 => if (fld w 15 4) ≠ 0 then none else some (.crd8 (fld w 23 4) (fld w 19 4) (fld w 0 15))
  | 12 => if (fld w 15 4) ≠ 0 then none else some (.crd16 (fld w 23 4) (fld w 19 4) (fld w 0 15))
  | 13 => if (fld w 15 4) ≠ 0 then none else some (.crd32 (fld w 23 4) (fld w 19 4) (fld w 0 15))
  | 14 => if (fld w 15 4) ≠ 0 then none else some (.crd64 (fld w 23 4) (fld w 19 4) (fld w 0 15))
  | 15 => if (fld w 0 15) ≠ 0 ∨ (fld w 23 4) ≠ 0 then none else some (.cemit8 (fld w 19 4) (fld w 15 4))
  | 16 => if (fld w 0 15) ≠ 0 ∨ (fld w 23 4) ≠ 0 then none else some (.cemit16 (fld w 19 4) (fld w 15 4))
  | 17 => if (fld w 0 15) ≠ 0 ∨ (fld w 23 4) ≠ 0 then none else some (.cemit32 (fld w 19 4) (fld w 15 4))
  | 18 => if (fld w 8 7) ≠ 0 ∨ (fld w 23 4) ≠ 0 then none else some (.cbeq (fld w 19 4) (fld w 15 4) (fld w 0 8))
  | 19 => if (fld w 8 7) ≠ 0 ∨ (fld w 23 4) ≠ 0 then none else some (.cbne (fld w 19 4) (fld w 15 4) (fld w 0 8))
  | 20 => if (fld w 8 7) ≠ 0 ∨ (fld w 23 4) ≠ 0 then none else some (.cblt (fld w 19 4) (fld w 15 4) (fld w 0 8))
  | 21 => if (fld w 8 7) ≠ 0 ∨ (fld w 23 4) ≠ 0 then none else some (.cbge (fld w 19 4) (fld w 15 4) (fld w 0 8))
  | 22 => if (fld w 8 19) ≠ 0 then none else some (.cjmp (fld w 0 8))
  | 23 => if (fld w 0 27) ≠ 0 then none else some (.cend)
  | _ => none

/-- The instruction of a matrix stream word. -/
noncomputable def StreamOp.instr : StreamOp → Instr
  | .mnop => .mnop
  | .qmov d a => .qmov d a
  | .qadd d a b => .qadd d a b
  | .qsub d a b => .qsub d a b
  | .qmul d a b => .qmul d a b
  | .qand d a b => .qand d a b
  | .qor d a b => .qor d a b
  | .qshl d a b => .qshl d a b
  | .qshr d a b => .qshr d a b
  | .qli d i => .qli d i
  | .qlih d i => .qlih d i
  | .qrd d w l => .qrd d w l
  | .mwait n k => .mwait n k
  | .marrive n => .marrive n
  | .mloop d o => .mloop d o
  | .mkeep d o => .mkeep d o
  | .mjmp o => .mjmp o
  | .mend => .mend
  | .mma i => .mma i
  | .mzero t => .mzero t
  | .mload t v q n => .mload t v q n
  | .mstore t v q n => .mstore t v q n
  | .macq t q => .macq t q
  | .mrel t => .mrel t
  | .mmask q => .mmask q

/-- The instruction of a Carder word. -/
noncomputable def CarderOp.instr : CarderOp → Instr
  | .cnop => .cnop
  | .cmov d a => .cmov d a
  | .cli d i => .cli d i
  | .cadd d a b => .cadd d a b
  | .csub d a b => .csub d a b
  | .cmul d a b => .cmul d a b
  | .cand d a b => .cand d a b
  | .cor d a b => .cor d a b
  | .caddi d a i => .caddi d a i
  | .cshli d a n => .cshli d a n
  | .cshri d a n => .cshri d a n
  | .crd8 d a i => .crd8 d a i
  | .crd16 d a i => .crd16 d a i
  | .crd32 d a i => .crd32 d a i
  | .crd64 d a i => .crd64 d a i
  | .cemit8 a b => .cemit8 a b
  | .cemit16 a b => .cemit16 a b
  | .cemit32 a b => .cemit32 a b
  | .cbeq a b t => .cbeq a b t
  | .cbne a b t => .cbne a b t
  | .cblt a b t => .cblt a b t
  | .cbge a b t => .cbge a b t
  | .cjmp t => .cjmp t
  | .cend => .cend

/-- A word of the matrix stream as an instruction (R184). -/
noncomputable def decodeStream (w : Nat) : Decoded :=
  match decodeStreamOp w with
  | .ok o => .ok o.instr
  | .error sub => .illegal sub

/-- A word of a Carder section as an instruction (R185). -/
noncomputable def decodeCarder (w : Nat) : Option Instr :=
  match decodeCarderOp w with
  | some o => some o.instr
  | none => none

/-- The three instruction sets. -/
inductive WordSet where
  | main
  | stream
  | carder
  deriving DecidableEq, Repr

/-- The instruction set that a lone word of the opcode table is read in, the first that has it: with bit 31 set the
Carder, since a main-stream word with its chain bit does not issue alone; then the main stream (in slot 1, with a
literal slot of zeros), the matrix stream, the Carder (log entry 5). -/
def wordSet (v : Nat) : WordSet :=
  if fld v 31 1 = 1 ∧ (decodeCarderOp v).isSome = true then .carder
  else match decodeMain 1 v 0 with
    | .ok _ => .main
    | .illegal _ => match decodeStreamOp v with
      | .ok _ => .stream
      | .error _ => .carder

/-- The instruction read from a word whose bits the opcode table numbers: the word is laid out in its four
bytes, and read in its instruction set. -/
noncomputable def decodeTableWord (nbits w : Nat) : Option Instr :=
  if nbits = 32 ∧ w < 4294967296 then
    let v := wordOfBytes (bytesOfWord w)
    match wordSet v with
    | .carder => decodeCarder v
    | .main => match decodeMain 1 v 0 with
      | .ok i => some i
      | .illegal _ => none
    | .stream => match decodeStream v with
      | .ok i => some i
      | .illegal _ => none
  else none

/-- The words of a well-formed instruction: its word, and the literal of the next slot where it has one.
A step without an encoding has no word. -/
def encode : Instr → List Nat
  | .clause w a b l y => [2080374784 + w * 16384 + a * 1024 + b * 64 + l * 2 + y]
  | .nop => [0]
  | .sMovB32 c d b => [67108864 + c.toNat * 2147483648 + d * 1024 + b]
  | .sAddN32 c d b => [68157440 + c.toNat * 2147483648 + d * 1024 + b]
  | .sSubN32 c d b => [69206016 + c.toNat * 2147483648 + d * 1024 + b]
  | .sMulN32 c d b => [70254592 + c.toNat * 2147483648 + d * 1024 + b]
  | .sMulhiN32 c d b => [71303168 + c.toNat * 2147483648 + d * 1024 + b]
  | .sMulhiS32 c d b => [72351744 + c.toNat * 2147483648 + d * 1024 + b]
  | .sAndB32 c d b => [73400320 + c.toNat * 2147483648 + d * 1024 + b]
  | .sOrB32 c d b => [74448896 + c.toNat * 2147483648 + d * 1024 + b]
  | .sXorB32 c d b => [75497472 + c.toNat * 2147483648 + d * 1024 + b]
  | .sNotB32 c d b => [76546048 + c.toNat * 2147483648 + d * 1024 + b]
  | .sShlB32 c d b => [77594624 + c.toNat * 2147483648 + d * 1024 + b]
  | .sShrN32 c d b => [78643200 + c.toNat * 2147483648 + d * 1024 + b]
  | .sShrS32 c d b => [79691776 + c.toNat * 2147483648 + d * 1024 + b]
  | .sMinN32 c d b => [80740352 + c.toNat * 2147483648 + d * 1024 + b]
  | .sMinS32 c d b => [81788928 + c.toNat * 2147483648 + d * 1024 + b]
  | .sMaxN32 c d b => [82837504 + c.toNat * 2147483648 + d * 1024 + b]
  | .sMaxS32 c d b => [83886080 + c.toNat * 2147483648 + d * 1024 + b]
  | .sMovB64 c d b => [84934656 + c.toNat * 2147483648 + d * 1024 + b]
  | .sAddN64 c d b => [85983232 + c.toNat * 2147483648 + d * 1024 + b]
  | .sSubN64 c d b => [87031808 + c.toNat * 2147483648 + d * 1024 + b]
  | .sMulN64 c d b => [88080384 + c.toNat * 2147483648 + d * 1024 + b]
  | .sAndB64 c d b => [89128960 + c.toNat * 2147483648 + d * 1024 + b]
  | .sOrB64 c d b => [90177536 + c.toNat * 2147483648 + d * 1024 + b]
  | .sXorB64 c d b => [91226112 + c.toNat * 2147483648 + d * 1024 + b]
  | .sShlB64 c d b => [92274688 + c.toNat * 2147483648 + d * 1024 + b]
  | .sShrN64 c d b => [93323264 + c.toNat * 2147483648 + d * 1024 + b]
  | .sShrS64 c d b => [94371840 + c.toNat * 2147483648 + d * 1024 + b]
  | .siMovB32 c d i => (134217728 + c.toNat * 2147483648 + d * 4096 + i.field 2048) :: i.literal
  | .siAddN32 c d i => (138412032 + c.toNat * 2147483648 + d * 4096 + i.field 2048) :: i.literal
  | .siMulN32 c d i => (142606336 + c.toNat * 2147483648 + d * 4096 + i.field 2048) :: i.literal
  | .siAndB32 c d i => (146800640 + c.toNat * 2147483648 + d * 4096 + i.field 2048) :: i.literal
  | .siOrB32 c d i => (150994944 + c.toNat * 2147483648 + d * 4096 + i.field 2048) :: i.literal
  | .siXorB32 c d i => (155189248 + c.toNat * 2147483648 + d * 4096 + i.field 2048) :: i.literal
  | .siShlB32 c d i => (159383552 + c.toNat * 2147483648 + d * 4096 + i.field 2048) :: i.literal
  | .siShrN32 c d i => (163577856 + c.toNat * 2147483648 + d * 4096 + i.field 2048) :: i.literal
  | .siShrS32 c d i => (167772160 + c.toNat * 2147483648 + d * 4096 + i.field 2048) :: i.literal
  | .siMovB64 c d i => (171966464 + c.toNat * 2147483648 + d * 4096 + i.field 2048) :: i.literal
  | .siAddN64 c d i => (176160768 + c.toNat * 2147483648 + d * 4096 + i.field 2048) :: i.literal
  | .beq c a b o => (201326592 + c.toNat * 2147483648 + a * 8192 + b * 64 + o.field 32) :: o.literal
  | .bne c a b o => (209715200 + c.toNat * 2147483648 + a * 8192 + b * 64 + o.field 32) :: o.literal
  | .bltS32 c a b o => (218103808 + c.toNat * 2147483648 + a * 8192 + b * 64 + o.field 32) :: o.literal
  | .bgeS32 c a b o => (226492416 + c.toNat * 2147483648 + a * 8192 + b * 64 + o.field 32) :: o.literal
  | .bltN32 c a b o => (234881024 + c.toNat * 2147483648 + a * 8192 + b * 64 + o.field 32) :: o.literal
  | .bgeN32 c a b o => (243269632 + c.toNat * 2147483648 + a * 8192 + b * 64 + o.field 32) :: o.literal
  | .vAddN32 c d a s b => [268435456 + c.toNat * 2147483648 + d * 32768 + a * 256 + s * 128 + b]
  | .vSubN32 c d a s b => [272629760 + c.toNat * 2147483648 + d * 32768 + a * 256 + s * 128 + b]
  | .vMulN32 c d a s b => [276824064 + c.toNat * 2147483648 + d * 32768 + a * 256 + s * 128 + b]
  | .vMulhiN32 c d a s b => [281018368 + c.toNat * 2147483648 + d * 32768 + a * 256 + s * 128 + b]
  | .vMulhiS32 c d a s b => [285212672 + c.toNat * 2147483648 + d * 32768 + a * 256 + s * 128 + b]
  | .vAndB32 c d a s b => [289406976 + c.toNat * 2147483648 + d * 32768 + a * 256 + s * 128 + b]
  | .vOrB32 c d a s b => [293601280 + c.toNat * 2147483648 + d * 32768 + a * 256 + s * 128 + b]
  | .vXorB32 c d a s b => [297795584 + c.toNat * 2147483648 + d * 32768 + a * 256 + s * 128 + b]
  | .vShlB32 c d a s b => [301989888 + c.toNat * 2147483648 + d * 32768 + a * 256 + s * 128 + b]
  | .vShrN32 c d a s b => [306184192 + c.toNat * 2147483648 + d * 32768 + a * 256 + s * 128 + b]
  | .vShrS32 c d a s b => [310378496 + c.toNat * 2147483648 + d * 32768 + a * 256 + s * 128 + b]
  | .vMinN32 c d a s b => [314572800 + c.toNat * 2147483648 + d * 32768 + a * 256 + s * 128 + b]
  | .vMinS32 c d a s b => [318767104 + c.toNat * 2147483648 + d * 32768 + a * 256 + s * 128 + b]
  | .vMaxN32 c d a s b => [322961408 + c.toNat * 2147483648 + d * 32768 + a * 256 + s * 128 + b]
  | .vMaxS32 c d a s b => [327155712 + c.toNat * 2147483648 + d * 32768 + a * 256 + s * 128 + b]
  | .vAddsatS32 c d a s b => [331350016 + c.toNat * 2147483648 + d * 32768 + a * 256 + s * 128 + b]
  | .viAddN32 c d a i => (335544320 + c.toNat * 2147483648 + d * 32768 + a * 256 + i.field 128) :: i.literal
  | .viSubN32 c d a i => (339738624 + c.toNat * 2147483648 + d * 32768 + a * 256 + i.field 128) :: i.literal
  | .viMulN32 c d a i => (343932928 + c.toNat * 2147483648 + d * 32768 + a * 256 + i.field 128) :: i.literal
  | .viMulhiN32 c d a i => (348127232 + c.toNat * 2147483648 + d * 32768 + a * 256 + i.field 128) :: i.literal
  | .viMulhiS32 c d a i => (352321536 + c.toNat * 2147483648 + d * 32768 + a * 256 + i.field 128) :: i.literal
  | .viAndB32 c d a i => (356515840 + c.toNat * 2147483648 + d * 32768 + a * 256 + i.field 128) :: i.literal
  | .viOrB32 c d a i => (360710144 + c.toNat * 2147483648 + d * 32768 + a * 256 + i.field 128) :: i.literal
  | .viXorB32 c d a i => (364904448 + c.toNat * 2147483648 + d * 32768 + a * 256 + i.field 128) :: i.literal
  | .viShlB32 c d a i => (369098752 + c.toNat * 2147483648 + d * 32768 + a * 256 + i.field 128) :: i.literal
  | .viShrN32 c d a i => (373293056 + c.toNat * 2147483648 + d * 32768 + a * 256 + i.field 128) :: i.literal
  | .viShrS32 c d a i => (377487360 + c.toNat * 2147483648 + d * 32768 + a * 256 + i.field 128) :: i.literal
  | .viMinN32 c d a i => (381681664 + c.toNat * 2147483648 + d * 32768 + a * 256 + i.field 128) :: i.literal
  | .viMinS32 c d a i => (385875968 + c.toNat * 2147483648 + d * 32768 + a * 256 + i.field 128) :: i.literal
  | .viMaxN32 c d a i => (390070272 + c.toNat * 2147483648 + d * 32768 + a * 256 + i.field 128) :: i.literal
  | .viMaxS32 c d a i => (394264576 + c.toNat * 2147483648 + d * 32768 + a * 256 + i.field 128) :: i.literal
  | .faddF32 c d a s b => [402653184 + c.toNat * 2147483648 + d * 32768 + a * 256 + s * 128 + b]
  | .fsubF32 c d a s b => [406847488 + c.toNat * 2147483648 + d * 32768 + a * 256 + s * 128 + b]
  | .fmulF32 c d a s b => [411041792 + c.toNat * 2147483648 + d * 32768 + a * 256 + s * 128 + b]
  | .fminF32 c d a s b => [415236096 + c.toNat * 2147483648 + d * 32768 + a * 256 + s * 128 + b]
  | .fmaxF32 c d a s b => [419430400 + c.toNat * 2147483648 + d * 32768 + a * 256 + s * 128 + b]
  | .fabsF32 c d a => [423624704 + c.toNat * 2147483648 + d * 32768 + a * 256]
  | .fnegF32 c d a => [427819008 + c.toNat * 2147483648 + d * 32768 + a * 256]
  | .fcpsgnF32 c d a s b => [432013312 + c.toNat * 2147483648 + d * 32768 + a * 256 + s * 128 + b]
  | .fmaF32 c d a s b => [469762048 + c.toNat * 2147483648 + d * 32768 + a * 256 + s * 128 + b]
  | .fnmaF32 c d a s b => [473956352 + c.toNat * 2147483648 + d * 32768 + a * 256 + s * 128 + b]
  | .faddF16 c d a s b => [478150656 + c.toNat * 2147483648 + d * 32768 + a * 256 + s * 128 + b]
  | .fsubF16 c d a s b => [482344960 + c.toNat * 2147483648 + d * 32768 + a * 256 + s * 128 + b]
  | .fmulF16 c d a s b => [486539264 + c.toNat * 2147483648 + d * 32768 + a * 256 + s * 128 + b]
  | .fmaF16 c d a s b => [490733568 + c.toNat * 2147483648 + d * 32768 + a * 256 + s * 128 + b]
  | .faddBf16 c d a s b => [494927872 + c.toNat * 2147483648 + d * 32768 + a * 256 + s * 128 + b]
  | .fsubBf16 c d a s b => [499122176 + c.toNat * 2147483648 + d * 32768 + a * 256 + s * 128 + b]
  | .fmulBf16 c d a s b => [503316480 + c.toNat * 2147483648 + d * 32768 + a * 256 + s * 128 + b]
  | .fmaBf16 c d a s b => [507510784 + c.toNat * 2147483648 + d * 32768 + a * 256 + s * 128 + b]
  | .fminF16 c d a s b => [511705088 + c.toNat * 2147483648 + d * 32768 + a * 256 + s * 128 + b]
  | .fmaxF16 c d a s b => [515899392 + c.toNat * 2147483648 + d * 32768 + a * 256 + s * 128 + b]
  | .fminBf16 c d a s b => [520093696 + c.toNat * 2147483648 + d * 32768 + a * 256 + s * 128 + b]
  | .fmaxBf16 c d a s b => [524288000 + c.toNat * 2147483648 + d * 32768 + a * 256 + s * 128 + b]
  | .vcmpEq c t p a s b => [536870912 + c.toNat * 2147483648 + t * 2097152 + p * 32768 + a * 256 + s * 128 + b]
  | .vcmpNe c t p a s b => [545259520 + c.toNat * 2147483648 + t * 2097152 + p * 32768 + a * 256 + s * 128 + b]
  | .vcmpLt c t p a s b => [553648128 + c.toNat * 2147483648 + t * 2097152 + p * 32768 + a * 256 + s * 128 + b]
  | .vcmpLe c t p a s b => [562036736 + c.toNat * 2147483648 + t * 2097152 + p * 32768 + a * 256 + s * 128 + b]
  | .vcmpGt c t p a s b => [570425344 + c.toNat * 2147483648 + t * 2097152 + p * 32768 + a * 256 + s * 128 + b]
  | .vcmpGe c t p a s b => [578813952 + c.toNat * 2147483648 + t * 2097152 + p * 32768 + a * 256 + s * 128 + b]
  | .pand c d a b => [587202560 + c.toNat * 2147483648 + d * 32768 + a * 256 + b]
  | .por c d a b => [589299712 + c.toNat * 2147483648 + d * 32768 + a * 256 + b]
  | .pxor c d a b => [591396864 + c.toNat * 2147483648 + d * 32768 + a * 256 + b]
  | .pnot c d a => [593494016 + c.toNat * 2147483648 + d * 32768 + a * 256]
  | .cvt c s t r x d a => (603979776 + c.toNat * 2147483648 + s * 4194304 + t * 262144 + r * 32768 + (if x.isSome then 16384 else 0) + d * 128 + a) :: x.toList
  | .rcpF32 c d a => [671088640 + c.toNat * 2147483648 + d * 32768 + a * 256]
  | .rsqrtF32 c d a => [675282944 + c.toNat * 2147483648 + d * 32768 + a * 256]
  | .sqrtF32 c d a => [679477248 + c.toNat * 2147483648 + d * 32768 + a * 256]
  | .exp2F32 c d a => [683671552 + c.toNat * 2147483648 + d * 32768 + a * 256]
  | .log2F32 c d a => [687865856 + c.toNat * 2147483648 + d * 32768 + a * 256]
  | .sinpiF32 c d a => [692060160 + c.toNat * 2147483648 + d * 32768 + a * 256]
  | .cospiF32 c d a => [696254464 + c.toNat * 2147483648 + d * 32768 + a * 256]
  | .tanhF32 c d a => [700448768 + c.toNat * 2147483648 + d * 32768 + a * 256]
  | .sigmF32 c d a => [704643072 + c.toNat * 2147483648 + d * 32768 + a * 256]
  | .erfF32 c d a => [708837376 + c.toNat * 2147483648 + d * 32768 + a * 256]
  | .vgetB32 c d i w j => [738197504 + c.toNat * 2147483648 + d * 32768 + i * 256 + w * 128 + j]
  | .vputB32 c d i w j => [742391808 + c.toNat * 2147483648 + d * 32768 + i * 256 + w * 128 + j]
  | .xreadB32 c d i w j => [746586112 + c.toNat * 2147483648 + d * 32768 + i * 256 + w * 128 + j]
  | .xwriteB32 c d i w j => [750780416 + c.toNat * 2147483648 + d * 32768 + i * 256 + w * 128 + j]
  | .shflIdxB32 c d i j => [754974720 + c.toNat * 2147483648 + d * 32768 + i * 256 + j]
  | .shflUpB32 c d i j => [759169024 + c.toNat * 2147483648 + d * 32768 + i * 256 + j]
  | .shflDownB32 c d i j => [763363328 + c.toNat * 2147483648 + d * 32768 + i * 256 + j]
  | .shflXorB32 c d i j => [767557632 + c.toNat * 2147483648 + d * 32768 + i * 256 + j]
  | .ballotB32 c d a => [771751936 + c.toNat * 2147483648 + d * 32768 + a * 256]
  | .voteAny c d a => [775946240 + c.toNat * 2147483648 + d * 32768 + a * 256]
  | .voteAll c d a => [780140544 + c.toNat * 2147483648 + d * 32768 + a * 256]
  | .pmovB32 c d a => [784334848 + c.toNat * 2147483648 + d * 32768 + a * 256]
  | .ptestB32 c d i => [788529152 + c.toNat * 2147483648 + d * 32768 + i * 256]
  | .ldB8 c f d i s => [805306368 + c.toNat * 2147483648 + f * 1048576 + d * 8192 + i * 64 + s]
  | .ldB16 c f d i s => [809500672 + c.toNat * 2147483648 + f * 1048576 + d * 8192 + i * 64 + s]
  | .ldB32 c f d i s => [813694976 + c.toNat * 2147483648 + f * 1048576 + d * 8192 + i * 64 + s]
  | .ldB8Fa c f d i s => [817889280 + c.toNat * 2147483648 + f * 1048576 + d * 8192 + i * 64 + s]
  | .ldB16Fa c f d i s => [822083584 + c.toNat * 2147483648 + f * 1048576 + d * 8192 + i * 64 + s]
  | .ldB32Fa c f d i s => [826277888 + c.toNat * 2147483648 + f * 1048576 + d * 8192 + i * 64 + s]
  | .ldB8Fb c f d i s => [830472192 + c.toNat * 2147483648 + f * 1048576 + d * 8192 + i * 64 + s]
  | .ldB16Fb c f d i s => [834666496 + c.toNat * 2147483648 + f * 1048576 + d * 8192 + i * 64 + s]
  | .ldB32Fb c f d i s => [838860800 + c.toNat * 2147483648 + f * 1048576 + d * 8192 + i * 64 + s]
  | .stB8 c f d i s => [843055104 + c.toNat * 2147483648 + f * 1048576 + d * 8192 + i * 64 + s]
  | .stB16 c f d i s => [847249408 + c.toNat * 2147483648 + f * 1048576 + d * 8192 + i * 64 + s]
  | .stB32 c f d i s => [851443712 + c.toNat * 2147483648 + f * 1048576 + d * 8192 + i * 64 + s]
  | .ldScalarAddress c z f e o k d s => [855638016 + c.toNat * 2147483648 + z * 1048576 + f * 262144 + e * 131072 + o * 65536 + k * 8192 + d * 64 + s]
  | .stScalarAddress c z e o k d s => [859832320 + c.toNat * 2147483648 + z * 1048576 + e * 131072 + o * 65536 + k * 8192 + d * 64 + s]
  | .atomAddN32 c o k f d u a => [872415232 + c.toNat * 2147483648 + o * 1048576 + k * 131072 + f * 32768 + d * 256 + u * 128 + a]
  | .atomAddN64 c o k f d u a => [876609536 + c.toNat * 2147483648 + o * 1048576 + k * 131072 + f * 32768 + d * 256 + u * 128 + a]
  | .atomAddF32 c o k f d u a => [880803840 + c.toNat * 2147483648 + o * 1048576 + k * 131072 + f * 32768 + d * 256 + u * 128 + a]
  | .atomMinS32 c o k f d u a => [884998144 + c.toNat * 2147483648 + o * 1048576 + k * 131072 + f * 32768 + d * 256 + u * 128 + a]
  | .atomMinN32 c o k f d u a => [889192448 + c.toNat * 2147483648 + o * 1048576 + k * 131072 + f * 32768 + d * 256 + u * 128 + a]
  | .atomMaxS32 c o k f d u a => [893386752 + c.toNat * 2147483648 + o * 1048576 + k * 131072 + f * 32768 + d * 256 + u * 128 + a]
  | .atomMaxN32 c o k f d u a => [897581056 + c.toNat * 2147483648 + o * 1048576 + k * 131072 + f * 32768 + d * 256 + u * 128 + a]
  | .atomAndB32 c o k f d u a => [901775360 + c.toNat * 2147483648 + o * 1048576 + k * 131072 + f * 32768 + d * 256 + u * 128 + a]
  | .atomOrB32 c o k f d u a => [905969664 + c.toNat * 2147483648 + o * 1048576 + k * 131072 + f * 32768 + d * 256 + u * 128 + a]
  | .atomXorB32 c o k f d u a => [910163968 + c.toNat * 2147483648 + o * 1048576 + k * 131072 + f * 32768 + d * 256 + u * 128 + a]
  | .atomXchgB32 c o k f d u a => [914358272 + c.toNat * 2147483648 + o * 1048576 + k * 131072 + f * 32768 + d * 256 + u * 128 + a]
  | .atomCasB32 c o k f d u a => [918552576 + c.toNat * 2147483648 + o * 1048576 + k * 131072 + f * 32768 + d * 256 + u * 128 + a]
  | .atomXchgB64 c o k f d u a => [922746880 + c.toNat * 2147483648 + o * 1048576 + k * 131072 + f * 32768 + d * 256 + u * 128 + a]
  | .atomCasB64 c o k f d u a => [926941184 + c.toNat * 2147483648 + o * 1048576 + k * 131072 + f * 32768 + d * 256 + u * 128 + a]
  | .swldB32 c f d h => [939524096 + c.toNat * 2147483648 + f * 1048576 + d * 8192 + h * 64]
  | .swstB32 c d h n => [943718400 + c.toNat * 2147483648 + d * 8192 + h * 64 + n]
  | .swatomAddN32 c f d h n => [947912704 + c.toNat * 2147483648 + f * 1048576 + d * 8192 + h * 64 + n]
  | .swatomCasB32 c f d h n => [952107008 + c.toNat * 2147483648 + f * 1048576 + d * 8192 + h * 64 + n]
  | .swredAddN32 c d h n => [956301312 + c.toNat * 2147483648 + d * 8192 + h * 64 + n]
  | .swredOrB32 c d h n => [960495616 + c.toNat * 2147483648 + d * 8192 + h * 64 + n]
  | .swldB32Far c f d h => [973078528 + c.toNat * 2147483648 + f * 1048576 + d * 8192 + h * 64]
  | .swstB32Far c d h n => [977272832 + c.toNat * 2147483648 + d * 8192 + h * 64 + n]
  | .swatomAddN32Far c f d h n => [981467136 + c.toNat * 2147483648 + f * 1048576 + d * 8192 + h * 64 + n]
  | .swatomCasB32Far c f d h n => [985661440 + c.toNat * 2147483648 + f * 1048576 + d * 8192 + h * 64 + n]
  | .swredAddN32Far c d h n => [989855744 + c.toNat * 2147483648 + d * 8192 + h * 64 + n]
  | .swredOrB32Far c d h n => [994050048 + c.toNat * 2147483648 + d * 8192 + h * 64 + n]
  | .exportSwatch c i => [1002438656 + c.toNat * 2147483648 + i]
  | .copyRows c w d s n => [1006632960 + c.toNat * 2147483648 + w * 2097152 + d * 16384 + s * 128 + n * 2]
  | .copyCol c d s n => [1010827264 + c.toNat * 2147483648 + d * 16384 + s * 128 + n * 2]
  | .copyRowsX24 c w d s n => [1015021568 + c.toNat * 2147483648 + w * 2097152 + d * 16384 + s * 128 + n * 2]
  | .copySwatch c w d s n => [1019215872 + c.toNat * 2147483648 + w * 2097152 + d * 16384 + s * 128 + n * 2]
  | .copyOutTeam c w d s n => [1023410176 + c.toNat * 2147483648 + w * 2097152 + d * 16384 + s * 128 + n * 2]
  | .copyOutClu c w d s n => [1027604480 + c.toNat * 2147483648 + w * 2097152 + d * 16384 + s * 128 + n * 2]
  | .copyOutDie c w d s n => [1031798784 + c.toNat * 2147483648 + w * 2097152 + d * 16384 + s * 128 + n * 2]
  | .copyOutMod c w d s n => [1035993088 + c.toNat * 2147483648 + w * 2097152 + d * 16384 + s * 128 + n * 2]
  | .copyOutSys c w d s n => [1040187392 + c.toNat * 2147483648 + w * 2097152 + d * 16384 + s * 128 + n * 2]
  | .copyOutC24Team c w d s n => [1044381696 + c.toNat * 2147483648 + w * 2097152 + d * 16384 + s * 128 + n * 2]
  | .copyOutC24Clu c w d s n => [1048576000 + c.toNat * 2147483648 + w * 2097152 + d * 16384 + s * 128 + n * 2]
  | .copyOutC24Die c w d s n => [1052770304 + c.toNat * 2147483648 + w * 2097152 + d * 16384 + s * 128 + n * 2]
  | .copyOutC24Mod c w d s n => [1056964608 + c.toNat * 2147483648 + w * 2097152 + d * 16384 + s * 128 + n * 2]
  | .copyOutC24Sys c w d s n => [1061158912 + c.toNat * 2147483648 + w * 2097152 + d * 16384 + s * 128 + n * 2]
  | .walk c w d s n => [1065353216 + c.toNat * 2147483648 + w * 2097152 + d * 16384 + s * 128 + n * 2]
  | .gather c i => [1069547520 + c.toNat * 2147483648 + i]
  | .scatter c i => [1069809664 + c.toNat * 2147483648 + i]
  | .shbind c i => [1070071808 + c.toNat * 2147483648 + i]
  | .shbindOff c i => [1070333952 + c.toNat * 2147483648 + i]
  | .arrive c n => [1073741824 + c.toNat * 2147483648 + n * 8192]
  | .binit c n s => [1077936128 + c.toNat * 2147483648 + n * 8192 + s]
  | .bread c n s => [1082130432 + c.toNat * 2147483648 + n * 8192 + s]
  | .twait c p n s => [1086324736 + c.toNat * 2147483648 + p * 524288 + n * 8192 + s]
  | .swap c n => [1090519040 + c.toNat * 2147483648 + n * 8192]
  | .fence c k => [1094713344 + c.toNat * 2147483648 + k * 1024]
  | .cbatch c s => [1098907648 + c.toNat * 2147483648 + s]
  | .waitb c s => [1103101952 + c.toNat * 2147483648 + s]
  | .waitbPred c p s => [1107296256 + c.toNat * 2147483648 + p * 524288 + s]
  | .bra c p o => (1140850688 + c.toNat * 2147483648 + p * 262144 + o.field 8192) :: o.literal
  | .braU c p o => (1142947840 + c.toNat * 2147483648 + p * 262144 + o.field 8192) :: o.literal
  | .call c d o => (1145044992 + c.toNat * 2147483648 + d * 4096 + o.field 2048) :: o.literal
  | .ret c d => [1149239296 + c.toNat * 2147483648 + d * 4096]
  | .exit c => [1153433600 + c.toNat * 2147483648]
  | .mark c o => (1207959552 + c.toNat * 2147483648 + o.field 8192) :: o.literal
  | .join c => [1212153856 + c.toNat * 2147483648]
  | .brk c p n => [1216348160 + c.toNat * 2147483648 + p * 262144 + n * 16384]
  | .regang c n => [1220542464 + c.toNat * 2147483648 + n * 16384]
  | .sgetScalar c r d => [1275068416 + c.toNat * 2147483648 + r * 65536 + d]
  | .sgetVector c r d => [1277165568 + c.toNat * 2147483648 + r * 65536 + d]
  | .sput c r s => [1279262720 + c.toNat * 2147483648 + r * 65536 + s]
  | .trap c n => [1283457024 + c.toNat * 2147483648 + n]
  | .trapRegisterHandler c => [1283457056 + c.toNat * 2147483648]
  | .trapKillService c => [1283457057 + c.toNat * 2147483648]
  | .rte c => [1287651328 + c.toNat * 2147483648]
  | .inv c i => [1342177280 + c.toNat * 2147483648 + i]
  | .vredAddF32 c d a s => [1409286144 + c.toNat * 2147483648 + d * 32768 + a * 256 + s * 128]
  | .vredAddN32 c d a s => [1413480448 + c.toNat * 2147483648 + d * 32768 + a * 256 + s * 128]
  | .vredMinF32 c d a s => [1417674752 + c.toNat * 2147483648 + d * 32768 + a * 256 + s * 128]
  | .vredMaxF32 c d a s => [1421869056 + c.toNat * 2147483648 + d * 32768 + a * 256 + s * 128]
  | .vredMinS32 c d a s => [1426063360 + c.toNat * 2147483648 + d * 32768 + a * 256 + s * 128]
  | .vredMaxS32 c d a s => [1430257664 + c.toNat * 2147483648 + d * 32768 + a * 256 + s * 128]
  | .vredAndB32 c d a s => [1434451968 + c.toNat * 2147483648 + d * 32768 + a * 256 + s * 128]
  | .vredOrB32 c d a s => [1438646272 + c.toNat * 2147483648 + d * 32768 + a * 256 + s * 128]
  | .vredLmF32 c d a s m => [1442840576 + c.toNat * 2147483648 + d * 32768 + a * 256 + s * 128 + m]
  | .vredLmBf16 c d a s m => [1447034880 + c.toNat * 2147483648 + d * 32768 + a * 256 + s * 128 + m]
  | .bump c p d s => [1476395008 + c.toNat * 2147483648 + p * 131072 + d * 1024 + s * 8]
  | .appendB32 c f p d s => [1480589312 + c.toNat * 2147483648 + f * 1048576 + p * 131072 + d * 1024 + s * 8]
  | .appendB64 c f p d s => [1484783616 + c.toNat * 2147483648 + f * 1048576 + p * 131072 + d * 1024 + s * 8]
  | .enq c s => [1489895424 + c.toNat * 2147483648 + s * 8]
  | .enqPred c p s => [1488977920 + c.toNat * 2147483648 + p * 131072 + s * 8]
  | .mnop => [0]
  | .qmov d a => [67108864 + d * 65536 + a * 1024]
  | .qadd d a b => [71303168 + d * 65536 + a * 1024 + b * 16]
  | .qsub d a b => [75497472 + d * 65536 + a * 1024 + b * 16]
  | .qmul d a b => [79691776 + d * 65536 + a * 1024 + b * 16]
  | .qand d a b => [83886080 + d * 65536 + a * 1024 + b * 16]
  | .qor d a b => [88080384 + d * 65536 + a * 1024 + b * 16]
  | .qshl d a b => [92274688 + d * 65536 + a * 1024 + b * 16]
  | .qshr d a b => [96468992 + d * 65536 + a * 1024 + b * 16]
  | .qli d i => [100663296 + d * 65536 + i]
  | .qlih d i => [104857600 + d * 65536 + i]
  | .qrd d w l => [109051904 + d * 65536 + w * 64 + l * 2]
  | .mwait n k => [134217728 + n * 65536 + k * 1024]
  | .marrive n => [138412032 + n * 65536]
  | .mloop d o => [201326592 + d * 65536 + o]
  | .mkeep d o => [205520896 + d * 65536 + o]
  | .mjmp o => [209715200 + o]
  | .mend => [213909504]
  | .mma i => [268435456 + i]
  | .mzero t => [335544320 + t * 524288]
  | .mload t v q n => [339738624 + t * 524288 + v * 4096 + q * 64 + n]
  | .mstore t v q n => [343932928 + t * 524288 + v * 4096 + q * 64 + n]
  | .macq t q => [402653184 + t * 524288 + q * 1024]
  | .mrel t => [406847488 + t * 524288]
  | .mmask q => [411041792 + q * 1024]
  | .cnop => [0]
  | .cmov d a => [134217728 + d * 8388608 + a * 524288]
  | .cli d i => [268435456 + d * 8388608 + i]
  | .cadd d a b => [402653184 + d * 8388608 + a * 524288 + b * 32768]
  | .csub d a b => [536870912 + d * 8388608 + a * 524288 + b * 32768]
  | .cmul d a b => [671088640 + d * 8388608 + a * 524288 + b * 32768]
  | .cand d a b => [805306368 + d * 8388608 + a * 524288 + b * 32768]
  | .cor d a b => [939524096 + d * 8388608 + a * 524288 + b * 32768]
  | .caddi d a i => [1073741824 + d * 8388608 + a * 524288 + i]
  | .cshli d a n => [1207959552 + d * 8388608 + a * 524288 + n]
  | .cshri d a n => [1342177280 + d * 8388608 + a * 524288 + n]
  | .crd8 d a i => [1476395008 + d * 8388608 + a * 524288 + i]
  | .crd16 d a i => [1610612736 + d * 8388608 + a * 524288 + i]
  | .crd32 d a i => [1744830464 + d * 8388608 + a * 524288 + i]
  | .crd64 d a i => [1879048192 + d * 8388608 + a * 524288 + i]
  | .cemit8 a b => [2013265920 + a * 524288 + b * 32768]
  | .cemit16 a b => [2147483648 + a * 524288 + b * 32768]
  | .cemit32 a b => [2281701376 + a * 524288 + b * 32768]
  | .cbeq a b t => [2415919104 + a * 524288 + b * 32768 + t]
  | .cbne a b t => [2550136832 + a * 524288 + b * 32768 + t]
  | .cblt a b t => [2684354560 + a * 524288 + b * 32768 + t]
  | .cbge a b t => [2818572288 + a * 524288 + b * 32768 + t]
  | .cjmp t => [2952790016 + t]
  | .cend => [3087007744]
  | .carderReadReturn _ _ => []
  | .walkStepLimit _ => []
  | .powerOn => []
  | .coreStart _ => []
  | .teamPlacement _ => []
  | .stealRequest _ => []
  | .teamRetirement _ => []
  | .trapEntry _ _ => []
  | .timerMatch _ _ => []
  | .twaitTimeout _ _ _ => []
  | .softEvent _ _ => []
  | .trapDeadlane _ _ => []
  | .mirrorBuild _ _ => []
  | .codeFetchReturn _ _ _ => []
  | .translationWalk _ _ _ => []
  | .pseudoChannelRead _ _ => []
  | .pseudoChannelWrite _ _ => []
  | .pseudoChannelAtomic _ _ => []
  | .writeAcknowledge _ _ => []
  | .prefetchIssue _ _ => []
  | .loadSectorLanding _ _ => []
  | .atomicReplyLanding _ _ => []
  | .copySectorLanding _ _ => []
  | .copySectorFault _ _ => []
  | .gatherEngineRequest _ _ => []
  | .gatherReplyLanding _ => []
  | .scatterPositionApply _ _ => []
  | .appendApply _ => []
  | .bumpApply _ => []
  | .outlierListRequest _ => []
  | .outlierReply _ => []
  | .swatchAccessArrival _ => []
  | .swatchLanding _ => []
  | .swatchReplyLanding _ => []
  | .swatchDeliveryArrival _ _ => []
  | .swatchDeliveryLanded _ _ => []
  | .mmaSegment _ => []
  | .tileWordCompletion _ => []
  | .macqGrant _ => []
  | .macqDeadlockFail _ => []
  | .arrayPowerGate _ _ => []
  | .preemptionStop _ => []
  | .teamRestore _ => []
  | .pendingScan _ _ => []
  | .headPoll _ => []
  | .kernel _ => []
  | .cond _ => []
  | .wait _ => []
  | .tokenWaitSatisfied _ => []
  | .signal _ => []
  | .compact _ => []
  | .barrier _ => []
  | .sliceExpiry _ => []
  | .enqRoomRetry _ _ _ => []
  | .watchdogExpiry _ => []
  | .resetComplete _ => []
  | .wdctlReset _ _ => []
  | .hostAccess _ _ _ => []
  | .hostAtomicop _ _ _ _ _ => []
  | .hostCompletionError _ _ => []
  | .completionTimeout _ _ => []
  | .primaryLinkDown => []
  | .registerWrite _ _ _ => []
  | .qcfgWrite _ _ => []
  | .ptrootWrite _ _ => []
  | .shbaseWrite _ _ => []
  | .shsizeWrite _ _ => []
  | .tlbinv _ _ => []
  | .tlbinvComplete _ => []
  | .cluownWrite _ _ => []
  | .ksctlWrite _ _ => []
  | .kskey1Write _ _ => []
  | .kskey2Write _ _ => []
  | .bootgo _ => []
  | .bootCheckComplete => []
  | .attcmdGo _ => []
  | .attestationReportWritten _ => []
  | .alarmpolWrite _ => []
  | .alarmraise _ => []
  | .alarmEvent _ _ _ => []
  | .modidWrite _ => []
  | .optltoWrite _ _ => []
  | .clr _ _ _ => []
  | .widen _ _ _ => []
  | .linkOff _ _ _ _ => []
  | .flitSend _ _ _ => []
  | .dataFlitReceive _ _ _ _ => []
  | .ackReceive _ _ _ _ => []
  | .nakReceive _ _ _ _ => []
  | .replayTimeout _ _ _ => []
  | .ackDelayExpiry _ _ _ => []
  | .retrainComplete _ _ _ _ _ => []
  | .edgeHoldExpiry _ _ => []
  | .rtswap _ _ => []
  | .routeSwapComplete _ => []
  | .classSBlockReceive _ _ _ => []
  | .opticalPortDown _ => []
  | .classLBlockArrival _ _ _ => []
  | .classLTimeout _ => []
  | .powerThrottle _ => []
  | .dieTemperature _ _ => []
  | .ageingMeasurement _ _ _ => []
  | .tmsnapGo _ _ => []
  | .frozenWrite _ _ => []
  | .primaryLinkReturn => []
  | .powerOff => []
  | .paletteSoftError _ _ _ _ => []
  | .hbmUncorrectableError _ => []
  | .invRound _ _ _ => []
  | .flushingReadCompletion _ => []
  | .opticalBlockSend _ => []

end Sys2Proof
end

