-- ==== Sys2Proof/Config.lean ====
section
/-! DEFINITION. What an implementation fixes and the free values. A free value is an opaque constant: nothing
in Lean can evaluate it, so a theorem about it holds whatever it is. Each is named by an assumption-log entry. -/

namespace Sys2Proof.Config

/-- R247: the bits a transcendental gives on operands to which the spec promises a bound and no value, as a
function of the minor (0 rcp to 9 erf), of MODE.FLUSH and of the operand's bits ("a fixed function of the
operand's bits and of FLUSH"). FREE VALUE, log entry 8. -/
opaque transBits : Nat → Bool → Word → Word

/-- R296: whether, at a time in picoseconds since power-on, the host has enabled AtomicOp completion on its port. FREE VALUE,
log entry 126. -/
opaque hostAtomics : Nat → Bool

/-- R338: whether the ROM's SM2 check accepts a firmware image. FREE VALUE, log entry 10. -/
opaque signatureOk : List Byte → Bool

/-- R339: the SM2 signature over a report. FREE VALUE, log entry 10. -/
opaque sm2 : List Byte → List Byte

/-- R334: the fused certificate, byte by byte. FREE VALUE, log entry 11. -/
opaque attCert : Nat → Byte

/-- R379: the fused MARGIN and MAXMARGIN of a cluster. FREE VALUE, log entry 11. -/
opaque fusedMargin : Nat → Nat
/-- R379, as `fusedMargin`. -/
opaque fusedMaxMargin : Nat → Nat

/-- A free value drawn once for each value of the state's counter: the contents of a value the spec leaves
open at a moment of the run. FREE VALUE, log entry 12. -/
opaque freeValue : Nat → Nat

/-- R381: by how much the counter at an offset of a die's telemetry block, ENERGY or HBMCE, rises in a cycle. FREE VALUE, log entry 94. -/
opaque freeRise : Nat → Nat → Nat → Nat

/-- R113, R353: the module of a swatch that this module does not hold, by its handle; the spec does not say how a handle names
another module's swatch. FREE VALUE, log entry 50. -/
opaque handleModule : Nat → Nat

/-- R2, R3: dies of the module. -/
def dies : Nat := 24
/-- R3: clusters of a die. -/
def clustersPerDie : Nat := 16
/-- R3: cores of a cluster. -/
def coresPerCluster : Nat := 8
/-- R3: cores of a die. -/
def coresPerDie : Nat := 128
/-- R2: cores of the module. -/
def cores : Nat := 3072
/-- R34: rows of a core's Palette. -/
def rows : Nat := 16384
/-- R34: rows of the ordinary area. -/
def ordinaryRows : Nat := 12288
/-- R2: request tags of a core. -/
def requestTags : Nat := 1024
/-- R2: element requests of a gather engine, of which a die has one for each stack. -/
def engineRequests : Nat := 4096
/-- R366: rows up to which a core mirrors. -/
def mirrorRows : Nat := 6144
/-- R326: bytes of HBM of a die (192 GiB). -/
def hbmBytes : Nat := 192 * 2 ^ 30

end Sys2Proof.Config
end

