-- ==== Sys2Proof/Machine/Sparse.lean ====
section
/-! DEFINITION. Sparse tables: a list of (key, value) pairs in one canonical form, keys strictly rising and no
entry equal to what an unlisted key reads as. Memory, the Palette and every bank of registers are held so. -/

namespace Sys2Proof.Machine

/-- A table from numbers to `α`, of which only the entries that differ from the default are listed. -/
abbrev Sparse (α : Type) := List (Nat × α)

/-- The value at key `k`, or the default `d` where the table lists none. -/
def sget {α : Type} (d : α) : Sparse α → Nat → α
  | [], _ => d
  | (j, v) :: r, k => if j = k then v else sget d r k

/-- The table without key `k`. -/
def sdel {α : Type} : Sparse α → Nat → Sparse α
  | [], _ => []
  | (j, v) :: r, k => if j = k then sdel r k else (j, v) :: sdel r k

/-- The table with an entry put before the first larger key. -/
def sins {α : Type} : Sparse α → Nat → α → Sparse α
  | [], k, v => [(k, v)]
  | (j, w) :: r, k, v => if k < j then (k, v) :: (j, w) :: r else (j, w) :: sins r k v

/-- The table with key `k` set to `v`; writing the default removes the entry. -/
def sset {α : Type} [DecidableEq α] (d : α) (m : Sparse α) (k : Nat) (v : α) : Sparse α :=
  if v = d then sdel m k else sins (sdel m k) k v

/-- The keys are strictly rising. -/
def srising {α : Type} : Sparse α → Bool
  | [] => true
  | (j, _) :: r => r.all (fun e => decide (j < e.1)) && srising r

/-- The canonical form: keys strictly rising and no default listed. -/
def swf {α : Type} [DecidableEq α] (d : α) (m : Sparse α) : Bool :=
  srising m && m.all (fun e => decide (e.2 ≠ d))

end Sys2Proof.Machine
end

