-- ==== Sys2Proof/Machine/State.lean ====
section
/-! DEFINITION. The state of the whole module as plain data: the groups, teams, cores, clusters, dies, links,
ports, partitions, queues, registers and memory that the spec names, and the model's own agenda of what the
world outside does and who moves next. `State.reset` is the module as R374 leaves it at power-on. -/

namespace Sys2Proof.Machine

open Sys2Proof

/-! ## The Palette -/

/-- R365: what the seven check bits of an element say of it. -/
inductive Ecc where
  | sound | correctable | uncorrectable
  deriving DecidableEq, Repr

/-- R34, R40, R365: one Palette element, its valid bit and the state of its check bits. -/
structure Elem where
  val : Word
  valid : Bool
  ecc : Ecc
  deriving DecidableEq, Repr

/-- An element of a row that nothing has written. -/
def Elem.blank : Elem := ⟨0, false, .sound⟩

/-- The element of a write: fresh check bits, valid (R361, R40). -/
def Elem.of (v : Word) : Elem := ⟨v, true, .sound⟩

/-! ## Groups -/

/-- R231: the address of a word, packet and slot. -/
structure Pc where
  packet : Nat
  slot : Nat
  deriving DecidableEq, Repr

/-- R61: an entry of a slice's token stack; `isMark` is KIND. -/
structure Token where
  isMark : Bool
  target : Nat
  emask : BitVec 4
  deriving DecidableEq, Repr

/-- R61, R172: a slice: its program counter, MASK, token stack (top first), the clause header in force, the
packet past the end of its clause, and whether it has ended. -/
structure Slice where
  pc : Pc
  mask : BitVec 4
  stack : List Token
  hdr : Nat
  hdrEnd : Nat
  ended : Bool
  deriving DecidableEq, Repr

/-- A translation that a word needs: the page of an address and the rights of R329 (1 R, 2 W, 4 X added). -/
structure Need where
  va : Nat
  rights : Nat
  deriving DecidableEq, Repr

/-- What a walk answered for a need: the cause and level of its failure (R332); successes stand in the TLBs. -/
structure Failed where
  need : Need
  cause : Nat
  level : Nat
  deriving DecidableEq, Repr

/-- What a candidate waiting in fault check waits to have room in (R25, R104, R48, R150). -/
inductive Room where
  | copies
  | locks (n : Nat)
  | swatchTable
  | contexts
  | route
  | tags
  deriving DecidableEq, Repr

/-- R25: why a candidate does not issue. `ready` does; every other one names its wait. `enqRoom` keeps the queue and
the packet it offers, which `offer` offers again. `twait` keeps the cycle from which it waits, its predicate, and the barrier
and phase it waits for, `inv` the number of the running `inv`. A `reply` to a word of a chain
lists the chain's requests answered before it; `answered` issues the chain again with its answers (R182). -/
inductive Wait where
  | ready
  | clause
  | flagFull (f : Nat)
  | fetch (va n : Nat)
  | xlate (needs : List Need)
  | reply (req : Nat) (done : Option (List Nat))
  | answered (done : List Nat)
  | fence (reqs : List Nat)
  | acquire (req : Nat)
  | room (r : Room)
  | enqRoom (offer : List Nat)
  | offer (offer : List Nat)
  | twait (since p bar phase : Nat)
  | waitb (batch : Nat)
  | regang (n : Nat)
  | inv (k : Nat)
  deriving DecidableEq, Repr

/-- R14, R31, R71: an issue candidate: the slices it holds in ascending order, its wait, the cycle from which
its age counts, its starvation counter, the failures that walks have answered for its present word, and the answered requests of
its chain, which it keeps while the chain waits for something else (R182). -/
structure Cand where
  slices : List Nat
  wait : Wait
  stamp : Nat
  starve : Nat
  failed : List Failed
  kept : List Nat
  deriving DecidableEq, Repr

/-- R310, R311: a trap: its code, TRAPINFO, the word TRAPPC names, and the slices of the trapping candidate. -/
structure TrapRec where
  code : Nat
  info : Nat
  pc : Pc
  slices : List Nat
  deriving DecidableEq, Repr

/-- R233, R310: what `rte` restores: every slice and every candidate as they stood at trap entry, and the
slices of the candidate that trapped. -/
structure Saved where
  slices : List Slice
  cands : List Cand
  trapped : List Nat
  deriving DecidableEq, Repr

/-- R364: the pending SOFT event: SUB (0 for none), LANES, SPACE and ROW. -/
structure Soft where
  sub : Nat
  lanes : BitVec 32
  space : Nat
  row : Nat
  deriving DecidableEq, Repr

/-- R164, R165, R169: the state of one lane of a running `inv`. `side` is 0 none, 1 LO, 2 HI. -/
structure InvLane where
  lane : Nat
  ylo : Word
  yhi : Word
  glo : Word
  ghi : Word
  side : Nat
  n : Nat
  v : Bool
  malformed : Bool
  u : Bool
  fin : Bool
  deriving DecidableEq, Repr

/-- R161 to R169: a running `inv`: its slices, its number in the lock table, pool entry, routine words, MODE at
issue, the scalars its routine reads with their values at issue (R163), the rows it reads and does not write with theirs (t
among them, R164, R182), the round reached, the issue cycles that the round still takes (R168), and its lanes. -/
structure InvState where
  slices : List Nat
  lock : Nat
  entry : Nat
  words : List Nat
  mode : Nat
  scals : List (Nat × Word)
  ins : List (Nat × List Word)
  round : Nat
  left : Nat
  lanes : List InvLane
  deriving DecidableEq, Repr

/-- R106: an incomplete or recent batch: its number, the operations it still waits for, and whether one of its
operations faulted. -/
structure Batch where
  num : Nat
  open_ : List Nat
  dirty : Bool
  deriving DecidableEq, Repr

/-- R16, R17: a resident group. -/
structure Group where
  /-- GROUP number in the team (R18). -/
  num : Nat
  /-- ROLE.P (R17). -/
  isP : Bool
  /-- GRPID.QUAD (R18). -/
  quad : Nat
  /-- FRAMEROWS.SROWS (R37). -/
  srows : Nat
  /-- FRAMEROWS.VROWS (R37). -/
  vrows : Nat
  /-- Core row at which the frame's run begins (R35). -/
  frame : Nat
  slices : List Slice
  cands : List Cand
  /-- `p0` to `p6`, one bit for each lane (R236). -/
  preds : List (BitVec 32)
  /-- `f0` to `f11`, 0 to 63 (R174). -/
  flags : List Nat
  /-- DEADMASK (R359). -/
  dead : BitVec 32
  /-- MODE (R191). -/
  mode : Nat
  /-- TICK (R32). -/
  tick : Nat
  /-- TCMP (R32). -/
  tcmp : Nat
  /-- TRAPCODE (R231). -/
  trapcode : Nat
  /-- TRAPPC (R231). -/
  trappc : Nat
  /-- TRAPINFO (R43, R258). -/
  trapinfo : Nat
  /-- Whether the handler has written TRAPPC since the trap (R233). -/
  pcWritten : Bool
  /-- What `rte` restores; `none` outside a handler. -/
  saved : Option Saved
  /-- A trap raised whose entry awaits the other candidates (R310), and the cycle it was raised in. -/
  trapping : Option TrapRec
  trapAt : Nat
  soft : Soft
  /-- Number the next `cbatch` returns (R106). -/
  nextBatch : Nat
  /-- Operations issued since the last `cbatch` that have not completed, and whether one of them faulted. -/
  openOps : List Nat
  openDirty : Bool
  batches : List Batch
  /-- The running `inv`s of the group's candidates (R163). -/
  inv : List InvState
  /-- The requests and swatch accesses of other groups of the team that what the group sends after a fence at scope clu or wider
  must be performed after (R81, log entry 127). -/
  fenced : List Nat
  deriving DecidableEq, Repr

/-! ## Teams -/

/-- R108: a transaction barrier. -/
structure Barrier where
  finfo : Nat
  reload : Nat
  sectors : Nat
  arrivals : Nat
  code : Nat
  error : Bool
  phase : Nat
  deriving DecidableEq, Repr

/-- R108, the Reset column. -/
def Barrier.fresh : Barrier := ⟨0, 1, 0, 1, 0, false, 0⟩

/-- R209: a kernel descriptor and its address; an absent entry is `none`. -/
structure Kernel where
  desc : Nat
  code : Nat
  pentry : Option Nat
  centry : Option Nat
  mentry : Option Nat
  pooln : Nat
  pool : Nat
  carder : Nat
  cardlen : Nat
  trows : Nat
  prows : Nat
  pscal : Nat
  crows : Nat
  cscal : Nat
  bars : Nat
  acc : Nat
  deriving DecidableEq, Repr

/-- R117, R118: why a matrix stream does not issue. -/
inductive StreamWait where
  | ready
  | phase
  | arrive
  | tile
  | locks
  | fetch (va n : Nat)
  deriving DecidableEq, Repr

/-- R117, R131, R323: a matrix stream: its program counter, `q0` to `q63` with their valid bits, its wait, the
cycle from which its age counts, the words of the block that `mmask` read, how many kept blocks `mkeep` has given
(ITER), and whether it has ended. -/
structure Stream where
  pc : Pc
  q : Sparse Nat
  qvalid : BitVec 64
  wait : StreamWait
  stamp : Nat
  mblk : List Nat
  iter : Nat
  ended : Bool
  deriving DecidableEq, Repr

/-- R29, R28, R319: where a team stands. -/
inductive TeamStatus where
  | resident
  | stopping
  | stopped
  | saving
  | preempted (slot : Nat)
  | killed
  deriving DecidableEq, Repr

/-- R19, R24: a team. -/
structure Team where
  id : Nat
  part : Nat
  launch : Nat
  queue : Nat
  cls : Nat
  /-- TEAMID (R17). -/
  teamid : Nat
  /-- TKEY (R49). -/
  tkey : Nat
  core : Nat
  status : TeamStatus
  kernel : Kernel
  nc : Nat
  hasp : Bool
  coop : Bool
  /-- Protected mode (R368). -/
  prot : Bool
  /-- Its runs may be mirrored (R366). -/
  mirror : Bool
  /-- Time of its most recent placement (R31, R128, R305). -/
  placed : Nat
  /-- The save slot it is being saved to, or was restored from until its first issue (R319, R324). -/
  saveSlot : Option Nat
  /-- Core rows of the team rows' run and of the barrier rows' run (R35). -/
  teamBase : Nat
  barBase : Nat
  groups : List Group
  barriers : List Barrier
  /-- The team's tile table: the core tile behind a0 to a7 (R36). -/
  tiles : List (Option Nat)
  stream : Option Stream
  deriving DecidableEq, Repr

/-- R50: an entry of a home die's swatch table. `base` is relative to the frame of group `group`, or to the
team rows when `team` is set; `swapped` is the bank selector. -/
structure SwEntry where
  part : Nat
  tkey : Nat
  swx : Nat
  gen : Nat
  live : Bool
  team : Nat
  group : Nat
  isTeam : Bool
  base : Nat
  len : Nat
  rights : Nat
  scope : Nat
  dbl : Bool
  swapped : Bool
  bar : Option Nat
  deriving DecidableEq, Repr

/-! ## Requests, engine operations and locks -/

/-- Who and where of a fault record (R332). -/
structure FaultRec where
  va : Nat
  cause : Nat
  level : Nat
  source : Nat
  write : Bool
  deriving DecidableEq, Repr

/-- R143: a bound shadow window. -/
structure Window where
  wbase : Nat
  idx : Nat
  nidx : Nat
  stat : Nat
  base : Nat
  tlen : Nat
  esz : Nat
  deriving DecidableEq, Repr

/-- One access within a request: the lanes that receive its reply, its address and size, its operands, and its
reply once performed. -/
structure LaneAcc where
  outs : List Nat
  va : Nat
  pa : Nat
  size : Nat
  x : Nat
  y : Nat
  reply : Nat
  deriving DecidableEq, Repr

/-- R77, R347: a piece of a request, the accesses that go to one 32-byte sector or 64-byte line, in ascending lane
order: its key tag, the shadow window that serves it, the die where its request or reply stands, the die it goes
to and the dies that its request crosses (R349), and how far it has come. -/
structure Piece where
  tag : Nat
  window : Option Window
  accs : List LaneAcc
  at_ : Nat
  home : Nat
  way : List Nat
  performed : Bool
  acked : Bool
  landed : Bool
  poisoned : Bool
  deriving DecidableEq, Repr

/-- The atomic functions of R263, R140, R267. -/
inductive AtomOp where
  | addN | addF32 | addBf16 | minS | minN | maxS | maxN | minF | maxF | and | or | xor | xchg | cas
  deriving DecidableEq, Repr

/-- R260 to R274, R199: what a request is. -/
inductive ReqKind where
  | load
  | store
  | atom (op : AtomOp) (wide : Bool)
  | bump
  | append (wide : Bool)
  | olist
  deriving DecidableEq, Repr

/-- R257: what a request fills: nothing, `n` consecutive scalars, or `n` consecutive vector rows. -/
inductive Dst where
  | none
  | scalars (s n : Nat)
  | rows (r n : Nat)
  deriving DecidableEq, Repr

/-- What a request of a chain only asks for (R182): nothing, so that it is performed; whether its own word would trap, where a later
word of the chain traps, whose trap is then taken; or whether its own word would trap, where another word of the chain asks too,
so that both are performed at once. -/
inductive Probe where
  | none
  | later (r : TrapRec) (f : Option FaultRec)
  | park
  deriving DecidableEq, Repr

/-- A request that has left its candidate. -/
structure Req where
  id : Nat
  kind : ReqKind
  team : Nat
  group : Nat
  slices : List Nat
  core : Nat
  part : Nat
  dst : Dst
  /-- What its reply needs to complete the word: the predicate of a `bump`, the target code and position of a `cvt`. -/
  aux : Nat
  /-- The codes a `cvt` writes once its outliers are recorded (R199), by lane. -/
  hold : List (Nat × Nat)
  flag : Option Nat
  /-- Requests and swatch accesses that must be done before a piece of this one is performed (R79). -/
  after : List Nat
  pieces : List Piece
  probe : Probe
  deriving DecidableEq, Repr

/-- R267: the swatch access words. -/
inductive SwOp where
  | ld | st | atomAdd | atomCas | redAdd | redOr
  deriving DecidableEq, Repr

/-- R267, R268: a swatch access on its way: the handle, row, module, data of its lanes, and its outcome. -/
structure SwReq where
  id : Nat
  op : SwOp
  team : Nat
  group : Nat
  slices : List Nat
  core : Nat
  handle : Nat
  row : Nat
  module : Nat
  dst : Nat
  bar : Option Nat
  flag : Option Nat
  lanes : List (Nat × Word × Word)
  replies : List (Nat × Elem)
  /-- 0 on its way, 1 admitted, 2 landed at the owner, 4 checked and kept for the chain that asked (R182). -/
  stage : Nat
  code : Nat
  after : List Nat
  /-- It left the module in class S, through this port. -/
  port : Option Nat
  probe : Probe
  deriving DecidableEq, Repr

/-- R102, R133, R140, R149, R117: the engine operations. -/
inductive OpKind where
  | copyRows | copyCol | copyX24 | copyOut | copyC24 | copySwatch
  | gather | scatter | walk
  | mma | mzero | mload | mstore
  deriving DecidableEq, Repr

/-- R113, R353: one destination of a `copy.swatch`. `stage` is 0 not sent, 1 admitted, 2 done. `classL` holds
how many of its class L blocks the port has taken, `sent` how many class S blocks have left, `port` the port by which they
left, once all have. -/
structure Dest where
  handle : Nat
  module : Nat
  stage : Nat
  classL : Option Nat
  sent : Nat
  port : Option Nat
  deriving DecidableEq, Repr

/-- R322, R323: an engine operation. `unitsDone` and `fault` are bitmaps over its units; `got` holds what a
gather's sectors have returned, not yet landed; `after` lists the accesses that happen before its issue (R96). -/
structure Op where
  id : Nat
  kind : OpKind
  team : Nat
  group : Nat
  bar : Option Nat
  word : Nat
  pool : Nat
  scope : Nat
  snap : List Nat
  /-- Index values of a gather or scatter, source values of a scatter, read at issue. -/
  idx : List Nat
  src : List Nat
  tile : Nat
  total : Nat
  unitsDone : Nat
  fault : Nat
  got : Sparse Nat
  dests : List Dest
  faulted : Bool
  /-- Cycle of its issue (R277). -/
  since : Nat
  after : List Nat
  deriving DecidableEq, Repr

/-- R55: an entry of a core's range-lock table: a Palette range `lo` to `hi` of core rows, or with `mem` a range
of virtual addresses of the issuing team; `held` names the barrier whose error phase releases it, once its operation has ended
with a fault. -/
structure Lock where
  core : Nat
  op : Nat
  team : Nat
  mem : Bool
  lo : Nat
  hi : Nat
  dest : Bool
  held : Option Nat
  deriving DecidableEq, Repr

/-- A Carder read in flight (R291): its register, address, size, value or failure code once performed. -/
structure CRead where
  id : Nat
  reg : Nat
  va : Nat
  size : Nat
  deriving DecidableEq, Repr

/-- R147: a walk context. -/
structure Walk where
  id : Nat
  op : Nat
  cluster : Nat
  ctx : Nat
  team : Nat
  pc : Nat
  regs : List Nat
  reads : List CRead
  steps : Nat
  stamp : Nat
  deriving DecidableEq, Repr

/-- R354: a class L delivery: the port it came through, the sender's delivery it is, its swatch, the core row it fills from, the time of its
admission, the blocks that have come, and whether it has ended, or was refused, so that later blocks are dropped. -/
structure LDelivery where
  id : Nat
  port : Nat
  team : Nat
  sender : Nat
  handle : Nat
  baselo : Nat
  count : Nat
  row : Nat
  since : Nat
  landed : List Nat
  bar : Option Nat
  ended : Bool
  deriving DecidableEq, Repr

/-! ## Translation and code -/

/-- R330: a TLB entry, tagged by partition. -/
structure TlbEntry where
  part : Nat
  va : Nat
  size : Nat
  pa : Nat
  key : Nat
  r : Bool
  w : Bool
  x : Bool
  level : Nat
  deriving DecidableEq, Repr

/-- R308, R178, R217, R148: an item of a kernel in a die's code store: the kernel, by its descriptor's address, the item's address,
its length (12 a packet, 8 a pool entry, 4 a word of a Carder section, 64 the descriptor), and its bytes as one number. -/
structure CodeItem where
  part : Nat
  desc : Nat
  va : Nat
  n : Nat
  val : Nat
  deriving DecidableEq, Repr

/-- R148: a kernel's section in a cluster's program store: its first word there, its words, or the code (XLATE, PERM,
POISON) of a word that failed, and how many teams of the kernel stand on the cluster. -/
structure Section where
  part : Nat
  desc : Nat
  base : Nat
  words : List (Option Nat)
  codes : List Nat
  teams : Nat
  deriving DecidableEq, Repr

/-! ## Cores, clusters, dies -/

/-- R366: a covered run: the rows `lo` to `lo + len - 1` and where their mirrors begin. -/
structure Mirror where
  lo : Nat
  len : Nat
  at_ : Nat
  deriving DecidableEq, Repr

/-- R376, R377, R330, R147: a core. -/
structure Core where
  started : Bool
  tlb : List TlbEntry
  /-- Arrays power-gated, by quadrant (R377), and the cycle of the last `mma`. -/
  gated : List Bool
  lastMma : Nat
  /-- The cycle at which a quadrant's array has ramped up; its scheduler does not run before it (R377). -/
  ramp : List Nat
  mirrors : List Mirror
  /-- The cycle in which one of the core's units last issued, counted from 1, and the next unit in the order of R109 (log
  entry 118). -/
  issuedAt : Nat
  unit : Nat
  deriving DecidableEq, Repr

def Core.fresh : Core := ⟨false, [], [false, false, false, false], 0, [0, 0, 0, 0], [], 0, 0⟩

/-- R147, R148, R379: a cluster's program store and AGECLU. -/
structure Cluster where
  sections : List Section
  retire : Bool
  index : Nat
  margin : Option Nat
  /-- The cycle in which the Carder last issued, counted from 1 (R147). -/
  issuedAt : Nat
  deriving DecidableEq, Repr

def Cluster.fresh : Cluster := ⟨[], false, 0, none, 0⟩

/-- R381: the telemetry counters of a die, by offset in its block, and their latched values (R380). -/
structure Telemetry where
  live : Sparse Nat
  latched : Sparse Nat
  frozen : Bool
  stamp : Nat
  deriving DecidableEq, Repr

/-- R358, R350, R308, R331: a die. -/
structure Die where
  qdead : Sparse Nat
  palcorr : Nat
  palunc : Nat
  mirhit : Nat
  deadCnt : Nat
  eccLast : Option Nat
  tlb2 : List TlbEntry
  code : List CodeItem
  /-- The kernels launched on the die, by partition and descriptor, the latest first (R308). -/
  launched : List (Nat × Nat)
  /-- RTADDR, RTBANK, and the partition whose routes are being swapped (R350). -/
  rtaddr : Nat
  rtbank : Nat
  rtbusy : Option Nat
  tm : Telemetry
  /-- ACLK of the die in MHz and its temperature in degrees (R375). -/
  aclk : Nat
  temp : Nat
  /-- The cycles the die had counted when its clock last changed, and when that was, in picoseconds since power-on. -/
  clk0 : Nat
  clkPs : Nat
  /-- The Palettes as the present cycle of the die found them, which its threads read (R86). -/
  old : Sparse Elem
  /-- Sectors the read-ahead buffers hold (R146). -/
  ahead : List Nat
  deriving DecidableEq, Repr

def Die.fresh : Die :=
  ⟨[], 0, 0, 0, 0, none, [], [], [], 0, 0, none, ⟨[], [], false, 0⟩, 1600, 0, 0, 0, [], []⟩

/-! ## Links and ports -/

/-- A flit or block in flight (R343): its type (1 data, 2 ACK, 3 NAK), SEQ, ASEQ, and the pieces it carries. -/
structure Flit where
  chan : Nat
  type : Nat
  seq : Nat
  aseq : Nat
  load : List (Nat × Nat)
  deriving DecidableEq, Repr

/-- R344, R345: one direction of a channel as its sender and its receiver hold it: the next sequence, the
flits held for replay, when the oldest began to wait, and at the other end E, whether a NAK E stands, the
acceptances since the last ACK, and the time of the last acceptance. -/
structure Chan where
  tx : Nat
  held : List Flit
  heldSince : Nat
  rx : Nat
  naked : Bool
  unacked : Nat
  lastRx : Nat
  /-- Requests held since the edge lost its last module (R347). -/
  heldDown : Option Nat
  deriving DecidableEq, Repr

def Chan.fresh : Chan := ⟨0, [], 0, 0, false, 0, 0, none⟩

/-- R346, R348: a link module: STATE, X32, the flits received and the numbers of those among the last 4,096 that
failed their CRC (WINERR counts them), retrains failed in a row, LNKCTL.OFF, ACKTO, the counters, and what flies
towards this end. -/
structure Link where
  state : Nat
  x32 : Bool
  win : List Nat
  seen : Nat
  fails : Nat
  off : Bool
  ackto : Nat
  crcerr : Nat
  replay : Nat
  dup : Nat
  retrain : Nat
  wire : List Flit
  deriving DecidableEq, Repr

def Link.fresh : Link := ⟨0, false, [], 0, 0, false, 128, 0, 0, 0, 0, []⟩

/-- R351 to R356: an optical port: STATE, wavelengths up, LWEIGHT, counters, its class S sequence space and held
blocks, the blocks received and those of the last 4,096 that failed their CRC, retrains failed in a row, since when it
is down, the place in the rotation that shares it between the classes, since when the oldest held block waits, the time of the last
acceptance, and the last ACK or NAK sent, by its type (2 or 3) and its sequence. -/
structure Port where
  state : Nat
  lambda : Nat
  lweight : Nat
  sreplay : Nat
  lcrc : Nat
  lrefuse : Nat
  ltimeout : Nat
  tx : Nat
  rx : Nat
  naked : Bool
  unacked : Nat
  held : List Flit
  win : List Nat
  seen : Nat
  fails : Nat
  downAt : Option Nat
  turn : Nat
  heldSince : Nat
  lastRx : Nat
  said : Option (Nat × Nat)
  deriving DecidableEq, Repr

def Port.fresh : Port := ⟨0, 0, 4, 0, 0, 0, 0, 0, 0, false, 0, [], [], 0, 0, none, 0, 0, 0, none⟩

/-! ## Partitions, queues and module registers -/

/-- R298, R316, R331, R356, R357: the registers of a partition, each by the name the spec gives it. -/
structure Part where
  qtbase : Nat
  pendbase : Nat
  slotmax : Nat
  qcount : Nat
  csabase : Nat
  slotlog2 : Nat
  saveSlots : Nat
  errbase : Nat
  errlog2n : Nat
  errwr : Nat
  ptroot : Nat
  ptrootEn : Bool
  shbase : Nat
  shsize : Nat
  tlbBusy : Bool
  tlbLog2 : Nat
  tlbVa : Nat
  /-- Requests in flight when the invalidation began (R330). -/
  tlbWait : List Nat
  fltbase : Nat
  fltlog2n : Nat
  fltwr : Nat
  optcls : Nat
  optlto : Nat
  relMirror : Bool
  relProt : Bool
  wdTimeout : Nat
  wdBusy : Bool
  wdSw : Bool
  wdQueue : Nat
  wdResets : Nat
  windows : List Window
  deriving DecidableEq, Repr

def Part.fresh : Part :=
  ⟨0, 0, 0, 0, 0, 0, 0, 0, 0, 0, 0, false, 0, 0, false, 0, 0, [], 0, 0, 0, 0, 20, false, false, 0, false,
   false, 0, 0, []⟩

/-- R335: a key slot. -/
structure KeySlot where
  en : Bool
  owner : Nat
  key1 : Nat
  key2 : Nat
  deriving DecidableEq, Repr

def KeySlot.fresh : KeySlot := ⟨false, 0, 0, 0⟩

/-- R306, R307: a chunk of a grid: its number, the die that owns it, and the TEAMID it places next. -/
structure Chunk where
  k : Nat
  die : Nat
  next : Nat
  stop : Nat
  deriving DecidableEq, Repr

/-- R302, R305, R306: a launched kernel. -/
structure Launch where
  id : Nat
  slot : Nat
  part : Nat
  queue : Nat
  cls : Nat
  kernel : Kernel
  args : List Nat
  nc : Nat
  hasp : Bool
  coop : Bool
  grid : Nat
  retired : Nat
  killed : Bool
  chunks : List Chunk
  deriving DecidableEq, Repr

/-- R304, R371: a hardware queue slot: the queue it holds, the packet it has read, whether that packet has
started, whether it came straight from an `enq` (R300), the packets still to skip, the grid and argument a COMPACT leaves
for the next KERNEL, the times from which its slice, its watchdog and its idleness count, and the TIMEOUT in force when it was
mapped (R357). -/
structure HwSlot where
  part : Nat
  queue : Nat
  head : Option (List Nat)
  started : Bool
  straight : Bool
  skip : Nat
  compact : Option (Nat × Option (Nat × Nat))
  sliceAt : Nat
  timer : Nat
  lastActive : Nat
  limit : Nat
  deriving DecidableEq, Repr

/-- R382: a record of the alarm log. -/
structure AlarmRec where
  count : Nat
  source : Nat
  action : Nat
  die : Nat
  deriving DecidableEq, Repr

/-- R334, R326, R356, R375, R295: the module's own registers. `cluOwn` lists the clusters whose CLUOWN is not
0xFF. -/
structure Regs where
  cluOwn : Sparse Nat
  b2base : Nat
  b2key : Nat
  bootst : Nat
  bootLen : Nat
  image : List Byte
  attNonce : Nat
  attDest : Nat
  attErr : Bool
  attGo : Bool
  alarmStat : Nat
  alarmPol : Nat
  alarmLock : Bool
  alarmCnt : Nat
  alarmLog : List AlarmRec
  modid : Nat
  optroute : Sparse Nat
  pwrcap : Nat
  draw : Nat
  aclkMhz : Nat
  primaryUp : Bool
  /-- Time at which BOOTST became 1 (R376). -/
  bootNs : Nat
  deriving DecidableEq, Repr

def Regs.fresh : Regs :=
  ⟨[], 0, 0, 0, 0, [], 0, 0, false, false, 0, 0, false, 0, [], 0, [], 0, 0, 1600, true, 0⟩

/-! ## Who moves, and the model's agenda -/

/-- What a turn of the agenda does: lets a quadrant's scheduler, a core's sequencer or a cluster's Carder
issue, or brings an event about, or an alarm that the machine itself has raised (R337). -/
inductive Act where
  | issue (core quad : Nat)
  | seq (core : Nat)
  | carder (cluster : Nat)
  | event (i : Instr)
  | alarm (source die part : Nat)
  deriving DecidableEq, Repr

/-- R100, R109: where sources meet in one cycle: how far the place has rotated, the cycle, counted from 1, in which it was last met,
and who met there then, at which line. -/
structure Meet where
  rot : Nat
  cycle : Nat
  seen : List (Nat × Nat)
  deriving DecidableEq, Repr

/-- A place that nothing has met (log entry 141). -/
def Meet.fresh : Meet := ⟨0, 0, []⟩

/-- The model's own: one thing that happens next, after so many picoseconds. -/
structure Turn where
  ps : Nat
  act : Act
  deriving DecidableEq, Repr

/-- Whose word is being run. -/
inductive Who where
  | nobody
  | main (team group : Nat) (slices : List Nat)
  | stream (team : Nat)
  | carder (walk : Nat)
  deriving DecidableEq, Repr

/-- What a word of a chain meets instead of completing: a trap, a wait, or a request whose answer it needs first
(R182); or the trap that a `trap` word raises after the chain's words have taken effect (R232). -/
inductive ChainStop where
  | trap (r : TrapRec) (f : Option FaultRec)
  | wait (w : Wait)
  | ask (r : Req)
  | askSwatch (r : SwReq)
  | after (r : TrapRec)
  deriving DecidableEq, Repr

/-- The issuing unit; within a chain the Palette and group before the chain, from which every word of it
reads (R182), what its words have met, in their order, the number from which the chain's own requests and
operations count, and its requests that have been answered before. -/
structure Cur where
  who : Who
  pre : Option (Sparse Elem × Group)
  chain : Bool
  stops : List ChainStop
  first : Nat
  own : List Nat
  deriving DecidableEq, Repr

def Cur.none : Cur := ⟨.nobody, .none, false, [], 0, []⟩

/-- The GVM-24 module. -/
structure State where
  /-- The model's own field: what happens next (log entry 1). -/
  agenda : List Turn
  /-- The model's own field: who issues (log entry 1). -/
  cur : Cur
  /-- The model's own field: an access of the running event has met an edge or a port that holds it (R346, log entry 134). -/
  held : Bool
  /-- Picoseconds since power-on: the one time from which every die's ACLK cycles follow (R7, R375). -/
  ps : Nat
  /-- The model's own field: when an event last happened, counted from 1, so that no unit issues after it in the same cycle (log
  entry 118). -/
  eventPs : Nat
  /-- The model's own field: number of the next team, launch, request or operation. -/
  nextId : Nat
  /-- The model's own field: how many free values have been drawn (log entry 12). -/
  free : Nat
  /-- R100, R109: the rotating orders of the pseudo-channels, the owners of swatches and the barriers. -/
  meets : Sparse Meet
  /-- Whether the module has power (R374). -/
  powered : Bool
  regs : Regs
  parts : Sparse Part
  keys : Sparse KeySlot
  dies : Sparse Die
  cores : Sparse Core
  clusters : Sparse Cluster
  links : Sparse Link
  chans : Sparse Chan
  lnkmap : Sparse Nat
  routes : Sparse Nat
  ports : Sparse Port
  /-- The Palettes of all cores: element `lane` of row `row` of core `core` under key (core·16384 + row)·32 + lane. -/
  pal : Sparse Elem
  /-- Memory by physical address (R326), plaintext. -/
  mem : List Host.Cell
  /-- 32-byte sectors with an uncorrectable error (R385). -/
  poison : Sparse Bool
  /-- The key pair under which each 64-byte line was last written (R336); 0 for none. -/
  tags : Sparse Nat
  swatches : List SwEntry
  slots : List (Option HwSlot)
  /-- Unmapped queues that resume at their next mapping (R303, R304), each as its slot left it. -/
  parked : List HwSlot
  launches : List Launch
  teams : List Team
  reqs : List Req
  swreqs : List SwReq
  ops : List Op
  locks : List Lock
  walks : List Walk
  ldels : List LDelivery
  /-- Last answer to a host read or AtomicOp. -/
  hostReply : List Nat
  deriving DecidableEq, Repr

/-- Why the machine stops. -/
inductive Fault where
  /-- Raised by a meaning of a word when the issuing unit (`State.cur`) is not of the word's kind: no step of
  the machine calls it so, only a direct call of `exec`. Safe: the machine stops. -/
  | noIssuer
  deriving DecidableEq, Repr

/-- Why an instruction has no meaning. -/
inductive Refusal where
  /-- An instruction that the model does not give a meaning, by its mnemonic. Safe: nothing is claimed of it. -/
  | notModelled (mnemonic : String)
  deriving DecidableEq, Repr

/-- The module right after power-on (R374): every register at the value the spec gives, no team, no queue,
no cluster assigned, the boot ROM waiting for BOOTGO. -/
def State.reset : State where
  agenda := []
  cur := Cur.none
  ps := 0
  held := false
  eventPs := 0
  nextId := 1
  free := 0
  meets := []
  powered := true
  regs := Regs.fresh
  parts := []
  keys := []
  dies := []
  cores := []
  clusters := []
  links := []
  chans := []
  lnkmap := []
  routes := []
  ports := []
  pal := []
  mem := []
  poison := []
  tags := []
  swatches := []
  slots := List.replicate 256 none
  parked := []
  launches := []
  teams := []
  reqs := []
  swreqs := []
  ops := []
  locks := []
  walks := []
  ldels := []
  hostReply := []

end Sys2Proof.Machine
end

