-- ==== Sys2Proof/Machine/Access.lean ====
section
/-! DEFINITION. Accessors: every register, row and table of the state is read and written through these. -/

namespace Sys2Proof.Machine

open Sys2Proof

/-! ## Bits -/

/-- A field of `n` bits read as two's complement. -/
def sext (n v : Nat) : Int := if v < 2 ^ (n - 1) then (v : Int) else (v : Int) - 2 ^ n

/-- An integer modulo 2^`n`. -/
def wrap (n : Nat) (v : Int) : Nat := (v % (2 ^ n : Int)).toNat

/-- Bit `i` of a number. -/
def nbit (v i : Nat) : Bool := decide (v / 2 ^ i % 2 = 1)

/-- The number with bit `i` set. -/
def setBit (v i : Nat) : Nat := if nbit v i then v else v + 2 ^ i

/-- The number whose bits are the members of `l` below `n`. -/
def bitsOf (n : Nat) (l : List Nat) : Nat := (List.range n).foldl (fun a i => if l.contains i then a + 2 ^ i else a) 0

/-- Quotient rounded up. -/
def cdiv (a b : Nat) : Nat := (a + b - 1) / b

/-- The bytes of a number, least significant first (R6). -/
def bytesLE (n v : Nat) : List Byte := (List.range n).map (fun i => BitVec.ofNat 8 (v / 256 ^ i))

/-- The number that bytes hold, least significant first (R6). -/
def natLE (b : List Byte) : Nat := b.foldr (fun x a => x.toNat + 256 * a) 0

/-- A set of lanes as a mask. -/
def lanesMask (l : List Nat) : Nat := bitsOf 32 l

/-- The default lane order. -/
def allLanes : List Nat := List.range 32

/-- Puts `x` before the first element that is not before it. -/
def insertBy {α : Type} (before : α → α → Bool) (x : α) : List α → List α
  | [] => [x]
  | y :: l => if before y x then y :: insertBy before x l else x :: y :: l

/-- A list in order. -/
def sortBy {α : Type} (before : α → α → Bool) (l : List α) : List α := l.foldr (insertBy before) []

/-- Lexicographic order. -/
def lexLt : List Nat → List Nat → Bool
  | [], _ => false
  | _ :: _, [] => false
  | a :: l, b :: m => decide (a < b) || (decide (a = b) && lexLt l m)

/-- `l` with element `i` replaced. -/
def setAt {α : Type} (l : List α) (i : Nat) (v : α) : List α := l.set i v

/-- Saturating count (R358, R348). -/
def satAdd (bits v d : Nat) : Nat := min (v + d) (2 ^ bits - 1)

/-! ## The Palette -/

/-- The key of element `lane` of row `row` of core `core`. -/
def palKey (core row lane : Nat) : Nat := (core * 16384 + row) * 32 + lane

/-- An element of a Palette. -/
def palGet (p : Sparse Elem) (core row lane : Nat) : Elem := sget Elem.blank p (palKey core row lane)

/-- A Palette with one element replaced. -/
def palPut (p : Sparse Elem) (core row lane : Nat) (e : Elem) : Sparse Elem :=
  sset Elem.blank p (palKey core row lane) e

/-! ## Tables of the state -/

def State.core (s : State) (c : Nat) : Core := sget Core.fresh s.cores c
def State.putCore (s : State) (c : Nat) (v : Core) : State := { s with cores := sset Core.fresh s.cores c v }
def State.cluster (s : State) (c : Nat) : Cluster := sget Cluster.fresh s.clusters c
def State.putCluster (s : State) (c : Nat) (v : Cluster) : State :=
  { s with clusters := sset Cluster.fresh s.clusters c v }
def State.die (s : State) (d : Nat) : Die := sget Die.fresh s.dies d
def State.putDie (s : State) (d : Nat) (v : Die) : State := { s with dies := sset Die.fresh s.dies d v }
def State.part (s : State) (p : Nat) : Part := sget Part.fresh s.parts p
def State.putPart (s : State) (p : Nat) (v : Part) : State := { s with parts := sset Part.fresh s.parts p v }
def State.key (s : State) (k : Nat) : KeySlot := sget KeySlot.fresh s.keys k
def State.putKey (s : State) (k : Nat) (v : KeySlot) : State := { s with keys := sset KeySlot.fresh s.keys k v }
def State.port (s : State) (k : Nat) : Port := sget Port.fresh s.ports k
def State.putPort (s : State) (k : Nat) (v : Port) : State := { s with ports := sset Port.fresh s.ports k v }

/-- R295: registers are reached through the primary port, while the module has power and the link is up. -/
def State.managed (s : State) : Bool := s.powered && s.regs.primaryUp

/-- Key of a link module, or of a channel, of an edge of a die (R348). -/
def linkKey (die edge m : Nat) : Nat := (die * 4 + edge) * 8 + m
def State.link (s : State) (d e m : Nat) : Link := sget Link.fresh s.links (linkKey d e m)
def State.putLink (s : State) (d e m : Nat) (v : Link) : State :=
  { s with links := sset Link.fresh s.links (linkKey d e m) v }
def State.chan (s : State) (d e i : Nat) : Chan := sget Chan.fresh s.chans (linkKey d e i)
def State.putChan (s : State) (d e i : Nat) (v : Chan) : State :=
  { s with chans := sset Chan.fresh s.chans (linkKey d e i) v }
/-- LNKMAP of an edge (R348). -/
def State.lnkMap (s : State) (d e : Nat) : Nat := sget 0xFAC688 s.lnkmap (d * 4 + e)

/-- CLUOWN of a cluster; 0xFF for none (R333). -/
def State.owner (s : State) (cluster : Nat) : Nat := sget 0xFF s.regs.cluOwn cluster

/-- The die of a core, its cluster, and its number in the die (R3). -/
def dieOf (core : Nat) : Nat := core / 128
def clusterOf (core : Nat) : Nat := core / 8

/-! ## Time, R7, R375 -/

/-- The ACLK cycles that a die has counted at a time: at 1,600 MHz one lasts 625 ps. -/
def Die.cycles (d : Die) (ps : Nat) : Nat := d.clk0 + (ps - d.clkPs) * d.aclk / 1000000

/-- R7, R375: the nanoseconds by which the times that the rules state in seconds are counted: they hold at 1.6 GHz, where a cycle lasts
0.625 ns, and below it they scale with the cycles of the die. -/
def Die.nsAt (d : Die) (ps : Nat) : Nat := d.cycles ps * 5 / 8

/-- These nanoseconds at a die, up to now; what belongs to no die counts those of die 0 (DESIGN CHOICE, log entry 153). -/
def State.ns (s : State) (die : Nat) : Nat := (s.die die).nsAt s.ps

/-- The ACLK cycles that a die has counted. -/
def State.clk (s : State) (die : Nat) : Nat := (s.die die).cycles s.ps

/-- The time at which a die's next cycle begins. -/
def State.nextCycle (s : State) (die : Nat) : Nat :=
  let d := s.die die
  d.clkPs + cdiv ((s.clk die + 1 - d.clk0) * 1000000) d.aclk

/-- A die whose clock changes to so many MHz: its cycles count on from the change (R375). -/
def Die.setClock (d : Die) (ps mhz : Nat) : Die :=
  if d.aclk = mhz then d else { d with aclk := mhz, clk0 := d.cycles ps, clkPs := ps }

/-- The Palettes as a thread of a core reads them: as the present cycle found them (R86). -/
def State.seen (s : State) (core : Nat) : Sparse Elem := (s.die (dieOf core)).old

/-! ## Teams and groups -/

def State.team? (s : State) (id : Nat) : Option Team := s.teams.find? (fun t => t.id == id)

def putTeamIn (l : List Team) (t : Team) : List Team := l.map (fun u => if u.id == t.id then t else u)

def State.putTeam (s : State) (t : Team) : State := { s with teams := putTeamIn s.teams t }

def Team.group? (t : Team) (n : Nat) : Option Group := t.groups.find? (fun g => g.num == n)

def Team.putGroup (t : Team) (g : Group) : Team :=
  { t with groups := t.groups.map (fun h => if h.num == g.num then g else h) }

def State.group? (s : State) (team n : Nat) : Option Group := (s.team? team).bind (fun t => t.group? n)

/-- Puts a group back into its team. -/
def State.putGroup (s : State) (team : Nat) (g : Group) : State :=
  match s.team? team with
  | some t => s.putTeam (t.putGroup g)
  | none => s

/-- Changes a group of a team, if it stands. -/
def State.modGroup (s : State) (team n : Nat) (f : Group → Group) : State :=
  match s.group? team n with
  | some g => s.putGroup team (f g)
  | none => s

/-- Changes a team, if it stands. -/
def State.modTeam (s : State) (team : Nat) (f : Team → Team) : State :=
  match s.team? team with
  | some t => s.putTeam (f t)
  | none => s

/-- A team whose words may issue (R25, R317). -/
def Team.runs (t : Team) : Bool := decide (t.status = .resident)

/-- A team whose operations go on: a stop aborts them only once what it waits for has completed (R317). -/
def Team.engaged (t : Team) : Bool := t.runs || decide (t.status = .stopping)

/-- A team that holds its core's rows. -/
def Team.onCore (t : Team) : Bool :=
  match t.status with
  | .preempted _ => false
  | _ => true

/-- Number of barrier rows (R19). -/
def Team.barRows (t : Team) : Nat := cdiv t.kernel.bars 8

/-- Rows of a group's frame (R20). -/
def Group.frameRows (g : Group) : Nat := g.srows + g.vrows + 16

/-- First row of the group's trap frame (R35). -/
def Group.trapRow (g : Group) : Nat := g.frame + g.srows + g.vrows

/-- The core row of a vector row (R35). -/
def Group.vecRow (g : Group) (n : Nat) : Nat := g.frame + g.srows + n

/-- The core row of the scalar row that holds a scalar (R35). -/
def Group.scalRow (g : Group) (n : Nat) : Nat := g.frame + n / 32

/-! ## Lanes -/

/-- Whether lane `l` is live (R10). -/
def Group.live (g : Group) (l : Nat) : Bool := !g.dead.getLsbD l

/-- A slice beyond the eight: it has ended. -/
def noSlice : Slice := ⟨⟨0, 0⟩, 0, [], 0, 0, true⟩

def Group.slice (g : Group) (i : Nat) : Slice := g.slices.getD i noSlice

/-- The live active lanes of the given slices, in ascending order (R10, R62). -/
def Group.active (g : Group) (sl : List Nat) : List Nat :=
  allLanes.filter (fun l => sl.contains (l / 4) && (g.slice (l / 4)).mask.getLsbD (l % 4) && g.live l)

/-- A slice that has not ended and has a live lane (R73). -/
def Group.sliceLive (g : Group) (i : Nat) : Bool :=
  !(g.slice i).ended && (List.range 4).any (fun k => g.live (4 * i + k))

/-- The slices that are live (R73). -/
def Group.liveSlices (g : Group) : List Nat := (List.range 8).filter g.sliceLive

/-- A group that has ended: no live slice remains (R26). -/
def Group.isEnded (g : Group) : Bool := g.slices.all (fun x => x.ended)

/-- Predicate `p` in lane `l`; `p7` reads 1 (R236). -/
def Group.pred (g : Group) (p l : Nat) : Bool := if p = 7 then true else (g.preds.getD p 0).getLsbD l

/-- A predicate row with some lanes written (R236). -/
def Group.setPred (g : Group) (p : Nat) (lanes : List Nat) (f : Nat → Bool) : Group :=
  { g with preds := g.preds.modify p (fun r =>
      lanes.foldl (fun a l => if f l then a ||| BitVec.ofNat 32 (2 ^ l) else a &&& ~~~ BitVec.ofNat 32 (2 ^ l)) r) }

/-- INPROG of TRAPCODE (R231). -/
def Group.inprog (g : Group) : Bool := nbit g.trapcode 8

/-- The word after `k` words of the same packet run (R171). -/
def Pc.add (p : Pc) (k : Nat) : Pc := ⟨p.packet + (p.slot + k) / 3, (p.slot + k) % 3⟩

/-- TRAPPC's layout (R231). -/
def Pc.word (p : Pc) : Nat := p.packet * 4 + p.slot

/-- Sets the program counter of some slices. -/
def Group.setPc (g : Group) (sl : List Nat) (p : Pc) : Group :=
  { g with slices := g.slices.mapIdx (fun i x => if sl.contains i then { x with pc := p } else x) }

/-- Whether a candidate holds one of some slices. -/
def Cand.meets (c : Cand) (sl : List Nat) : Bool := c.slices.any (fun i => sl.contains i)

/-- Changes the candidates that hold some of the slices of an issuing candidate: it, or what it has parted into; a slice of it
that has ended, no candidate holds (R360). -/
def Group.modCand (g : Group) (sl : List Nat) (f : Cand → Cand) : Group :=
  { g with cands := g.cands.map (fun c => if c.meets sl then f c else c) }

/-- The candidate that holds some of the slices. -/
def Group.candFor (g : Group) (sl : List Nat) : Option Cand := g.cands.find? (fun c => c.meets sl)

def Group.cand? (g : Group) (slice : Nat) : Option Cand := g.cands.find? (fun c => c.slices.contains slice)

/-- A flag count changed (R174). -/
def Group.addFlag (g : Group) (f : Nat) (d : Int) : Group :=
  { g with flags := g.flags.modify f (fun v => ((v : Int) + d).toNat) }

/-- A unit of a core has issued in this cycle: the quadrants come in ascending order and the sequencer, 4, after them (R109, R25,
R277). -/
def State.tookUnit (s : State) (core unit : Nat) : State :=
  s.putCore core { s.core core with issuedAt := s.clk (dieOf core) + 1, unit := unit + 1 }

end Sys2Proof.Machine
end

