-- ==== Sys2Proof/Machine/Cipher.lean ====
section
/-! DEFINITION. The functions that the spec takes by name from their standards (log entry 125): SM4 in XTS mode over a line of
memory (R336), and the digest SM3 (R338, R339). -/

namespace Sys2Proof.Machine

open Sys2Proof

/-- A 32-bit number rotated left. -/
def rotl32 (x n : Nat) : Nat := x * 2 ^ (n % 32) % 2 ^ 32 ||| x / 2 ^ (32 - n % 32)

/-- The number that bytes hold, most significant first. -/
def natBE (b : List Byte) : Nat := b.foldl (fun a x => a * 256 + x.toNat) 0

/-- The `n` bytes of a number, most significant first. -/
def bytesBE (n v : Nat) : List Byte := (bytesLE n v).reverse

/-! ## SM4 -/

/-- The substitution box, row by row. -/
def sm4Rows : List Nat :=
  [0xd690e9fecce13db716b614c228fb2c05, 0x2b679a762abe04c3aa44132649860699, 0x9c4250f491ef987a33540b43edcfac62,
   0xe4b31ca9c908e89580df94fa758f3fa6, 0x4707a7fcf37317ba83593c19e6854fa8, 0x686b81b27164da8bf8eb0f4b70569d35] ++
  [0x1e240e5e6358d1a225227c3b01217887, 0xd40046579fd327524c3602e7a0c4c89e, 0xeabf8ad240c738b5a3f7f2cef96115a1,
   0xe0ae5da49b341a55ad933230f58cb1e3, 0x1df6e22e8266ca60c02923ab0d534e6f, 0xd5db3745defd8e2f03ff6a726d6c5b51] ++
  [0x8d1baf92bbddbc7f11d95c411f105ad8, 0x0ac13188a5cd7bbd2d74d012b8e5b4b0, 0x8969974a0c96777e65b9f109c56ec684,
   0x18f07dec3adc4d2079ee5f3ed7cb3948]

/-- The substitution of one byte. -/
def sm4Sub (x : Nat) : Nat := sm4Rows.getD (x / 16) 0 / 256 ^ (15 - x % 16) % 256

/-- The substitution of the four bytes of a word. -/
def sm4Tau (x : Nat) : Nat := (List.range 4).foldl (fun a i => a + sm4Sub (fld x (8 * i) 8) * 256 ^ i) 0

/-- One round: the four words move up by one, the last being the first mixed with `f` of the others and the key. -/
def sm4Step (rots : List Nat) (x : Nat × Nat × Nat × Nat) (k : Nat) : Nat × Nat × Nat × Nat :=
  let t := sm4Tau (x.2.1 ^^^ x.2.2.1 ^^^ x.2.2.2 ^^^ k)
  (x.2.1, x.2.2.1, x.2.2.2, x.1 ^^^ rots.foldl (fun a n => a ^^^ rotl32 t n) t)

/-- The four words of a block of 16 bytes. -/
def sm4Words (b : List Byte) : Nat × Nat × Nat × Nat :=
  (natBE (b.take 4), natBE ((b.drop 4).take 4), natBE ((b.drop 8).take 4), natBE ((b.drop 12).take 4))

/-- The constant of a round of the key schedule. -/
def sm4Ck (i : Nat) : Nat := (List.range 4).foldl (fun a j => a * 256 + (4 * i + j) * 7 % 256) 0

/-- The 32 round keys of a key. -/
def sm4Keys (key : List Byte) : List Nat :=
  let k := sm4Words key
  let start := (k.1 ^^^ 0xa3b1bac6, k.2.1 ^^^ 0x56aa3350, k.2.2.1 ^^^ 0x677d9197, k.2.2.2 ^^^ 0xb27022dc)
  ((List.range 32).foldl (fun (acc : (Nat × Nat × Nat × Nat) × List Nat) i =>
    let x := sm4Step [13, 23] acc.1 (sm4Ck i)
    (x, acc.2 ++ [x.2.2.2])) (start, [])).2

/-- A block under round keys: in their order it is encrypted, in the reverse order decrypted. -/
def sm4Block (keys : List Nat) (b : List Byte) : List Byte :=
  let x := keys.foldl (sm4Step [2, 10, 18, 24]) (sm4Words b)
  bytesBE 4 x.2.2.2 ++ bytesBE 4 x.2.2.1 ++ bytesBE 4 x.2.1 ++ bytesBE 4 x.1

/-! ## XTS over a line, R336 -/

/-- The tweak times α. -/
def xtsNext (t : Nat) : Nat := if t < 2 ^ 127 then 2 * t else (2 * t - 2 ^ 128) ^^^ 0x87

/-- Two runs of bytes added bit by bit. -/
def xorBytes (a b : List Byte) : List Byte := List.zipWith (fun x y => x ^^^ y) a b

/-- The four blocks of a line from a tweak on. -/
def xtsBlocks (f : List Byte → List Byte) : Nat → Nat → List Byte → List Byte
  | 0, _, _ => []
  | n + 1, t, b =>
    xorBytes (f (xorBytes (b.take 16) (bytesLE 16 t))) (bytesLE 16 t) ++ xtsBlocks f n (xtsNext t) (b.drop 16)

/-- A line under the key pair of a tag, encrypted or decrypted; tag 0 is no encryption. -/
def xtsLine (enc : Bool) (tag line : Nat) (b : List Byte) : List Byte :=
  if tag = 0 then b
  else
    let keys := sm4Keys (bytesLE 16 ((tag - 1) / 2 ^ 128))
    let tweak := natLE (sm4Block (sm4Keys (bytesLE 16 ((tag - 1) % 2 ^ 128))) (bytesLE 16 line))
    xtsBlocks (sm4Block (if enc then keys else keys.reverse)) 4 tweak b

/-- What a line written under one key pair reads as under another (R336). -/
def recrypt (wrote reads line : Nat) (b : List Byte) : List Byte := xtsLine false reads line (xtsLine true wrote line b)

/-! ## SM3 -/

/-- The message with its padding: a one bit, zeros, and its length in bits. -/
def sm3Pad (b : List Byte) : List Byte :=
  b ++ [(0x80 : Byte)] ++ List.replicate ((119 - b.length % 64) % 64) 0 ++ bytesBE 8 (8 * b.length)

/-- The 16 words of a block grown to 68. -/
def sm3Expand : Nat → List Nat → List Nat
  | 0, w => w
  | n + 1, w =>
    let at_ := fun (k : Nat) => w.getD (w.length - k) 0
    let x := at_ 16 ^^^ at_ 9 ^^^ rotl32 (at_ 3) 15
    sm3Expand n (w ++ [x ^^^ rotl32 x 15 ^^^ rotl32 x 23 ^^^ rotl32 (at_ 13) 7 ^^^ at_ 6])

/-- One round on the eight words A to H. -/
def sm3Round (w : List Nat) (v : List Nat) (j : Nat) : List Nat :=
  match v with
  | [a, b, c, d, e, f, g, h] =>
    let t := if j < 16 then 0x79cc4519 else 0x7a879d8a
    let ss1 := rotl32 ((rotl32 a 12 + e + rotl32 t j) % 2 ^ 32) 7
    let ff := if j < 16 then a ^^^ b ^^^ c else (a &&& b) ||| (a &&& c) ||| (b &&& c)
    let gg := if j < 16 then e ^^^ f ^^^ g else (e &&& f) ||| ((2 ^ 32 - 1 - e) &&& g)
    let tt1 := (ff + d + (ss1 ^^^ rotl32 a 12) + (w.getD j 0 ^^^ w.getD (j + 4) 0)) % 2 ^ 32
    let tt2 := (gg + h + ss1 + w.getD j 0) % 2 ^ 32
    [tt1, a, rotl32 b 9, c, tt2 ^^^ rotl32 tt2 9 ^^^ rotl32 tt2 17, e, rotl32 f 19, g]
  | _ => v

/-- The compression of one block of 64 bytes. -/
def sm3Block (v : List Nat) (b : List Byte) : List Nat :=
  let w := sm3Expand 52 ((List.range 16).map (fun i => natBE ((b.drop (4 * i)).take 4)))
  List.zipWith (fun x y => x ^^^ y) ((List.range 64).foldl (sm3Round w) v) v

/-- The blocks of a padded message, one after another. -/
def sm3Blocks : Nat → List Nat → List Byte → List Nat
  | 0, v, _ => v
  | n + 1, v, b => sm3Blocks n (sm3Block v (b.take 64)) (b.drop 64)

/-- SM3 of a string of bytes. -/
def sm3 (b : List Byte) : List Byte :=
  let p := sm3Pad b
  (sm3Blocks (p.length / 64) [0x7380166f, 0x4914b2b9, 0x172442d7, 0xda8a0600, 0xa96f30bc, 0x163138aa, 0xe38dee4d, 0xb0fb0e4e] p).flatMap
    (bytesBE 4)

end Sys2Proof.Machine
end

