-- ==== Sys2Proof/Machine/Mesh.lean ====
section
/-! DEFINITION. The address map (R326), the mesh routes (R349) and the inner edges between dies that a route crosses (R342,
R347, R348). -/

namespace Sys2Proof.Machine

open Sys2Proof

/-! ## The address map (R326) -/

/-- Bits [42:0] name a byte of HBM of a present die. -/
def hbmOffsetOk (pa : Nat) : Bool := decide (fld pa 38 5 < Config.dies) && decide (fld pa 0 38 < Config.hbmBytes)

/-- A module exists (R326). -/
def State.moduleExists (s : State) (m : Nat) : Bool :=
  decide (m = s.regs.modid) || decide (sget 0 s.regs.optroute m ≠ 0)

/-- A physical address that names something (R326). -/
def State.paExists (s : State) (pa : Nat) : Bool :=
  match fld pa 50 2 with
  | 0 => decide (fld pa 43 7 = 0) && hbmOffsetOk pa
  | 3 => decide (fld pa 43 1 = 0) && s.moduleExists (fld pa 44 6) && hbmOffsetOk pa
  | _ => true

/-- A space-3 address of this module is the space-0 address with the same bits [42:0] (R326). -/
def State.canonPa (s : State) (pa : Nat) : Nat :=
  if fld pa 50 2 = 3 ∧ fld pa 44 6 = s.regs.modid then fld pa 0 43 else pa

/-- Module HBM of a present die, in space 0 (R328). -/
def inHbm (pa : Nat) : Bool := decide (pa / 2 ^ 43 = 0) && hbmOffsetOk pa

/-- Host memory (R326). -/
def isHost (pa : Nat) : Bool := decide (fld pa 50 2 = 1) || decide (fld pa 50 2 = 2)

/-- Another module's memory (R326). -/
def isFar (pa : Nat) : Bool := decide (fld pa 50 2 = 3)

/-- The die that homes an HBM address. -/
def homeDie (pa : Nat) : Nat := fld pa 38 5

/-- The home pseudo-channel of an address: its die, stack and pseudo-channel as one number, and for memory that
is not this module's the port or module that it is reached through (R326). -/
def channelOf (pa : Nat) : Nat :=
  if pa / 2 ^ 43 = 0 then homeDie pa * 256 + fld pa 8 2 * 64 + fld pa 10 6 else 2 ^ 20 + pa / 2 ^ 44

/-! ## Edges (R3, R348) -/

/-- The die and edge at the other end of an inner edge (0 north, 1 east, 2 south, 3 west). -/
def opposite (die edge : Nat) : Option (Nat × Nat) :=
  if 24 ≤ die then none
  else match edge with
    | 0 => if 6 ≤ die then some (die - 6, 2) else none
    | 1 => if die % 6 < 5 then some (die + 1, 3) else none
    | 2 => if die < 18 then some (die + 6, 0) else none
    | 3 => if 0 < die % 6 then some (die - 1, 1) else none
    | _ => none

/-- The edge of a die that lies nearest to another: along its row of dies first, then along the column (log entry 18). -/
def nearEdge (die dest : Nat) : Nat :=
  if die % 6 < dest % 6 then 1 else if dest % 6 < die % 6 then 3 else if die < dest then 2 else 0

/-- The edge by which a die reaches the next one. -/
def edgeTo (die next : Nat) : Option Nat := (List.range 4).find? (fun e => decide ((opposite die e).map (fun x => x.1) = some next))

/-! ## Mesh routes (R349, R350) -/

/-- The key of a routing entry: its bank, partition, die, router and destination node. -/
def routeKey (bank part die router dest : Nat) : Nat := (((bank * 64 + part) * 32 + die) * 32 + router) * 128 + dest

/-- The bank that a partition uses on a die. -/
def State.routeBank (s : State) (die part : Nat) : Nat := (nbit (s.die die).rtbank part).toNat

/-- An entry of the bank in use: its PORT; none where V is 0 or PORT is reserved, which acts so. -/
def State.routeEntry (s : State) (part die router node : Nat) : Option Nat :=
  let e := sget 0 s.routes (routeKey (s.routeBank die part) part die router node)
  if nbit e 3 = true ∧ e % 8 ≤ 4 then some (e % 8) else none

/-- The dies that a request crosses, from one on to its home, by the entries of the dies it meets: at its own die that of the router
at its cluster, at a die that it enters by edge e that of router 20 + e; a PORT of 0 to 3 leads off the die by that edge, and an
ejection by the edge nearest to the home (log entry 19). At its home the entry of node `last` ejects it, where it goes to a node of the
die. None where an entry is not valid or leads nowhere. -/
def State.routeFrom (s : State) (part home : Nat) (last : Option Nat) : Nat → Nat → Nat → Option (List Nat)
  | 0, _, _ => none
  | n + 1, die, router =>
    if die = home then
      match last with
      | none => some [die]
      | some node => (s.routeEntry part die router node).map (fun _ => [die])
    else match s.routeEntry part die router (32 + home) with
    | none => none
    | some p => match opposite die (if p = 4 then nearEdge die home else p) with
      | none => none
      | some (d, e) => (s.routeFrom part home last n d (20 + e)).map (fun l => die :: l)

/-- R349: the dies that a request of a core crosses to a physical address, both ends among them; none where it meets an entry that
is not valid. A request to another module goes to the port from its core's die; host memory is no node, and needs no route. -/
def State.route (s : State) (part core pa : Nat) : Option (List Nat) :=
  let die := dieOf core
  let router := clusterOf core % 16
  if inHbm pa then s.routeFrom part (homeDie pa) (some (16 + fld pa 8 2)) 25 die router
  else if isFar pa then (s.routeEntry part die router (64 + fld pa 44 6)).map (fun _ => [die])
  else some [die]

def State.routed (s : State) (part core pa : Nat) : Bool := (s.route part core pa).isSome

/-- The way from a core to a die for what has no address, swatch traffic, which ends at the die (log entry 82): none where it meets an
entry that is not valid. -/
def State.swRoute (s : State) (part core die : Nat) : Option (List Nat) :=
  s.routeFrom part die none 25 (dieOf core) (clusterOf core % 16)

def State.wayTo (s : State) (part core die : Nat) : List Nat := (s.swRoute part core die).getD []

/-! ## How an edge stands (R346, R347) -/

/-- Whether a module of an edge is up. -/
def State.moduleUp (s : State) (die edge m : Nat) : Bool := decide ((s.link die edge m).state ≠ 0)

/-- The module that a channel of an edge runs on (R342, R347). -/
def State.moduleOf (s : State) (die edge chan : Nat) : Nat := fld (s.lnkMap die edge) (3 * chan) 3

def State.modLink (s : State) (die edge m : Nat) (f : Link → Link) : State := s.putLink die edge m (f (s.link die edge m))
def State.modChan (s : State) (die edge c : Nat) (f : Chan → Chan) : State := s.putChan die edge c (f (s.chan die edge c))

/-- A flit on its way to the other end, on the module of its channel. -/
def State.fly (s : State) (die edge : Nat) (l : List Flit) : State :=
  l.foldl (fun (s : State) f => match opposite die edge with
    | some (d, e) => s.modLink d e (s.moduleOf die edge f.chan) (fun k => { k with wire := k.wire ++ [f] })
    | none => s) s

/-- No module of an edge is up, and it has held its traffic for 1 ms. -/
def State.edgeDead (s : State) (die edge : Nat) : Bool :=
  !(List.range 8).any (fun m => s.moduleUp die edge m) && (List.range 8).any (fun c => match (s.chan die edge c).heldDown with
    | some t => decide (t + 1000000 ≤ s.ns die)
    | none => false)

/-- R344, R346: a channel of an edge takes a flit now: its module is active, and fewer than 64 flits are held for replay. -/
def State.channelOpen (s : State) (die edge chan : Nat) : Bool :=
  decide ((s.link die edge (s.moduleOf die edge chan)).state = 2) && decide ((s.chan die edge chan).held.length < 64)

/-- The edges of a way. -/
def edgesOf : List Nat → List (Nat × Nat)
  | a :: b :: l => ((edgeTo a b).map (fun e => (a, e))).toList ++ edgesOf (b :: l)
  | _ => []

/-- The edges that an access crosses, on its way and with its reply: the dies in order, and back. -/
def roundTrip (l : List Nat) : List (Nat × Nat) := edgesOf l ++ edgesOf l.reverse

/-- R347: an access that is no request of a thread crosses its way in one step (log entry 134); at an edge that has been down for 1 ms
it is answered with a poisoned reply. -/
def State.wayDead (s : State) (l : List Nat) : Bool := (edgesOf l).any (fun e => s.edgeDead e.1 e.2)

/-- R346, R350: such an access is held while its channel takes no flit at an edge of its way or of its reply's, or while a die of its way
swaps the routes of its partition. -/
def State.wayHeld (s : State) (part chan : Nat) (l : List Nat) : Bool :=
  !s.wayDead l && ((roundTrip l).any (fun e => !s.channelOpen e.1 e.2 chan) ||
    l.any (fun d => decide ((s.die d).rtbusy = some part)))

/-- R342, R344: a data flit goes over an edge, and is held for replay. -/
def State.flit (s : State) (die edge chan : Nat) (load : List (Nat × Nat)) : State :=
  let c := s.chan die edge chan
  let f : Flit := ⟨chan, 1, c.tx, 0, load⟩
  let since := if c.held.isEmpty then s.ns die else c.heldSince
  (s.putChan die edge chan { c with tx := (c.tx + 1) % 256, held := c.held ++ [f], heldSince := since }).fly die edge [f]

/-! ## Ports (R351) -/

/-- The die of a port. -/
def portDie (k : Nat) : Nat := if k < 6 then k else 12 + k
/-- The channel of a line (R342), which is also the hash that spreads another module's lines over the ports (R351). -/
def lineChannel (pa : Nat) : Nat := fld pa 11 3 ^^^ fld pa 14 3

/-- The ports that lead to a module. -/
def State.portsTo (s : State) (m : Nat) : List Nat := (List.range 12).filter (fun k => nbit (sget 0 s.regs.optroute m) k)

/-- The port of a hash for a module: the one that the hash names, or the next of the set that is up; one that retrains is. -/
def State.portFor (s : State) (m hash : Nat) : Option Nat :=
  let l := s.portsTo m
  ((List.range l.length).map (fun i => l.getD ((hash + i) % l.length) 0)).find? (fun k => decide ((s.port k).state ≠ 0))

/-- Every port of a module's set is down, each for 1 ms. -/
def State.portsDead (s : State) (m : Nat) : Bool :=
  let l := s.portsTo m
  !l.isEmpty && l.all (fun k => decide ((s.port k).state = 0) && (match (s.port k).downAt with
    | none => true
    | some t => decide (t + 1000000 ≤ s.ns (portDie k)))) && l.any (fun k => (s.port k).downAt.isSome)

/-- A port with one more block sent and held. -/
def Port.hold (p : Port) (ns : Nat) (l : List (Nat × Nat)) : Port :=
  { p with
    tx := (p.tx + 1) % 65536
    held := p.held ++ [⟨0, 1, p.tx, 0, l⟩]
    heldSince := if p.held.isEmpty then ns else p.heldSince }

/-- How the way to a physical address stands for an access that is no request of a thread. -/
inductive Way where
  | go
  | held
  | dead
  deriving DecidableEq, Repr

/-- The way along some dies, on a channel. -/
def State.dieWay (s : State) (part chan : Nat) (l : List Nat) : Way :=
  if s.wayDead l then .dead else if s.wayHeld part chan l then .held else .go

/-- The way to another module's line: through a port that is active and has room for one more block to hold. -/
def State.portWay (s : State) (m hash : Nat) : Way :=
  if s.portsDead m then .dead
  else match s.portFor m hash with
    | some k => if (s.port k).state = 2 ∧ (s.port k).held.length < 8192 then .go else .held
    | none => .held

/-- The way to an address: over the die links of its route, or through a port. -/
def State.reach (s : State) (part core pa : Nat) : Way :=
  if isFar pa then
    (if (s.die (dieOf core)).rtbusy = some part then .held else s.portWay (fld pa 44 6) (lineChannel pa))
  else s.dieWay part (lineChannel pa) ((s.route part core pa).getD [])

/-- R342: what crosses some dies in one step, a request and its reply, goes over each edge in a data flit of its channel. -/
def State.carry (s : State) (chan : Nat) (l : List Nat) : State :=
  (roundTrip l).foldl (fun (s : State) e => s.flit e.1 e.2 chan []) s

/-- R352: what leaves for another module in one step goes in a class S block of the port. -/
def State.block (s : State) (m hash : Nat) : State :=
  match s.portFor m hash with
  | some k => s.putPort k ((s.port k).hold (s.ns (portDie k)) [])
  | none => s

/-- An access that is no request of a thread goes to an address and back: held on its way, the running event is (R346, R350, R351);
else it crosses the edges of its route in flits, or leaves in a block. -/
def State.crosses (s : State) (part core pa : Nat) : State :=
  match s.reach part core pa with
  | .dead => s
  | .held => { s with held := true }
  | .go => if isFar pa then s.block (fld pa 44 6) (lineChannel pa) else s.carry (lineChannel pa) ((s.route part core pa).getD [])

end Sys2Proof.Machine
end

