-- ==== Sys2Proof/Machine/Memory.lean ====
section
/-! DEFINITION. Physical memory: the address map (R326), bytes under their key tags (R336), error sectors
(R385), and the page-table walk with the fault ring (R327 to R332, R384). -/

namespace Sys2Proof.Machine

open Sys2Proof

/-- What a byte of memory that nothing has written reads as (DESIGN CHOICE, log entry 3). -/
def memDefault : Byte := 0

/-- The canonical form of memory: addresses strictly rising, no byte listed that an unlisted address reads as. -/
def Memory.wf (m : List Host.Cell) : Bool := swf memDefault m

/-- The plaintext byte at a physical address. -/
def State.byte (s : State) (pa : Nat) : Byte := sget memDefault s.mem pa

/-! ## Key tags (R335, R336) -/

/-- Slot 0 is usable by every partition and means no encryption (R335). -/
def State.keyEn (s : State) (k : Nat) : Bool := if k = 0 then true else (s.key k).en

/-- The tag of the key pair in a slot: 0 without encryption. -/
def State.keyTag (s : State) (k : Nat) : Nat :=
  if k = 0 then 0 else 1 + (s.key k).key1 * 2 ^ 128 + (s.key k).key2

/-- The tag under which a byte's line stands; host memory carries none. -/
def State.lineTag (s : State) (pa : Nat) : Nat := sget 0 s.tags (pa / 64)

/-- The plaintext of a line. -/
def State.lineBytes (s : State) (pa : Nat) : List Byte := (List.range 64).map (fun i => s.byte (pa / 64 * 64 + i))

/-- A byte read under a key tag: its plaintext under the tag that its line stands under, and what the ciphertext decrypts to
under any other (R336). Host memory is not encrypted. -/
def State.readByte (s : State) (tag pa : Nat) : Byte :=
  if isHost pa ∨ s.lineTag pa = tag then s.byte pa
  else (recrypt (s.lineTag pa) tag (pa / 64) (s.lineBytes pa)).getD (pa % 64) 0

/-- `n` bytes read under a tag, as one little-endian number (R6). -/
def State.readMem (s : State) (tag pa n : Nat) : Nat := natLE ((List.range n).map (fun i => s.readByte tag (pa + i)))

/-- One byte of plaintext stored. -/
def State.putByte (s : State) (pa : Nat) (b : Byte) : State := { s with mem := sset memDefault s.mem pa b }

/-- Makes a line stand under a tag: its bytes become what they read as under it (R336). -/
def State.retag (s : State) (tag pa : Nat) : State :=
  if isHost pa ∨ s.lineTag pa = tag then s
  else
    let b := (List.range 64).map (fun i => s.readByte tag (pa / 64 * 64 + i))
    let s' := b.zipIdx.foldl (fun t e => t.putByte (pa / 64 * 64 + e.2) e.1) s
    { s' with tags := sset 0 s'.tags (pa / 64) tag }

/-- A byte written under a key tag. -/
def State.writeByte (s : State) (tag pa : Nat) (b : Byte) : State := (s.retag tag pa).putByte pa b

/-- A write discards what the read-ahead buffers hold of its sector (R146). -/
def State.unbuffer (s : State) (pa : Nat) : State :=
  let d := s.die (homeDie pa)
  if d.ahead.contains (pa / 32) then s.putDie (homeDie pa) { d with ahead := d.ahead.filter (fun x => x != pa / 32) } else s

/-- Bytes written under a tag from an address on. -/
def State.writeMem (s : State) (tag pa : Nat) (b : List Byte) : State :=
  b.zipIdx.foldl (fun t e => (t.writeByte tag (pa + e.2) e.1).unbuffer (pa + e.2)) s

/-! ## Error sectors (R385) -/

/-- The 32-byte sector of an address returns an uncorrectable error. -/
def State.poisoned (s : State) (pa : Nat) : Bool := sget false s.poison (pa / 32)

def State.setPoison (s : State) (pa : Nat) (b : Bool) : State := { s with poison := sset false s.poison (pa / 32) b }

/-- ECCLAST names the sector of an error returned, and the stack's HBMUE counts it (R358, R381). -/
def State.noteHbmError (s : State) (pa : Nat) : State :=
  let d := s.die (homeDie pa)
  let off := 0x2018 + 0x800 * fld pa 8 2
  s.putDie (homeDie pa) { d with eccLast := some (pa / 32 * 32), tm := { d.tm with live := sset 0 d.tm.live off (sget 0 d.tm.live off + 1) } }

/-! ## What is counted of an access (R381, R146) -/

/-- A telemetry counter of a die rises (R381). -/
def State.tmAdd (s : State) (d off n : Nat) : State :=
  let x := s.die d
  s.putDie d { x with tm := { x.tm with live := sset 0 x.tm.live off ((sget 0 x.tm.live off + n) % 2 ^ 64) } }

/-- PFISSUED of the pseudo-channel of an HBM address (R381); PFUSED and PFLATE follow it. -/
def prefetchCounter (pa : Nat) : Nat := 0x2200 + 0x800 * fld pa 8 2 + 0x18 * fld pa 10 6

/-- R146: a read uses a sector read ahead, and may have come before it had landed (a free value, log entry 96); what a write
discards, `State.unbuffer` takes away. -/
def State.meetAhead (s : State) (pa : Nat) : State :=
  let d := s.die (homeDie pa)
  if d.ahead.contains (pa / 32) = false then s
  else
    let s1 := (s.unbuffer pa).tmAdd (homeDie pa) (prefetchCounter pa + 8) 1
    State.tmAdd { s1 with free := s.free + 1 } (homeDie pa) (prefetchCounter pa + 16) (Config.freeValue s.free % 2)

/-- RDBYTES or WRBYTES of the stack of an HBM address (R381, log entry 44), and the read-ahead buffer of a sector that is read
(R146). -/
def State.noteBytes (s : State) (pa n : Nat) (wr : Bool) : State :=
  if inHbm pa then
    let s1 := s.tmAdd (homeDie pa) (0x2000 + 0x800 * fld pa 8 2 + (if wr then 8 else 0)) n
    if wr then s1 else s1.meetAhead pa
  else s

/-- An access that is no request of a thread: it crosses its way (R342, R346), and what it reads or writes is counted (R381). -/
def State.access (s : State) (part core pa n : Nat) (wr : Bool) : State := (s.crosses part core pa).noteBytes pa n wr

/-- Writes given bytes of one 32-byte sector in one request: a write of the whole sector clears its error, a
partial write of a sector with an error is not performed (R385). -/
def State.writeSector (s : State) (tag : Nat) (b : List (Nat × Byte)) : State :=
  match b with
  | [] => s
  | (pa, _) :: _ =>
    let whole := (List.range 32).all (fun i => b.any (fun e => e.1 == pa / 32 * 32 + i))
    if s.poisoned pa = true ∧ whole = false then s
    else State.unbuffer (b.foldl (fun t e => t.writeByte tag e.1 e.2) (s.setPoison pa false)) pa

/-- A run of bytes written sector by sector, each sector in one request. -/
def State.writeRun (s : State) (tag pa : Nat) (b : List Byte) : State :=
  let at_ := b.zipIdx.map (fun e => (pa + e.2, e.1))
  (List.range (b.length / 32 + 2)).foldl (fun t i => t.writeSector tag (at_.filter (fun e => e.1 / 32 == pa / 32 + i))) s

/-- The first sector with an error among those of `n` bytes. -/
def State.badSector (s : State) (pa n : Nat) : Option Nat :=
  ((List.range (n / 32 + 2)).map (fun i => pa / 32 * 32 + 32 * i)).find? (fun a => decide (a < pa + n) && s.poisoned a)

/-! ## The page-table walk (R327 to R329) -/

/-- What else a failed walk calls for: nothing, the alarm source KEY (R337), or the record of an error sector (R358). -/
inductive WalkNote where
  | quiet
  | foreign
  | bad (pa : Nat)
  deriving DecidableEq, Repr

/-- What a walk answers: an entry for the TLBs, or the cause and level of the failure and what else it calls for. -/
inductive WalkRes where
  | hit (e : TlbEntry)
  | fail (cause level : Nat) (note : WalkNote)
  deriving DecidableEq, Repr

/-- The checks of a leaf in the order of R329, made by every access, of a leaf just walked or held in a TLB (R337). -/
def State.leaf (s : State) (part rights : Nat) (e : TlbEntry) : WalkRes :=
  if e.key ≠ 0 ∧ (s.key e.key).owner ≠ part then .fail 5 e.level .foreign
  else if s.keyEn e.key = false then .fail 5 e.level .quiet
  else if s.paExists e.pa = false then .fail 4 e.level .quiet
  else if (nbit rights 0 && !e.r) || (nbit rights 1 && !e.w) || (nbit rights 2 && !e.x) then .fail 3 e.level .quiet
  else .hit e

/-- The entry of a leaf that the walk has read. -/
def leafOf (part va level pageBits e : Nat) : TlbEntry :=
  ⟨part, va / 2 ^ pageBits * 2 ^ pageBits, 2 ^ pageBits, fld e 8 44 * 256, fld e 52 12, nbit e 2, nbit e 3, nbit e 4, level⟩

/-- The walk from a table on, level by level: each level gives its number, the lowest bit and width of its
index, the page bits of a leaf and the alignment of the next table. The read of an entry takes the routes from the core to its
home (R349), and over an edge that has been down for 1 ms it comes back poisoned (R347). -/
def State.walkLevels (s : State) (core part va rights : Nat) : Nat → List (Nat × Nat × Nat × Nat × Nat) → WalkRes
  | _, [] => .fail 2 3 .quiet
  | table, (level, lo, n, pageBits, align) :: rest =>
    let ea := table + 8 * fld va lo n
    if s.routed part core ea = false then .fail 4 4 .quiet
    else if s.reach part core ea = .dead then .fail 9 level .quiet
    else if s.poisoned ea = true then .fail 9 level (.bad ea)
    else
      let e := s.readMem 0 ea 8
      let next := fld e 8 44 * 256
      if nbit e 0 = false then .fail 1 level .quiet
      else if fld e 5 3 ≠ 0 then .fail 2 level .quiet
      else if nbit e 1 = true then
        if level = 0 ∨ next % 2 ^ pageBits ≠ 0 then .fail 2 level .quiet
        else s.leaf part rights (leafOf part va level pageBits e)
      else if level = 3 ∨ fld e 52 12 ≠ 0 ∨ fld e 2 3 ≠ 0 ∨ next % align ≠ 0 then .fail 2 level .quiet
      else if inHbm next = false then .fail 4 level .quiet
      else s.walkLevels core part va rights next rest

/-- The levels of R327. -/
def levels : List (Nat × Nat × Nat × Nat × Nat) :=
  [(0, 39, 18, 39, 4096), (1, 30, 9, 30, 4096), (2, 21, 9, 21, 256), (3, 16, 5, 16, 256)]

/-- The addresses of the table entries that a walk reads, in their order. -/
def State.walkReads (s : State) (va : Nat) : Nat → List (Nat × Nat × Nat × Nat × Nat) → List Nat
  | _, [] => []
  | table, (level, lo, n, _, _) :: rest =>
    let ea := table + 8 * fld va lo n
    let e := s.readMem 0 ea 8
    let next := fld e 8 44 * 256
    ea :: (if s.poisoned ea = true ∨ nbit e 0 = false ∨ nbit e 1 = true ∨ level = 3 ∨ inHbm next = false then []
      else s.walkReads va next rest)

/-- An address in the partition's shadow region (R331). -/
def Part.inShadow (p : Part) (va : Nat) : Bool :=
  decide (p.shsize ≠ 0) && decide (p.shbase ≤ va) && decide (va < p.shbase + p.shsize * 2 ^ 30)

/-- Translates an address of a partition for some rights and a core (R327 to R331): the shadow region is never walked. -/
def State.walk (s : State) (core part va rights : Nat) : WalkRes :=
  let p := s.part part
  if 2 ^ 57 ≤ va then .fail 7 4 .quiet
  else if p.inShadow va then .fail 8 4 .quiet
  else if p.ptrootEn = false then .fail 1 4 .quiet
  else if inHbm p.ptroot = false then .fail 4 4 .quiet
  else s.walkLevels core part va rights p.ptroot levels

/-- The physical address an entry gives. -/
def TlbEntry.at_ (e : TlbEntry) (va : Nat) : Nat := e.pa + (va - e.va)

/-! ## Translation through the TLBs (R330) -/

/-- An entry holds the page of an address. -/
def TlbEntry.holds (e : TlbEntry) (part va : Nat) : Bool :=
  decide (e.part = part) && decide (e.va ≤ va) && decide (va < e.va + e.size)

/-- Looks an address up in a core's TLB and its die's. -/
def State.tlbFind (s : State) (core part va : Nat) : Option TlbEntry :=
  ((s.core core).tlb ++ (s.die (dieOf core)).tlb2).find? (fun e => e.holds part va)

/-- Installs an entry in a core's TLB and its die's, whose capacities are 256 and 8,192. -/
def State.tlbInstall (s : State) (core : Nat) (e : TlbEntry) : State :=
  let s1 := s.putCore core { s.core core with tlb := (e :: (s.core core).tlb).take 256 }
  let d := s1.die (dieOf core)
  s1.putDie (dieOf core) { d with tlb2 := (e :: d.tlb2).take 8192 }

/-- Translates an address for some rights: by the entry that a TLB holds, which serves until an invalidation (R330), else by a
walk. An address of the shadow region is neither looked up nor walked (R331). -/
def State.lookup (s : State) (core part va rights : Nat) : WalkRes :=
  if (s.part part).inShadow va then .fail 8 4 .quiet
  else match s.tlbFind core part va with
  | some e => s.leaf part rights e
  | none => s.walk core part va rights

/-- Takes the answer to a physical address and key tag. -/
def State.translate (s : State) (core part va rights : Nat) : Except (Nat × Nat) (Nat × Nat) :=
  match s.lookup core part va rights with
  | .hit e => .ok (s.canonPa (e.at_ va), s.keyTag e.key)
  | .fail c l _ => .error (c, l)

/-- The table entries that the walk of an address reads are accesses (R342, R346, R381); an address that a TLB holds, or that is not
walked, has none. -/
def State.walked (s : State) (core part va : Nat) : State :=
  let p := s.part part
  if (s.tlbFind core part va).isSome = true ∨ 2 ^ 57 ≤ va ∨ p.inShadow va = true ∨ p.ptrootEn = false ∨ inHbm p.ptroot = false then s
  else (s.walkReads va p.ptroot levels).foldl (fun t ea => if s.routed part core ea then t.access part core ea 32 false else t) s

/-- An access that has translated leaves its entry in the TLBs. -/
def State.learn (s : State) (core part va rights : Nat) : State :=
  match s.tlbFind core part va, s.walk core part va rights with
  | none, .hit e => (s.walked core part va).tlbInstall core e
  | _, _ => s

/-- Where an access that is no request of a thread lies: it translates (R329), meets valid routes (R349), and no edge or port that has
been down for 1 ms (R347, R351). -/
def State.place (s : State) (core part va rights : Nat) : Except (Nat × Nat) (Nat × Nat) :=
  match s.translate core part va rights with
  | .error e => .error e
  | .ok (pa, tag) =>
    if s.routed part core pa = false then .error (4, 4)
    else if s.reach part core pa = .dead then .error (9, 4)
    else .ok (pa, tag)

/-- What a failed translation calls for beside its record: the alarm KEY, which becomes the next turn (R337), or the note of
an error sector (R358). -/
def State.noted (s : State) (part core : Nat) (r : WalkRes) : State :=
  match r with
  | .fail _ _ .foreign => { s with agenda := ⟨0, .alarm 5 (dieOf core) part⟩ :: s.agenda }
  | .fail _ _ (.bad pa) => s.noteHbmError pa
  | _ => s

/-- Reads up to 64 bytes within one line of virtual memory at once, for an access that no program makes (R384). -/
def State.vread (s : State) (core part va n : Nat) : Except (Nat × Nat) Nat :=
  match s.place core part va 1 with
  | .error e => .error e
  | .ok (pa, tag) => if (s.badSector pa n).isSome then .error (9, 4) else .ok (s.readMem tag pa n)

/-- What such a read leaves: its entry in the TLBs, what is counted of it, and the note of an error sector returned (R358). -/
def State.vseen (s : State) (core part va n : Nat) : State :=
  match s.place core part va 1 with
  | .error _ => s
  | .ok (pa, _) =>
    let s1 := (s.learn core part va 1).access part core pa (32 * cdiv n 32) false
    match s.badSector pa n with
    | some a => s1.noteHbmError a
    | none => s1

/-- Writes bytes within one page of virtual memory, for an access that no program makes (R384, R385). -/
def State.vwrite (s : State) (core part va : Nat) (b : List Byte) : Except (Nat × Nat) State :=
  match s.place core part va 2 with
  | .error e => .error e
  | .ok (pa, tag) => .ok (State.access (State.learn (s.writeRun tag pa b) core part va 2) part core pa (32 * cdiv b.length 32) true)

/-- The 32 bytes of a fault record (R332). -/
def FaultRec.bytes (r : FaultRec) (core queue tick : Nat) : List Byte :=
  bytesLE 8 r.va ++ bytesLE 1 r.cause ++ bytesLE 1 r.level ++ bytesLE 1 r.source ++
    bytesLE 1 (if r.write then 1 else 0) ++ bytesLE 2 core ++ bytesLE 2 queue ++ bytesLE 8 tick ++ bytesLE 8 0

/-- Whether a ring with this LOG2N is enabled (R316, R331). -/
def ringOn (log2n : Nat) : Bool := decide (4 ≤ log2n) && decide (log2n ≤ 16)

/-- What the failed translation of a record calls for beside it; the walk that found the failure has read its table entries. -/
def State.blame (s : State) (part core : Nat) (r : FaultRec) : State :=
  let s := if r.level < 4 then s.walked core part r.va else s
  if r.cause = 5 ∨ (r.cause = 9 ∧ r.level ≠ 4) then s.noted part core (s.lookup core part r.va 0) else s

/-- Appends a record to the partition's fault ring (R332); a record that cannot be written is dropped (R384). -/
def State.writeFault (s : State) (part core queue tick : Nat) (r : FaultRec) : State :=
  let s := s.blame part core r
  let p := s.part part
  if ringOn p.fltlog2n = false then s
  else match s.vwrite core part (p.fltbase + 32 * (p.fltwr % 2 ^ p.fltlog2n)) (r.bytes core queue tick) with
    | .error _ => s
    | .ok s' => s'.putPart part { s'.part part with fltwr := (p.fltwr + 1) % 2 ^ 64 }

/-! ## TLBs (R330) -/

/-- Removes the partition's translations that meet a range from every TLB (R330, R331). -/
def State.tlbDrop (s : State) (part lo size : Nat) : State :=
  let keep := fun (e : TlbEntry) => !(decide (e.part = part) && decide (e.va < lo + size) && decide (lo < e.va + e.size))
  { s with
    cores := s.cores.foldl (fun a c => sset Core.fresh a c.1 { c.2 with tlb := c.2.tlb.filter keep }) s.cores
    dies := s.dies.foldl (fun a d => sset Die.fresh a d.1 { d.2 with tlb2 := d.2.tlb2.filter keep }) s.dies }

end Sys2Proof.Machine
end

