-- ==== Sys2Proof/Machine/Ops.lean ====
section
/-! DEFINITION. What every word shares: TRAPINFO's layouts, dead lanes and SOFT events, killing a team, taking a
trap and returning from one (R309 to R316), candidates and their parting, and the settling of element reads. -/

namespace Sys2Proof.Machine

open Sys2Proof

/-! ## TRAPINFO -/

/-- The layout of R43. -/
def info43 (space opnd sub row lanes : Nat) : Nat :=
  space * 2 ^ 62 + opnd * 2 ^ 60 + sub * 2 ^ 56 + row % 2 ^ 16 * 2 ^ 32 + lanes

/-- Only a subcode (R183, R312). -/
def infoSub (sub : Nat) : Nat := info43 0 0 sub 0 0

/-- The layout of R258. -/
def info258 (w : Bool) (lane va : Nat) : Nat := (if w then 2 ^ 63 else 0) + lane * 2 ^ 58 + va % 2 ^ 57

/-! ## Candidates (R71, R73) -/

/-- The candidates without slices that have ended. -/
def Group.dropEnded (g : Group) : Group :=
  let cs := g.cands.map (fun c => { c with slices := c.slices.filter (fun i => !(g.slice i).ended) })
  { g with cands := cs.filter (fun c => !c.slices.isEmpty) }

/-- The distinct program counters of some slices, in the order of the slices that first show them. -/
def Group.pcs (g : Group) (sl : List Nat) : List Pc :=
  sl.foldl (fun a i => if a.contains (g.slice i).pc then a else a ++ [(g.slice i).pc]) []

/-- R71: a candidate whose slices stand at several addresses becomes one candidate for each. Slices that reach one packet, some by a
branch and some in sequence, form one candidate, whose clause end is that of its lowest slice (DESIGN CHOICE, log entry 145). -/
def Group.part (g : Group) (sl : List Nat) (now : Nat) : Group :=
  let old := g.candFor sl
  let w := (old.map (fun (c : Cand) => c.wait)).getD .ready
  let k := (old.map (fun (c : Cand) => c.kept)).getD []
  let g := g.dropEnded
  let rest := sl.filter (fun i => !(g.slice i).ended)
  let parts := (g.pcs rest).map (fun p => (⟨rest.filter (fun i => (g.slice i).pc == p), w, now, 0, [], k⟩ : Cand))
  let cs := g.cands.flatMap (fun c =>
    if c.meets sl then (if c.slices.head? = rest.head? then parts else []) else [c])
  { g with cands := cs }

/-- A slice sent to a packet: its clause starts there afresh (R65, R172). -/
def Slice.goto (x : Slice) (packet : Nat) : Slice := { x with pc := ⟨packet, 0⟩, hdrEnd := packet }

/-- R67: pops entries until one has lanes left; a slice whose stack runs dry ends. -/
def Slice.unwind (x : Slice) : Slice :=
  match x.stack.dropWhile (fun t => t.emask == 0) with
  | [] => { x with mask := 0, stack := [], ended := true }
  | t :: rest => ({ x with mask := t.emask, stack := rest }).goto t.target

/-- R69: a slice ends, and the lanes parked in its tokens with it. No rule writes its MASK or its entries then, so both stay as
they stood (DESIGN CHOICE, log entry 116). -/
def Slice.finish (x : Slice) : Slice := { x with ended := true }

/-- R61: a slice without some of its lanes, in its MASK and in every entry; without a live lane it ends. -/
def Slice.bury (x : Slice) (keep : BitVec 4) : Slice :=
  { x with mask := x.mask &&& keep, stack := x.stack.map (fun t => { t with emask := t.emask &&& keep }),
           ended := x.ended || decide (keep = 0) }

/-- The live lanes of slice `i` under a DEADMASK. -/
def liveNibble (dead : BitVec 32) (i : Nat) : BitVec 4 := ~~~ (dead.extractLsb' (4 * i) 4)

/-- Whether every live slice waits at a `regang` (R73). -/
def Group.regangs (g : Group) : List (Nat × Nat × Nat) :=
  g.liveSlices.filterMap (fun i => match (g.cand? i).map (fun (c : Cand) => c.wait) with
    | some (Wait.regang n) => some (i, n, (g.slice i).stack.length)
    | _ => none)

/-! ## SOFT events and dead lanes (R359 to R364, R370) -/

/-- R364: a SOFT event made pending, merged into one that is. -/
def Group.addSoft (g : Group) (sub : Nat) (lanes : BitVec 32) (space row : Nat) : Group :=
  let o := g.soft
  let n : Soft := if o.sub ≤ sub then ⟨sub, o.lanes ||| lanes, space, row⟩ else { o with lanes := o.lanes ||| lanes }
  { g with soft := n }

/-- With protected mode the partner of each lane (R370). -/
def withPartners (prot : Bool) (l : List Nat) : List Nat :=
  if prot then allLanes.filter (fun i => l.contains i || l.contains (if i % 2 = 0 then i + 1 else i - 1)) else l

/-- The DEADMASK with some lanes set. -/
def deadWith (dead : BitVec 32) (l : List Nat) : BitVec 32 := dead ||| BitVec.ofNat 32 (lanesMask l)

/-- R360, R61, R169, R370: lanes of a group become dead: DEADMASK, the MASKs and stacks, standing and saved, and
a running `inv` follow. -/
def Group.killLanes (g : Group) (prot : Bool) (l : List Nat) : Group :=
  let l := (withPartners prot l).filter g.live
  let dead := deadWith g.dead l
  let bury := fun (xs : List Slice) => xs.mapIdx (fun i x => x.bury (liveNibble dead i))
  let drop := fun (cs : List Cand) (xs : List Slice) =>
    (cs.map (fun (c : Cand) => { c with slices := c.slices.filter (fun i => !(xs.getD i noSlice).ended) })).filter
      (fun c => !c.slices.isEmpty)
  let xs := bury g.slices
  let sv := g.saved.map (fun (v : Saved) =>
    { v with slices := bury v.slices, cands := drop v.cands (bury v.slices) })
  let stop := fun (x : InvLane) => if l.contains x.lane then { x with fin := true, v := false } else x
  let iv := g.inv.map (fun (v : InvState) => { v with lanes := v.lanes.map stop })
  { g with dead := dead, slices := xs, cands := drop g.cands xs, saved := sv, inv := iv }

/-- R362: no live lane is left. -/
def Group.noLane (g : Group) : Bool := decide (g.dead = 0xFFFFFFFF#32)

/-- R362: the trap of a group whose last live lane has died; no candidate is left that raised it. -/
def deadlane (g : Group) : TrapRec := ⟨0x14, 0, (g.slices.headD noSlice).pc, []⟩

/-- R360, R358, R364: lanes that consumed an uncorrectable value die, are counted and reported. -/
def State.lanesDie (s : State) (team n : Nat) (l : List Nat) : State :=
  match s.team? team with
  | none => s
  | some t => match t.group? n with
    | none => s
    | some g =>
      let d := s.die (dieOf t.core)
      let new := (withPartners t.prot l).filter g.live
      if new.isEmpty then s
      else
        let s' := s.putDie (dieOf t.core) { d with deadCnt := satAdd 16 d.deadCnt new.length }
        let h := (g.killLanes t.prot l).addSoft 1 (BitVec.ofNat 32 (lanesMask new)) 0 0
        s'.putGroup team (if g.isEnded = false ∧ h.noLane = true then { h with trapping := some (deadlane g) } else h)

/-! ## Element reads (R360, R361, R365, R367) -/

/-- The mirror of a row: the core row that mirrors it, when the row's run is covered. -/
def Core.mirrorOf (c : Core) (row : Nat) : Option Nat :=
  (c.mirrors.find? (fun m => decide (m.lo ≤ row) && decide (row < m.lo + m.len))).map (fun m => m.at_ + (row - m.lo))

/-- Writes an element and its mirror (R366). -/
def State.putElem (s : State) (core row lane : Nat) (e : Elem) : State :=
  let p := palPut s.pal core row lane e
  match (s.core core).mirrorOf row with
  | some r => { s with pal := palPut p core r lane e }
  | none => { s with pal := p }

/-- What reading an element under its check bits finds (R365, R367): the element to use, or nothing when it is
uncorrectable and no sound mirror covers it; whether a mirror repaired it; and the state with the repair and the
counters of R358. -/
def State.readElem (s : State) (core row lane : Nat) : State × Option Elem × Bool :=
  let e := palGet s.pal core row lane
  let d := s.die (dieOf core)
  match e.ecc with
  | .sound => (s, some e, false)
  | .correctable =>
    let f : Elem := { e with ecc := .sound }
    let s1 := s.putDie (dieOf core) { d with palcorr := satAdd 16 d.palcorr 1 }
    ({ s1 with pal := palPut s.pal core row lane f }, some f, false)
  | .uncorrectable =>
    let d1 := { d with palunc := satAdd 16 d.palunc 1 }
    match (s.core core).mirrorOf row with
    | some r =>
      let m := palGet s.pal core r lane
      if m.ecc = .uncorrectable then (s.putDie (dieOf core) d1, none, false)
      else
        let f : Elem := { m with ecc := .sound }
        let corr := if m.ecc = .correctable then satAdd 16 d1.palcorr 1 else d1.palcorr
        let s1 := State.putDie { s with pal := palPut s.pal core r lane f } (dieOf core)
          { d1 with mirhit := satAdd 16 d1.mirhit 1, palcorr := corr }
        ({ s1 with pal := palPut s1.pal core row lane f }, some f, true)
    | none => (s.putDie (dieOf core) d1, none, false)

/-- An element that a word reads: its core row and lane; the lane that consumes it, or the number of the scalar it
is; and how SOFT names the row (SPACE and ROW). -/
structure ERef where
  row : Nat
  lane : Nat
  reader : Option Nat
  scalar : Nat
  space : Nat
  num : Nat
  deriving DecidableEq, Repr

/-- One element read settled for a group: a repair makes SOFT 2 pending; an uncorrectable element kills the
reading lane (R360), or loses the scalar (R361). -/
def State.settle1 (s : State) (team n core : Nat) (r : ERef) : State :=
  match s.readElem core r.row r.lane with
  | (s', some _, false) => s'
  | (s', some _, true) =>
    let lanes := match r.reader with
      | some l => BitVec.ofNat 32 (2 ^ l)
      | none => 0
    s'.modGroup team n (fun g => g.addSoft 2 lanes r.space r.num)
  | (s', none, _) => match r.reader with
    | some l => s'.lanesDie team n [l]
    | none =>
      let e := palGet s'.pal core r.row r.lane
      let f : Elem := { e with valid := false, ecc := .sound }
      (s'.putElem core r.row r.lane f).modGroup team n (fun g => g.addSoft 3 0 1 r.scalar)

/-! ## Killing a team (R28, R316) -/

/-- Aborts every engine operation, walk and lock of a team (R28, R317). -/
def State.abortOps (s : State) (team : Nat) : State :=
  { s with
    ops := s.ops.filter (fun o => o.team != team)
    walks := s.walks.filter (fun w => w.team != team)
    locks := s.locks.filter (fun l => l.team != team) }

/-- A team error record (R316). -/
def errRecord (t : Team) (group cause whereAt arg info tick : Nat) : List Byte :=
  bytesLE 8 t.kernel.desc ++ bytesLE 4 t.teamid ++ bytesLE 2 t.queue ++ bytesLE 1 group ++ bytesLE 1 cause ++
    bytesLE 4 whereAt ++ bytesLE 4 arg ++ bytesLE 8 info ++ bytesLE 8 tick ++ bytesLE 2 t.core ++ bytesLE 22 0

/-- Writes a record to the partition's error ring (R316); one that cannot be written is dropped (R384). -/
def State.writeError (s : State) (t : Team) (b : List Byte) (tick : Nat) : State :=
  let p := s.part t.part
  if ringOn p.errlog2n = false then s
  else
    let va := p.errbase + 64 * (p.errwr % 2 ^ p.errlog2n)
    match s.vwrite t.core t.part va b with
    | .error (c, l) => s.writeFault t.part t.core t.queue tick ⟨va, c, l, 9, true⟩
    | .ok s' => s'.putPart t.part { s'.part t.part with errwr := (p.errwr + 1) % 2 ^ 64 }

/-- R28: the team stops, its engine operations are aborted, an error record is written, and its kernel places
no further team (R303). -/
def State.kill (s : State) (team group cause whereAt arg info tick : Nat) : State :=
  match s.team? team with
  | none => s
  | some t =>
    if t.status = .killed then s
    else
      let s1 := s.writeError t (errRecord t group cause whereAt arg info tick) tick
      let s2 := s1.putTeam { t with status := .killed }
      let mark := fun (x : Launch) => if x.id == t.launch then { x with killed := true } else x
      State.abortOps { s2 with launches := s2.launches.map mark } team

/-! ## Taking a trap (R310 to R315) -/

/-- The WAIT code of R311. -/
def Wait.code (w : Wait) : Nat :=
  match w with
  | .ready => 0
  | .clause => 1
  | .flagFull _ => 1
  | .twait _ _ _ _ => 3
  | .waitb _ => 4
  | .regang _ => 5
  | .fetch _ _ => 2
  | .xlate _ => 2
  | .reply _ _ => 2
  | .answered _ => 2
  | .fence _ => 2
  | .acquire _ => 2
  | .room _ => 2
  | .enqRoom _ => 2
  | .offer _ => 2
  | .inv _ => 0

/-- The n of an awaited `regang` (R311). -/
def Wait.regangN (w : Wait) : Nat :=
  match w with
  | .regang n => n
  | _ => 0

/-- Element 8 + s of row 0 of the trap frame (R311). -/
def Group.sliceState (g : Group) (i : Nat) : Nat :=
  let x := g.slice i
  let w := ((g.cand? i).map (fun c => c.wait)).getD .ready
  x.mask.toNat + x.stack.length * 2 ^ 4 + ((g.cand? i).bind (fun c => c.slices.head?)).getD i * 2 ^ 9 +
    (if x.ended then 6 else w.code) * 2 ^ 12 + w.regangN * 2 ^ 16

/-- Row `r` of 0 to 8 of the slice-state image (R311), element `e`. -/
def Group.frameWord (g : Group) (r e : Nat) : Nat :=
  if r = 0 then
    if e < 8 then (g.slice e).pc.word
    else if e < 16 then g.sliceState (e - 8)
    else if e < 24 then (g.slice (e - 16)).hdr
    else if e = 24 then g.trapcode
    else if e = 25 then g.trappc
    else if e = 26 then g.trapinfo % 2 ^ 32
    else if e = 27 then g.trapinfo / 2 ^ 32
    else 0
  else
    match (g.slice (r - 1)).stack.reverse[e / 2]? with
    | none => 0
    | some t => if e % 2 = 0 then t.target else t.emask.toNat + (if t.isMark then 0 else 16)

/-- The item of `n` bytes of a kernel at an address in a die's code store (R308). -/
def State.codeItem (s : State) (die part desc va n : Nat) : Option CodeItem :=
  (s.die die).code.find? (fun c => decide (c.part = part) && decide (c.desc = desc) && decide (c.va = va) && decide (c.n = n))

/-- The packet's address in memory (R170). -/
def Team.packetVa (t : Team) (packet : Nat) : Nat := t.kernel.code + 12 * packet

/-- Word `slot` of a fetched packet. -/
def CodeItem.word (c : CodeItem) (slot : Nat) : Nat := c.val / 2 ^ (32 * slot) % 2 ^ 32

/-- Every flag named in WAIT is zero (R172). -/
def Group.flagsClear (g : Group) (w : Nat) : Bool := (List.range 12).all (fun i => !nbit w i || g.flags.getD i 0 == 0)

/-! ## What a packet's words say before they issue -/

/-- The pipes of R179. -/
inductive Pipe where
  | s | b | v | x | m
  deriving DecidableEq, Repr

/-- The pipe of a major; none for a `nop` or a header. -/
def pipeOf (major : Nat) : Option Pipe :=
  match major with
  | 1 => some .s
  | 2 => some .s
  | 19 => some .s
  | 3 => some .b
  | 16 => some .b
  | 17 => some .b
  | 18 => some .b
  | 20 => some .b
  | 10 => some .x
  | 11 => some .x
  | 21 => some .x
  | 12 => some .m
  | 13 => some .m
  | 14 => some .m
  | 15 => some .m
  | 22 => some .m
  | 0 => none
  | 31 => none
  | _ => some .v

/-- The flag-select code of a word (R174): `.fa` 1, `.fb` 2. -/
def flagSel (i : Instr) : Nat :=
  match i with
  | .ldB8Fa .. | .ldB16Fa .. | .ldB32Fa .. => 1
  | .ldB8Fb .. | .ldB16Fb .. | .ldB32Fb .. => 2
  | .ldScalarAddress _ _ f _ _ _ _ _ => f
  | .atomAddN32 _ _ _ f _ _ _ | .atomAddN64 _ _ _ f _ _ _ | .atomAddF32 _ _ _ f _ _ _ | .atomMinS32 _ _ _ f _ _ _
  | .atomMinN32 _ _ _ f _ _ _ | .atomMaxS32 _ _ _ f _ _ _ | .atomMaxN32 _ _ _ f _ _ _ | .atomAndB32 _ _ _ f _ _ _
  | .atomOrB32 _ _ _ f _ _ _ | .atomXorB32 _ _ _ f _ _ _ | .atomXchgB32 _ _ _ f _ _ _ | .atomCasB32 _ _ _ f _ _ _
  | .atomXchgB64 _ _ _ f _ _ _ | .atomCasB64 _ _ _ f _ _ _ => f
  | .swldB32 _ f _ _ | .swldB32Far _ f _ _ => f
  | .swatomAddN32 _ f _ _ _ | .swatomCasB32 _ f _ _ _ | .swatomAddN32Far _ f _ _ _ | .swatomCasB32Far _ f _ _ _ => f
  | .appendB32 _ f _ _ _ | .appendB64 _ f _ _ _ => f
  | _ => 0

/-- `trap` and `rte`, which like the words of pipe B end a chain (R181, subcode 3). -/
def endsChain (i : Instr) : Bool :=
  match i with
  | .trap .. | .trapRegisterHandler .. | .trapKillService .. | .rte .. => true
  | _ => false

/-- A word of a chain: its slot, its major and its instruction. -/
structure ChainWord where
  slot : Nat
  major : Nat
  instr : Instr
  deriving DecidableEq, Repr

/-- The words that issue together from a slot on, with whether there is a chain bit in slot 2; none where one of them is no
instruction. The chain bit of an `inv` joins it to no successor (R162, check 3). -/
def CodeItem.together (i : CodeItem) : Nat → Nat → Option (List ChainWord × Bool)
  | 0, _ => some ([], true)
  | fuel + 1, slot =>
    match decodeMain slot (i.word slot) (i.word (slot + 1)) with
    | .illegal _ => none
    | .ok x =>
      let w : ChainWord := ⟨slot, fld (i.word slot) 26 5, x⟩
      if nbit (i.word slot) 31 = false ∨ w.major = 20 then some ([w], false)
      else if slot = 2 then some ([w], true)
      else (i.together fuel (slot + 1)).map (fun (l : List ChainWord × Bool) => (w :: l.1, l.2))

/-- R181: the subcode of TRAP_CHAIN that the words themselves show, 1 to 3; 0 for none. -/
def shapeSub (l : List ChainWord) (slot2 : Bool) : Nat :=
  let pipes := l.map (fun w => pipeOf w.major)
  if slot2 then 1
  else if pipes.contains none = true ∨ ¬ pipes.Nodup then 2
  else if l.dropLast.any (fun w => decide (pipeOf w.major = some .b) || endsChain w.instr) then 3
  else 0

/-- R174: the full flag that one of some words selects through a header. -/
def Group.fullAmong (g : Group) (hdr : Nat) (l : List Nat) : Option Nat :=
  (l.filterMap (fun fs => match fs with
    | 0 => none
    | 1 => some (fld hdr 10 4)
    | _ => some (fld hdr 6 4))).find? (fun f => decide (63 ≤ g.flags.getD f 0))

/-- R25, R174: the flag that the candidate's next word, or a word of its chain, would overflow. -/
def State.fullFlag (s : State) (t : Team) (g : Group) (c : Cand) : Option Nat :=
  let x := g.slice (c.slices.headD 0)
  match s.codeItem (dieOf t.core) t.part t.kernel.desc (t.packetVa x.pc.packet) 12 with
  | none => none
  | some i =>
    if x.pc.slot = 0 ∧ x.hdrEnd ≤ x.pc.packet then none
    else match i.together 3 x.pc.slot with
    | none => none
    | some (l, slot2) =>
      if 1 < l.length ∧ shapeSub l slot2 ≠ 0 ∨ slot2 = true then none
      else g.fullAmong x.hdr (l.map (fun w => flagSel w.instr))

/-- R25, R172: a candidate that stands at a clause start whose header names a flag that is not zero. -/
def State.atClause (s : State) (t : Team) (g : Group) (c : Cand) : Bool :=
  let x := g.slice (c.slices.headD 0)
  decide (x.pc.slot = 0) && decide (x.hdrEnd ≤ x.pc.packet) &&
    (match s.codeItem (dieOf t.core) t.part t.kernel.desc (t.packetVa x.pc.packet) 12 with
      | some i => !nbit (i.word 0) 31 && decide (fld (i.word 0) 26 5 = 31) && !g.flagsClear (fld (i.word 0) 14 12)
      | none => false)

/-- The group with every candidate that flags keep from issuing in the clause state (R25), as its frame and its image show it (R311,
R321). -/
def State.inClauses (s : State) (t : Team) (g : Group) : Group :=
  { g with cands := g.cands.map (fun c =>
    if c.wait = .ready then
      if s.atClause t g c = true then { c with wait := .clause }
      else match s.fullFlag t g c with
        | some f => { c with wait := .flagFull f }
        | none => c
    else c) }

/-- The elements of rows 0 to 8 of a trap frame, in their order (R310 step 2). -/
def frameCells : List (Nat × Nat) := (List.range 9).flatMap (fun r => allLanes.map (fun e => (r, e)))

/-- Writes rows 0 to 8 of the trap frame (R310 step 2), and their mirror (R366). -/
def State.writeFrame (s : State) (core : Nat) (g : Group) : State :=
  frameCells.foldl (fun s x => s.putElem core (g.trapRow + x.1) x.2 (Elem.of (BitVec.ofNat 32 (g.frameWord x.1 x.2)))) s

/-- Elements of the trap frame read under their check bits (R365): a repair makes SOFT 2 pending, with the row counted from
`v0` on (DESIGN CHOICE, log entry 119), and an uncorrectable one kills the team with CAUSE 0x16 (R361). -/
def State.readFrame (s : State) (t : Team) (g : Group) (l : List (Nat × Nat)) : State :=
  l.foldl (fun s x => match s.readElem t.core (g.trapRow + x.1) x.2 with
    | (s1, some _, false) => s1
    | (s1, some _, true) => s1.modGroup t.id g.num (fun h => h.addSoft 2 0 0 (g.vrows + x.1))
    | (s1, none, _) => s1.kill t.id g.num 0x16 0 0 0 g.tick) s

/-- A group whose team has not been killed. -/
def State.liveGroup? (s : State) (team n : Nat) : Option Group :=
  (s.team? team).bind (fun t => if t.status = .killed then none else t.group? n)

/-- The place of a code in the user handler table of row 9 (R311). -/
def handlerPlace (code : Nat) : Option Nat :=
  match code with
  | 0x08 => some 0
  | 0x11 => some 1
  | 0x12 => some 2
  | 0x15 => some 3
  | 0x16 => some 4
  | _ => none

/-- The user handler's entry packet for a code, if one is registered (R311, R313). -/
def State.handler (s : State) (core : Nat) (g : Group) (code : Nat) : Option Nat :=
  (handlerPlace code).bind (fun i =>
    let e := palGet s.pal core (g.trapRow + 9) i
    if e.valid = true ∧ e.val.getLsbD 31 = true then some (e.val.toNat % 2 ^ 30) else none)

/-- Steps 2 and 3 of R310: what is saved, the trapping slices standing at the word that TRAPPC names, and the trap registers. -/
def Group.save (g : Group) (r : TrapRec) (user : Bool) : Group :=
  let g := g.setPc r.slices r.pc
  { g with
    trapping := none
    trapcode := r.code + 2 ^ 8 + (if user then 2 ^ 9 else 0)
    trappc := r.pc.word
    trapinfo := r.info
    pcWritten := false
    saved := some ⟨g.slices, g.cands, r.slices⟩ }

/-- Step 4 of R310: one gang at the handler's entry, every live lane of a slice that has not ended active. Its age counts from the
entry, and its starvation counter is 0 (DESIGN CHOICE, log entry 146). -/
def Group.gangAt (g : Group) (packet now : Nat) : Group :=
  let xs := g.slices.mapIdx (fun i x => if x.ended then x
    else ({ x with mask := liveNibble g.dead i, stack := [] }).goto packet)
  let sl := (List.range 8).filter (fun i => !(xs.getD i noSlice).ended)
  { g with slices := xs, cands := [⟨sl, .ready, now, 0, [], []⟩] }

/-- How a saved candidate waits once `rte` has restored it (R310): words waiting in a fault check, for room, in a
fence, in `twait` or `waitb` issue again. -/
def Wait.resumed (w : Wait) : Wait :=
  match w with
  | .ready => .ready
  | .clause => .clause
  | .flagFull _ => .ready
  | .fetch _ _ => .ready
  | .xlate _ => .ready
  | .reply q l => .reply q l
  | .answered l => .answered l
  | .fence _ => .ready
  | .acquire q => .acquire q
  | .room _ => .ready
  | .enqRoom _ => .ready
  | .offer _ => .ready
  | .twait _ _ _ _ => .ready
  | .waitb _ => .ready
  | .regang n => .regang n
  | .inv k => .inv k

/-- R233, R234: the slices and candidates as at trap entry, the slices that trapped at the word TRAPPC names, and
INPROG 0; a slice that ended in the handler stays ended (R222, R26). `fresh` says that the word named is a clause header, whose clause
starts afresh. The ages of the candidates count from the `rte`, and their starvation counters are as saved (DESIGN CHOICE, log entry
146). -/
def Group.restoreTrap (g : Group) (fresh : Bool) (now : Nat) : Group :=
  match g.saved with
  | none => g
  | some v =>
    let pc : Pc := ⟨g.trappc / 4, g.trappc % 4⟩
    let back := fun (i : Nat) (x : Slice) =>
      let y : Slice := { x with ended := x.ended || (g.slice i).ended }
      if v.trapped.contains i ∧ y.ended = false then
        { y with pc := pc, hdrEnd := if fresh then pc.packet else y.hdrEnd }
      else y
    let again := fun (c : Cand) =>
      let w := if c.slices.any (fun i => v.trapped.contains i) then Wait.ready else c.wait.resumed
      { c with wait := w, stamp := now, failed := [], kept := if c.slices.any (fun i => v.trapped.contains i) then [] else c.kept }
    let code := if nbit g.trapcode 8 then g.trapcode - 2 ^ 8 else g.trapcode
    Group.dropEnded { g with trapcode := code, saved := none, slices := v.slices.mapIdx back, cands := v.cands.map again }

/-- `rte`, once its checks have passed: the frame is read, and the group stands as it did at trap entry. -/
def State.leaveTrap (s : State) (t : Team) (g : Group) (fresh : Bool) : State :=
  let s1 := s.readFrame t g frameCells
  match s1.liveGroup? t.id g.num with
  | none => s1
  | some h => s1.putGroup t.id (h.restoreTrap fresh (s1.clk (dieOf t.core)))

/-- A scalar that a service of the system handler reads, under its check bits (R361, R365, R367). -/
def State.readScal (s : State) (t : Team) (g : Group) (n : Nat) : State :=
  if n < 32 * g.srows then s.settle1 t.id g.num t.core ⟨g.scalRow n, n % 32, none, n, 1, n⟩ else s

/-- The scalar `n` of a group as a service of the system handler reads it (R314): `none` when not valid or beyond
the scalars. -/
def State.serviceArg (s : State) (core : Nat) (g : Group) (n : Nat) : Option Nat :=
  if n < 32 * g.srows then
    let e := palGet s.pal core (g.scalRow n) (n % 32)
    if e.valid then some e.val.toNat else none
  else none

/-- Puts an item into a die's code store. -/
def State.putCode (s : State) (die : Nat) (c : CodeItem) : State :=
  let other := fun (o : CodeItem) =>
    !(decide (o.part = c.part) && decide (o.desc = c.desc) && decide (o.va = c.va) && decide (o.n = c.n))
  s.putDie die { s.die die with code := c :: (s.die die).code.filter other }

/-- What a code read of `n` bytes leaves beside its value: its entries in the TLBs, or the alarm or error sector that its failure
calls for (R330, R337, R358). -/
def State.codeSeen (s : State) (core part va n : Nat) : State :=
  let last := va + n - 1
  match s.place core part va 4, s.place core part last 4 with
  | .error _, _ => s
  | _, .error _ => s.noted part core (s.lookup core part last 4)
  | .ok (pa, _), .ok (pb, _) =>
    let s1 := ((s.learn core part va 4).learn core part last 4).access part core pa 32 false
    let s2 := if pa / 32 = pb / 32 then s1 else s1.access part core pb 32 false
    if s.poisoned pa then s2.noteHbmError pa
    else if s.poisoned pb then s2.noteHbmError pb
    else s2

/-- Reads up to 12 bytes as code under the X right (R329): their value, or the cause and level of the failure. -/
def State.codeRead (s : State) (core part va n : Nat) : Except (Nat × Nat) Nat :=
  match s.place core part va 4, s.place core part (va + n - 1) 4 with
  | .error e, _ => .error e
  | _, .error e => .error e
  | .ok (pa, _), .ok (pb, _) =>
    if s.poisoned pa = true ∨ s.poisoned pb = true then .error (9, 4)
    else .ok (natLE ((List.range n).map (fun i => match s.translate core part (va + i) 4 with
      | .ok (q, tg) => s.readByte tg q
      | .error _ => 0)))

/-- A code read is held on its way: at an edge that takes no flit (R346), or while a die of the way swaps the partition's routes
(R350). -/
def State.codeHeld (s : State) (core part va n : Nat) : Bool :=
  ([va, va + n - 1].any (fun a => match s.translate core part a 4 with
    | .ok (pa, _) => decide (s.reach part core pa = .held)
    | .error _ => false))

/-- Fetches code or an operand-pool entry of `n` bytes into the die's code store (R178, R217, R308). A failure installs nothing,
writes a fault record with SOURCE 6, and is returned as its cause and level. -/
def State.codeFetch (s : State) (t : Team) (va n tick : Nat) : State × Option (Nat × Nat) :=
  match s.codeRead t.core t.part va n with
  | .error e => ((s.codeSeen t.core t.part va n).writeFault t.part t.core t.queue tick ⟨va, e.1, e.2, 6, false⟩, some e)
  | .ok v => ((s.codeSeen t.core t.part va n).putCode (dieOf t.core) ⟨t.part, t.kernel.desc, va, n, v⟩, none)

/-- Whether a packet may be entered by a branch: below 2^30, fetched, a header in slot 0 (R217).
`none` when it has not been fetched. -/
def State.entryOk (s : State) (t : Team) (packet : Nat) : Option Bool :=
  if 2 ^ 30 ≤ packet then some false
  else (s.codeItem (dieOf t.core) t.part t.kernel.desc (t.packetVa packet) 12).map (fun c => decide (fld (c.word 0) 26 5 = 31))

/-- R314, service 0x20: registers or removes a user handler and answers in `s0`. -/
def State.registerHandler (s : State) (t : Team) (g : Group) (code entry : Nat) : State :=
  let put := fun (s : State) (v : Nat) => s.putElem t.core (g.scalRow 0) 0 (Elem.of (BitVec.ofNat 32 v))
  match handlerPlace (code % 256) with
  | none => put s 1
  | some i =>
    if entry = 0xFFFFFFFF then
      put (s.putElem t.core (g.trapRow + 9) i (Elem.of 0)) 0
    else
      let s := match s.entryOk t entry with
        | none => (s.codeFetch t (t.packetVa entry) 12 g.tick).1
        | some _ => s
      if s.entryOk t entry = some true then
        put (s.putElem t.core (g.trapRow + 9) i (Elem.of (BitVec.ofNat 32 (2 ^ 31 + entry)))) 0
      else put s 2

/-- The system handler (R313, R314), at once: it registers a handler, records a SOFT event, or kills the team. -/
def State.systemHandler (s : State) (t : Team) (g : Group) (r : TrapRec) : State :=
  let lost := fun (s : State) => s.kill t.id g.num (if g.srows = 0 then 7 else 4) r.pc.word 0 r.info g.tick
  if r.code = 0x16 then s.leaveTrap t g false
  else if r.code = 0x20 then
    let s1 := (s.readScal t g 0).readScal t g 1
    match s1.serviceArg t.core g 0, s1.serviceArg t.core g 1 with
    | some c, some e => (s1.registerHandler t g c e).leaveTrap t g false
    | _, _ => lost s1
  else if r.code = 0x21 then
    let s1 := s.readScal t g 0
    match s1.serviceArg t.core g 0 with
    | some c => s1.kill t.id g.num 0x21 r.pc.word c r.info g.tick
    | none => lost s1
  else s.kill t.id g.num r.code r.pc.word 0 r.info g.tick

/-- Trap entry (R310), once the other candidates have stopped: the handler table is read, the frame written, and the gang
formed at the user handler's entry, or the system handler runs. -/
def State.enter (s : State) (t : Team) (g : Group) (r : TrapRec) : State :=
  if g.inprog = true then
    s.kill t.id g.num 0x17 r.pc.word (g.trapcode % 256) r.info g.tick
  else
    let s0 := match handlerPlace r.code with
      | some i => s.readFrame t g [(9, i)]
      | none => s
    match s0.liveGroup? t.id g.num with
    | none => s0
    | some g0 =>
      let g1 := s0.inClauses t g0
      match s0.handler t.core g1 r.code with
      | some packet =>
        let h := g1.save r true
        (s0.writeFrame t.core h).putGroup t.id (h.gangAt packet (s0.clk (dieOf t.core)))
      | none =>
        let h := g1.save r false
        ((s0.writeFrame t.core h).putGroup t.id h).systemHandler t h r

/-- Whether another candidate of the group must still finish a check (a translation; or what is checked where its request goes, of
a handle R268, a pool R155, a list R199, so that it may yet trap), or an acquire that the handler's words follow (R83, log entry
119), or a running `inv` complete, before the trap of the candidate `sl` is entered (R310 step 1). -/
def Group.entryWaits (g : Group) (sl : List Nat) : Bool :=
  (g.cands.any (fun c => !c.meets sl && (match c.wait with
    | .xlate _ => true
    | .reply _ _ => true
    | .acquire _ => true
    | _ => false))) ||
  g.inv.any (fun v => !(v.slices.any (fun i => sl.contains i)))

/-- Enters the group's raised trap if nothing holds it back. -/
def State.tryEnter (s : State) (team n : Nat) : State :=
  match s.team? team with
  | none => s
  | some t => match t.group? n with
    | none => s
    | some g => match g.trapping with
      | none => s
      | some r => if g.entryWaits r.slices = true then s else s.enter t g r

/-- A SOFT trap whose entry gives way to another's is pending again (R364). -/
def Group.softBack (g : Group) (r : TrapRec) : Group :=
  if r.code = 0x16 then g.addSoft (fld r.info 56 4) (BitVec.ofNat 32 r.info) (fld r.info 62 2) (fld r.info 32 16) else g

/-- Raises a trap for a candidate (R310). Inside a handler it is TRAP_DOUBLE at once (R315); while another trap of
the group awaits its entry it is discarded and the word issues again later, but of traps raised in one cycle that of the
lowest-numbered slice is taken; in a chain it is kept, and the chain is undone (R182). -/
def State.raise (s : State) (team n : Nat) (r : TrapRec) : State :=
  if s.cur.chain = true then { s with cur := { s.cur with stops := s.cur.stops ++ [.trap r none] } }
  else match s.team? team with
  | none => s
  | some t => match t.group? n with
    | none => s
    | some g =>
      let h := g.modCand r.slices (fun c => { c with wait := .ready, failed := [], kept := [] })
      let now := s.clk (dieOf t.core)
      match g.trapping with
      | none => State.tryEnter (s.putGroup team { h with trapping := some r, trapAt := now }) team n
      | some r0 =>
        if g.trapAt = now ∧ r.slices.headD 0 < r0.slices.headD 0 then
          State.tryEnter (s.putGroup team { h.softBack r0 with trapping := some r }) team n
        else s.putGroup team h

/-! ## `regang` (R73, R221) -/

/-- Evaluates the set of slices waiting at `regang`: joins them, raises TRAP_REGANG, or leaves them waiting. Where they wait at
different words with one n and depth, the next word is that of the lowest-numbered live slice, and the clause that of it too (DESIGN
CHOICE, log entry 120). Within a chain it waits until the chain has taken effect, so that TRAPPC names the `regang` of the lowest
live slice also where a word of a chain completes the set (DESIGN CHOICE, log entry 147). -/
def State.regangCheck (s : State) (team n : Nat) : State :=
  if s.cur.chain = true then s
  else match (s.team? team).bind (fun t => (t.group? n).map (fun g => (t, g))) with
  | none => s
  | some (t, g) =>
    let live := g.liveSlices
    let w := g.regangs
    match w with
    | [] => s
    | (i0, n0, d0) :: rest =>
      if w.length < live.length then s
      else if rest.all (fun e => e.2.1 == n0 && e.2.2 == d0) then
        let pc := ((g.slice i0).pc).add 1
        s.putGroup team (Group.setPc { g with cands := [⟨live, .ready, s.clk (dieOf t.core), 0, [], []⟩] } live pc)
      else
        let byN := rest.any (fun e => e.2.1 != n0)
        let bad := rest.filter (fun e => e.2.1 != n0 || e.2.2 != d0)
        let lanes := bad.flatMap (fun e => List.range' (4 * e.1) 4)
        s.raise team n ⟨0x0A, info43 0 0 (if byN then 1 else 2) 0 (lanesMask lanes), (g.slice i0).pc,
          ((g.cand? i0).map (fun c => c.slices)).getD [i0]⟩

/-! ## Settling (R360, R361, R365, R367, R86) -/

/-- The Palette that the words of the issuing unit read: within a chain as it stood before it (R182), else as the present
cycle found it (R86). -/
def State.view (s : State) (core : Nat) : Sparse Elem :=
  match s.cur.pre with
  | some (p, _) => p
  | none => s.seen core

/-- Settles every element that a word reads, before its checks. Sound elements leave the state as it is. What is repaired or lost
is so in the view, and in the Palette where nothing has overwritten it in the cycle. -/
def State.settle (s : State) (team n core : Nat) (l : List ERef) : State :=
  let v := s.view core
  if l.all (fun r => decide ((palGet v core r.row r.lane).ecc = .sound)) then s
  else
    let s' := l.foldl (fun t r => t.settle1 team n core r) { s with pal := v }
    let keep := fun (p : Sparse Elem) (r : ERef) =>
      if palGet s.pal core r.row r.lane = palGet v core r.row r.lane then palPut p core r.row r.lane (palGet s'.pal core r.row r.lane) else p
    let mirrors := l.filterMap (fun r => ((s.core core).mirrorOf r.row).map (fun m => { r with row := m }))
    let s1 : State := { s' with pal := (l ++ mirrors).foldl keep s.pal }
    match s.cur.pre, s'.group? team n with
    | some (_, g0), some g => { s1 with cur := { s1.cur with pre := some (s'.pal, { g0 with dead := g.dead, slices := g.slices }) } }
    | _, _ => s1.putDie (dieOf core) { s1.die (dieOf core) with old := s'.pal }

end Sys2Proof.Machine
end

