-- ==== Sys2Proof/Machine/Operands.lean ====
section
/-! DEFINITION. Operands of the main stream's words: where they stand, their checks in the order of R235 and R256,
their reads and writes, and the frame of a word's meaning (`word`), which every meaning is written in. -/

namespace Sys2Proof.Machine

open Sys2Proof

/-- Why a word does not complete: a trap with its TRAPINFO and, where a translation failed, a fault record; or a
wait (R25). -/
inductive Stop where
  | trap (code info : Nat) (f : Option FaultRec)
  | wait (w : Wait)
  deriving DecidableEq, Repr

/-- A trap without a fault record. -/
def Stop.t (code info : Nat) : Stop := .trap code info none

/-- What a meaning reads from: the team, the group and the Palette as its cycle found it (R86), within a chain as they stood before it, the
slices of the candidate, its live active lanes, and the word's address. -/
structure Ctx where
  t : Team
  g : Group
  pal : Sparse Elem
  sl : List Nat
  lanes : List Nat
  pc : Pc
  deriving DecidableEq, Repr

/-- The issuing candidate, if a main-stream word is issuing. -/
def State.ctx? (s : State) : Option Ctx :=
  match s.cur.who with
  | .main team n sl =>
    (s.team? team).bind (fun t => (t.group? n).map (fun g =>
      let pc := (g.slice (sl.headD 0)).pc
      match s.cur.pre with
      | none => ⟨t, g, s.seen t.core, sl, g.active sl, pc⟩
      | some (p, g0) => ⟨t, g0, p, sl, g0.active sl, pc⟩))
  | _ => none

/-- A named place: a vector row, a scalar, a team row. -/
inductive Loc where
  | v (n : Nat)
  | s (n : Nat)
  | w (n : Nat)
  deriving DecidableEq, Repr

/-- An operand: its place, its operand position (R43, R235), whether it is read and whether it is written. -/
structure Use where
  loc : Loc
  opnd : Nat
  rd : Bool
  wr : Bool
  deriving DecidableEq, Repr

def rdV (n opnd : Nat) : Use := ⟨.v n, opnd, true, false⟩
def wrV (n : Nat) : Use := ⟨.v n, 3, false, true⟩
def rdS (n opnd : Nat) : Use := ⟨.s n, opnd, true, false⟩
def wrS (n : Nat) : Use := ⟨.s n, 3, false, true⟩

/-- Operand B of the VR format: a scalar with BS = 1, else a vector row (R176). -/
def rdB (bs n : Nat) : Use := if bs = 1 then rdS n 1 else rdV n 1

/-- SPACE of R43. -/
def Loc.space (l : Loc) : Nat :=
  match l with
  | .v _ => 0
  | .s _ => 1
  | .w _ => 2

/-- ROW of R43. -/
def Loc.num (l : Loc) : Nat :=
  match l with
  | .v n => n
  | .s n => n
  | .w n => n

/-- Inside the allocation (R38). -/
def Ctx.inRange (c : Ctx) (l : Loc) : Bool :=
  match l with
  | .v n => decide (n < c.g.vrows)
  | .s n => decide (n < 32 * c.g.srows)
  | .w n => decide (n < c.t.kernel.trows)

/-- The core row of a place (R35). -/
def Ctx.rowOf (c : Ctx) (l : Loc) : Nat :=
  match l with
  | .v n => c.g.vecRow n
  | .s n => c.g.scalRow n
  | .w n => c.t.teamBase + n

/-- The element of a place that lane `l` uses. -/
def Ctx.elem (c : Ctx) (p : Loc) (l : Nat) : Elem :=
  match p with
  | .s n => palGet c.pal c.t.core (c.g.scalRow n) (n % 32)
  | q => palGet c.pal c.t.core (c.rowOf q) l

/-- The value of a vector element, of a scalar, of operand B. -/
def Ctx.vec (c : Ctx) (n l : Nat) : Word := (c.elem (.v n) l).val
def Ctx.scal (c : Ctx) (n : Nat) : Word := (c.elem (.s n) 0).val
def Ctx.opB (c : Ctx) (bs n l : Nat) : Word := if bs = 1 then c.scal n else c.vec n l

/-- The value of a scalar pair, low word first (R175). -/
def Ctx.pair (c : Ctx) (n : Nat) : Nat := (c.scal n).toNat + (c.scal (n + 1)).toNat * 2 ^ 32

/-- The lanes as a mask. -/
def Ctx.mask (c : Ctx) : Nat := lanesMask c.lanes

/-- The elements that an operand reads, for the settling of errors. -/
def Ctx.refs (c : Ctx) (us : List Use) : List ERef :=
  us.flatMap (fun u => if u.rd = false ∨ c.inRange u.loc = false then []
    else match u.loc with
      | .s n => [⟨c.g.scalRow n, n % 32, none, n, 1, n⟩]
      | q => c.lanes.map (fun l => ⟨c.rowOf q, l, some l, 0, q.space, q.num⟩))

/-! ## Pending rows and locks (R54 to R57) -/

/-- Whether a request fills its destination from memory, so that it is pending until it lands (R54, R264). A `bump` selects no flag,
so its result is interlocked and never pending (R58). -/
def ReqKind.pends (k : ReqKind) : Bool :=
  match k with
  | .load => true
  | .atom _ _ => true
  | _ => false

/-- A request or operation that the words of the issuing chain have not themselves made: they see the state before it (R182). -/
def State.before (s : State) (id : Nat) : Bool := !s.cur.chain || (decide (id < s.cur.first) && !s.cur.own.contains id)

/-- Whether a vector row of a group is pending. -/
def State.rowPending (s : State) (team n row : Nat) : Bool :=
  (s.reqs.any (fun r => r.kind.pends && s.before r.id && decide (r.team = team) && decide (r.group = n) && (match r.dst with
    | .rows a k => decide (a ≤ row) && decide (row < a + k)
    | _ => false))) ||
  (s.swreqs.any (fun r => s.before r.id && decide (r.team = team) && decide (r.group = n) && (match r.op with
    | .ld => decide (r.dst = row)
    | .atomAdd => decide (r.dst = row)
    | .atomCas => decide (r.dst = row)
    | _ => false)))

/-- Whether a scalar of a group is pending (R257). -/
def State.scalPending (s : State) (team n k : Nat) : Bool :=
  s.reqs.any (fun r => r.kind.pends && s.before r.id && decide (r.team = team) && decide (r.group = n) && (match r.dst with
    | .scalars a m => decide (a ≤ k) && decide (k < a + m)
    | _ => false))

/-- The first core row of a live swatch's front bank. -/
def State.swBase (s : State) (e : SwEntry) : Option (Nat × Nat) :=
  (s.team? e.team).bind (fun t =>
    if e.isTeam then some (t.core, t.teamBase + e.base)
    else (t.group? e.group).map (fun g => (t.core, g.vecRow e.base)))

/-- The swatch's owner stands on its core: a pre-empted team has no rows there (R317). -/
def State.swHere (s : State) (e : SwEntry) : Bool := ((s.team? e.team).map Team.onCore).getD false

/-- Whether a core row lies in the shadow bank of a double-banked swatch, which is destination-locked (R52). -/
def State.shadowRow (s : State) (core row : Nat) : Bool :=
  s.swatches.any (fun e => e.live && e.dbl && s.swHere e && (match s.swBase e with
    | some (k, b) => decide (k = core) && decide (b + e.len ≤ row) && decide (row < b + 2 * e.len)
    | none => false))

/-- Whether a core row stands under a destination lock, and under any lock (R55, R52). -/
def State.destLocked (s : State) (core row : Nat) : Bool :=
  s.locks.any (fun l => !l.mem && s.before l.op && decide (l.core = core) && l.dest && decide (l.lo ≤ row) && decide (row ≤ l.hi)) ||
    s.shadowRow core row

def State.srcLocked (s : State) (core row : Nat) : Bool :=
  s.locks.any (fun l => !l.mem && s.before l.op && decide (l.core = core) && !l.dest && decide (l.lo ≤ row) && decide (row ≤ l.hi))

/-! ## Checks (R235, R256) -/

/-- The first failure of a list of checks: where several operands of a word fail the same check, the one of the lowest operand
position is reported (DESIGN CHOICE, log entry 121). -/
def firstStop (l : List (Option Stop)) : Except Stop Unit :=
  match l.findSome? id with
  | some e => .error e
  | none => .ok ()

/-- R38: names beyond the allocation; every live active lane offends (DEDUCED, log entry 29). -/
def Ctx.chkBound (c : Ctx) (us : List Use) : Except Stop Unit :=
  firstStop (us.map (fun u => if c.inRange u.loc then none
    else some (.t 0x07 (info43 u.loc.space u.opnd 3 u.loc.num c.mask))))

/-- The lanes whose element of a place is not valid; every lane for a scalar that is not. -/
def Ctx.invalid (c : Ctx) (p : Loc) : List Nat := c.lanes.filter (fun l => !(c.elem p l).valid)

/-- R42: reads of elements that are not valid. A scalar is checked whatever the lanes. -/
def Ctx.uninit (c : Ctx) (u : Use) : Option Stop :=
  if u.rd = false then none
  else match u.loc with
    | .s n => if (c.elem (.s n) 0).valid then none else some (.t 0x04 (info43 1 u.opnd 0 n c.mask))
    | p => if (c.invalid p).isEmpty then none
        else some (.t 0x04 (info43 p.space u.opnd 0 p.num (lanesMask (c.invalid p))))

def Ctx.chkUninit (c : Ctx) (us : List Use) : Except Stop Unit := firstStop (us.map c.uninit)

/-- R54: pending rows and scalars. -/
def Ctx.pend (c : Ctx) (s : State) (u : Use) : Option Stop :=
  let bad := match u.loc with
    | .v n => !c.lanes.isEmpty && s.rowPending c.t.id c.g.num n
    | .s n => s.scalPending c.t.id c.g.num n
    | .w _ => false
  if bad then some (.t 0x05 (info43 u.loc.space u.opnd 1 u.loc.num c.mask)) else none

def Ctx.chkPend (c : Ctx) (s : State) (us : List Use) : Except Stop Unit := firstStop (us.map (c.pend s))

/-- R56: rows under a lock. -/
def Ctx.locked (c : Ctx) (s : State) (u : Use) : Option Stop :=
  match u.loc with
  | .s _ => none
  | p =>
    let row := c.rowOf p
    let bad := fun (sub : Nat) => some (Stop.t 0x06 (info43 p.space u.opnd sub p.num c.mask))
    if c.lanes.isEmpty then none
    else if u.rd && s.destLocked c.t.core row then bad 1
    else if u.wr && s.destLocked c.t.core row then bad 2
    else if u.wr && s.srcLocked c.t.core row then bad 3
    else none

def Ctx.chkLock (c : Ctx) (s : State) (us : List Use) : Except Stop Unit := firstStop (us.map (c.locked s))

/-- The checks of direct operands in their order: BOUND, UNINIT, PEND, LOCK. -/
def Ctx.check (c : Ctx) (s : State) (us : List Use) : Except Stop Unit := do
  c.chkBound us
  c.chkUninit us
  c.chkPend s us
  c.chkLock s us

/-! ## Protected mode (R368 to R370) -/

/-- The lanes that send, vote and contribute: in protected mode the primaries only. -/
def Ctx.primaries (c : Ctx) : List Nat := if c.t.prot then c.lanes.filter (fun l => l % 2 == 0) else c.lanes

/-- R369: a word compares each pair both of whose lanes are live and active; a mismatch is TRAP_SHADOW. -/
def Ctx.shadow {α : Type} [DecidableEq α] (c : Ctx) (sub : Nat) (f : Nat → α) : Option Stop :=
  if c.t.prot = false then none
  else
    let bad := c.lanes.filter (fun l => c.lanes.contains (l ^^^ 1) && decide (f l ≠ f (l ^^^ 1)))
    if bad.isEmpty then none else some (.t 0x13 (info43 0 0 sub 0 (lanesMask bad)))

/-! ## Writes -/

/-- Writes every live active lane's element of a vector row (R40). The spec gives no latency: a word's results are written in the
cycle of its issue (DESIGN CHOICE, log entry 118). -/
def State.putRow (s : State) (c : Ctx) (n : Nat) (f : Nat → Word) : State :=
  c.lanes.foldl (fun s l => s.putElem c.t.core (c.g.vecRow n) l (Elem.of (f l))) s

/-- Writes a scalar (R40 rule 4). -/
def State.putScal (s : State) (c : Ctx) (n : Nat) (v : Word) : State :=
  s.putElem c.t.core (c.g.scalRow n) (n % 32) (Elem.of v)

/-- Writes a scalar pair, low word first (R175). -/
def State.putPair (s : State) (c : Ctx) (n v : Nat) : State :=
  (s.putScal c n (BitVec.ofNat 32 v)).putScal c (n + 1) (BitVec.ofNat 32 (v / 2 ^ 32))

/-- Changes the issuing group. -/
def State.modG (s : State) (c : Ctx) (f : Group → Group) : State := s.modGroup c.t.id c.g.num f

/-- Writes a predicate in every live active lane (R236). -/
def State.putPred (s : State) (c : Ctx) (p : Nat) (f : Nat → Bool) : State := s.modG c (fun g => g.setPred p c.lanes f)

/-- The candidate's word is complete: its slices stand at the next word. -/
def Group.complete (g : Group) (sl : List Nat) (pc : Pc) : Group :=
  (g.setPc sl pc).modCand sl (fun c => { c with failed := [] })

def State.adv (s : State) (c : Ctx) (k : Nat) : State := s.modG c (fun g => g.complete c.sl (c.pc.add k))

/-! ## The frame of a meaning -/

/-- What becomes of a word that does not complete: a trap (with its fault record written), or a wait; in a chain it is noted
(R182). -/
def State.stopped (s : State) (c : Ctx) (e : Stop) : State :=
  match e with
  | .trap code info f =>
    let tr : TrapRec := ⟨code, info, c.pc, c.sl⟩
    if s.cur.chain = true then { s with cur := { s.cur with stops := s.cur.stops ++ [.trap tr f] } }
    else
      let s1 := match f with
        | none => s
        | some r => s.writeFault c.t.part c.t.core c.t.queue c.g.tick r
      s1.raise c.t.id c.g.num tr
  | .wait w =>
    if s.cur.chain = true then { s with cur := { s.cur with stops := s.cur.stops ++ [.wait w] } }
    else s.modG c (fun g => g.modCand c.sl (fun d => { d with wait := w }))

/-- The state that a word leaves, complete or not: a trap of the group that was waiting for this word to finish its checks is entered
(R310). -/
def State.finish (s : State) (c : Ctx) (r : Except Stop State) : Host.Outcome State Fault Refusal :=
  match r with
  | .ok s' => if s'.cur.chain = true then .next s' else .next (s'.tryEnter c.t.id c.g.num)
  | .error e =>
    let s1 := s.stopped c e
    if s.cur.chain = true then .next s1 else .next (s1.tryEnter c.t.id c.g.num)

/-- The meaning of a main-stream word: the elements it reads are settled, then its body checks and acts. The body is given the
context before the settling too: a lane that dies of what this word reads is dead to later words only (R360). -/
def wordFrom (s : State) (us : Ctx → List Use) (more : Ctx → List ERef) (body : Ctx → Ctx → State → Except Stop State) :
    Host.Outcome State Fault Refusal :=
  match s.ctx? with
  | none => .fault .noIssuer
  | some c0 =>
    let s1 := s.settle c0.t.id c0.g.num c0.t.core (c0.refs (us c0) ++ more c0)
    match s1.ctx? with
    | none => .fault .noIssuer
    | some c => s1.finish c (body c0 c s1)

/-- `wordFrom` for a body that does not look at the context before the settling. -/
def word (s : State) (us : Ctx → List Use) (more : Ctx → List ERef) (body : Ctx → State → Except Stop State) :
    Host.Outcome State Fault Refusal :=
  wordFrom s us more (fun _ c s => body c s)

/-- A word whose operands are all direct: the checks of R235, then its effect, then the next word. -/
def direct (s : State) (us : List Use) (k : Nat) (act : Ctx → State → State) : Host.Outcome State Fault Refusal :=
  word s (fun _ => us) (fun _ => []) (fun c s => do
    c.check s us
    .ok ((act c s).adv c k))

/-- No element beyond the direct operands. -/
def noMore : Ctx → List ERef := fun _ => []

end Sys2Proof.Machine
end

