-- ==== Sys2Proof/Machine/Boundary.lean ====
section
/-! DEFINITION. What is taken between two words of a group: the timer match (R33) and the SOFT event (R364), and what an event or
the passing of time brings about in a group: the end of a `twait` (R60), a completed `regang` (R73). -/

namespace Sys2Proof.Machine

open Sys2Proof

/-! ## The end of a `twait` -/

/-- R112: phase `k` is reached. -/
def Barrier.reached (b : Barrier) (k : Nat) : Bool := decide ((b.phase + 16 - k % 16) % 16 ≤ 7)

/-- A barrier of a team. -/
def Team.barrier (t : Team) (n : Nat) : Barrier := t.barriers.getD n Barrier.fresh

/-- The core row of barrier `n`'s barrier row (R35, R39). -/
def Team.barRow (t : Team) (n : Nat) : Nat := t.barBase + n / 8

/-- R367: a repair of a row that belongs to no group makes SOFT 2 pending in the team's first group, with LANES 0 (DESIGN CHOICE, log
entry 119). -/
def State.softTeam (s : State) (team space row : Nat) : State :=
  s.modTeam team (fun t => match t.groups with
    | g :: rest => { t with groups := g.addSoft 2 0 space row :: rest }
    | [] => t)

/-- R361: a barrier's four elements are read: a single-bit error is corrected, a mirror repairs (R367), and an
uncorrectable one kills the team with CAUSE 0x16. -/
def State.readBarrier (s : State) (t : Team) (n : Nat) : State :=
  (List.range 4).foldl (fun s j =>
    match s.readElem t.core (t.barRow n) (4 * (n % 8) + j) with
    | (s1, some _, false) => s1
    | (s1, some _, true) => s1.softTeam t.id 0 0
    | (s1, none, _) => s1.kill t.id 0 0x16 0 0 0 0) s

/-- The team stands, and has not been killed. -/
def State.liveTeam (s : State) (team : Nat) : Bool := ((s.team? team).map (fun t => decide (t.status ≠ .killed))).getD false

/-- R112: the phase that a `twait` waits for is reached. -/
def Team.phaseReached (t : Team) (w : Wait) : Bool :=
  match w with
  | .twait _ _ n k => (t.barrier n).reached k
  | _ => false

/-- R60: a `twait` that has waited 2,048 ACLK in vain ends with its predicate false: its candidate is still waiting, its team
runs, and no trap of the group awaits its entry. -/
def State.twaitLapses (s : State) (t : Team) (g : Group) (c : Cand) : Bool :=
  match c.wait with
  | .twait since _ _ _ =>
    t.runs && g.trapping.isNone && decide (since + 2048 ≤ s.clk (dieOf t.core)) && !t.phaseReached c.wait
  | _ => false

/-- R60: the candidate's `twait` has ended with its predicate at one value. -/
def Group.endTwait (g : Group) (c : Cand) (v : Bool) : Group :=
  match c.wait with
  | .twait _ p _ _ =>
    let pc := (g.slice (c.slices.headD 0)).pc
    let g1 := (g.setPred p (g.active c.slices) (fun _ => v)).complete c.slices (pc.add 1)
    g1.modCand c.slices (fun d => { d with wait := .ready })
  | _ => g

/-! ## The timer match and the SOFT event -/

/-- R33: a timer match is pending. -/
def Group.timerDue (g : Group) : Bool := decide (g.tcmp ≠ 0) && decide (g.tcmp ≤ g.tick)

/-- R33: without a user handler for TRAP_TIMER, a match that falls due only disarms the comparator. -/
def State.dropTimer (s : State) (team n : Nat) : State :=
  match s.team? team with
  | none => s
  | some t => match t.group? n with
    | none => s
    | some g =>
      if g.timerDue = true ∧ (s.handler t.core g 0x15).isNone = true then s.putGroup team { g with tcmp := 0 } else s

/-- The candidate stands between two words: it is ready, or what kept it from issuing its next word (a clause wait, a full flag,
the fetch of its packet) has passed. -/
def State.atBoundary (s : State) (t : Team) (g : Group) (c : Cand) : Bool :=
  let pc := (g.slice (c.slices.headD 0)).pc
  match c.wait with
  | .ready => !s.atClause t g c && (s.fullFlag t g c).isNone
  | .clause => !s.atClause t g c
  | .flagFull f => decide (g.flags.getD f 0 < 63)
  | .fetch va n => decide (va = t.packetVa pc.packet) && (s.codeItem (dieOf t.core) t.part t.kernel.desc va n).isSome
  | _ => false

/-- R33: the group stands as one gang at an instruction boundary outside a handler: the candidate that it is. A `twait`
is a boundary for the timer, which ends it. -/
def State.timerCand (s : State) (t : Team) (g : Group) : Option Cand :=
  if g.inprog = true ∨ g.trapping.isSome = true then none
  else match g.cands with
  | [c] => match c.wait with
    | .twait _ _ _ _ => some c
    | _ => if s.atBoundary t g c then some c else none
  | _ => none

/-- R33: the match is taken to the user handler: TCMP becomes 0, a `twait` ends, with its predicate false unless its phase has
been reached (R60), and TRAPPC names the next word. -/
def State.takeTimer (s : State) (team n : Nat) : State :=
  match s.team? team with
  | none => s
  | some t => match t.group? n with
    | none => s
    | some g => match s.timerCand t g with
      | none => s
      | some c =>
        if g.timerDue = true ∧ (s.handler t.core g 0x15).isSome = true ∧ t.runs = true then
          let g1 : Group := { g with tcmp := 0 }
          let g2 := g1.endTwait c (t.phaseReached c.wait)
          let at_ := (g2.slice (c.slices.headD 0)).pc
          (s.putGroup team g2).raise team n ⟨0x15, 0, at_, c.slices⟩
        else s

/-- The candidate at whose boundary a SOFT event is taken (R364): of those that stand at one the oldest. -/
def State.softCand (s : State) (t : Team) (g : Group) : Option Cand :=
  if g.inprog = true ∨ g.trapping.isSome = true then none
  else (g.cands.filter (s.atBoundary t g)).foldl (fun a c => match a with
    | none => some c
    | some b => if c.stamp < b.stamp then some c else some b) none

/-- R364: the pending SOFT event is taken at a candidate's boundary, with TRAPPC at its next word. -/
def State.softAt (s : State) (t : Team) (g : Group) (c : Cand) : State :=
  let info := info43 g.soft.space 0 g.soft.sub g.soft.row g.soft.lanes.toNat
  (s.putGroup t.id { g with soft := ⟨0, 0, 0, 0⟩ }).raise t.id g.num ⟨0x16, info, (g.slice (c.slices.headD 0)).pc, c.slices⟩

/-- R364: the pending SOFT event is taken at the first boundary outside a handler. -/
def State.takeSoft (s : State) (team n : Nat) : State :=
  match s.team? team with
  | none => s
  | some t => match t.group? n with
    | none => s
    | some g => match s.softCand t g with
      | none => s
      | some c =>
        if g.soft.sub ≠ 0 ∧ g.noLane = false ∧ t.runs = true then s.softAt t g c else s

/-! ## What time brings about by itself -/

/-- The groups of the teams on their cores whose timer match falls due without a user handler are disarmed (R33). -/
def State.dropTimers (s : State) : State :=
  (s.teams.filter Team.onCore).foldl (fun (s : State) t =>
    t.groups.foldl (fun (s : State) g => if g.timerDue then s.dropTimer t.id g.num else s) s) s

/-- A `twait` ends, its barrier read once more under its check bits (R361): with the team killed by that it does not. -/
def State.stopTwait (s : State) (t : Team) (g : Group) (c : Cand) (v : Bool) : State :=
  let s1 := match c.wait with
    | .twait _ _ n _ => s.readBarrier t n
    | _ => s
  if s1.liveTeam t.id then s1.modGroup t.id g.num (fun h => h.endTwait c v) else s1

/-- The `twait`s whose limit has passed end (R60). -/
def State.lapseTwaits (s : State) : State :=
  s.teams.foldl (fun (s : State) t => t.groups.foldl (fun (s : State) g => g.cands.foldl (fun (s : State) c =>
    if s.twaitLapses t g c then s.stopTwait t g c false else s) s) s) s

/-- R33: a `twait` of a group that a due match finds as one gang, with a user handler to take it, ends at once, with its predicate
false unless its phase has been reached (R60); the match is taken at the boundary where the group then stands. -/
def State.endTwaits (s : State) : State :=
  (s.teams.filter (fun t => t.runs)).foldl (fun (s : State) t => t.groups.foldl (fun (s : State) g =>
    if g.timerDue = true ∧ (s.handler t.core g 0x15).isSome = true then
      match s.timerCand t g with
      | some c => match c.wait with
        | .twait _ _ _ _ => s.stopTwait t g c (t.phaseReached c.wait)
        | _ => s
      | none => s
    else s) s) s

/-- The waiting sets of `regang` that an event has completed are evaluated (R73, R221, R362). -/
def State.regangs (s : State) : State :=
  (s.teams.filter (fun t => t.runs)).foldl (fun (s : State) t =>
    t.groups.foldl (fun (s : State) g => if g.regangs.isEmpty then s else s.regangCheck t.id g.num) s) s

end Sys2Proof.Machine
end

