-- ==== Sys2Proof/Machine/Float.lean ====
section
/-! DEFINITION. Number formats and floating arithmetic (R186 to R198): exact values as fractions, one rounding
function to a format's grid, the operations of majors 00110 and 00111, and the conversions. -/

namespace Sys2Proof.Machine

open Sys2Proof

/-! ## Formats (R186, R187) -/

/-- A float format: exponent and mantissa bits, bias, the magnitude code of its largest finite value, and those of
its infinity and canonical NaN where it has them. -/
structure Fmt where
  eb : Nat
  mb : Nat
  bias : Nat
  top : Nat
  inf : Option Nat
  nan : Option Nat
  deriving DecidableEq, Repr

def fp32 : Fmt := ⟨8, 23, 127, 0x7F7FFFFF, some 0x7F800000, some 0x7FC00000⟩
def bf16 : Fmt := ⟨8, 7, 127, 0x7F7F, some 0x7F80, some 0x7FC0⟩
def fp16 : Fmt := ⟨5, 10, 15, 0x7BFF, some 0x7C00, some 0x7E00⟩
def e4m3 : Fmt := ⟨4, 3, 7, 0x7E, none, some 0x7F⟩
def e5m2 : Fmt := ⟨5, 2, 15, 0x7B, some 0x7C, some 0x7E⟩
def e3m2 : Fmt := ⟨3, 2, 3, 0x1F, none, none⟩
def e2m3 : Fmt := ⟨2, 3, 1, 0x1F, none, none⟩
def e2m1 : Fmt := ⟨2, 1, 1, 0x7, none, none⟩

/-- The float format of a code (R186). -/
def fmtOf (code : Nat) : Fmt :=
  match code with
  | 0 => fp32
  | 1 => bf16
  | 2 => fp16
  | 3 => e4m3
  | 4 => e5m2
  | 5 => e3m2
  | 6 => e2m3
  | _ => e2m1

/-- Bits of the format below its sign. -/
def Fmt.bits (f : Fmt) : Nat := f.eb + f.mb

/-- A value: a NaN, an infinity, or the fraction `n / d` with a sign, zeros included. -/
inductive Val where
  | nan
  | inf (neg : Bool)
  | fin (neg : Bool) (n d : Nat)
  deriving DecidableEq, Repr

/-- `n · 2^k` as a fraction. -/
def scale2 (n : Nat) (k : Int) : Nat × Nat := if 0 ≤ k then (n * 2 ^ k.toNat, 1) else (n, 2 ^ (-k).toNat)

/-- The value of a magnitude code that is finite (R187). -/
def Fmt.magVal (f : Fmt) (mag : Nat) : Nat × Nat :=
  let e := mag / 2 ^ f.mb
  let m := mag % 2 ^ f.mb
  if e = 0 then scale2 m (1 - (f.bias : Int) - f.mb) else scale2 (2 ^ f.mb + m) ((e : Int) - f.bias - f.mb)

/-- The value of a code (R186, R187). -/
def Fmt.val (f : Fmt) (code : Nat) : Val :=
  let neg := nbit code f.bits
  let mag := code % 2 ^ f.bits
  if f.inf = some mag then .inf neg
  else if f.top < mag then .nan
  else .fin neg (f.magVal mag).1 (f.magVal mag).2

/-- A magnitude code with a sign. -/
def Fmt.sign (f : Fmt) (neg : Bool) (mag : Nat) : Nat := mag + (if neg then 2 ^ f.bits else 0)

/-! ## Rounding (R192) -/

/-- The floor of log₂ of a positive fraction. -/
def floorLog (n d : Nat) : Int :=
  let l := (n.log2 : Int) - d.log2
  if n * (scale2 1 l).2 < d * (scale2 1 l).1 then l - 1 else l

/-- Whether a fraction's part `r / d` past a grid value rounds to the next magnitude: RND 0 RNE, 1 RTZ, 2 RUP,
3 RDN; `odd` says that the grid value below is odd. -/
def roundsUp (rnd : Nat) (neg odd : Bool) (r d : Nat) : Bool :=
  match rnd with
  | 0 => decide (d < 2 * r) || (decide (2 * r = d) && odd)
  | 1 => false
  | 2 => decide (r ≠ 0) && !neg
  | _ => decide (r ≠ 0) && neg

/-- The fraction `n / d` rounded to an integer magnitude. -/
def roundInt (rnd : Nat) (neg : Bool) (n d : Nat) : Nat :=
  n / d + (if roundsUp rnd neg (decide (n / d % 2 = 1)) (n % d) d then 1 else 0)

/-- The exponent of the grid's spacing at a positive fraction: the format's, with its subnormal spacing below its
smallest normal. -/
def Fmt.quantum (f : Fmt) (n d : Nat) : Int := max (floorLog n d) (1 - (f.bias : Int)) - f.mb

/-- The fraction in units of the grid's spacing. -/
def Fmt.units (f : Fmt) (n d : Nat) : Nat × Nat :=
  let q := scale2 1 (f.quantum n d)
  (n * q.2, d * q.1)

/-- A positive fraction rounded to the format's grid, which has no upper bound: the magnitude code. Above `top` it
has overflowed. -/
def Fmt.round (f : Fmt) (rnd : Nat) (neg : Bool) (n d : Nat) : Nat :=
  if n = 0 then 0
  else
    let u := f.units n d
    ((f.quantum n d + f.mb + f.bias - 1) * 2 ^ f.mb + roundInt rnd neg u.1 u.2).toNat

/-! ## MODE (R191, R193, R194) -/

def rndOf (mode : Nat) : Nat := mode % 4
def flushOf (mode : Nat) : Bool := nbit mode 2
def satOf (mode : Nat) : Bool := nbit mode 3

/-- A code with a subnormal replaced by a zero of its sign under FLUSH (R194). -/
def Fmt.flush (f : Fmt) (mode code : Nat) : Nat :=
  if flushOf mode = true ∧ code % 2 ^ f.bits < 2 ^ f.mb then f.sign (nbit code f.bits) 0 else code

/-- The canonical NaN; a format without one gives +0 (R195, R198). -/
def Fmt.canonNan (f : Fmt) : Nat := f.nan.getD 0

/-- An infinity; a format without one gives its largest finite value. -/
def Fmt.infinity (f : Fmt) (neg : Bool) : Nat := f.sign neg (f.inf.getD f.top)

/-- The result of an arithmetic operation (R193): rounded once under MODE, flushed, and on overflow an infinity or
the largest finite value. -/
def Fmt.result (f : Fmt) (mode : Nat) (v : Val) : Nat :=
  match v with
  | .nan => f.canonNan
  | .inf neg => f.infinity neg
  | .fin neg n d =>
    let mag := f.round (rndOf mode) neg n d
    if f.top < mag then
      let away := match rndOf mode with
        | 0 => true
        | 1 => false
        | 2 => !neg
        | _ => neg
      if satOf mode = true ∨ away = false then f.sign neg f.top else f.infinity neg
    else f.flush mode (f.sign neg mag)

/-! ## Exact operations (R193, R195, IEEE 754) -/

/-- An operand of arithmetic: its value, flushed under MODE. -/
def Fmt.operand (f : Fmt) (mode code : Nat) : Val := f.val (f.flush mode code)

def Val.neg (v : Val) : Val :=
  match v with
  | .nan => .nan
  | .inf b => .inf (!b)
  | .fin b n d => .fin (!b) n d

/-- The exact sum; an exact zero sum of opposite signs is +0, or −0 under RDN (R192). -/
def Val.add (rnd : Nat) (x y : Val) : Val :=
  match x, y with
  | .nan, _ => .nan
  | _, .nan => .nan
  | .inf a, .inf b => if a = b then .inf a else .nan
  | .inf a, _ => .inf a
  | _, .inf b => .inf b
  | .fin a n d, .fin b m e =>
    let p := n * e
    let q := m * d
    if a = b then .fin a (p + q) (d * e)
    else if p = q then .fin (decide (rnd = 3)) 0 1
    else if q < p then .fin a (p - q) (d * e)
    else .fin b (q - p) (d * e)

/-- The exact product. -/
def Val.mul (x y : Val) : Val :=
  match x, y with
  | .nan, _ => .nan
  | _, .nan => .nan
  | .inf a, .inf b => .inf (a != b)
  | .inf a, .fin b m _ => if m = 0 then .nan else .inf (a != b)
  | .fin a n _, .inf b => if n = 0 then .nan else .inf (a != b)
  | .fin a n d, .fin b m e => .fin (a != b) (n * m) (d * e)

/-- R240: FP32 and half arithmetic. -/
def Fmt.fadd (f : Fmt) (mode x y : Nat) : Nat := f.result mode (Val.add (rndOf mode) (f.operand mode x) (f.operand mode y))
def Fmt.fsub (f : Fmt) (mode x y : Nat) : Nat :=
  f.result mode (Val.add (rndOf mode) (f.operand mode x) (f.operand mode y).neg)
def Fmt.fmul (f : Fmt) (mode x y : Nat) : Nat := f.result mode (Val.mul (f.operand mode x) (f.operand mode y))

/-- R241: A·B + D, and D − A·B with `sub`, rounded once. -/
def Fmt.fma (f : Fmt) (sub : Bool) (mode x y z : Nat) : Nat :=
  let p := Val.mul (f.operand mode x) (f.operand mode y)
  f.result mode (Val.add (rndOf mode) (if sub then p.neg else p) (f.operand mode z))

/-- A code is a NaN. -/
def Fmt.isNan (f : Fmt) (code : Nat) : Bool := decide (f.val code = .nan)

/-- The place of a code in the order in which −0 stands below +0 (R240). -/
def Fmt.key (f : Fmt) (code : Nat) : Int :=
  if nbit code f.bits then -((code % 2 ^ f.bits : Nat) : Int) - 1 else (code % 2 ^ f.bits : Nat)

/-- R240: `fmin`, and `fmax` with `big`. -/
def Fmt.minmax (f : Fmt) (big : Bool) (mode x y : Nat) : Nat :=
  let a := f.flush mode x
  let b := f.flush mode y
  if f.isNan a then (if f.isNan b then f.canonNan else b)
  else if f.isNan b then a
  else if (decide (f.key a ≤ f.key b) != big) then a else b

/-- The halves of an element (R242), each computed on its own. -/
def halves2 (g : Nat → Nat → Nat) (x y : Word) : Word :=
  BitVec.ofNat 32 (g (x.toNat % 2 ^ 16) (y.toNat % 2 ^ 16) + 2 ^ 16 * g (x.toNat / 2 ^ 16) (y.toNat / 2 ^ 16))

def halves3 (g : Nat → Nat → Nat → Nat) (x y z : Word) : Word :=
  BitVec.ofNat 32 (g (x.toNat % 2 ^ 16) (y.toNat % 2 ^ 16) (z.toNat % 2 ^ 16) +
    2 ^ 16 * g (x.toNat / 2 ^ 16) (y.toNat / 2 ^ 16) (z.toNat / 2 ^ 16))

/-- An FP32 operation on elements. -/
def word2 (g : Nat → Nat → Nat) (x y : Word) : Word := BitVec.ofNat 32 (g x.toNat y.toNat)

def word3 (g : Nat → Nat → Nat → Nat) (x y z : Word) : Word := BitVec.ofNat 32 (g x.toNat y.toNat z.toNat)

/-- The integer square root, bit by bit from the highest. -/
def isqrt (n : Nat) : Nat :=
  (List.range (n.log2 / 2 + 1)).foldr (fun b r => if (r + 2 ^ b) * (r + 2 ^ b) ≤ n then r + 2 ^ b else r) 0

/-- R247: the square root, correctly rounded to nearest even: √(n/d) in units of the grid, by an integer root and
the comparison of squares. -/
def Fmt.sqrtRne (f : Fmt) (n d : Nat) : Nat :=
  if n = 0 then 0
  else
    -- the exponent of the root, and its spacing q; k = floor(√(n/d) / 2^q)
    let e := floorLog n d / 2
    let q := max e (1 - (f.bias : Int)) - f.mb
    let s := scale2 1 (2 * q)
    let k := isqrt (n * s.2 / (d * s.1))
    -- up when √ exceeds k + 1/2: (2k + 1)² · d · s.1 < 4 · n · s.2; a root is never a tie
    let up := decide ((2 * k + 1) ^ 2 * (d * s.1) < 4 * (n * s.2))
    ((q + f.mb + f.bias - 1) * 2 ^ f.mb + k + (if up then 1 else 0)).toNat

/-! ## Narrow elements (R188, R190, R196) -/

/-- QN4 magnitudes in 256ths (R190). -/
def qn4Mag : List Nat := [0, 22, 45, 70, 98, 131, 174, 256]

/-- Bits of an element of a code, and how many positions a 32-bit element has (R119, R196). -/
def codeWidth (code : Nat) : Nat :=
  match code with
  | 1 => 16
  | 2 => 16
  | 3 => 8
  | 4 => 8
  | 5 => 8
  | 6 => 8
  | 9 => 8
  | 7 => 4
  | 8 => 4
  | 10 => 4
  | _ => 32

/-- An integer as a value. -/
def Val.ofInt (i : Int) : Val := .fin (decide (i < 0)) i.natAbs 1

/-- The value of a narrow element, before any scale. -/
def codeVal (code v : Nat) : Val :=
  match code with
  | 8 => .fin (nbit v 3) (qn4Mag.getD (v % 8) 0) 256
  | 9 => .ofInt (sext 8 (v % 256))
  | 10 => .ofInt (sext 4 (v % 16))
  | 11 => .ofInt (sext 32 v)
  | 12 => .ofInt v
  | c => (fmtOf c).val (v % 2 ^ ((fmtOf c).bits + 1))

/-- The element at a position of a 32-bit element (R119). -/
def elemAt (code pos : Nat) (w : Word) : Nat := w.toNat / 2 ^ (codeWidth code * pos) % 2 ^ codeWidth code

/-- An E8M0 scale (R189). -/
def e8m0 (e : Nat) : Val :=
  if e % 256 = 255 then .nan
  else .fin false (scale2 1 ((e % 256 : Nat) - (127 : Int))).1 (scale2 1 ((e % 256 : Nat) - (127 : Int))).2

/-- The scale SUP · c ÷ 255 of a QN4 block (R190); a NaN or infinite SUP makes it a NaN. -/
def qn4Scale (sup c : Nat) : Val :=
  match fp32.val sup with
  | .fin neg n d => .fin neg (n * (c % 256)) (d * 255)
  | _ => .nan

/-- The scale of a conversion (R196): the value 1 without SE. -/
def cvtScale (code : Nat) (se : Bool) (byte sup : Nat) : Val :=
  if se = false then .fin false 1 1 else if code = 8 then qn4Scale sup byte else e8m0 byte

/-! ## Conversions (R197, R198) -/

/-- R197: the FP32 result of widening a narrow value under a scale; OVF 0 `.sat`, 1 `.nan`. -/
def widen (rnd ovf : Nat) (x q : Val) : Nat :=
  match Val.mul x q with
  | .nan => fp32.canonNan
  | .inf neg => fp32.infinity neg
  | .fin neg n d =>
    let mag := fp32.round rnd neg n d
    if fp32.top < mag then (if ovf = 1 then fp32.canonNan else fp32.sign neg fp32.top) else fp32.sign neg mag

/-- What a narrowing conversion gives: a code, or an outlier (R199). -/
inductive Narrow where
  | code (v : Nat)
  | outlier
  deriving DecidableEq, Repr

/-- The integer range of codes 9 to 12: least value's magnitude and largest value. -/
def intRange (code : Nat) : Nat × Nat :=
  match code with
  | 9 => (128, 127)
  | 10 => (8, 7)
  | 11 => (2 ^ 31, 2 ^ 31 - 1)
  | _ => (0, 2 ^ 32 - 1)

/-- A signed magnitude as two's complement. -/
def intCode (code : Nat) (neg : Bool) (m : Nat) : Nat := if neg then wrap (codeWidth code) (-(m : Int)) else m

/-- R198: an overflow of a sign. -/
def overflowed (code ovf : Nat) (neg : Bool) : Narrow :=
  if ovf = 2 then .outlier
  else match code with
  | 8 => .code (if neg then 15 else 7)
  | 9 => .code (intCode 9 neg (if neg then 128 else 127))
  | 10 => .code (intCode 10 neg (if neg then 8 else 7))
  | 11 => .code (intCode 11 neg (if neg then 2 ^ 31 else 2 ^ 31 - 1))
  | 12 => .code (if neg then 0 else 2 ^ 32 - 1)
  | c =>
    if ovf = 1 ∧ (fmtOf c).nan ≠ none then .code (fmtOf c).canonNan
    else .code ((fmtOf c).sign neg (fmtOf c).top)

/-- Whether a code has a NaN, and an infinity. -/
def codeNan (code : Nat) : Option Nat := if 8 ≤ code then none else (fmtOf code).nan
def codeInf (code : Nat) : Option Nat := if 8 ≤ code then none else (fmtOf code).inf

/-- R198: the codebook index for a magnitude of at most 1. -/
def qn4Index (rnd : Nat) (neg : Bool) (n d : Nat) : Nat :=
  -- the largest index whose magnitude is not larger
  let lo := ((List.range 8).filter (fun i => decide (qn4Mag.getD i 0 * d ≤ 256 * n))).length - 1
  let l := qn4Mag.getD lo 0
  let h := qn4Mag.getD (lo + 1) 512
  let up := roundsUp rnd neg (decide (lo % 2 = 1)) (256 * n - l * d) ((h - l) * d)
  if lo < 7 ∧ up = true then lo + 1 else lo

/-- R198: a finite quotient rounded to the target. -/
def narrowFin (code rnd ovf : Nat) (neg : Bool) (n d : Nat) : Narrow :=
  if code = 8 then
    if d < n then overflowed 8 ovf neg else .code (qn4Index rnd neg n d + (if neg then 8 else 0))
  else if 9 ≤ code then
    let m := roundInt rnd neg n d
    if (if neg then (intRange code).1 else (intRange code).2) < m then overflowed code ovf neg
    else .code (intCode code neg m)
  else
    let f := fmtOf code
    let mag := f.round rnd neg n d
    if f.top < mag then overflowed code ovf neg else .code (f.sign neg mag)

/-- R198: an FP32 value narrowed under a scale. -/
def narrow (code rnd ovf : Nat) (x q : Val) : Narrow :=
  let nanCase := match codeNan code with
    | some c => .code c
    | none => if ovf = 2 then .outlier else .code 0
  match x, q with
  | .nan, _ => nanCase
  | _, .nan => nanCase
  | .inf a, .fin b _ _ =>
    match codeInf code with
    | some c => .code ((fmtOf code).sign (a != b) c)
    | none => if ovf = 2 then .outlier else overflowed code 0 (a != b)
  | .inf a, .inf b => overflowed code ovf (a != b)
  | .fin _ _ _, .inf _ => nanCase
  | .fin a n d, .fin b m e =>
    if m = 0 then (if n = 0 then narrowFin code rnd ovf (a != b) 0 1 else overflowed code ovf (a != b))
    else narrowFin code rnd ovf (a != b) (n * e) (d * m)

/-- R188: a narrow element written at a position of an element: its bits replaced, the others kept where the
element was valid and zero where it was not; a 6-bit value fills its byte. -/
def putNarrow (code pos v : Nat) (old : Elem) : Elem :=
  let w := codeWidth code
  let base := if old.valid then old.val.toNat else 0
  let was := base / 2 ^ (w * pos) % 2 ^ w
  Elem.of (BitVec.ofNat 32 (base - was * 2 ^ (w * pos) + v % 2 ^ w * 2 ^ (w * pos)))

/-! ## Reductions (R200) -/

/-- One level of the fixed tree of R200 over a list of values. -/
def treeStep (op : Nat → Nat → Nat) (a : List Nat) (d : Nat) : List Nat :=
  (List.range d).map (fun i => op (a.getD i 0) (a.getD (i + d) 0))

/-- The fixed tree over 32 lanes. -/
def tree (op : Nat → Nat → Nat) (a : List Nat) : Nat :=
  ([16, 8, 4, 2, 1].foldl (treeStep op) a).getD 0 0

end Sys2Proof.Machine
end

