-- ==== Sys2Proof/Machine/Flags.lean ====
section
/-! DEFINITION. Conditions, predicates and completion flags: the comparisons of R215 and R243, the votes of R251,
and the selection and counting of a completion flag (R59, R174). -/

namespace Sys2Proof.Machine

open Sys2Proof

/-! ## Comparisons -/

/-- A comparison: 0 `eq`, 1 `ne`, 2 `lt`, 3 `le`, 4 `gt`, 5 `ge` (R243). -/
def cmpInt (cc : Nat) (x y : Int) : Bool :=
  match cc with
  | 0 => decide (x = y)
  | 1 => decide (x ≠ y)
  | 2 => decide (x < y)
  | 3 => decide (x ≤ y)
  | 4 => decide (y < x)
  | _ => decide (y ≤ x)

/-- The place of an FP32 code in the order of R195: −0 equals +0. -/
def fpOrder (x : Word) : Int := if nbit x.toNat 31 then -((x.toNat % 2 ^ 31 : Nat) : Int) else (x.toNat % 2 ^ 31 : Nat)

/-- R243, R195: a comparison of type TY, 0 `.n32`, 1 `.s32`, 2 `.f32`; a NaN compares false but for `ne`. -/
def cmpTy (ty cc : Nat) (x y : Word) : Bool :=
  match ty with
  | 0 => cmpInt cc x.toNat y.toNat
  | 1 => cmpInt cc x.toInt y.toInt
  | _ => if fp32.isNan x.toNat || fp32.isNan y.toNat then decide (cc = 1) else cmpInt cc (fpOrder x) (fpOrder y)

/-- R215: the condition of a scalar branch: 0 `beq`, 1 `bne`, 2 `blt.s32`, 3 `bge.s32`, 4 `blt.n32`, 5 `bge.n32`. -/
def scalarCond (cnd : Nat) (a b : Word) : Bool :=
  match cnd with
  | 0 => decide (a = b)
  | 1 => decide (a ≠ b)
  | 2 => decide (a.toInt < b.toInt)
  | 3 => decide (b.toInt ≤ a.toInt)
  | 4 => decide (a.toNat < b.toNat)
  | _ => decide (b.toNat ≤ a.toNat)

/-! ## Votes over the live active lanes (R251) -/

/-- Whether the predicate holds in some lane, and in every lane. -/
def Ctx.anyLane (c : Ctx) (p : Nat) : Bool := c.lanes.any (fun l => c.g.pred p l)
def Ctx.allLane (c : Ctx) (p : Nat) : Bool := c.lanes.all (fun l => c.g.pred p l)
/-- The votes, to which in protected mode only the primaries contribute (R368). -/
def Ctx.voteAny (c : Ctx) (p : Nat) : Bool := c.primaries.any (fun l => c.g.pred p l)
def Ctx.voteAll (c : Ctx) (p : Nat) : Bool := c.primaries.all (fun l => c.g.pred p l)
/-- The lanes whose predicate is 1. -/
def Ctx.ballot (c : Ctx) (p : Nat) : Nat := lanesMask (c.lanes.filter (fun l => c.g.pred p l))

/-! ## Completion flags (R59, R174) -/

/-- SETA and SETB of the header in force. -/
def Ctx.hdr (c : Ctx) : Nat := (c.g.slice (c.sl.headD 0)).hdr

/-- The flag that FS selects: none, or SETA with 1, or SETB with 2. -/
def Ctx.flagOf (c : Ctx) (fs : Nat) : Option Nat :=
  match fs with
  | 0 => none
  | 1 => some (fld c.hdr 10 4)
  | _ => some (fld c.hdr 6 4)

/-- R59: a field coded 15 traps. -/
def Ctx.chkFlag (c : Ctx) (fs : Nat) : Except Stop Unit :=
  match c.flagOf fs with
  | none => .ok ()
  | some f => if 12 ≤ f then .error (.t 0x01 (infoSub 4)) else .ok ()

/-- R174: a counter that would pass 63 holds the word back. -/
def Ctx.chkFull (c : Ctx) (s : State) (fs : Nat) : Except Stop Unit :=
  match c.flagOf fs, s.group? c.t.id c.g.num with
  | some f, some g => if 63 ≤ g.flags.getD f 0 then .error (.wait (.flagFull f)) else .ok ()
  | _, _ => .ok ()

/-- R174: the selected counter rises by one at issue. -/
def State.raiseFlag (s : State) (c : Ctx) (fs : Nat) : State :=
  match c.flagOf fs with
  | none => s
  | some f => s.modG c (fun g => g.addFlag f 1)

/-- R174: it falls by one at completion. -/
def State.lowerFlag (s : State) (team group : Nat) (f : Option Nat) : State :=
  match f with
  | none => s
  | some k => s.modGroup team group (fun g => g.addFlag k (-1))

end Sys2Proof.Machine
end

