-- ==== Sys2Proof/Machine/Arith.lean ====
section
/-! DEFINITION. The integer functions of R213, R238 and R214, on 32-bit elements and on 64-bit scalar pairs, and
the immediates of R214 and R239. All arithmetic is exact before it is reduced. -/

namespace Sys2Proof.Machine

open Sys2Proof

/-- A 64-bit scalar pair. -/
abbrev Long := BitVec 64

/-! ## R213: 32 bits -/

def addW (x y : Word) : Word := x + y
def subW (x y : Word) : Word := x - y
def mulW (x y : Word) : Word := x * y
/-- (x·y) div 2^32, unsigned. -/
def mulhiN (x y : Word) : Word := BitVec.ofNat 32 (x.toNat * y.toNat / 2 ^ 32)
/-- Bits [63:32] of the signed product. -/
def mulhiS (x y : Word) : Word := BitVec.ofInt 32 (x.toInt * y.toInt / 2 ^ 32)
def andW (x y : Word) : Word := x &&& y
def orW (x y : Word) : Word := x ||| y
def xorW (x y : Word) : Word := x ^^^ y
/-- The shift amount is taken modulo 32. -/
def shlW (x y : Word) : Word := x <<< (y.toNat % 32)
def shrN (x y : Word) : Word := x >>> (y.toNat % 32)
def shrS (x y : Word) : Word := x.sshiftRight (y.toNat % 32)
def minN (x y : Word) : Word := if x.toNat ≤ y.toNat then x else y
def maxN (x y : Word) : Word := if x.toNat ≤ y.toNat then y else x
def minS (x y : Word) : Word := if x.toInt ≤ y.toInt then x else y
def maxS (x y : Word) : Word := if x.toInt ≤ y.toInt then y else x
/-- R238: the exact signed sum clamped to the 32-bit range. -/
def addsatS (x y : Word) : Word := BitVec.ofInt 32 (max (-(2 ^ 31)) (min (2 ^ 31 - 1) (x.toInt + y.toInt)))

/-! ## R213: pairs -/

def mulL (x y : Long) : Long := x * y
def shlL (x : Long) (y : Nat) : Long := x <<< (y % 64)
def shrNL (x : Long) (y : Nat) : Long := x >>> (y % 64)
def shrSL (x : Long) (y : Nat) : Long := x.sshiftRight (y % 64)

/-! ## R214, R239: immediates -/

/-- The operand of an immediate field of 11 bits (major 00010) that extends its sign; a literal stands as it is. -/
def immS11 (i : Imm) : Word :=
  match i with
  | .short v => BitVec.ofInt 32 (sext 11 v)
  | .lit w => BitVec.ofNat 32 w

/-- The operand of an immediate field of 7 bits (major 00101) that extends its sign. -/
def immS7 (i : Imm) : Word :=
  match i with
  | .short v => BitVec.ofInt 32 (sext 7 v)
  | .lit w => BitVec.ofNat 32 w

/-- The operand of an immediate field that extends with zeros. -/
def immZ (i : Imm) : Word :=
  match i with
  | .short v => BitVec.ofNat 32 v
  | .lit w => BitVec.ofNat 32 w

/-- The operand of a 64-bit immediate form: sign-extended from 32 bits. -/
def immLong (i : Imm) : Long := (immS11 i).signExtend 64

end Sys2Proof.Machine
end

