-- ==== Sys2Proof/Machine/Scalar.lean ====
section
/-! DEFINITION. Scalar words, majors 00001 and 00010 (R213, R214), and `nop` (R226). -/

namespace Sys2Proof.Machine

open Sys2Proof

/-- A scalar that is read and written. -/
def rwS (n : Nat) : Use := ⟨.s n, 2, true, true⟩

/-- The value of a pair (R175). -/
def Ctx.long (c : Ctx) (n : Nat) : Long := BitVec.ofNat 64 (c.pair n)

/-- `D ← f x y` on 32 bits, x the value of D and y that of B. -/
def scal2 (s : State) (d b : Nat) (f : Word → Word → Word) : Host.Outcome State Fault Refusal :=
  direct s [rdS b 1, rwS d] 1 (fun c s => s.putScal c d (f (c.scal d) (c.scal b)))

/-- `D ← f y` on 32 bits: D is not read. -/
def scal1 (s : State) (d b : Nat) (f : Word → Word) : Host.Outcome State Fault Refusal :=
  direct s [rdS b 1, wrS d] 1 (fun c s => s.putScal c d (f (c.scal b)))

/-- `D ← f x y` on pairs. -/
def long2 (s : State) (d b : Nat) (f : Long → Long → Long) : Host.Outcome State Fault Refusal :=
  direct s [rdS b 1, rdS (b + 1) 1, rwS d, rwS (d + 1)] 1 (fun c s => s.putPair c d (f (c.long d) (c.long b)).toNat)

/-- A 64-bit shift: B is a single scalar. -/
def longShift (s : State) (d b : Nat) (f : Long → Nat → Long) : Host.Outcome State Fault Refusal :=
  direct s [rdS b 1, rwS d, rwS (d + 1)] 1 (fun c s => s.putPair c d (f (c.long d) (c.scal b).toNat).toNat)

/-- Slots a word of an immediate form takes: with a literal, two (R177). -/
def immSlots (i : Imm) : Nat :=
  match i with
  | .short _ => 1
  | .lit _ => 2

/-- `D ← f x i` with an immediate. -/
def scalI (s : State) (d : Nat) (i : Imm) (v : Word) (f : Word → Word → Word) : Host.Outcome State Fault Refusal :=
  direct s [rwS d] (immSlots i) (fun c s => s.putScal c d (f (c.scal d) v))

/-- R226: one issue cycle and nothing else. -/
def execNop  (s : State) : Host.Outcome State Fault Refusal := 
  word s (fun _ => []) noMore (fun c s => .ok (s.adv c 1))

/-- R213, OP 0. -/
def execSMovB32 (_c : Bool) (d b : Nat) (s : State) : Host.Outcome State Fault Refusal := scal1 s d b id

/-- R213, OP 1. -/
def execSAddN32 (_c : Bool) (d b : Nat) (s : State) : Host.Outcome State Fault Refusal := scal2 s d b addW

/-- R213, OP 2. -/
def execSSubN32 (_c : Bool) (d b : Nat) (s : State) : Host.Outcome State Fault Refusal := scal2 s d b subW

/-- R213, OP 3. -/
def execSMulN32 (_c : Bool) (d b : Nat) (s : State) : Host.Outcome State Fault Refusal := scal2 s d b mulW

/-- R213, OP 4. -/
def execSMulhiN32 (_c : Bool) (d b : Nat) (s : State) : Host.Outcome State Fault Refusal := scal2 s d b mulhiN

/-- R213, OP 5. -/
def execSMulhiS32 (_c : Bool) (d b : Nat) (s : State) : Host.Outcome State Fault Refusal := scal2 s d b mulhiS

/-- R213, OP 6. -/
def execSAndB32 (_c : Bool) (d b : Nat) (s : State) : Host.Outcome State Fault Refusal := scal2 s d b andW

/-- R213, OP 7. -/
def execSOrB32 (_c : Bool) (d b : Nat) (s : State) : Host.Outcome State Fault Refusal := scal2 s d b orW

/-- R213, OP 8. -/
def execSXorB32 (_c : Bool) (d b : Nat) (s : State) : Host.Outcome State Fault Refusal := scal2 s d b xorW

/-- R213, OP 9. -/
def execSNotB32 (_c : Bool) (d b : Nat) (s : State) : Host.Outcome State Fault Refusal := scal1 s d b (fun y => ~~~y)

/-- R213, OP 10. -/
def execSShlB32 (_c : Bool) (d b : Nat) (s : State) : Host.Outcome State Fault Refusal := scal2 s d b shlW

/-- R213, OP 11. -/
def execSShrN32 (_c : Bool) (d b : Nat) (s : State) : Host.Outcome State Fault Refusal := scal2 s d b shrN

/-- R213, OP 12. -/
def execSShrS32 (_c : Bool) (d b : Nat) (s : State) : Host.Outcome State Fault Refusal := scal2 s d b shrS

/-- R213, OP 13. -/
def execSMinN32 (_c : Bool) (d b : Nat) (s : State) : Host.Outcome State Fault Refusal := scal2 s d b minN

/-- R213, OP 14. -/
def execSMinS32 (_c : Bool) (d b : Nat) (s : State) : Host.Outcome State Fault Refusal := scal2 s d b minS

/-- R213, OP 15. -/
def execSMaxN32 (_c : Bool) (d b : Nat) (s : State) : Host.Outcome State Fault Refusal := scal2 s d b maxN

/-- R213, OP 16. -/
def execSMaxS32 (_c : Bool) (d b : Nat) (s : State) : Host.Outcome State Fault Refusal := scal2 s d b maxS

/-- R213, OP 17: D is not read. -/
def execSMovB64 (_c : Bool) (d b : Nat) (s : State) : Host.Outcome State Fault Refusal := 
  direct s [rdS b 1, rdS (b + 1) 1, wrS d, wrS (d + 1)] 1 (fun c s => s.putPair c d (c.pair b))

/-- R213, OP 18. -/
def execSAddN64 (_c : Bool) (d b : Nat) (s : State) : Host.Outcome State Fault Refusal := long2 s d b (· + ·)

/-- R213, OP 19. -/
def execSSubN64 (_c : Bool) (d b : Nat) (s : State) : Host.Outcome State Fault Refusal := long2 s d b (· - ·)

/-- R213, OP 20. -/
def execSMulN64 (_c : Bool) (d b : Nat) (s : State) : Host.Outcome State Fault Refusal := long2 s d b mulL

/-- R213, OP 21. -/
def execSAndB64 (_c : Bool) (d b : Nat) (s : State) : Host.Outcome State Fault Refusal := long2 s d b (· &&& ·)

/-- R213, OP 22. -/
def execSOrB64 (_c : Bool) (d b : Nat) (s : State) : Host.Outcome State Fault Refusal := long2 s d b (· ||| ·)

/-- R213, OP 23. -/
def execSXorB64 (_c : Bool) (d b : Nat) (s : State) : Host.Outcome State Fault Refusal := long2 s d b (· ^^^ ·)

/-- R213, OP 24. -/
def execSShlB64 (_c : Bool) (d b : Nat) (s : State) : Host.Outcome State Fault Refusal := longShift s d b shlL

/-- R213, OP 25. -/
def execSShrN64 (_c : Bool) (d b : Nat) (s : State) : Host.Outcome State Fault Refusal := longShift s d b shrNL

/-- R213, OP 26. -/
def execSShrS64 (_c : Bool) (d b : Nat) (s : State) : Host.Outcome State Fault Refusal := longShift s d b shrSL

/-- R214, OP 0: D is not read. -/
def execSiMovB32 (_c : Bool) (d : Nat) (i : Imm) (s : State) : Host.Outcome State Fault Refusal := 
  direct s [wrS d] (immSlots i) (fun c s => s.putScal c d (immS11 i))

/-- R214, OP 1. -/
def execSiAddN32 (_c : Bool) (d : Nat) (i : Imm) (s : State) : Host.Outcome State Fault Refusal := scalI s d i (immS11 i) addW

/-- R214, OP 2. -/
def execSiMulN32 (_c : Bool) (d : Nat) (i : Imm) (s : State) : Host.Outcome State Fault Refusal := scalI s d i (immS11 i) mulW

/-- R214, OP 3. -/
def execSiAndB32 (_c : Bool) (d : Nat) (i : Imm) (s : State) : Host.Outcome State Fault Refusal := scalI s d i (immZ i) andW

/-- R214, OP 4. -/
def execSiOrB32 (_c : Bool) (d : Nat) (i : Imm) (s : State) : Host.Outcome State Fault Refusal := scalI s d i (immZ i) orW

/-- R214, OP 5. -/
def execSiXorB32 (_c : Bool) (d : Nat) (i : Imm) (s : State) : Host.Outcome State Fault Refusal := scalI s d i (immZ i) xorW

/-- R214, OP 6. -/
def execSiShlB32 (_c : Bool) (d : Nat) (i : Imm) (s : State) : Host.Outcome State Fault Refusal := scalI s d i (immZ i) shlW

/-- R214, OP 7. -/
def execSiShrN32 (_c : Bool) (d : Nat) (i : Imm) (s : State) : Host.Outcome State Fault Refusal := scalI s d i (immZ i) shrN

/-- R214, OP 8. -/
def execSiShrS32 (_c : Bool) (d : Nat) (i : Imm) (s : State) : Host.Outcome State Fault Refusal := scalI s d i (immZ i) shrS

/-- R214, OP 9: D is not read. -/
def execSiMovB64 (_c : Bool) (d : Nat) (i : Imm) (s : State) : Host.Outcome State Fault Refusal := 
  direct s [wrS d, wrS (d + 1)] (immSlots i) (fun c s => s.putPair c d (immLong i).toNat)

/-- R214, OP 10. -/
def execSiAddN64 (_c : Bool) (d : Nat) (i : Imm) (s : State) : Host.Outcome State Fault Refusal := 
  direct s [rwS d, rwS (d + 1)] (immSlots i) (fun c s => s.putPair c d (c.long d + (immLong i)).toNat)

end Sys2Proof.Machine
end

