-- ==== Sys2Proof/Machine/Control.lean ====
section
/-! DEFINITION. Control flow: clause headers (R172), the scalar branch (R215), `bra`, the token words and `regang`
(R61 to R74, R218 to R221), calls and returns (R223, R224), `trap` and `rte` (R232, R233). -/

namespace Sys2Proof.Machine

open Sys2Proof

/-! ## Targets (R216, R217) -/

/-- A signed offset in packets: the field of `n` bits, or the literal. -/
def tgtOff (n : Nat) (o : Tgt) : Int :=
  match o with
  | .off v => sext n v
  | .lit w => sext 32 w

/-- Slots the branching word takes. -/
def tgtSlots (o : Tgt) : Nat :=
  match o with
  | .off _ => 1
  | .lit _ => 2

/-- The target: the packet of the word plus the offset. -/
def Ctx.target (c : Ctx) (n : Nat) (o : Tgt) : Int := (c.pc.packet : Int) + tgtOff n o

/-- The trap of a failed translation: PERM for a missing right, else XLATE (R332). -/
def xlateCode (cause : Nat) : Nat := if cause = 3 then 0x0F else 0x0D

/-- The issuing candidate. -/
def State.candOf (s : State) (c : Ctx) : Option Cand := (s.group? c.t.id c.g.num).bind (fun g => g.candFor c.sl)

/-- A code fetch of `n` bytes: the item, a wait for it, or the trap of its failure (R217, R178). -/
def Ctx.fetch (c : Ctx) (s : State) (va n : Nat) : Except Stop CodeItem :=
  match s.codeItem (dieOf c.t.core) c.t.part c.t.kernel.desc va n with
  | some i => .ok i
  | none =>
    match ((s.candOf c).bind (fun d => d.failed.find? (fun f => f.need.va == va && f.need.rights == 4))) with
    | some f => .error (.t (xlateCode f.cause) (info258 false 0 va))
    | none => .error (.wait (.fetch va n))

/-- R217: the target is within the kernel's code, is fetched, and starts a clause; the subcode 1 stands in SUB and
every other field of TRAPINFO is zero (DEDUCED, log entry 30). -/
def Ctx.chkTarget (c : Ctx) (s : State) (packet : Int) : Except Stop Unit :=
  if packet < 0 ∨ 2 ^ 30 ≤ packet then
    .error (.trap 0x0D 0 (some ⟨wrap 64 ((c.t.kernel.code : Int) + 12 * packet), 7, 4, 6, false⟩))
  else do
    let i ← c.fetch s (c.t.packetVa packet.toNat) 12
    if fld (i.word 0) 26 5 = 31 then .ok () else .error (.t 0x03 (infoSub 1))

/-! ## Slices -/

/-- Changes some slices of a group. -/
def Group.mapSlices (g : Group) (sl : List Nat) (f : Nat → Slice → Slice) : Group :=
  { g with slices := g.slices.mapIdx (fun i x => if sl.contains i then f i x else x) }

/-- Every slice of the candidate continues at a packet. -/
def State.gotoAll (s : State) (c : Ctx) (packet : Nat) : State :=
  s.modG c (fun g => (g.mapSlices c.sl (fun _ x => x.goto packet)).modCand c.sl
    (fun d => { d with failed := [] }))

/-- The lanes of a slice that hold a predicate, as a nibble. -/
def Group.predNibble (g : Group) (p i : Nat) : BitVec 4 :=
  BitVec.ofNat 4 (bitsOf 4 ((List.range 4).filter (fun k => g.pred p (4 * i + k))))

/-- A slice at the word after `k` words. -/
def Slice.next (x : Slice) (k : Nat) : Slice := { x with pc := x.pc.add k }

/-- R71: parts the candidate after its slices have moved; a slice that ends may complete a `regang` (R221). -/
def State.parted (s : State) (c : Ctx) (f : Nat → Slice → Slice) : State :=
  (s.modG c (fun g => (g.mapSlices c.sl f).part c.sl (s.clk (dieOf c.t.core)))).regangCheck c.t.id c.g.num

/-! ## Clause header, R172 -/

/-- The header word. -/
def headerWord (w a b l y : Nat) : Nat := 2080374784 + w * 16384 + a * 1024 + b * 64 + l * 2 + y

/-- The clause starts: its header is in force, and with YIELD the candidate's age restarts. -/
def Group.startClause (g : Group) (sl : List Nat) (pc : Pc) (hdr l y now : Nat) : Group :=
  let len := if l = 0 then 32 else l
  let h := g.mapSlices sl (fun _ x => { x with hdr := hdr, hdrEnd := pc.packet + len, pc := pc.add 1 })
  h.modCand sl (fun c => { c with wait := .ready, failed := [], stamp := if y = 1 then now else c.stamp })

/-- R172: a set-flag field of a header names a flag or none. -/
def setOk (f : Nat) : Bool := decide (f < 12) || decide (f = 15)

/-- R172, R173: the header waits for its flags, and at the clause start its set-flag fields are checked; elsewhere than at a
clause start it traps. -/
def execClause (w a b l y : Nat) (s : State) : Host.Outcome State Fault Refusal :=
  word s (fun _ => []) noMore (fun c s =>
    if c.pc.slot ≠ 0 ∨ c.pc.packet < (c.g.slice (c.sl.headD 0)).hdrEnd then .error (.t 0x03 (infoSub 3))
    else if c.g.flagsClear w = false then .error (.wait .clause)
    else if setOk a = false ∨ setOk b = false then .error (.t 0x01 (infoSub 4))
    else .ok (s.modG c (fun g => g.startClause c.sl c.pc (headerWord w a b l y) l y (s.clk (dieOf c.t.core)))))

/-! ## Scalar branch, R215 -/

/-- Compares two scalars and moves every slice of the candidate together. -/
def scalarBranch (s : State) (cnd a b : Nat) (o : Tgt) : Host.Outcome State Fault Refusal :=
  let us := [rdS a 0, rdS b 1]
  word s (fun _ => us) noMore (fun c s => do
    c.check s us
    c.chkTarget s (c.target 6 o)
    .ok (if scalarCond cnd (c.scal a) (c.scal b) then s.gotoAll c (c.target 6 o).toNat else s.adv c (tgtSlots o)))

/-- R215, CND 0. -/
def execBeq (_c : Bool) (a b : Nat) (o : Tgt) (s : State) : Host.Outcome State Fault Refusal := scalarBranch s 0 a b o

/-- R215, CND 1. -/
def execBne (_c : Bool) (a b : Nat) (o : Tgt) (s : State) : Host.Outcome State Fault Refusal := scalarBranch s 1 a b o

/-- R215, CND 2. -/
def execBltS32 (_c : Bool) (a b : Nat) (o : Tgt) (s : State) : Host.Outcome State Fault Refusal := scalarBranch s 2 a b o

/-- R215, CND 3. -/
def execBgeS32 (_c : Bool) (a b : Nat) (o : Tgt) (s : State) : Host.Outcome State Fault Refusal := scalarBranch s 3 a b o

/-- R215, CND 4. -/
def execBltN32 (_c : Bool) (a b : Nat) (o : Tgt) (s : State) : Host.Outcome State Fault Refusal := scalarBranch s 4 a b o

/-- R215, CND 5. -/
def execBgeN32 (_c : Bool) (a b : Nat) (o : Tgt) (s : State) : Host.Outcome State Fault Refusal := scalarBranch s 5 a b o

/-! ## Predicated branch, R63, R64, R219 -/

/-- R64 in one slice: `t` takes the branch, the rest runs first. -/
def Slice.branch (x : Slice) (t : BitVec 4) (packet k : Nat) : Slice :=
  if x.mask &&& t = 0 then x.next k
  else if x.mask &&& ~~~t = 0 then x.goto packet
  else ({ x with stack := ⟨false, packet, x.mask &&& t⟩ :: x.stack, mask := x.mask &&& ~~~t } : Slice).next k

/-- R64: the push would give the slice a seventeenth entry. -/
def Slice.branchFull (x : Slice) (t : BitVec 4) : Bool :=
  x.mask &&& t != 0 && x.mask &&& ~~~t != 0 && decide (16 ≤ x.stack.length)

/-- `bra`. -/
def execBra (_c : Bool) (p : Nat) (o : Tgt) (s : State) : Host.Outcome State Fault Refusal :=
  word s (fun _ => []) noMore (fun c s => do
    c.chkTarget s (c.target 14 o)
    firstStop [c.shadow 3 (fun l => c.g.pred p l)]
    if c.sl.any (fun i => (c.g.slice i).branchFull (c.g.predNibble p i)) then .error (.t 0x09 (infoSub 1))
    else .ok (s.parted c (fun i x => x.branch (c.g.predNibble p i) (c.target 14 o).toNat (tgtSlots o))))

/-- `bra.u`: the live active lanes must agree; with none of them it goes on to the next word, whatever the predicate (DESIGN CHOICE, log
entry 122). -/
def execBraU (_c : Bool) (p : Nat) (o : Tgt) (s : State) : Host.Outcome State Fault Refusal :=
  word s (fun _ => []) noMore (fun c s => do
    c.chkTarget s (c.target 14 o)
    if c.anyLane p = true ∧ c.allLane p = false then .error (.t 0x08 (info43 0 0 0 0 (c.ballot p)))
    else .ok (if c.anyLane p then s.gotoAll c (c.target 14 o).toNat else s.adv c (tgtSlots o)))

/-! ## Token words, R66 to R69, R220 -/

/-- `mark`. -/
def execMark (_c : Bool) (o : Tgt) (s : State) : Host.Outcome State Fault Refusal :=
  word s (fun _ => []) noMore (fun c s => do
    c.chkTarget s (c.target 14 o)
    if c.sl.any (fun i => decide (16 ≤ (c.g.slice i).stack.length)) then .error (.t 0x09 (infoSub 1))
    else
      let push := fun (_ : Nat) (x : Slice) => { x with stack := ⟨true, (c.target 14 o).toNat, x.mask⟩ :: x.stack }
      .ok ((s.modG c (fun g => g.mapSlices c.sl push)).adv c (tgtSlots o)))

/-- `join`. -/
def execJoin (_c : Bool) (s : State) : Host.Outcome State Fault Refusal :=
  word s (fun _ => []) noMore (fun c s =>
    if c.sl.any (fun i => (c.g.slice i).stack.isEmpty) then .error (.t 0x09 (infoSub 2))
    else .ok (s.parted c (fun _ x => ({ x with mask := 0 } : Slice).unwind)))

/-- R68: the entries with the leaving lanes taken from every MARK above the (n+1)-th; `none` when there is none. -/
def brkStack (b : BitVec 4) : Nat → List Token → Option (List Token)
  | _, [] => none
  | n, t :: r =>
    if t.isMark = false then (brkStack b n r).map (fun l => t :: l)
    else
      match n with
      | 0 => some (t :: r)
      | k + 1 => (brkStack b k r).map (fun l => { t with emask := t.emask &&& ~~~b } :: l)

/-- R68 in one slice. -/
def Slice.leave (x : Slice) (p : BitVec 4) (n : Nat) : Slice :=
  let b := x.mask &&& p
  let y : Slice := { x with stack := (brkStack b n x.stack).getD x.stack, mask := x.mask &&& ~~~b }
  if y.mask = 0 then y.unwind else y.next 1

/-- `brk`. -/
def execBrk (_c : Bool) (p n : Nat) (s : State) : Host.Outcome State Fault Refusal :=
  word s (fun _ => []) noMore (fun c s => do
    firstStop [c.shadow 3 (fun l => c.g.pred p l)]
    if c.sl.any (fun i => (brkStack 0 n (c.g.slice i).stack).isNone) then .error (.t 0x09 (infoSub 3))
    else .ok (s.parted c (fun i x => x.leave (c.g.predNibble p i) n)))

/-- `exit` (R69, R26). -/
def execExit (_c : Bool) (s : State) : Host.Outcome State Fault Refusal :=
  word s (fun _ => []) noMore (fun c s => .ok (s.parted c (fun _ x => x.finish)))

/-- `regang` (R73): the candidate waits, and the set is evaluated. -/
def execRegang (_c : Bool) (n : Nat) (s : State) : Host.Outcome State Fault Refusal :=
  word s (fun _ => []) noMore (fun c s =>
    .ok ((s.modG c (fun g => g.modCand c.sl (fun d => { d with wait := .regang n }))).regangCheck c.t.id c.g.num))

/-! ## Calls and returns, R223, R224 -/

/-- `call`. -/
def execCall (_c : Bool) (d : Nat) (o : Tgt) (s : State) : Host.Outcome State Fault Refusal :=
  word s (fun _ => [wrS d]) noMore (fun c s => do
    c.check s [wrS d]
    c.chkTarget s (c.target 12 o)
    c.chkTarget s ((c.pc.packet : Int) + 1)
    .ok ((s.putScal c d (BitVec.ofNat 32 (c.pc.packet + 1))).gotoAll c (c.target 12 o).toNat))

/-- `ret`. -/
def execRet (_c : Bool) (d : Nat) (s : State) : Host.Outcome State Fault Refusal :=
  word s (fun _ => [rdS d 0]) noMore (fun c s => do
    c.check s [rdS d 0]
    c.chkTarget s ((c.scal d).toNat : Int)
    .ok (s.gotoAll c (c.scal d).toNat))

/-! ## `trap` and `rte`, R232 to R234 -/

/-- `trap n`: the words of its chain have taken effect, and TRAPPC names the word after it, at which its slices stand once the trap
is entered; a trap that gives way to another's leaves them here, to issue it again (R310). -/
def trapWord (s : State) (n : Nat) : Host.Outcome State Fault Refusal :=
  word s (fun _ => []) noMore (fun c s =>
    let tr : TrapRec := ⟨n, info43 0 0 0 0 c.mask, c.pc.add 1, c.sl⟩
    .ok (if s.cur.chain = true then { s with cur := { s.cur with stops := s.cur.stops ++ [.after tr] } }
      else s.raise c.t.id c.g.num tr))

/-- R232: n from 0x22 on. -/
def execTrap (_c : Bool) (n : Nat) (s : State) : Host.Outcome State Fault Refusal := trapWord s n

/-- R314, service 0x20. -/
def execTrapRegisterHandler (_c : Bool) (s : State) : Host.Outcome State Fault Refusal := trapWord s 0x20

/-- R314, service 0x21. -/
def execTrapKillService (_c : Bool) (s : State) : Host.Outcome State Fault Refusal := trapWord s 0x21

/-- R233: the checks in their order, then the group as it stood at trap entry. -/
def execRte (_c : Bool) (s : State) : Host.Outcome State Fault Refusal :=
  word s (fun _ => []) noMore (fun c s => do
    if c.g.inprog = false then .error (.t 0x0F 0)
    else if c.g.liveSlices.any (fun i => !c.sl.contains i) then .error (.t 0x17 0)
    else if c.g.trappc % 4 = 3 ∨ (c.g.pcWritten = true ∧ c.g.trappc % 4 ≠ 0) then .error (.t 0x17 0)
    else do
      if c.g.pcWritten = true then c.chkTarget s ((c.g.trappc / 4 : Nat) : Int) else .ok ()
      .ok (s.leaveTrap c.t c.g c.g.pcWritten))

end Sys2Proof.Machine
end

