-- ==== Sys2Proof/Machine/Requests.lean ====
section
/-! DEFINITION. Memory requests: where an access of a word goes (R256, R259, R329, R144), the checks of alignment,
locks and translation, the request that leaves the candidate, and what orders requests (R77, R79, R83). -/

namespace Sys2Proof.Machine

open Sys2Proof

/-! ## Where an access goes -/

/-- What the translation of an address gives: a physical address and key tag; the shadow window that serves it; a
failure, with whether its fault record is still to be written; or a page still to be walked. -/
inductive Where where
  | at_ (pa tag : Nat)
  | window (w : Window)
  | fail (cause level : Nat) (fresh : Bool)
  | miss (n : Need)
  deriving DecidableEq, Repr

/-- The bound window that covers `z` bytes at an address (R143, R144). -/
def Part.windowAt (p : Part) (va z : Nat) : Option Window :=
  p.windows.find? (fun w => decide (w.wbase ≤ va) && decide (va + z ≤ w.wbase + w.nidx * w.esz))

/-- The rights of a load, a store and an atomic (R329). -/
def rightsR : Nat := 1
def rightsW : Nat := 2
def rightsRW : Nat := 3

/-- The page of the smallest size that holds an address. -/
def pageOf (va : Nat) : Nat := va / 65536

/-- Where `z` bytes at `va` lie for some rights (R259, R144, R330, R332, R349). -/
def Ctx.locate (c : Ctx) (s : State) (va z rights : Nat) : Where :=
  let p := s.part c.t.part
  if 2 ^ 57 ≤ va then .fail 7 4 true
  else if p.inShadow va then
    match p.windowAt va z with
    | some w => if rights = rightsR then .window w else .fail 3 4 true
    | none => .fail 8 4 true
  else
    match s.tlbFind c.t.core c.t.part va with
    | some e => match s.leaf c.t.part rights e with
      | .hit e =>
        if s.routed c.t.part c.t.core (s.canonPa (e.at_ va)) then .at_ (s.canonPa (e.at_ va)) (s.keyTag e.key)
        else .fail 4 4 true
      | .fail cause level _ => .fail cause level true
    | none =>
      match (s.candOf c).bind (fun d => d.failed.find? (fun f => pageOf f.need.va == pageOf va && f.need.rights == rights)) with
      | some f => .fail f.cause f.level false
      | none => .miss ⟨va, rights⟩

/-! ## Checks of addresses (R256) -/

/-- An access of a word before its checks: the lane that names it, its address and operands, and the lanes that
receive its reply. -/
structure Access where
  lane : Nat
  va : Nat
  x : Nat
  y : Nat
  outs : List Nat
  deriving DecidableEq, Repr

/-- R78: natural alignment. -/
def chkAlign (wr : Bool) (z : Nat) (l : List Access) : Except Stop Unit :=
  match l.find? (fun a => decide (a.va % z ≠ 0)) with
  | some a => .error (.t 0x0E (info258 wr a.lane a.va))
  | none => .ok ()

/-- The team's memory lock that `z` bytes at `va` meet (R55, R56). -/
def State.memLock (s : State) (team va z : Nat) (dest : Bool) : Bool :=
  s.locks.any (fun l => l.mem && decide (l.team = team) && decide (l.dest = dest) && decide (l.lo < va + z) && decide (va ≤ l.hi))

/-- R56: the subcode of an access that meets a memory lock of its own team: a load 1, a store or atomic 2 or 3. -/
def State.memLockSub (s : State) (team va z : Nat) (wr : Bool) : Nat :=
  if s.memLock team va z true then (if wr then 2 else 1) else if wr && s.memLock team va z false then 3 else 0

/-- R56: the accesses against the team's memory locks; with `scalar` one address stands for every lane. -/
def Ctx.chkMemLock (c : Ctx) (s : State) (wr scalar : Bool) (z : Nat) (l : List Access) : Except Stop Unit :=
  let bad := l.filter (fun a => decide (s.memLockSub c.t.id a.va z wr ≠ 0))
  match bad with
  | [] => .ok ()
  | a :: _ =>
    let lanes := if scalar then c.mask else lanesMask (bad.map (fun a => a.lane))
    .error (.t 0x06 (info43 0 0 (s.memLockSub c.t.id a.va z wr) 0 lanes))

/-- A translation failure as a trap, with its fault record where it is still to be written (R258, R332). -/
def failStop (wr : Bool) (a : Access) (cause level : Nat) (fresh : Bool) : Stop :=
  .trap (xlateCode cause) (info258 wr a.lane a.va) (if fresh then some ⟨a.va, cause, level, 0, wr⟩ else none)

/-- Keeps one need for each page. -/
def dedupNeeds (l : List Need) : List Need :=
  l.foldl (fun acc n => if acc.any (fun m => pageOf m.va == pageOf n.va && m.rights == n.rights) then acc else acc ++ [n]) []

/-- A place in host memory that a word may not reach there (R296). -/
def Where.barred (host : Bool) (w : Where) : Bool :=
  match w with
  | .at_ pa _ => !host && isHost pa
  | _ => false

/-- XLATE, then PERM: the accesses with their places, a wait for the pages still to be walked, or the trap of the
lowest lane that fails (R256), for PERM also where host memory does not offer the access (R296); with none failing, a wait while
the die swaps the partition's routes (R350). -/
def Ctx.translateAll (c : Ctx) (s : State) (wr host : Bool) (z rights : Nat) (l : List Access) :
    Except Stop (List (Access × Where)) :=
  let ws := l.map (fun a => (a, c.locate s a.va z rights))
  let needs := ws.filterMap (fun e => match e.2 with
    | .miss n => some n
    | _ => none)
  let failsAs := fun (code : Nat) => ws.findSome? (fun e => match e.2 with
    | .fail cause level fresh => if xlateCode cause = code then some (failStop wr e.1 cause level fresh) else none
    | w => if code = 0x0F ∧ w.barred host = true then some (.t 0x0F (info258 true e.1.lane e.1.va)) else none)
  if needs.isEmpty = false then .error (.wait (.xlate (dedupNeeds needs)))
  else match failsAs 0x0D with
  | some e => .error e
  | none => match failsAs 0x0F with
    | some e => .error e
    | none => if (s.die (dieOf c.t.core)).rtbusy = some c.t.part then .error (.wait (.room .route)) else .ok ws

/-! ## Requests -/

/-- An access as part of a request. -/
def Access.acc (a : Access) (w : Where) (z : Nat) : LaneAcc :=
  ⟨a.outs, a.va, (match w with | .at_ pa _ => pa | _ => 0), z, a.x, a.y, 0⟩

/-- The number that stands for module `m` as the home of a piece. -/
def farNode (m : Nat) : Nat := 200 + m

/-- The place that homes an address: of HBM the die of the address, the other module of class S memory (R352), of host
memory the core's own die, whose port leads there. -/
def placeHome (core pa : Nat) : Nat :=
  if inHbm pa then homeDie pa else if isFar pa then farNode (fld pa 44 6) else dieOf core

/-- The accesses grouped by the unit of `2^log` bytes that they lie in, in the order of first appearance; those
served by one window are a piece of their own (R137, R144), and so is each access of an atomic to host memory (R296). -/
def pieces (core log z : Nat) (ws : List (Access × Where)) : List Piece :=
  ws.foldl (fun ps e =>
    let a := e.1.acc e.2 z
    match e.2 with
    | .window w =>
      let same := fun (p : Piece) => decide (p.window = some w)
      if ps.any same then ps.map (fun p => if same p then { p with accs := p.accs ++ [a] } else p)
      else ps ++ [⟨0, some w, [a], dieOf core, dieOf core, [], false, false, false, false⟩]
    | .at_ pa tag =>
      let same := fun (p : Piece) => p.window.isNone && !(decide (log = 6) && isHost pa) &&
        p.accs.any (fun b => b.pa / 2 ^ log == pa / 2 ^ log)
      if ps.any same then ps.map (fun p => if same p then { p with accs := p.accs ++ [a] } else p)
      else ps ++ [⟨tag, none, [a], dieOf core, placeHome core pa, [], false, false, false, false⟩]
    | _ => ps) []

/-- A piece is done at its scope: performed, and if it writes acknowledged (R79). -/
def Piece.done (p : Piece) (writes : Bool) : Bool := p.performed && (!writes || p.acked)

/-- Whether a request of this kind is acknowledged rather than answered. -/
def ReqKind.plainWrite (k : ReqKind) : Bool :=
  match k with
  | .store => true
  | .append _ => true
  | _ => false

def Req.done (r : Req) : Bool := r.pieces.all (fun p => p.done r.kind.plainWrite)

/-- An access that has issued and is still outstanding; one of a chain that only asks has not issued (R182). -/
def Req.open_ (r : Req) : Bool := !r.done && decide (r.probe = .none)
def SwReq.open_ (r : SwReq) : Bool := decide (r.probe = .none)

/-- A piece that reads or writes beside the channel of its own address: one served by a window, or that of an append or an
outlier list. -/
def Piece.roams (r : Req) (p : Piece) : Bool :=
  p.window.isSome || (match r.kind with
    | .append _ => true
    | .olist => true
    | _ => false)

/-- The outstanding accesses of some slices that a fence of theirs at a scope waits for (R79, R266): at `grp` and `team` scope those
that keep no order with the memory requests of their core (`heldBack`), which are their swatch accesses, their appends and what a
window serves; at a wider scope all. -/
def State.ownEarlier (s : State) (team group : Nat) (sl : List Nat) (scope : Nat) : List Nat :=
  let mine := fun (t g : Nat) (l : List Nat) => decide (t = team) && decide (g = group) && l.any (fun i => sl.contains i)
  (s.reqs.filter (fun r => mine r.team r.group r.slices && r.open_ &&
      (decide (2 ≤ scope) || r.pieces.any (fun p => p.roams r && !p.performed)))).map (fun r => r.id) ++
    (s.swreqs.filter (fun r => mine r.team r.group r.slices && r.open_)).map (fun r => r.id)

/-- The outstanding accesses of a team. -/
def State.teamEarlier (s : State) (team : Nat) : List Nat :=
  (s.reqs.filter (fun r => decide (r.team = team) && r.open_)).map (fun r => r.id) ++
    (s.swreqs.filter (fun r => decide (r.team = team) && r.open_)).map (fun r => r.id)

/-- The accesses that must be performed before one of some slices with a release at a scope (R79): at `grp` and `team` scope their own
(`ownEarlier`); at a wider scope every access of the team that is outstanding, so that what another group of it has published at a
narrower scope goes before (R81, log entry 127). -/
def State.earlier (s : State) (team group : Nat) (sl : List Nat) (scope : Nat) : List Nat :=
  if 2 ≤ scope then s.teamEarlier team else s.ownEarlier team group sl scope

/-- Whether some of these requests are still outstanding. -/
def State.outstanding (s : State) (l : List Nat) : Bool :=
  s.reqs.any (fun r => l.contains r.id && r.open_) || s.swreqs.any (fun r => l.contains r.id && r.open_)

/-- What the group's accesses must come after since its last fence at scope clu or wider (R81, log entry 127). -/
def State.fencedOf (s : State) (team group : Nat) : List Nat :=
  ((s.group? team group).map (fun g => g.fenced.filter (fun i => s.outstanding [i]))).getD []

/-- R2: the 64-byte sectors that some pieces lie in; what a window serves counts as one of its own. -/
def sectorsOf (ps : List Piece) : List (Nat × Nat) :=
  (ps.zipIdx.map (fun e => match e.1.window, e.1.accs with
    | none, a :: _ => (0, a.pa / 64)
    | _, _ => (1, e.2))).dedup

/-- R2: the request tags of a core that are taken, one for each sector on its way. -/
def State.tagsTaken (s : State) (core : Nat) : Nat :=
  ((s.reqs.filter (fun r => decide (r.core = core))).map (fun r =>
    (sectorsOf (r.pieces.filter (fun p => !p.landed && !p.acked))).length)).sum

/-- A word whose request needs more tags than the core has left waits for them (R2). -/
def Ctx.chkTags (c : Ctx) (s : State) (ps : List Piece) : Except Stop Unit :=
  if s.tagsTaken c.t.core + (sectorsOf ps).length ≤ Config.requestTags then .ok () else .error (.wait (.room .tags))

/-- A piece as it leaves, with the dies that it crosses (R349). -/
def State.withWay (s : State) (part core : Nat) (p : Piece) : Piece :=
  match p.accs, p.window with
  | a :: _, none => { p with way := (s.route part core a.pa).getD [] }
  | _, _ => p

/-- A request leaves: it takes the next number, and comes after what its group's last wide fence has left outstanding (R81). -/
def State.request (s : State) (r : Req) : State :=
  { s with nextId := s.nextId + 1, reqs := s.reqs ++ [{ r with
    id := s.nextId
    after := r.after ++ s.fencedOf r.team r.group
    pieces := r.pieces.map (s.withWay r.part r.core) }] }

/-- Sends a request of the candidate: it takes the next number, and its flag rises (R174). -/
def State.send (s : State) (c : Ctx) (kind : ReqKind) (dst : Dst) (aux : Nat) (hold : List (Nat × Nat)) (fs : Nat)
    (after : List Nat) (ps : List Piece) : State :=
  let r : Req := ⟨s.nextId, kind, c.t.id, c.g.num, c.sl, c.t.core, c.t.part, dst, aux, hold, c.flagOf fs, after, ps, .none⟩
  (s.request r).raiseFlag c fs

/-- The answered requests of the candidate's word, or of its chain that has waited for something else since. -/
def Ctx.answers (c : Ctx) : List Nat :=
  match c.g.candFor c.sl with
  | none => []
  | some d => match d.wait with
    | .answered l => l
    | _ => d.kept

/-- The answered request of the word, of a kind. -/
def State.answerOf (s : State) (c : Ctx) (k : ReqKind → Bool) : Option Req :=
  s.reqs.find? (fun r => c.answers.contains r.id && k r.kind)

/-- A word asks: its request leaves, and the candidate waits in fault check where it stands for the answer, which
completes the word. In a chain the request leaves only once no word of it traps or waits, and the chain issues again
with the answer (R182). -/
def State.ask (s : State) (c : Ctx) (r : Req) : State :=
  if s.cur.chain = true then { s with cur := { s.cur with stops := s.cur.stops ++ [.ask r] } }
  else
    (s.request r).modG c
      (fun g => g.modCand c.sl (fun d => { d with wait := .reply s.nextId none }))

/-- The word of a chain that asked completes: its request leaves, and the candidate stands at the next word. -/
def State.doneAsking (s : State) (c : Ctx) (r : Req) (k : Nat) : State :=
  State.adv { s with reqs := s.reqs.filter (fun q => q.id != r.id) } c k

/-- The candidate waits where it stands. -/
def State.hold (s : State) (c : Ctx) (w : Wait) : State :=
  s.modG c (fun g => g.modCand c.sl (fun d => { d with wait := w }))

/-- A candidate waits for something; an access that it must see performed first (R79) goes before. -/
def Cand.holdAfter (d : Cand) (w : Wait) : Cand :=
  match d.wait with
  | .acquire _ => d
  | _ => { d with wait := w }

/-- Pieces sent from the candidate with their annotations (R79): `.rel` waits for what precedes them, and after `.acq` the
candidate issues nothing until the access is performed. With none the word completes. -/
def State.sent (s : State) (c : Ctx) (kind : ReqKind) (dst : Dst) (fs scope : Nat) (rel acq : Bool) (k : Nat)
    (ps : List Piece) : State :=
  if ps.isEmpty then s.adv c k
  else
    let after := if rel then s.earlier c.t.id c.g.num c.sl scope else []
    let s1 := (s.adv c k).send c kind dst 0 [] fs after ps
    if acq then s1.hold c (.acquire s.nextId) else s1

/-- A load, store or atomic sent from the candidate, once its core has the tags for it. -/
def State.sendOrdered (s : State) (c : Ctx) (kind : ReqKind) (dst : Dst) (fs scope : Nat) (rel acq : Bool) (log z k : Nat)
    (ws : List (Access × Where)) : Except Stop State := do
  let ps := pieces c.t.core log z ws
  c.chkTags s ps
  .ok (s.sent c kind dst fs scope rel acq k ps)

/-! ## The order of one core's requests to one pseudo-channel -/

/-- The channel a piece goes to. -/
def Piece.channel (p : Piece) : Nat :=
  match p.accs with
  | a :: _ => channelOf a.pa
  | [] => 2 ^ 30

/-- Whether an earlier request holds a piece back: one of the same core to the same channel that is not performed yet (R77);
and, since such a piece reaches memory at several places (R98, R144, R159, R199), one of the same team when either
is of that kind (log entry 128). -/
def State.heldBack (s : State) (r : Req) (p : Piece) : Bool :=
  s.reqs.any (fun q => decide (q.core = r.core) && decide (q.id < r.id) && q.pieces.any (fun o =>
    !o.performed && ((p.window.isNone && o.window.isNone && o.channel == p.channel) ||
      (decide (q.team = r.team) && (p.roams r || o.roams q)))))

/-- Whether a piece goes to host memory. -/
def Piece.toHost (p : Piece) : Bool := p.accs.any (fun a => isHost a.pa)

/-- The port keeps the requests of one word to host memory in their order (R296). -/
def Req.inOrder (r : Req) (p : Piece) : Bool :=
  !p.toHost || (r.pieces.takeWhile (fun o => o != p)).all (fun o => o.performed || !o.toHost)

/-- A piece may be performed: it has reached its home, what it waits for is done, and nothing holds it back. -/
def State.ripe (s : State) (r : Req) (p : Piece) : Bool :=
  !p.performed && decide (p.at_ = p.home) && !s.outstanding r.after && !s.heldBack r p && r.inOrder p

/-- Replaces a request, or removes it. -/
def State.putReq (s : State) (r : Req) : State := { s with reqs := s.reqs.map (fun q => if q.id == r.id then r else q) }
def State.dropReq (s : State) (id : Nat) : State := { s with reqs := s.reqs.filter (fun q => q.id != id) }
def State.req? (s : State) (id : Nat) : Option Req := s.reqs.find? (fun q => q.id == id)

def Req.putPiece (r : Req) (i : Nat) (p : Piece) : Req := { r with pieces := r.pieces.set i p }

/-- A candidate waiting for a request may go on, resident or saved in a handler: it is ready, or it issues its chain
again with the answer (R182). -/
def Cand.answered (id : Nat) (c : Cand) : Cand :=
  match c.wait with
  | .acquire q => if q = id then { c with wait := .ready } else c
  | .reply q none => if q = id then { c with wait := .ready } else c
  | .reply q (some l) => if q = id then { c with wait := .answered (l ++ [q]) } else c
  | _ => c

def State.answer (s : State) (team n id : Nat) : State :=
  s.modGroup team n (fun g =>
    { g with cands := g.cands.map (Cand.answered id)
             saved := g.saved.map (fun v => { v with cands := v.cands.map (Cand.answered id) }) })

/-- The candidate that waits for a request, and whether it stands saved in a handler. -/
def Group.waiter (g : Group) (id : Nat) : Option (Cand × Bool) :=
  let waits := fun (c : Cand) => match c.wait with
    | .reply q _ => q == id
    | _ => false
  match g.cands.find? waits with
  | some c => some (c, false)
  | none => (g.saved.bind (fun v => v.cands.find? waits)).map (fun c => (c, true))

/-- The slices of a candidate at the word after `k` words, where they stand or where they are saved. -/
def Group.advWaiter (g : Group) (c : Cand) (saved : Bool) (k : Nat) : Group :=
  let move := fun (xs : List Slice) => xs.mapIdx (fun i x => if c.slices.contains i then { x with pc := x.pc.add k } else x)
  if saved then { g with saved := g.saved.map (fun v => { v with slices := move v.slices }) }
  else { g with slices := move g.slices }

/-- The answer to a word that asked: by itself it completes now, with `act`, as it does while a handler runs (R310);
in a chain it waits for the chain to issue again. -/
def State.reply (s : State) (team n id k : Nat) (act : State → State) : State :=
  match (s.group? team n).bind (fun g => g.waiter id) with
  | none => { s with reqs := s.reqs.filter (fun q => q.id != id) }
  | some (c, saved) => match c.wait with
    | .reply _ (some _) => s.answer team n id
    | _ =>
      let s1 := (act s).modGroup team n (fun g => g.advWaiter c saved k)
      (State.answer { s1 with reqs := s1.reqs.filter (fun q => q.id != id) } team n id).tryEnter team n

/-- Some requests and swatch accesses leave. -/
def State.leave (s : State) (l : List Nat) : State :=
  { s with reqs := s.reqs.filter (fun q => !l.contains q.id), swreqs := s.swreqs.filter (fun q => !l.contains q.id) }

/-- The answer by which a word that asked traps: the requests of its chain leave, and the trap is raised; while a
handler runs the word issues again after it (R310). -/
def State.replyTrap (s : State) (team n id code info : Nat) : State :=
  match (s.group? team n).bind (fun g => g.waiter id) with
  | none => s.leave [id]
  | some (c, saved) =>
    let gone := match c.wait with
      | .reply _ (some l) => id :: l
      | _ => [id]
    let again := fun (d : Cand) => if d.slices = c.slices ∧ d.wait = c.wait then { d with wait := Wait.ready, kept := [] } else d
    let s1 := (s.leave gone).modGroup team n (fun g =>
      { g with cands := g.cands.map again
               saved := g.saved.map (fun v => { v with cands := v.cands.map again }) })
    if saved then s1
    else
      let pc := ((s.group? team n).map (fun g => (g.slice (c.slices.headD 0)).pc)).getD ⟨0, 0⟩
      (s1.raise team n ⟨code, info, pc, c.slices⟩).tryEnter team n

/-- R182: a word of a chain is known not to trap, so the trap of a later word is taken, with its fault record. -/
def State.laterTrap (s : State) (team n id : Nat) (r : TrapRec) (f : Option FaultRec) : State :=
  let tick := ((s.group? team n).map (fun g => g.tick)).getD 0
  let s1 := match f, s.team? team with
    | some f, some t => s.writeFault t.part t.core t.queue tick f
    | _, _ => s
  s1.replyTrap team n id r.code r.info

/-- A request is complete: it leaves, and its flag falls (R174). -/
def State.completeReq (s : State) (r : Req) : State :=
  (((s.dropReq r.id).lowerFlag r.team r.group r.flag).answer r.team r.group r.id).tryEnter r.team r.group

end Sys2Proof.Machine
end

