-- ==== Sys2Proof/Machine/MemWords.lean ====
section
/-! DEFINITION. Loads and stores, major 01100, and atomics, major 01101 (R256 to R264, R78 to R85, R100, R101). -/

namespace Sys2Proof.Machine

open Sys2Proof

/-! ## The shared body -/

/-- What a word asks of memory: whether it writes, whether host memory offers the access, the bytes of an access, its rights,
whether its address is scalar, and the accesses of its lanes. -/
structure Asks where
  wr : Bool
  host : Bool
  z : Nat
  rights : Nat
  scalar : Bool
  accs : List Access
  deriving DecidableEq, Repr

/-- The checks of R256 from the operands on, and the places of the accesses: ILLEGAL and the full flag, BOUND,
UNINIT, PEND, ALIGN, LOCK, then in protected mode the comparisons of R369, then XLATE and PERM. -/
def Ctx.memCheck (c : Ctx) (s : State) (fs : Nat) (us : List Use) (shadows : List (Option Stop)) (q : Asks) :
    Except Stop (List (Access × Where)) := do
  c.chkFlag fs
  c.chkFull s fs
  c.chkBound us
  c.chkUninit us
  c.chkPend s us
  chkAlign q.wr q.z q.accs
  c.chkLock s us
  c.chkMemLock s q.wr q.scalar q.z q.accs
  firstStop shadows
  c.translateAll s q.wr q.host q.z q.rights q.accs

/-! ## Per-lane indexed form, R260 -/

/-- The address of a lane: base, index times size, and 128 times OFF. -/
def Ctx.idxVa (c : Ctx) (b i z off l : Nat) : Nat := c.pair b + (c.vec i l).toNat * z + 128 * off

/-- `ld.bz`: `z` bytes for each live active lane. -/
def loadRow (s : State) (fs z off d i b : Nat) : Host.Outcome State Fault Refusal :=
  let us := [rdS b 0, rdS (b + 1) 0, rdV i 0, wrV d]
  word s (fun _ => us) noMore (fun c s => do
    let accs := c.lanes.map (fun l => (⟨l, c.idxVa b i z off l, 0, 0, [l]⟩ : Access))
    let ws ← c.memCheck s fs us [] ⟨false, true, z, rightsR, false, accs⟩
    s.sendOrdered c .load (.rows d 1) fs 0 false false 5 z 1 ws)

/-- `st.bz`: the low `8z` bits of `vD`, read at issue (R84). -/
def storeRow (s : State) (z off d i b : Nat) : Host.Outcome State Fault Refusal :=
  let us := [rdS b 0, rdS (b + 1) 0, rdV i 0, rdV d 1]
  word s (fun _ => us) noMore (fun c s => do
    let low := fun (l : Nat) => (c.vec d l).toNat % 2 ^ (8 * z)
    let accs := c.lanes.map (fun l => (⟨l, c.idxVa b i z off l, low l, 0, []⟩ : Access))
    let ws ← c.memCheck s 0 us [c.shadow 1 (c.idxVa b i z off), c.shadow 2 low] ⟨true, true, z, rightsW, false, accs⟩
    s.sendOrdered c .store .none 0 0 false false 5 z 1 ws)

/-- R260, OP 0. -/
def execLdB8 (_c : Bool) (f d i b : Nat) (s : State) : Host.Outcome State Fault Refusal := loadRow s 0 1 f d i b

/-- R260, OP 1. -/
def execLdB16 (_c : Bool) (f d i b : Nat) (s : State) : Host.Outcome State Fault Refusal := loadRow s 0 2 f d i b

/-- R260, OP 2. -/
def execLdB32 (_c : Bool) (f d i b : Nat) (s : State) : Host.Outcome State Fault Refusal := loadRow s 0 4 f d i b

/-- R260, OP 3. -/
def execLdB8Fa (_c : Bool) (f d i b : Nat) (s : State) : Host.Outcome State Fault Refusal := loadRow s 1 1 f d i b

/-- R260, OP 4. -/
def execLdB16Fa (_c : Bool) (f d i b : Nat) (s : State) : Host.Outcome State Fault Refusal := loadRow s 1 2 f d i b

/-- R260, OP 5. -/
def execLdB32Fa (_c : Bool) (f d i b : Nat) (s : State) : Host.Outcome State Fault Refusal := loadRow s 1 4 f d i b

/-- R260, OP 6. -/
def execLdB8Fb (_c : Bool) (f d i b : Nat) (s : State) : Host.Outcome State Fault Refusal := loadRow s 2 1 f d i b

/-- R260, OP 7. -/
def execLdB16Fb (_c : Bool) (f d i b : Nat) (s : State) : Host.Outcome State Fault Refusal := loadRow s 2 2 f d i b

/-- R260, OP 8. -/
def execLdB32Fb (_c : Bool) (f d i b : Nat) (s : State) : Host.Outcome State Fault Refusal := loadRow s 2 4 f d i b

/-- R260, OP 9. -/
def execStB8 (_c : Bool) (f d i b : Nat) (s : State) : Host.Outcome State Fault Refusal := storeRow s 1 f d i b

/-- R260, OP 10. -/
def execStB16 (_c : Bool) (f d i b : Nat) (s : State) : Host.Outcome State Fault Refusal := storeRow s 2 f d i b

/-- R260, OP 11. -/
def execStB32 (_c : Bool) (f d i b : Nat) (s : State) : Host.Outcome State Fault Refusal := storeRow s 4 f d i b

/-! ## Scalar address form, R261 -/

/-- The places from `d` on of a word of `n` 32-bit parts: scalars with `sc`, else vector rows. -/
def partsOf (sc : Bool) (d n : Nat) (rd wr : Bool) (opnd : Nat) : List Use :=
  (List.range n).map (fun k => if sc then ⟨.s (d + k), opnd, rd, wr⟩ else ⟨.v (d + k), opnd, rd, wr⟩)

/-- 32-bit parts of a value of `z` bytes. -/
def partCount (z : Nat) : Nat := if z = 8 then 2 else 1

/-- The value of `n` parts from `d` on, as lane `l` holds it, low word first (R175). -/
def Ctx.partsVal (c : Ctx) (sc : Bool) (d n l : Nat) : Nat :=
  (List.range n).foldl (fun a k => a + (if sc then c.scal (d + k) else c.vec (d + k) l).toNat * 2 ^ (32 * k)) 0

/-- What a request fills. -/
def dstOf (sc : Bool) (d n : Nat) : Dst := if sc then .scalars d n else .rows d n

/-- `ld.bz` from one address: into a scalar, or the same value into every live active lane. -/
def execLdScalarAddress (_c : Bool) (sz f ds o sc d a : Nat) (s : State) : Host.Outcome State Fault Refusal :=
  let z := 2 ^ sz
  let n := partCount z
  let sd := decide (ds = 1)
  let us := [rdS a 0, rdS (a + 1) 0] ++ partsOf sd d n false true 3
  word s (fun _ => us) noMore (fun c s => do
    let one : Access := ⟨0, c.pair a, 0, 0, if sd then [] else c.lanes⟩
    let accs := if c.lanes.isEmpty then [] else [one]
    let ws ← c.memCheck s f us [] ⟨false, true, z, rightsR, true, accs⟩
    s.sendOrdered c .load (dstOf sd d n) f sc false (decide (o = 1)) 5 z 1 ws)

/-- `st.bz` to one address: the scalar, or the element of the highest live active lane. -/
def execStScalarAddress (_c : Bool) (sz ds o sc d a : Nat) (s : State) : Host.Outcome State Fault Refusal :=
  let z := 2 ^ sz
  let n := partCount z
  let sd := decide (ds = 1)
  let us := [rdS a 0, rdS (a + 1) 0] ++ partsOf sd d n true false 1
  word s (fun _ => us) noMore (fun c s => do
    let val := fun (l : Nat) => c.partsVal sd d n l % 2 ^ (8 * z)
    let accs := match c.lanes.getLast? with
      | none => []
      | some l => [(⟨0, c.pair a, val l, 0, []⟩ : Access)]
    let ws ← c.memCheck s 0 us [c.shadow 2 val] ⟨true, true, z, rightsW, true, accs⟩
    s.sendOrdered c .store .none 0 sc (decide (o = 1)) false 5 z 1 ws)

/-! ## Atomics, R263, R264 -/

/-- An atomic's bytes. -/
def atomBytes (wide : Bool) : Nat := if wide then 8 else 4

/-- The lanes that receive the reply of lane `l`: in protected mode its partner too (R368). -/
def Ctx.replyLanes (c : Ctx) (l : Nat) : List Nat := if c.t.prot then c.lanes.filter (fun k => k / 2 == l / 2) else [l]

/-- The PCIe AtomicOps are the only atomics on host memory, once the host has enabled them (R296). -/
def hostAtom (op : AtomOp) : Bool :=
  match op with
  | .addN => true
  | .xchg => true
  | .cas => true
  | _ => false

/-- `atom.op`: the operand words in `d` and after it, the old value into `d`, and the pair into `d`, `d + 1`. -/
def atomic (s : State) (op : AtomOp) (wide : Bool) (ord sc fs d u a : Nat) : Host.Outcome State Fault Refusal :=
  let sd := decide (u = 1)
  let n := if wide then 2 else 1
  let addr := if sd then [rdS a 0, rdS (a + 1) 0] else [rdV a 0, rdV (a + 1) 0]
  let us := partsOf sd d (if op = .cas then 2 * n else n) true false 2 ++ addr ++ partsOf sd d n false true 3
  word s (fun _ => us) noMore (fun c s => do
    let va := fun (l : Nat) => if sd then c.pair a else (c.vec a l).toNat + (c.vec (a + 1) l).toNat * 2 ^ 32
    let x := fun (l : Nat) => c.partsVal sd d n l
    let y := fun (l : Nat) => if op = .cas then c.partsVal sd (d + n) n l else 0
    let accs := if sd then [(⟨0, va 0, x 0, y 0, []⟩ : Access)]
      else c.primaries.map (fun l => (⟨l, va l, x l, y l, c.replyLanes l⟩ : Access))
    let shadows := if sd then [] else [c.shadow 1 va, c.shadow 2 (fun l => (x l, y l))]
    let host := hostAtom op && Config.hostAtomics s.ps
    let ws ← c.memCheck s fs us shadows ⟨true, host, atomBytes wide, rightsRW, sd, accs⟩
    s.sendOrdered c (.atom op wide) (dstOf sd d n) fs sc (decide (2 ≤ ord)) (decide (ord % 2 = 1)) 6
      (atomBytes wide) 1 ws)

/-- R263, OP 0. -/
def execAtomAddN32 (_c : Bool) (o k f d u a : Nat) (s : State) : Host.Outcome State Fault Refusal :=
  atomic s .addN false o k f d u a

/-- R263, OP 1. -/
def execAtomAddN64 (_c : Bool) (o k f d u a : Nat) (s : State) : Host.Outcome State Fault Refusal :=
  atomic s .addN true o k f d u a

/-- R263, OP 2. -/
def execAtomAddF32 (_c : Bool) (o k f d u a : Nat) (s : State) : Host.Outcome State Fault Refusal :=
  atomic s .addF32 false o k f d u a

/-- R263, OP 3. -/
def execAtomMinS32 (_c : Bool) (o k f d u a : Nat) (s : State) : Host.Outcome State Fault Refusal :=
  atomic s .minS false o k f d u a

/-- R263, OP 4. -/
def execAtomMinN32 (_c : Bool) (o k f d u a : Nat) (s : State) : Host.Outcome State Fault Refusal :=
  atomic s .minN false o k f d u a

/-- R263, OP 5. -/
def execAtomMaxS32 (_c : Bool) (o k f d u a : Nat) (s : State) : Host.Outcome State Fault Refusal :=
  atomic s .maxS false o k f d u a

/-- R263, OP 6. -/
def execAtomMaxN32 (_c : Bool) (o k f d u a : Nat) (s : State) : Host.Outcome State Fault Refusal :=
  atomic s .maxN false o k f d u a

/-- R263, OP 7. -/
def execAtomAndB32 (_c : Bool) (o k f d u a : Nat) (s : State) : Host.Outcome State Fault Refusal :=
  atomic s .and false o k f d u a

/-- R263, OP 8. -/
def execAtomOrB32 (_c : Bool) (o k f d u a : Nat) (s : State) : Host.Outcome State Fault Refusal :=
  atomic s .or false o k f d u a

/-- R263, OP 9. -/
def execAtomXorB32 (_c : Bool) (o k f d u a : Nat) (s : State) : Host.Outcome State Fault Refusal :=
  atomic s .xor false o k f d u a

/-- R263, OP 10. -/
def execAtomXchgB32 (_c : Bool) (o k f d u a : Nat) (s : State) : Host.Outcome State Fault Refusal :=
  atomic s .xchg false o k f d u a

/-- R263, OP 11. -/
def execAtomCasB32 (_c : Bool) (o k f d u a : Nat) (s : State) : Host.Outcome State Fault Refusal :=
  atomic s .cas false o k f d u a

/-- R263, OP 12. -/
def execAtomXchgB64 (_c : Bool) (o k f d u a : Nat) (s : State) : Host.Outcome State Fault Refusal :=
  atomic s .xchg true o k f d u a

/-- R263, OP 13. -/
def execAtomCasB64 (_c : Bool) (o k f d u a : Nat) (s : State) : Host.Outcome State Fault Refusal :=
  atomic s .cas true o k f d u a

end Sys2Proof.Machine
end

