-- ==== Sys2Proof/Machine/MemEvents.lean ====
section
/-! DEFINITION. What happens to memory requests after they leave their candidate: translation walks (R327), the
performing of reads, writes and atomics at their home (R77, R100, R144, R385), acknowledgements (R79) and landings
(R41, R54, R264, R360, R361). -/

namespace Sys2Proof.Machine

open Sys2Proof

/-! ## Finding a piece, counting bytes -/

/-- A piece of a request in flight. -/
def State.piece? (s : State) (req i : Nat) : Option (Req × Piece) :=
  (s.req? req).bind (fun r => (r.pieces[i]?).map (fun p => (r, p)))

/-- The TICK of a request's group, for a fault record. -/
def State.tickOf (s : State) (team group : Nat) : Nat := ((s.group? team group).map (fun g => g.tick)).getD 0

/-- The queue of a team, for a fault record. -/
def State.queueOf (s : State) (team : Nat) : Nat := ((s.team? team).map (fun t => t.queue)).getD 0

/-- A fault record of a request's failure. -/
def State.reqFault (s : State) (r : Req) (f : FaultRec) : State :=
  s.writeFault r.part r.core (s.queueOf r.team) (s.tickOf r.team r.group) f

/-- Puts a piece back, and answers a candidate that waits for the whole request to be performed (R79). -/
def State.performed (s : State) (r : Req) (i : Nat) (p : Piece) : State :=
  let r' := r.putPiece i p
  let s' := s.putReq r'
  if r'.done then (s'.answer r.team r.group r.id).tryEnter r.team r.group else s'

/-! ## TRANSLATION_WALK, R327 to R332 -/

/-- One page that a candidate waits for is walked: its entry enters the TLBs, or its failure is recorded. -/
def State.walkNeed (s : State) (t : Team) (g : Group) (c : Cand) (n : Need) (rest : List Need) : State :=
  let res := s.walk t.core t.part n.va n.rights
  let fail := match res with
    | .hit _ => none
    | .fail cause level _ => some (cause, level)
  let s1 := match res with
    | .hit e => (s.walked t.core t.part n.va).tlbInstall t.core e
    | .fail cause level _ => s.writeFault t.part t.core t.queue g.tick ⟨n.va, cause, level, 0, nbit n.rights 1⟩
  s1.modGroup t.id g.num (fun h => h.modCand c.slices (fun d =>
    { d with wait := .xlate rest
             failed := d.failed ++ (fail.map (fun f => (⟨n, f.1, f.2⟩ : Failed))).toList }))

/-- The step for the first page that the candidate holding a slice waits for. -/
def execTranslationWalk (team group slice : Nat) (s : State) : Host.Outcome State Fault Refusal :=
  match s.team? team with
  | none => .next s
  | some t => match t.group? group with
    | none => .next s
    | some g => match g.cand? slice with
      | none => .next s
      | some c => match c.wait with
        | .xlate (n :: rest) => .next (s.walkNeed t g c n rest)
        | _ => .next s

/-! ## PSEUDO_CHANNEL_READ -/

/-- A value of virtual memory read for a window: the value, or why it fails. -/
def State.windowRead (s : State) (r : Req) (va n : Nat) : Except (Nat × Nat) Nat × State :=
  match s.place r.core r.part va 1 with
  | .error e => (.error e, s)
  | .ok (pa, tag) =>
    let s1 := (s.learn r.core r.part va 1).access r.part r.core pa 32 false
    if s.poisoned pa then (.error (9, 4), s1.noteHbmError pa) else (.ok (s.readMem tag pa n), s1)

/-- R145: STAT after position `k` faults. -/
def statAfter (w k : Nat) : Nat :=
  let f := nbit w 63
  let nf := min (fld w 32 16 + 1) 65535
  let first := if f then fld w 0 32 else k
  2 ^ 63 + fld w 48 15 * 2 ^ 48 + nf * 2 ^ 32 + first % 2 ^ 32

/-- R145: the engine's update of the status word, an atomic at its home; one that cannot be translated leaves its record. -/
def State.statUpdate (s : State) (r : Req) (stat k : Nat) : State :=
  match s.place r.core r.part stat 3 with
  | .error (9, 4) => s
  | .error (cause, level) => s.reqFault r ⟨stat, cause, level, 0, true⟩
  | .ok (pa, tag) =>
    let s1 := (s.learn r.core r.part stat 3).access r.part r.core pa 32 false
    if s.poisoned pa then s1.noteHbmError pa
    else (s1.writeMem tag pa (bytesLE 8 (statAfter (s.readMem tag pa 8) k))).noteBytes pa 32 true

/-- R144: what position `k` of a window gives: its element's bytes, or nothing with the failing address, cause and
level, where a translation, a permission or a sector failed. -/
def State.windowElem (s : State) (r : Req) (w : Window) (k : Nat) : Option Nat × Option (Nat × Nat × Nat) × State :=
  match s.windowRead r (w.idx + 4 * k) 4 with
  | (.error e, s1) => (none, some (w.idx + 4 * k, e.1, e.2), s1)
  | (.ok i, s1) =>
    if w.tlen ≤ i then (none, none, s1)
    else match s1.windowRead r (w.base + i * w.esz) w.esz with
      | (.error e, s2) => (none, some (w.base + i * w.esz, e.1, e.2), s2)
      | (.ok v, s2) => (some v, none, s2)

/-- The positions that an access touches. -/
def Window.positions (w : Window) (a : LaneAcc) : List Nat :=
  (List.range a.size).map (fun j => (a.va + j - w.wbase) / w.esz)

/-- The byte of a window at an address, from the elements fetched for its positions. -/
def Window.byteAt (w : Window) (els : List (Nat × Option Nat)) (va : Nat) : Nat :=
  let o := va - w.wbase
  match (els.find? (fun e => e.1 == o / w.esz)).bind (fun e => e.2) with
  | some v => v / 256 ^ (o % w.esz) % 256
  | none => 0

/-- Serves the accesses of a piece through a window: each position once, its fault recorded and counted; but not a position that is
lost with a failed host read (R297). -/
def State.serveWindow (s : State) (r : Req) (w : Window) (lost : Option Nat) (p : Piece) : State × Piece :=
  let ks := (p.accs.flatMap w.positions).dedup.filter (fun k => decide (lost ≠ some k))
  let one := fun (acc : State × List (Nat × Option Nat)) (k : Nat) =>
    match acc.1.windowElem r w k with
    | (some v, _, s1) => (s1, acc.2 ++ [(k, some v)])
    | (none, f, s1) =>
      let s2 := match f with
        | some (va, cause, level) => if level = 4 ∧ cause = 9 then s1 else s1.reqFault r ⟨va, cause, level, 0, false⟩
        | none => s1
      (s2.statUpdate r w.stat k, acc.2 ++ [(k, none)])
  let (s', els) := ks.foldl one (s, [])
  let serve := fun (a : LaneAcc) =>
    { a with reply := (List.range a.size).foldl (fun v j => v + w.byteAt els (a.va + j) * 256 ^ j) 0 }
  (s', { p with accs := p.accs.map serve, performed := true })

/-- Reads the accesses of a piece at their home; a sector with an uncorrectable error poisons the reply (R360). -/
def State.readPiece (s : State) (p : Piece) : State × Piece :=
  match p.accs with
  | [] => (s, { p with performed := true })
  | a :: _ =>
    if s.poisoned a.pa then (s.noteHbmError a.pa, { p with performed := true, poisoned := true })
    else (s.noteBytes a.pa 32 false,
      { p with accs := p.accs.map (fun b => { b with reply := s.readMem p.tag b.pa b.size }), performed := true })

/-- R77: a read is performed at its home. -/
def execPseudoChannelRead (req i : Nat) (s : State) : Host.Outcome State Fault Refusal :=
  match s.piece? req i with
  | none => .next s
  | some (r, p) =>
    if r.kind ≠ .load ∨ s.ripe r p = false then .next s
    else
      let q := match p.window with
        | some w => s.serveWindow r w none p
        | none => s.readPiece p
      .next (q.1.performed r i q.2)

/-! ## PSEUDO_CHANNEL_WRITE, R385 -/

/-- The bytes of a store's piece in ascending lane order, so that the highest lane's write stays (R85). -/
def Piece.bytes (p : Piece) : List (Nat × Byte) :=
  p.accs.flatMap (fun a => (bytesLE a.size a.x).zipIdx.map (fun e => (a.pa + e.2, e.1)))

/-- R385, R85: a write is performed at its home. -/
def execPseudoChannelWrite (req i : Nat) (s : State) : Host.Outcome State Fault Refusal :=
  match s.piece? req i with
  | none => .next s
  | some (r, p) =>
    if r.kind ≠ .store ∨ s.ripe r p = false then .next s
    else
      let s1 := (s.writeSector p.tag p.bytes).noteBytes ((p.accs.headD ⟨[], 0, 0, 0, 0, 0, 0⟩).pa) 32 true
      .next (s1.performed r i { p with performed := true })

/-! ## PSEUDO_CHANNEL_ATOMIC, R100, R101, R263 -/

/-- The new value of an atomic on `n` bits, from the old value, the operand and, for `cas`, the new value. -/
def AtomOp.apply (op : AtomOp) (n m x y : Nat) : Nat :=
  match op with
  | .addN => (m + x) % 2 ^ n
  | .addF32 => fp32.fadd 0 m x
  | .addBf16 => bf16.fadd 0 m x
  | .minS => if sext n x < sext n m then x else m
  | .minN => min m x
  | .maxS => if sext n m < sext n x then x else m
  | .maxN => max m x
  | .minF => fp32.minmax false 0 m x
  | .maxF => fp32.minmax true 0 m x
  | .and => m &&& x
  | .or => m ||| x
  | .xor => m ^^^ x
  | .xchg => x
  | .cas => if m = x then y else m

/-- Applies the accesses of a line in lane order; an access to a sector with an error is not performed (R385). -/
def State.applyAtoms (s : State) (op : AtomOp) (tag : Nat) (l : List LaneAcc) : State × List LaneAcc × Bool :=
  l.foldl (fun acc a =>
    if acc.1.poisoned a.pa then (acc.1.noteHbmError a.pa, acc.2.1 ++ [a], true)
    else
      let m := acc.1.readMem tag a.pa a.size
      let v := op.apply (8 * a.size) m a.x a.y
      (((acc.1.writeMem tag a.pa (bytesLE a.size v)).noteBytes a.pa 32 false).noteBytes a.pa 32 true,
        acc.2.1 ++ [{ a with reply := m }], acc.2.2)) (s, [], false)

/-- R100, R101: an atomic's line is performed at its home. -/
def execPseudoChannelAtomic (req i : Nat) (s : State) : Host.Outcome State Fault Refusal :=
  match s.piece? req i with
  | none => .next s
  | some (r, p) => match r.kind with
    | .atom op _ =>
      if s.ripe r p = false then .next s
      else
        let (s1, accs, bad) := s.applyAtoms op p.tag p.accs
        .next (s1.performed r i { p with accs := accs, performed := true, poisoned := bad })
    | _ => .next s

/-! ## Acknowledgements, R79 -/

/-- A write is acknowledged; the last acknowledgement completes the word, and an append's flag falls (R174). -/
def State.acknowledge (s : State) (r : Req) (i : Nat) (p : Piece) : State :=
  let r' := r.putPiece i { p with acked := true }
  if r'.done then (s.putReq r').completeReq r' else s.putReq r'

/-- R79: the home pseudo-channel or the far module acknowledges a write. -/
def execWriteAcknowledge (req i : Nat) (s : State) : Host.Outcome State Fault Refusal :=
  match s.piece? req i with
  | none => .next s
  | some (r, p) =>
    if r.kind.plainWrite = true ∧ p.performed = true ∧ p.acked = false ∧ p.toHost = false ∧ p.at_ = dieOf r.core then
      .next (s.acknowledge r i p)
    else .next s

/-- R79: the completion of the flushing read behind a request's posted writes to host memory. -/
def execFlushingReadCompletion (req : Nat) (s : State) : Host.Outcome State Fault Refusal :=
  match s.req? req with
  | none => .next s
  | some r =>
    let ready := fun (p : Piece) => p.toHost && p.performed && !p.acked
    if r.kind.plainWrite = true ∧ r.pieces.any ready = true then
      let r' := { r with pieces := r.pieces.map (fun p => if ready p then { p with acked := true } else p) }
      .next (if r'.done then (s.putReq r').completeReq r' else s.putReq r')
    else .next s

/-! ## Read-ahead, R146 -/

/-- R146: a sector is read ahead; no value changes, PFISSUED of its pseudo-channel counts. -/
def execPrefetchIssue (die sector : Nat) (s : State) : Host.Outcome State Fault Refusal :=
  let pa := sector * 32
  let d := s.die die
  if inHbm pa = true ∧ homeDie pa = die ∧ d.ahead.contains sector = false then
    .next (State.tmAdd (s.putDie die { d with ahead := d.ahead ++ [sector] }) die (prefetchCounter pa) 1)
  else .next s

/-! ## Landings -/

/-- R41: an element with the low `z` bytes written. -/
def narrowElem (old : Elem) (z v : Nat) : Elem :=
  if 4 ≤ z then Elem.of (BitVec.ofNat 32 v)
  else
    let keep := if old.valid then old.val.toNat / 2 ^ (8 * z) * 2 ^ (8 * z) else 0
    Elem.of (BitVec.ofNat 32 (keep + v % 2 ^ (8 * z)))

/-- Writes a reply of `z` bytes to one lane's elements of rows from `d` on, low word first. -/
def State.landLane (s : State) (core : Nat) (g : Group) (d z v l : Nat) : State :=
  let s1 := s.putElem core (g.vecRow d) l (narrowElem (palGet s.pal core (g.vecRow d) l) z v)
  if z = 8 then s1.putElem core (g.vecRow (d + 1)) l (Elem.of (BitVec.ofNat 32 (v / 2 ^ 32))) else s1

/-- Writes a reply to a scalar, or to a pair. -/
def State.landScal (s : State) (core : Nat) (g : Group) (d z v : Nat) : State :=
  let at_ := fun (n : Nat) => (g.scalRow n, n % 32)
  let s1 := s.putElem core (at_ d).1 (at_ d).2 (narrowElem (palGet s.pal core (at_ d).1 (at_ d).2) z v)
  if z = 8 then s1.putElem core (at_ (d + 1)).1 (at_ (d + 1)).2 (Elem.of (BitVec.ofNat 32 (v / 2 ^ 32))) else s1

/-- R361: `k` scalars from `d` on are lost. -/
def State.loseScal (s : State) (team core : Nat) (g : Group) (d k : Nat) : State :=
  let s1 := (List.range k).foldl (fun s j =>
    let row := g.scalRow (d + j)
    s.putElem core row ((d + j) % 32) { palGet s.pal core row ((d + j) % 32) with valid := false, ecc := .sound }) s
  s1.modGroup team g.num (fun h => h.addSoft 3 0 1 d)

/-- The reply of a piece lands in its destination; a poisoned one kills its lanes or loses the scalar (R360, R361). -/
def State.landPiece (s : State) (r : Req) (p : Piece) : State :=
  match s.group? r.team r.group with
  | none => s
  | some g => match r.dst with
    | .none => s
    | .scalars d k =>
      if p.poisoned then s.loseScal r.team r.core g d k
      else p.accs.foldl (fun s a => s.landScal r.core g d a.size a.reply) s
    | .rows d _ =>
      if p.poisoned then s.lanesDie r.team r.group (p.accs.flatMap (fun a => a.outs))
      else p.accs.foldl (fun s a => a.outs.foldl (fun s l => s.landLane r.core g d a.size a.reply l) s) s

/-- A reply has landed: with the last one the word completes (R54, R264). -/
def State.landed (s : State) (r : Req) (i : Nat) (p : Piece) : State :=
  let r' := r.putPiece i { p with landed := true }
  let s1 := s.landPiece r p
  if r'.pieces.all (fun q => q.landed) then (s1.putReq r').completeReq r' else s1.putReq r'

/-- A performed piece whose reply has reached its core's die and has not landed. -/
def Req.canLand (r : Req) (p : Piece) : Bool := p.performed && !p.landed && decide (p.at_ = dieOf r.core)

/-- R54: a load's sector lands. -/
def execLoadSectorLanding (req i : Nat) (s : State) : Host.Outcome State Fault Refusal :=
  match s.piece? req i with
  | none => .next s
  | some (r, p) => if r.kind = .load ∧ r.canLand p = true then .next (s.landed r i p) else .next s

end Sys2Proof.Machine
end

