-- ==== Sys2Proof/Machine/Convert.lean ====
section
/-! DEFINITION. `cvt`, major 01001 (R245, R246, R196 to R199), and the two events of its outlier list (R199). -/

namespace Sys2Proof.Machine

open Sys2Proof

/-! ## The fields -/

/-- The fields of a `cvt`: both formats, RND, and those of its extension literal (R177). -/
structure CvtForm where
  src : Nat
  dst : Nat
  rnd : Nat
  scl : Nat
  se : Bool
  ols : Nat
  pos : Nat
  ovf : Nat
  deriving DecidableEq, Repr

def cvtForm (src dst rnd : Nat) (x : Option Nat) : CvtForm :=
  let v := x.getD 0
  ⟨src, dst, rnd, fld v 19 7, nbit v 18, fld v 11 7, fld v 8 3, fld v 6 2⟩

/-- The narrow side. -/
def CvtForm.code (f : CvtForm) : Nat := if f.src = 0 then f.dst else f.src

/-- The rounding: MODE's with RND 4 (R191). -/
def CvtForm.mode (f : CvtForm) (mode : Nat) : Nat := if f.rnd = 4 then rndOf mode else f.rnd

/-- The scalars that the conversion uses (R245). -/
def CvtForm.scalars (f : CvtForm) : List Nat :=
  (if f.ovf = 2 then [f.ols, f.ols + 1, f.ols + 2] else []) ++ (if f.code = 8 then [f.ols + 3] else [])

/-- The operands: D, A, SCL, the scalars. -/
def CvtForm.uses (f : CvtForm) (d a : Nat) : List Use :=
  [wrV d, rdV a 0] ++ (if f.se then [rdV f.scl 1] else []) ++ f.scalars.map (fun n => rdS n 1)

/-- The scale of lane `l` (R196). -/
def Ctx.cvtScale (c : Ctx) (f : CvtForm) (l : Nat) : Val :=
  Sys2Proof.Machine.cvtScale f.code f.se ((c.vec f.scl l).toNat % 256) (c.scal (f.ols + 3)).toNat

/-- R246 in one lane: the element written to D, or an outlier. -/
def Ctx.cvtLane (c : Ctx) (f : CvtForm) (a l : Nat) : Narrow :=
  let q := c.cvtScale f l
  let r := f.mode c.g.mode
  if f.dst = 0 then .code (widen r f.ovf (codeVal f.src (elemAt f.src f.pos (c.vec a l))) q)
  else narrow f.dst r f.ovf (fp32.val (c.vec a l).toNat) q

/-- The code a lane writes: an outlier writes 0 (R199). -/
def Narrow.written (n : Narrow) : Nat :=
  match n with
  | .code v => v
  | .outlier => 0

/-- Writes the lane's code at POS of its element of row `row`; a wide result is the whole element (R246, R188). -/
def State.putCvt (s : State) (core row code pos l v : Nat) : State :=
  if code = 0 ∨ 11 ≤ code then s.putElem core row l (Elem.of (BitVec.ofNat 32 v))
  else s.putElem core row l (putNarrow code pos v (palGet s.pal core row l))

/-- The lanes whose atomic or outlier came back poisoned: their destination elements are left unchanged (R360). -/
def Req.lost (r : Req) : List Nat := (r.pieces.filter (fun p => p.poisoned)).flatMap (fun p => p.accs.flatMap (fun a => a.outs))

/-- The writes of a `cvt` once its outliers are recorded: it completes as it issued, but in the lanes of a poisoned reply (R360). -/
def State.cvtEffect (s : State) (r : Req) : State :=
  match s.group? r.team r.group, r.dst with
  | some g, .rows d _ =>
    (r.hold.filter (fun e => !r.lost.contains e.1)).foldl (fun s e => s.putCvt r.core (g.vecRow d) (r.aux % 16) (r.aux / 16) e.1 e.2) s
  | _, _ => s

/-! ## `cvt` -/

/-- The outlier record of lane `l`, its index in the low word and the source in the high word (R199). -/
def Ctx.outlierRec (c : Ctx) (f : CvtForm) (a l : Nat) : Nat :=
  let e := 32 / codeWidth f.dst
  ((c.scal (f.ols + 2)).toNat + e * l + f.pos) % 2 ^ 32 + (c.vec a l).toNat * 2 ^ 32

/-- The request for the outliers of a word: one access for each, all to the list's COUNT word. -/
def Ctx.outlierAsk (c : Ctx) (f : CvtForm) (d a : Nat) (codes : List (Nat × Nat)) (outs : List Nat) (pa tag : Nat) : Req :=
  let accs := outs.map (fun l => (⟨[l], c.pair f.ols + 4, pa, 4, c.outlierRec f a l, 0, 0⟩ : LaneAcc))
  let p : Piece := ⟨tag, none, accs, dieOf c.t.core, placeHome c.t.core pa, [], false, false, false, false⟩
  ⟨0, .olist, c.t.id, c.g.num, c.sl, c.t.core, c.t.part, .rows d 1, f.dst + 16 * f.pos, codes, none, [], [p], .none⟩

/-- The checks of the list's COUNT word: alignment of the list, the team's memory locks, translation. -/
def Ctx.chkList (c : Ctx) (s : State) (f : CvtForm) : Except Stop (Nat × Nat) := do
  let base : Access := ⟨0, c.pair f.ols, 0, 0, []⟩
  let count : Access := ⟨0, c.pair f.ols + 4, 0, 0, []⟩
  chkAlign true 16 [base]
  c.chkMemLock s true true 4 [count]
  let ws ← c.translateAll s true true 4 rightsRW [count]
  match ws with
  | (_, .at_ pa tag) :: _ => .ok (pa, tag)
  | _ => .ok (0, 0)

/-- R246, R199: a conversion without outliers completes; with some it asks for their records first. -/
def execCvt (_c : Bool) (src dst rnd : Nat) (x : Option Nat) (d a : Nat) (s : State) : Host.Outcome State Fault Refusal :=
  let f := cvtForm src dst rnd x
  let k := if x.isSome then 2 else 1
  word s (fun _ => f.uses d a) noMore (fun c s =>
    match s.answerOf c (fun q => decide (q = .olist)) with
    | some r => .ok (if r.probe = .none then (s.cvtEffect r).doneAsking c r k else s)
    | none => do
      c.check s (f.uses d a)
      let res := c.lanes.map (fun l => (l, c.cvtLane f a l))
      let outs := (res.filter (fun e => decide (e.2 = .outlier))).map (fun e => e.1)
      let codes := res.map (fun e => (e.1, e.2.written))
      if outs.isEmpty then
        .ok ((codes.foldl (fun s e => s.putCvt c.t.core (c.g.vecRow d) dst f.pos e.1 e.2) s).adv c k)
      else do
        let (pa, tag) ← c.chkList s f
        let r := c.outlierAsk f d a codes outs pa tag
        c.chkTags s r.pieces
        .ok (s.ask c r))

/-! ## OUTLIER_LIST_REQUEST and OUTLIER_REPLY, R199 -/

/-- Writes the records of a request from a slot on; one that fails translation or permission is dropped. -/
def State.putRecords (s : State) (r : Req) (base slot : Nat) (l : List LaneAcc) : State :=
  l.zipIdx.foldl (fun s e =>
    let va := base + 16 + 8 * (slot + e.2)
    match s.place r.core r.part va 2 with
    | .error (9, 4) => s
    | .error (cause, level) => s.reqFault r ⟨va, cause, level, 0, true⟩
    | .ok (pa, tag) =>
      ((s.learn r.core r.part va 2).writeSector tag ((bytesLE 8 e.1.x).zipIdx.map (fun b => (pa + b.2, b.1)))).access r.part r.core pa 32 true) s

/-- The atomic on the list at the home of its COUNT word: all `k` slots or none; the reply in the first access is 1
when the list had room. A request that only asks whether its word would trap takes none (R182). A poisoned sector poisons the reply (R385). -/
def State.listAtomic (s : State) (r : Req) (p : Piece) : State × Piece :=
  match p.accs with
  | [] => (s, { p with performed := true })
  | a :: rest =>
    if s.poisoned a.pa then (s.noteHbmError a.pa, { p with performed := true, poisoned := true })
    else
      let s := s.noteBytes a.pa 32 false
      let cap := s.readMem p.tag (a.pa - 4) 4
      let count := s.readMem p.tag a.pa 4
      if count + p.accs.length ≤ cap ∧ r.probe ≠ .none then
        (s, { p with performed := true, accs := { a with reply := 1 } :: rest })
      else if count + p.accs.length ≤ cap then
        let s1 := (s.writeMem p.tag a.pa (bytesLE 4 (count + p.accs.length))).noteBytes a.pa 32 true
        (s1.putRecords r (a.va - 4) count p.accs, { p with performed := true, accs := { a with reply := 1 } :: rest })
      else (s, { p with performed := true })

end Sys2Proof.Machine
end

