-- ==== Sys2Proof/Machine/QueueOps.lean ====
section
/-! DEFINITION. Queues in memory (R298 to R300, R384): the queue table entry, the ring and its packets, and the
submission of a packet by `enq` (R274, R300). -/

namespace Sys2Proof.Machine

open Sys2Proof

/-- A queue table entry (R299), and whether its fields are in range. -/
structure QEntry where
  ring : Nat
  log2n : Nat
  cls : Nat
  on : Bool
  err : Bool
  slice : Nat
  rdidx : Nat
  wridx : Nat
  status : Nat
  ok : Bool
  deriving DecidableEq, Repr

/-- The address of the entry of queue `q`. -/
def State.entryVa (s : State) (part q : Nat) : Nat := (s.part part).qtbase + 64 * q

/-- The entry that 64 bytes hold: a field out of range or a nonzero reserved byte makes it malformed. -/
def qentryOf (v : Nat) : QEntry :=
  let byte := fun (i : Nat) => fld v (8 * i) 8
  let ring := fld v 0 64
  let slice := fld v 96 16
  let ok := decide (ring % 4096 = 0) && decide (4 ≤ byte 8) && decide (byte 8 ≤ 20) && decide (byte 9 ≤ 3) &&
    decide (byte 10 ≤ 3) && decide (byte 11 = 0) && decide (1 ≤ slice) && decide (slice ≤ 1000) &&
    decide (fld v 112 16 = 0) && decide (fld v 264 248 = 0)
  ⟨ring, byte 8, byte 9 % 4, nbit (byte 10) 0, nbit (byte 10) 1, slice, fld v 128 64, fld v 192 64, byte 32, ok⟩

/-- A fault record of the queue scheduler (SOURCE 7). -/
def State.queueFault (s : State) (part q va : Nat) (e : Nat × Nat) (wr : Bool) : State :=
  s.writeFault part 0 q 0 ⟨va, e.1, e.2, 7, wr⟩

/-- The core whose TLBs the queue scheduler translates through: one of die 0, where the control cores are (log entry 129). -/
def schedCore : Nat := 0

/-- The scheduler's read of up to 64 bytes of the partition's memory for a queue; a failure writes its record (R300, R384). -/
def State.qread (s : State) (part q va n : Nat) : State × Except (Nat × Nat) Nat :=
  let s1 := s.vseen schedCore part va n
  match s.vread schedCore part va n with
  | .error e => (s1.queueFault part q va e false, .error e)
  | .ok v => (s1, .ok v)

/-- Reads a queue's entry. -/
def State.qentry (s : State) (part q : Nat) : State × Option QEntry :=
  match s.qread part q (s.entryVa part q) 64 with
  | (s1, .error _) => (s1, none)
  | (s1, .ok v) => (s1, some (qentryOf v))

/-- The scheduler's write of some bytes of the partition's memory; a failure writes its record. -/
def State.qwrite (s : State) (part q va : Nat) (b : List Byte) : State :=
  match s.vwrite schedCore part va b with
  | .error e => s.queueFault part q va e true
  | .ok s' => s'

/-- Sets ON and ERR of an entry. -/
def State.setOnErr (s : State) (part q : Nat) (on err : Bool) : State :=
  s.qwrite part q (s.entryVa part q + 10) (bytesLE 1 (on.toNat + 2 * err.toNat))

/-- Sets STATUS of an entry. -/
def State.setStatus (s : State) (part q status : Nat) : State :=
  s.qwrite part q (s.entryVa part q + 32) (bytesLE 1 status)

/-- Sets RDIDX of an entry. -/
def State.setRdidx (s : State) (part q n : Nat) : State := s.qwrite part q (s.entryVa part q + 16) (bytesLE 8 n)

/-- The address of packet `n` (R300). -/
def QEntry.packetVa (e : QEntry) (n : Nat) : Nat := e.ring + 64 * (n % 2 ^ e.log2n)

/-- The sixteen words of a packet. -/
def packetWords (v : Nat) : List Nat := (List.range 16).map (fun i => fld v (32 * i) 32)

/-- R274: a queue has room while its entry is well formed and its ring is not full. -/
def QEntry.room (e : QEntry) : Bool := e.ok && decide (e.wridx - e.rdidx < 2 ^ e.log2n)

def State.queueRoom (s : State) (part q : Nat) : Bool :=
  match s.vread schedCore part (s.entryVa part q) 64 with
  | .ok v => (qentryOf v).room
  | .error _ => false

/-- R300: the slot that holds the queue, with nothing ahead of a packet, takes it straight from the `enq`, and no longer reads the ring,
which holds it only as a record. -/
def State.takeStraight (s : State) (part q : Nat) (e : QEntry) (words : List Nat) : State :=
  let free := fun (h : HwSlot) => decide (h.part = part) && decide (h.queue = q) && h.head.isNone && decide (h.skip = 0)
  if e.on = true ∧ e.err = false ∧ e.rdidx = e.wridx ∧ fld (words.headD 0) 0 8 ≠ 0 then
    { s with slots := s.slots.map (fun o => o.map (fun h =>
      if free h then { h with head := some words, straight := true, lastActive := s.ns 0 } else h)) }
  else s

/-- R300: the reservation and the writes of a packet: WRIDX, bytes 4 to 63, the first word, the pending byte; a mapped queue with
an empty ring takes it at once. -/
def State.submit (s : State) (part q : Nat) (e : QEntry) (words : List Nat) : State :=
  let at_ := e.packetVa e.wridx
  let s1 := s.qwrite part q (s.entryVa part q + 24) (bytesLE 8 ((e.wridx + 1) % 2 ^ 64))
  let s2 := s1.qwrite part q (at_ + 4) ((words.drop 1).flatMap (fun w => bytesLE 4 w))
  let s3 := s2.qwrite part q at_ (bytesLE 4 (words.headD 0))
  (s3.qwrite part q ((s3.part part).pendbase + q) [1]).takeStraight part q e words

/-! ## Save slots, R316, R319, R324 -/

/-- The address of a save slot (R316). -/
def State.slotVa (s : State) (part slot : Nat) : Nat := (s.part part).csabase + slot * 2 ^ (s.part part).slotlog2

/-- STATE of a save slot (R320) written; a write that fails leaves its record (R332). -/
def State.setSlotState (s : State) (t : Team) (slot v : Nat) : State :=
  let va := s.slotVa t.part slot + 4
  match s.vwrite t.core t.part va (bytesLE 1 v) with
  | .ok s' => s'
  | .error e => s.writeFault t.part t.core t.queue 0 ⟨va, e.1, e.2, 8, true⟩

/-- R324: with a team's first issue after its restore the STATE of its slot becomes 0. -/
def State.firstIssue (s : State) (team : Nat) : State :=
  match s.team? team with
  | none => s
  | some t => match t.saveSlot with
    | none => s
    | some i => (s.setSlotState t i 0).putTeam { t with saveSlot := none }

end Sys2Proof.Machine
end

