-- ==== Sys2Proof/Machine/Lists.lean ====
section
/-! DEFINITION. Allocation, append and enqueue, major 10110 (R154 to R159, R273, R274), and their events. -/

namespace Sys2Proof.Machine

open Sys2Proof

/-! ## The pool descriptor, R154 -/

structure Pool where
  base : Nat
  log2 : Nat
  cap : Nat
  next : Nat
  ok : Bool
  deriving DecidableEq, Repr

/-- The pool descriptor that 32 bytes hold. -/
def poolOf (v : Nat) : Pool :=
  let lg := fld v 64 4
  let ok := decide (fld v 68 28 = 0) && decide (fld v 160 96 = 0) && decide (8 ≤ lg) && decide (lg ≤ 14) &&
    decide (fld v 0 64 % 2 ^ lg = 0)
  ⟨fld v 0 64, lg, fld v 96 32, fld v 128 32, ok⟩

/-! ## `bump`, R155 -/

/-- A place of one descriptor for a word that acts once. -/
def oneAccess (va : Nat) : Access := ⟨0, va, 0, 0, []⟩

/-- The checks of a descriptor's address after ALIGN and the rows' locks: the team's memory locks, XLATE and PERM; none in host
memory (R296). -/
def Ctx.chkDescriptor (c : Ctx) (s : State) (z va : Nat) : Except Stop (Nat × Nat) := do
  c.chkMemLock s true true z [oneAccess va]
  let ws ← c.translateAll s true false z rightsRW [oneAccess va]
  match ws with
  | (_, .at_ pa tag) :: _ => .ok (pa, tag)
  | _ => .ok (0, 0)

/-- The writes of a `bump` once it is answered: chunk addresses and the predicate. -/
def State.bumpEffect (s : State) (r : Req) : State :=
  match s.group? r.team r.group, r.dst, r.pieces with
  | some g, .rows d _, p :: _ =>
    p.accs.foldl (fun s a =>
      let lanes := a.outs
      let v := if a.y = 1 then a.reply else 0
      let s1 := lanes.foldl (fun s l =>
        (s.putElem r.core (g.vecRow d) l (Elem.of (BitVec.ofNat 32 v))).putElem r.core (g.vecRow (d + 1)) l
          (Elem.of (BitVec.ofNat 32 (v / 2 ^ 32)))) s
      s1.modGroup r.team r.group (fun h => h.setPred r.aux lanes (fun _ => decide (a.y = 1)))) s
  | _, _, _ => s

/-- The request of a `bump`: one access for each lane that sends. -/
def Ctx.bumpAsk (c : Ctx) (p d va pa tag : Nat) : Req :=
  let accs := c.primaries.map (fun l => (⟨c.replyLanes l, va, pa, 32, 0, 0, 0⟩ : LaneAcc))
  ⟨0, .bump, c.t.id, c.g.num, c.sl, c.t.core, c.t.part, .rows d 2, p, [], none, [],
    [⟨tag, none, accs, dieOf c.t.core, placeHome c.t.core pa, [], false, false, false, false⟩], .none⟩

/-- R155: asks for one chunk for each live active lane; with none it completes. -/
def execBump (_c : Bool) (p d a : Nat) (s : State) : Host.Outcome State Fault Refusal :=
  let us := [rdS a 0, rdS (a + 1) 0, wrV d, wrV (d + 1)]
  word s (fun _ => us) noMore (fun c s =>
    match s.answerOf c (fun q => decide (q = .bump)) with
    | some r => .ok (if r.probe = .none then (s.bumpEffect r).doneAsking c r 1 else s)
    | none => do
      c.chkBound us
      c.chkUninit us
      c.chkPend s us
      if c.lanes.isEmpty then do
        c.chkLock s us
        .ok (s.adv c 1)
      else do
        chkAlign true 32 [oneAccess (c.pair a)]
        c.chkLock s us
        let (pa, tag) ← c.chkDescriptor s 32 (c.pair a)
        let r := c.bumpAsk p d (c.pair a) pa tag
        c.chkTags s r.pieces
        .ok (s.ask c r))

/-- R155 at the descriptor's home: the chunks of the lanes that get one; 2 in `y` for a malformed descriptor. A request that only
asks whether its word would trap takes none (R182). -/
def State.bumpAtomic (s : State) (r : Req) (p : Piece) : State × Piece :=
  match p.accs with
  | [] => (s, { p with performed := true })
  | a :: _ =>
    if s.poisoned a.pa then (s.noteHbmError a.pa, { p with performed := true, poisoned := true })
    else
      let q := poolOf (s.readMem p.tag a.pa 32)
      let n := p.accs.length
      let give := if q.next < q.cap then min n (q.cap - q.next) else 0
      let mark := fun (j : Nat) (b : LaneAcc) =>
        if q.ok = false then { b with y := 2 }
        else if j < give then { b with y := 1, reply := q.base + (q.next + j) * 2 ^ q.log2 } else { b with y := 0 }
      let s := s.noteBytes a.pa 32 false
      let s1 := if q.ok = true ∧ r.probe = .none then (s.writeMem p.tag (a.pa + 16) (bytesLE 4 (q.next + give))).noteBytes a.pa 32 true else s
      (s1, { p with performed := true, accs := p.accs.mapIdx mark })

/-! ## `append`, R156 to R159 -/

/-- The lanes that append: the live active lanes whose predicate is 1, in protected mode the primaries (R368). -/
def Ctx.appendLanes (c : Ctx) (p : Nat) : List Nat := c.primaries.filter (fun l => c.g.pred p l)

/-- R158: the source elements of the appending lanes, checked as they are read. -/
def append (s : State) (wide : Bool) (fs p d a : Nat) : Host.Outcome State Fault Refusal :=
  let n := if wide then 2 else 1
  let base := [rdS a 0, rdS (a + 1) 0]
  let rows := partsOf false d n true false 1
  let part := fun (c : Ctx) => { c with lanes := c.lanes.filter (fun l => c.g.pred p l) }
  word s (fun _ => base) (fun c => (part c).refs rows) (fun c s => do
    let cp := part c
    c.chkFlag fs
    c.chkFull s fs
    c.chkBound (base ++ rows)
    c.chkUninit base
    cp.chkUninit rows
    c.chkPend s base
    cp.chkPend s rows
    let lanes := c.appendLanes p
    if lanes.isEmpty then .ok (s.adv c 1)
    else do
      chkAlign true 64 [oneAccess (c.pair a)]
      cp.chkLock s rows
      c.chkMemLock s true true 64 [oneAccess (c.pair a)]
      firstStop [c.shadow 2 (fun l => (c.g.pred p l, if c.g.pred p l then c.partsVal false d n l else 0))]
      let (pa, tag) ← c.chkDescriptor s 64 (c.pair a)
      let accs := lanes.map (fun l => (⟨(c.replyLanes l).filter (c.g.pred p), c.pair a, pa, 64, c.partsVal false d n l, 0, 0⟩ : LaneAcc))
      let piece : Piece := ⟨tag, none, accs, dieOf c.t.core, placeHome c.t.core pa, [], false, false, false, false⟩
      c.chkTags s [piece]
      .ok ((s.adv c 1).send c (.append wide) .none 0 [] fs [] [piece]))

/-- R158, OP 1. -/
def execAppendB32 (_c : Bool) (f p d a : Nat) (s : State) : Host.Outcome State Fault Refusal := append s false f p d a

/-- R158, OP 2. -/
def execAppendB64 (_c : Bool) (f p d a : Nat) (s : State) : Host.Outcome State Fault Refusal := append s true f p d a

/-- How an append stands: the fields of the list that change, how many values are written, whether the list is
marked BAD, and whether it has stopped. -/
structure Appending where
  head : Nat
  tail : Nat
  count : Nat
  fill : Nat
  next : Nat
  done : Nat
  bad : Bool
  stop : Bool
  deriving DecidableEq, Repr

/-- A write of some bytes of a chunk under the partition's tables; a failure writes its record (SOURCE 2). -/
def State.chunkWrite (s : State) (r : Req) (va : Nat) (b : List Byte) : State × Bool :=
  match s.place r.core r.part va 3 with
  | .error (9, 4) => (s, false)
  | .error (cause, level) => (s.reqFault r ⟨va, cause, level, 2, true⟩, false)
  | .ok (pa, tag) =>
    (((s.learn r.core r.part va 3).writeSector tag (b.zipIdx.map (fun e => (pa + e.2, e.1)))).access r.part r.core pa 32 true, true)

/-- The COUNT word of a chunk rises by 1 (R158); a translation that fails leaves its record (R332). -/
def State.chunkCount (s : State) (r : Req) (chunk : Nat) : State :=
  match s.place r.core r.part (chunk + 8) 3 with
  | .error _ => (s.chunkWrite r (chunk + 8) (bytesLE 4 1)).1
  | .ok (pa, tag) => ((s.noteBytes pa 32 false).chunkWrite r (chunk + 8) (bytesLE 4 (s.readMem tag pa 4 + 1))).1

/-- R158: takes a chunk from the pool and links it when the tail is full; the flag says whether the list can take a
value. A pool whose LOG2 gives no capacity, 0 here, is malformed. -/
def State.chunkFor (s : State) (r : Req) (q : Pool) (poolPa poolTag cap : Nat) (a : Appending) : State × Appending :=
  if a.tail ≠ 0 ∧ cap ≠ 0 ∧ a.fill ≠ cap then (s, a)
  else if q.ok = false then (s, { a with bad := true, stop := true })
  else if q.cap ≤ a.next then (s, { a with stop := true })
  else
    let ch := q.base + a.next * 2 ^ q.log2
    let s1 := (s.writeMem poolTag (poolPa + 16) (bytesLE 4 (a.next + 1))).noteBytes poolPa 32 true
    let a1 := { a with next := a.next + 1 }
    match s1.chunkWrite r ch (bytesLE 16 0) with
    | (s2, false) => (s2, { a1 with stop := true })
    | (s2, true) =>
      if a1.head = 0 then (s2, { a1 with head := ch, tail := ch, fill := 0 })
      else match s2.chunkWrite r a1.tail (bytesLE 8 ch) with
        | (s3, ok) => (s3, if ok then { a1 with tail := ch, fill := 0 } else { a1 with stop := true })

/-- R158: one value written at the tail's next slot, and the chunk's COUNT. -/
def State.appendValue (s : State) (r : Req) (z v : Nat) (a : Appending) : State × Appending :=
  match s.chunkWrite r (a.tail + 16 + z * a.fill) (bytesLE z v) with
  | (s1, false) => (s1, { a with stop := true })
  | (s1, true) =>
    let s2 := s1.chunkCount r a.tail
    (s2, { a with fill := (a.fill + 1) % 2 ^ 32, count := (a.count + 1) % 2 ^ 32, done := a.done + 1 })

/-- R158: the values of an append in order, until one finds no room. -/
def State.appendValues (s : State) (r : Req) (q : Pool) (poolPa poolTag cap z : Nat) (vals : List Nat) (a : Appending) :
    State × Appending :=
  vals.foldl (fun e v =>
    if e.2.stop then e
    else
      let e1 := e.1.chunkFor r q poolPa poolTag cap e.2
      if e1.2.stop then e1 else e1.1.appendValue r z v e1.2) (s, a)

/-- R158: what the list descriptor records at the end: HEAD, TAIL, COUNT, DROPPED, BAD, TAILFILL. -/
def State.putList (s : State) (tag pa old dropped : Nat) (a : Appending) : State :=
  let w := if a.bad then fld old 256 31 + 2 ^ 31 else fld old 256 32
  s.writeMem tag (pa + 8) (bytesLE 8 a.head ++ bytesLE 8 a.tail ++ bytesLE 4 a.count ++
    bytesLE 4 ((fld old 224 32 + dropped) % 2 ^ 32) ++ bytesLE 4 w ++ bytesLE 4 a.fill)

/-- The SOFT event of an append lost to an error sector (R158, R364). -/
def State.appendLost (s : State) (r : Req) (p : Piece) : State :=
  s.modGroup r.team r.group (fun g => g.addSoft 4 (BitVec.ofNat 32 (lanesMask (p.accs.flatMap (fun a => a.outs)))) 0 0)

/-- R158: an append applied to its list by the gather engine of the descriptor's home. -/
def State.appendList (s : State) (r : Req) (p : Piece) (wide : Bool) (tag pa : Nat) : State :=
  let z := if wide then 8 else 4
  let n := p.accs.length
  match s.badSector pa 64 with
  | some bad => (s.noteHbmError bad).appendLost r p
  | none =>
    let s := ((s.noteBytes pa 32 false).noteBytes (pa + 32) 32 false).noteBytes pa 32 true
    let d := s.readMem tag pa 64
    let a : Appending := ⟨fld d 64 64, fld d 128 64, fld d 192 32, fld d 288 32, 0, 0, false, false⟩
    if fld d 258 29 ≠ 0 ∨ fld d 320 192 ≠ 0 ∨ fld d 256 2 ≠ (if wide then 3 else 2) then
      s.putList tag pa d n { a with bad := true }
    else
      let pool := fld d 0 64
      match s.place r.core r.part pool 3 with
      | .error (9, 4) => (s.appendLost r p).putList tag pa d n a
      | .error (cause, level) => (s.reqFault r ⟨pool, cause, level, 2, true⟩).putList tag pa d n a
      | .ok (qpa, qtag) =>
        let s := (s.learn r.core r.part pool 3).access r.part r.core qpa 32 false
        if s.poisoned qpa then ((s.noteHbmError qpa).appendLost r p).putList tag pa d n a
        else
          let q := poolOf (s.readMem qtag qpa 32)
          let q := { q with ok := q.ok && decide (pool % 32 = 0) }
          let cap := if 8 ≤ q.log2 ∧ q.log2 ≤ 14 then (2 ^ q.log2 - 16) / z else 0
          let (s1, b) := s.appendValues r q qpa qtag cap z (p.accs.map (fun x => x.x)) { a with next := q.next }
          s1.putList tag pa d (n - b.done) b

/-- R158: an append is applied; its acknowledgement completes it. -/
def execAppendApply (req : Nat) (s : State) : Host.Outcome State Fault Refusal :=
  match s.piece? req 0 with
  | none => .next s
  | some (r, p) => match r.kind, p.accs with
    | .append wide, a :: _ =>
      if s.ripe r p = false then .next s
      else .next ((s.appendList r p wide p.tag a.pa).putReq (r.putPiece 0 { p with performed := true }))
    | _, _ => .next s

/-! ## `enq`, R274 -/

/-- The packet and queue of a word that offers again after it has waited for room. -/
def Ctx.offering (c : Ctx) : Option (List Nat) :=
  match (c.g.candFor c.sl).map (fun (d : Cand) => d.wait) with
  | some (Wait.offer l) => some l
  | _ => none

/-- A word that has waited and now completes: its candidate is ready (in a chain once the chain is run). -/
def State.ready (s : State) (c : Ctx) : State :=
  if s.cur.chain = true then s else s.hold c .ready

/-- R274: offers a packet, its queue number first; `p` 7 is the form that waits for room. While the way to the queue is held (R346,
R350), the word waits for it. -/
def State.offer (s : State) (c : Ctx) (p : Nat) (l : List Nat) : Except Stop State :=
  let q := l.headD 0
  match s.qentry c.t.part q with
  | (s1, e) =>
    let room := (e.map (fun x => x.room)).getD false
    if s1.held = true then .error (.wait (.room .route))
    else if room then
      let s2 := match e with
        | some x => s1.submit c.t.part q x (l.drop 1)
        | none => s1
      if s2.held = true then .error (.wait (.room .route))
      else .ok (((if p = 7 then s2 else s2.putPred c p (fun _ => true)).adv c 1).ready c)
    else if p = 7 then (if s.cur.chain = true then .error (.wait (.enqRoom l)) else .ok (s1.hold c (.enqRoom l)))
    else .ok (((s1.putPred c p (fun _ => false)).adv c 1).ready c)

/-- A packet read whole through a shadow window (R144). -/
def State.windowPacket (s : State) (c : Ctx) (w : Window) (va : Nat) : State × Nat :=
  let p : Piece := ⟨0, some w, [⟨[], va, 0, 64, 0, 0, 0⟩], 0, 0, [], false, false, false, false⟩
  let r : Req := ⟨0, .load, c.t.id, c.g.num, c.sl, c.t.core, c.t.part, .none, 0, [], none, [], [p], .none⟩
  let (s1, q) := s.serveWindow r w none p
  (s1, (q.accs.headD ⟨[], 0, 0, 0, 0, 0, 0⟩).reply)

/-- The one read of a packet of 64 bytes: an access (R342, R381), which notes an error sector that it returns (R358). -/
def State.packetRead (s : State) (t : Team) (pa : Nat) : State :=
  let s1 := s.access t.part t.core pa 64 false
  match s.badSector pa 64 with
  | some a => s1.noteHbmError a
  | none => s1

/-- R274: the checks, the release at `mod` scope, the one read of the packet, the offer. -/
def enqueue (s : State) (p a : Nat) : Host.Outcome State Fault Refusal :=
  let us := [rdS a 0, rdS (a + 1) 0, rdS (a + 2) 0]
  word s (fun _ => us) noMore (fun c s =>
    match c.offering with
    | some l => s.offer c p l
    | none => do
      c.check s us
      let q := (c.scal (a + 2)).toNat
      if 2 ^ 16 ≤ q ∨ (s.part c.t.part).qcount ≤ q then .error (.t 0x0F 0)
      else do
        chkAlign false 64 [oneAccess (c.pair a)]
        c.chkMemLock s false true 64 [oneAccess (c.pair a)]
        let ws ← c.translateAll s false true 64 rightsR [oneAccess (c.pair a)]
        let first := s.earlier c.t.id c.g.num c.sl 4
        if s.outstanding first then .error (.wait (.fence first))
        else match ws with
          | (_, .at_ pa tag) :: _ =>
            let words := (List.range 16).map (fun i => s.readMem tag (pa + 4 * i) 4)
            (s.packetRead c.t pa).offer c p (q :: words)
          | (_, .window w) :: _ =>
            let (s1, v) := s.windowPacket c w (c.pair a)
            s1.offer c p (q :: (List.range 16).map (fun i => fld v (32 * i) 32))
          | _ => s.offer c p (q :: List.replicate 16 0))

/-- R274, the form that waits for room. -/
def execEnq (_c : Bool) (a : Nat) (s : State) : Host.Outcome State Fault Refusal := enqueue s 7 a

/-- R274, the form that reports acceptance. -/
def execEnqPred (_c : Bool) (p a : Nat) (s : State) : Host.Outcome State Fault Refusal := enqueue s p a

/-- R274: a waiting `enq` whose queue has room offers its packet again; an entry that cannot be read leaves its record (R384). -/
def execEnqRoomRetry (team group slice : Nat) (s : State) : Host.Outcome State Fault Refusal :=
  match s.team? team with
  | none => .next s
  | some t => match (t.group? group).bind (fun g => g.cand? slice) with
    | none => .next s
    | some c => match c.wait with
      | .enqRoom l =>
        if s.queueRoom t.part (l.headD 0) then
          .next (s.modGroup team group (fun g => g.modCand [slice] (fun d => { d with wait := .offer l })))
        else .next (s.qentry t.part (l.headD 0)).1
      | _ => .next s

end Sys2Proof.Machine
end

