-- ==== Sys2Proof/Machine/Barrier.lean ====
section
/-! DEFINITION. Transaction barriers (R108 to R112), batches (R106, R107) and fences (R79, R266): major 10000 but
`swap`. -/

namespace Sys2Proof.Machine

open Sys2Proof

/-! ## A barrier's counts (R109, R110) -/

/-- Codes of R110. -/
def codeXlate : Nat := 0x10
def codePerm : Nat := 0x11
def codePoison : Nat := 0x12
def codeMeta : Nat := 0x14
def codeDense : Nat := 0x15
def codeOver : Nat := 0x16
def codePartial : Nat := 0x17

/-- R110: the first fault decides; PARTIAL sets no ERROR and gives way to any later code that does. -/
def Barrier.note (b : Barrier) (code finfo : Nat) : Barrier :=
  if b.error = true then b
  else if code = codePartial then (if b.code = 0 then { b with code := code, finfo := finfo % 2 ^ 48 } else b)
  else { b with error := true, code := code, finfo := finfo % 2 ^ 48 }

/-- R109: with no arrival and no sector to come the phase completes. -/
def Barrier.turn (b : Barrier) : Barrier :=
  if b.arrivals = 0 ∧ b.sectors = 0 then { b with phase := (b.phase + 1) % 16, arrivals := b.reload } else b

/-- R109: one arrival; one that is not expected is recorded as OVER. -/
def Barrier.arrive (b : Barrier) : Barrier :=
  if b.arrivals = 0 then b.note codeOver 0 else ({ b with arrivals := b.arrivals - 1 } : Barrier).turn

/-- R109: the arrival and the sectors of an operation at its issue, in one step. -/
def Barrier.begin_ (b : Barrier) (n : Nat) : Barrier := ({ b with sectors := (b.sectors + n) % 2 ^ 32 } : Barrier).arrive

/-- R109: one sector lands or is subtracted. -/
def Barrier.leave1 (b : Barrier) : Barrier :=
  if b.sectors = 0 then b.note codeOver 0 else ({ b with sectors := b.sectors - 1 } : Barrier).turn

/-- `n` sectors, one after another. -/
def Barrier.leave (b : Barrier) : Nat → Barrier
  | 0 => b
  | n + 1 => b.leave1.leave n

/-- R108: the 128 bits of a barrier. -/
def Barrier.bits (b : Barrier) : Nat :=
  b.phase + b.error.toNat * 2 ^ 4 + b.code * 2 ^ 5 + b.arrivals * 2 ^ 13 + b.sectors * 2 ^ 32 + b.reload * 2 ^ 64 +
    b.finfo * 2 ^ 80

/-! ## Barriers of a team -/

/-- R55: a barrier completes a phase: the locks of operations that ended in it with a fault are released. -/
def State.unhold (s : State) (team n : Nat) : State :=
  { s with locks := s.locks.filter (fun l => !(decide (l.team = team) && decide (l.held = some n))) }

/-- Changes a barrier of a team that has been read. -/
def State.setBarrier (s : State) (t : Team) (n : Nat) (f : Barrier → Barrier) : State :=
  let s1 := s.modTeam t.id (fun u => { u with barriers := u.barriers.modify n f })
  if (f (t.barrier n)).phase = (t.barrier n).phase then s1 else s1.unhold t.id n

/-- Changes a barrier of a team, after reading it. -/
def State.modBarrier (s : State) (team n : Nat) (f : Barrier → Barrier) : State :=
  match s.team? team with
  | none => s
  | some t => (s.readBarrier t n).setBarrier t n f

/-- The same for an operation's barrier, if it names one. -/
def State.modBar (s : State) (team : Nat) (bar : Option Nat) (f : Barrier → Barrier) : State :=
  match bar with
  | none => s
  | some n => s.modBarrier team n f

/-! ## Words that name a barrier -/

/-- R265: the barrier is declared. -/
def Ctx.chkBar (c : Ctx) (n : Nat) : Except Stop Unit :=
  if n < c.t.kernel.bars then .ok () else .error (.t 0x07 (info43 0 0 3 n c.mask))

/-- Holds the candidate until its slices' earlier accesses are performed at a scope. -/
def Ctx.chkFence (c : Ctx) (s : State) (scope : Nat) : Except Stop Unit :=
  let l := s.ownEarlier c.t.id c.g.num c.sl scope
  if s.outstanding l then .error (.wait (.fence l)) else .ok ()

/-- A fence at scope clu or wider completes: what the group sends after it comes after every access of the team that is still
outstanding, so that what another group has published at a narrower scope goes before (R81, log entry 127). -/
def State.fences (s : State) (c : Ctx) (scope : Nat) : State :=
  if 2 ≤ scope then s.modG c (fun g => { g with fenced := (g.fenced.filter (fun i => s.outstanding [i]) ++ s.teamEarlier c.t.id).dedup })
  else s

/-- R109: one arrival, a release at `team` scope. -/
def execArrive (_c : Bool) (n : Nat) (s : State) : Host.Outcome State Fault Refusal :=
  word s (fun _ => []) noMore (fun c s => do
    c.chkBar n
    c.chkFence s 1
    .ok ((s.modBarrier c.t.id n Barrier.arrive).adv c 1))

/-- R111: `binit`. Its TRAP_LOCK names the barrier as TRAP_BOUND of an undeclared one does (DESIGN CHOICE, log entry 148). -/
def execBinit (_c : Bool) (n a : Nat) (s : State) : Host.Outcome State Fault Refusal :=
  word s (fun _ => [rdS a 0]) noMore (fun c s => do
    c.chkBar n
    c.check s [rdS a 0]
    let v := (c.scal a).toNat % 2 ^ 16
    if v = 0 then .error (.t 0x07 (info43 1 0 5 a c.mask))
    else
      let s1 := s.readBarrier c.t n
      let t := (s1.team? c.t.id).getD c.t
      let b := t.barrier n
      if b.sectors ≠ 0 ∨ b.arrivals ≠ b.reload then .ok (s1.stopped c (.t 0x06 (info43 0 0 5 n c.mask)))
      else
        .ok ((s1.setBarrier t n (fun b =>
          { b with reload := v, arrivals := v, error := false, code := 0, finfo := 0 })).adv c 1))

/-- R111: `bread`. -/
def execBread (_c : Bool) (n d : Nat) (s : State) : Host.Outcome State Fault Refusal :=
  let us := [wrS d, wrS (d + 1), wrS (d + 2), wrS (d + 3)]
  word s (fun _ => us) noMore (fun c s => do
    c.chkBar n
    c.check s us
    let s := s.readBarrier c.t n
    let v := (((s.team? c.t.id).map (fun t => t.barrier n)).getD Barrier.fresh).bits
    .ok (((s.putPair c d v).putPair c (d + 2) (v / 2 ^ 64)).adv c 1))

/-- The cycle from which a `twait` has been waiting. -/
def State.twaitSince (s : State) (c : Ctx) : Nat :=
  match (s.candOf c).map (fun (d : Cand) => d.wait) with
  | some (Wait.twait since _ _ _) => since
  | _ => s.clk (dieOf c.t.core)

/-- R112, R60: `twait` ends true with the phase reached, false after 2,048 ACLK, and else waits. The word issues again when the wait
is over, and reads `sK` and the barrier again: another candidate may have changed the scalar since (DESIGN CHOICE, log entry
149). -/
def execTwait (_c : Bool) (p n a : Nat) (s : State) : Host.Outcome State Fault Refusal :=
  word s (fun _ => [rdS a 0]) noMore (fun c s => do
    c.chkBar n
    c.check s [rdS a 0]
    let s1 := s.readBarrier c.t n
    let b := ((s1.team? c.t.id).map (fun t => t.barrier n)).getD Barrier.fresh
    let since := s.twaitSince c
    let k := (c.scal a).toNat % 16
    if b.reached k then .ok (((s1.putPred c p (fun _ => true)).adv c 1).ready c)
    else if since + 2048 ≤ s.clk (dieOf c.t.core) then .ok (((s1.putPred c p (fun _ => false)).adv c 1).ready c)
    else .ok (s1.stopped c (.wait (.twait since p n k))))

/-- R60: the limit of a `twait`. -/
def execTwaitTimeout (team group slice : Nat) (s : State) : Host.Outcome State Fault Refusal :=
  match (s.team? team).bind (fun t => (t.group? group).bind (fun g => (g.cand? slice).map (fun c => (t, g, c)))) with
  | none => .next s
  | some (t, g, c) => if s.twaitLapses t g c = true then .next (s.stopTwait t g c false) else .next s

/-! ## `fence`, R266 -/

/-- R266: the candidate waits until its slices' earlier accesses are performed at the scope. -/
def execFence (_c : Bool) (k : Nat) (s : State) : Host.Outcome State Fault Refusal :=
  word s (fun _ => []) noMore (fun c s => do
    c.chkFence s k
    .ok ((s.fences c k).adv c 1))

/-! ## Batches, R106, R107 -/

/-- A batch is complete when it waits for no operation. -/
def Batch.complete (b : Batch) : Bool := b.open_.isEmpty

/-- The incomplete batches, the oldest first. -/
def Group.openBatches (g : Group) : List Batch := g.batches.filter (fun b => !b.complete)

/-- How far batch `n` lies behind batch `m` (R107). -/
def batchAge (m n : Nat) : Nat := (m + 65536 - n % 65536) % 65536

/-- Every batch up to `n` is complete; an incomplete one whose number lies 32,768 or more behind `n` is taken to lie ahead of it, and is
not waited for (DESIGN CHOICE, log entry 150). -/
def Group.batchDone (g : Group) (n : Nat) : Bool := g.openBatches.all (fun b => decide (32768 ≤ batchAge n b.num))

/-- Batch `n` and the batches before it within 16 of it are clean. -/
def Group.batchClean (g : Group) (n : Nat) : Bool := g.batches.all (fun b => !b.dirty || decide (16 < batchAge n b.num))

/-- R106: the group's open operations become one batch. A complete batch is kept while a `waitb` can still ask for it
and it is not clean. -/
def Group.closeBatch (g : Group) : Group :=
  let m := g.nextBatch
  let keep := fun (b : Batch) => !b.complete || (b.dirty && decide (batchAge m b.num ≤ 32768 + 16))
  { g with
    batches := g.batches.filter keep ++ [⟨m, g.openOps, g.openDirty⟩]
    openOps := []
    openDirty := false
    nextBatch := (m + 1) % 65536 }

/-- R106: `cbatch`; with 16 incomplete batches it waits for the oldest. -/
def execCbatch (_c : Bool) (d : Nat) (s : State) : Host.Outcome State Fault Refusal :=
  word s (fun _ => [wrS d]) noMore (fun c s => do
    c.check s [wrS d]
    match c.g.openBatches with
    | b :: rest =>
      if 16 ≤ rest.length + 1 then .error (.wait (.waitb b.num)) else .ok ()
    | [] => .ok ()
    .ok (((s.putScal c d (BitVec.ofNat 32 c.g.nextBatch)).modG c Group.closeBatch).adv c 1))

/-- R107: waits for batch n and those before it, and tells whether they are clean. Before the group's first `cbatch` the newest batch m
is taken to be 65,535 (DESIGN CHOICE, log entry 123). -/
def waitBatch (s : State) (a : Nat) (act : Ctx → Bool → State → State) : Host.Outcome State Fault Refusal :=
  word s (fun _ => [rdS a 0]) noMore (fun c s => do
    c.check s [rdS a 0]
    let n := (c.scal a).toNat % 65536
    if 32768 ≤ batchAge ((c.g.nextBatch + 65535) % 65536) n then .error (.t 0x07 (info43 1 0 4 a c.mask))
    else if c.g.batchDone n = false then .error (.wait (.waitb n))
    else .ok ((act c (c.g.batchClean n) s).adv c 1))

/-- `waitb sN`. -/
def execWaitb (_c : Bool) (a : Nat) (s : State) : Host.Outcome State Fault Refusal := waitBatch s a (fun _ _ s => s)

/-- `waitb pD, sN`. -/
def execWaitbPred (_c : Bool) (p a : Nat) (s : State) : Host.Outcome State Fault Refusal :=
  waitBatch s a (fun c clean s => s.putPred c p (fun _ => clean))

/-- An operation of a group completes, faulted or not: its batch, or the set open for the next one, waits for it no
more (R106). -/
def Group.opEnds (g : Group) (op : Nat) (faulted : Bool) : Group :=
  if g.openOps.contains op then
    { g with openOps := g.openOps.filter (fun o => o != op), openDirty := g.openDirty || faulted }
  else
    { g with batches := g.batches.map (fun b =>
        if b.open_.contains op then { b with open_ := b.open_.filter (fun o => o != op), dirty := b.dirty || faulted } else b) }

end Sys2Proof.Machine
end

