-- ==== Sys2Proof/Machine/Swatch.lean ====
section
/-! DEFINITION. Swatches: `export`, `swap`, the access words of major 01110 and their events (R48 to R53, R88, R89,
R267 to R269). -/

namespace Sys2Proof.Machine

open Sys2Proof

/-! ## The operand pool (R178) -/

/-- Entry `ix` of the kernel's operand pool, read at issue through the code store. -/
def Ctx.poolEntry (c : Ctx) (s : State) (ix : Nat) : Except Stop Nat :=
  if c.t.kernel.pooln ≤ ix then .error (.t 0x01 (infoSub 6))
  else do
    let i ← c.fetch s (c.t.kernel.pool + 8 * ix) 8
    .ok (i.val % 2 ^ 64)

/-! ## The swatch table (R49, R50) -/

/-- The handle of an entry (R49). -/
def SwEntry.handle (e : SwEntry) : Nat := e.gen * 2 ^ 52 + e.swx * 2 ^ 46 + e.part * 2 ^ 40 + e.tkey * 2 ^ 16 + 1

/-- The home die of a team key. -/
def homeOfKey (tkey : Nat) : Nat := tkey / 2 ^ 19 % 32

/-- The home die that a handle names. -/
def homeOfHandle (h : Nat) : Nat := homeOfKey (fld h 16 24)

/-- The live entry that a handle names; none when it is stale (R50, R268). -/
def State.swFind (s : State) (h : Nat) : Option SwEntry :=
  if fld h 0 16 ≠ 1 then none
  else s.swatches.find? (fun e => e.live && decide (e.handle = h))

/-- The generation of a slot of the table: 1 until the slot has been freed (R49, R50). -/
def State.swGen (s : State) (part tkey swx : Nat) : Nat :=
  ((s.swatches.find? (fun e => decide (e.part = part) && decide (e.tkey = tkey) && decide (e.swx = swx))).map
    (fun e => e.gen)).getD 1

/-- The live swatches of a team. -/
def State.swOf (s : State) (team : Nat) : List SwEntry := s.swatches.filter (fun e => e.live && decide (e.team = team))

/-- Entries of the range-lock table of a core in use: the engines' and one for each shadow bank (R52, R55). -/
def State.lockCount (s : State) (core : Nat) : Nat :=
  (s.locks.filter (fun l => decide (l.core = core))).length +
    (s.swatches.filter (fun e => e.live && e.dbl && s.swHere e && (match s.swBase e with
      | some (k, _) => decide (k = core)
      | none => false))).length

/-- Room for `n` more entries in a core's range-lock table of 256. -/
def State.lockRoom (s : State) (core n : Nat) : Bool := decide (s.lockCount core + n ≤ 256)

/-- The live entries of a die's swatch table of 65,536. -/
def State.swRoom (s : State) (die : Nat) : Bool :=
  decide ((s.swatches.filter (fun e => e.live && decide (homeOfKey e.tkey = die))).length < 65536)

/-! ## `export`, R48, R269 -/

/-- The fields of `export`'s pool entry. -/
structure ExportForm where
  team : Bool
  hasb : Bool
  bn : Nat
  dbl : Bool
  scope : Nat
  rights : Nat
  len : Nat
  base : Nat
  d : Nat
  ok : Bool
  deriving DecidableEq, Repr

def exportForm (v : Nat) : ExportForm :=
  let scope := fld v 39 3
  let rights := fld v 36 3
  let ok := decide (fld v 51 13 = 0) && decide (fld v 10 2 = 0) && decide (rights ≠ 0) && decide (1 ≤ scope) &&
    decide (scope ≤ 5) && !(nbit v 42 && !nbit v 49)
  ⟨nbit v 50, nbit v 49, fld v 43 6, nbit v 42, scope, rights, fld v 24 12 + 1, fld v 12 12, fld v 0 10, ok⟩

/-- The rows an export takes, the shadow bank included. -/
def ExportForm.rows (f : ExportForm) : Nat := if f.dbl then 2 * f.len else f.len

/-- R48: an overlap that is refused: with a double-banked swatch, of either side. -/
def State.swOverlap (s : State) (c : Ctx) (f : ExportForm) : Bool :=
  let lo := (if f.team then c.t.teamBase else c.g.vecRow 0) + f.base
  (s.swOf c.t.id).any (fun e => (f.dbl || e.dbl) && (match s.swBase e with
    | some (_, b) => decide (lo < b + (if e.dbl then 2 * e.len else e.len)) && decide (b < lo + f.rows)
    | none => false))

/-- R48, R269: the checks, then a new entry of the home die's table and its handle. -/
def execExportSwatch (_c : Bool) (ix : Nat) (s : State) : Host.Outcome State Fault Refusal :=
  word s (fun _ => []) noMore (fun c s => do
    let v ← c.poolEntry s ix
    let f := exportForm v
    let us := [wrS f.d, wrS (f.d + 1)]
    if f.ok = false then .error (.t 0x01 (infoSub 6)) else .ok ()
    if f.hasb then c.chkBar f.bn else .ok ()
    c.chkBound us
    let lim := if f.team then c.t.kernel.trows else c.g.vrows
    if lim < f.base + f.rows then .error (.t 0x07 (info43 (if f.team then 2 else 0) 0 1 (max f.base lim) 0)) else .ok ()
    if 64 ≤ (s.swOf c.t.id).length then .error (.t 0x10 (infoSub 6)) else .ok ()
    if s.swOverlap c f then .error (.t 0x10 (infoSub 5)) else .ok ()
    c.chkPend s us
    let home := homeOfKey c.t.tkey
    if s.swRoom home = false then .error (.wait (.room .swatchTable)) else .ok ()
    if f.dbl = true ∧ s.lockRoom c.t.core 1 = false then .error (.wait (.room (.locks 1))) else .ok ()
    let swx := (s.swOf c.t.id).length
    let e : SwEntry := ⟨c.t.part, c.t.tkey, swx, s.swGen c.t.part c.t.tkey swx, true, c.t.id, c.g.num, f.team, f.base,
      f.len, f.rights, f.scope, f.dbl, false, if f.hasb then some f.bn else none⟩
    let others := s.swatches.filter (fun x => !(decide (x.part = e.part) && decide (x.tkey = e.tkey) && decide (x.swx = swx)))
    let s1 : State := { s with swatches := others ++ [e] }
    .ok ((s1.putPair c f.d e.handle).adv c 1))

/-! ## `swap`, R53 -/

/-- Two rows trade their elements, and their mirrors theirs. -/
def State.exchangeRows (s : State) (core a b : Nat) : State :=
  let swapIn := fun (p : Sparse Elem) (x y : Nat) => allLanes.foldl (fun p l =>
    let ex := palGet p core x l
    let ey := palGet p core y l
    palPut (palPut p core x l ey) core y l ex) p
  let p := swapIn s.pal a b
  match (s.core core).mirrorOf a, (s.core core).mirrorOf b with
  | some x, some y => { s with pal := swapIn p x y }
  | _, _ => { s with pal := p }

/-- The double-banked swatches of a team exported with a barrier. -/
def State.swappable (s : State) (team n : Nat) : List SwEntry :=
  (s.swOf team).filter (fun e => e.dbl && decide (e.bar = some n))

/-- Whether an engine's lock stands on a core row. -/
def State.engineLock (s : State) (core row : Nat) (dest : Bool) : Bool :=
  s.locks.any (fun l => !l.mem && decide (l.core = core) && decide (l.dest = dest) && decide (l.lo ≤ row) && decide (row ≤ l.hi))

/-- The first front row of a swatch under an engine's lock, as a relative row. -/
def State.swLockedRow (s : State) (e : SwEntry) : Option Nat :=
  (s.swBase e).bind (fun b => ((List.range e.len).find? (fun k =>
    s.engineLock b.1 (b.2 + k) true || s.engineLock b.1 (b.2 + k) false)).map (fun k => e.base + k))

/-- R53: one exchange of both banks. -/
def State.swapBanks (s : State) (e : SwEntry) : State :=
  let s1 := match s.swBase e with
    | some (core, b) => (List.range e.len).foldl (fun (s : State) k => s.exchangeRows core (b + k) (b + e.len + k)) s
    | none => s
  let flip := fun (x : SwEntry) => if x.handle = e.handle ∧ x.live = true then { x with swapped := !x.swapped } else x
  { s1 with swatches := s1.swatches.map flip }

/-- R53: `swap`. -/
def execSwap (_c : Bool) (n : Nat) (s : State) : Host.Outcome State Fault Refusal :=
  word s (fun _ => []) noMore (fun c s => do
    c.chkBar n
    let es := s.swappable c.t.id n
    match es.findSome? (fun e => (s.swLockedRow e).map (fun r => (e, r))) with
    | some (e, r) => .error (.t 0x06 (info43 (if e.isTeam then 2 else 0) 0 4 r 0))
    | none => .ok ((es.foldl (fun s e => s.swapBanks e) s).adv c 1))

/-! ## Decisions at the home die, R51 -/

/-- The codes of R110 for a refused access. -/
def swStale : Nat := 1
def swScope : Nat := 2
def swRights : Nat := 3
def swBound : Nat := 4
def swAbsent : Nat := 5
def swLocked : Nat := 6

/-- R75, R51: the accessor's placement lies within the owner's scope. -/
def inScope (scope ownerTeam ownerCore team core : Nat) : Bool :=
  match scope with
  | 1 => decide (ownerTeam = team)
  | 2 => decide (clusterOf ownerCore = clusterOf core)
  | 3 => decide (dieOf ownerCore = dieOf core)
  | _ => true

/-- The bit of RIGHTS for a read, a write, an atomic (R269). -/
def rightBit (wr atom : Bool) : Nat := if atom then 2 else if wr then 1 else 0

/-- A team that a pre-emption has stopped, step 3 of R317 included: its swatches are absent, and its TICK stands. -/
def Team.out (t : Team) : Bool :=
  match t.status with
  | .stopped => true
  | .saving => true
  | .preempted _ => true
  | _ => false

/-- R51: the decision on `n` rows from `row` on, 0 when it is admitted, else the arrival code; `wr` for a write and
`atom` for an atomic or reduction. -/
def State.swDecide (s : State) (h row n team core : Nat) (wr atom : Bool) : Nat :=
  match s.swFind h with
  | none => swStale
  | some e => match s.team? e.team, s.swBase e with
    | some t, some (oc, b) =>
      let at_ := b + row + (if e.dbl && (wr || atom) then e.len else 0)
      let held := (List.range n).any (fun k =>
        s.engineLock oc (at_ + k) true || ((wr || atom) && s.engineLock oc (at_ + k) false))
      if inScope e.scope e.team t.core team core = false then swScope
      else if nbit e.rights (rightBit wr atom) = false then swRights
      else if e.len < row + n then swBound
      else if t.out then swAbsent
      else if held then swLocked
      else 0
    | _, _ => swStale

/-- R51: how a refusal traps in a reader: the trap and its subcode. -/
def swTrap (code : Nat) : Nat × Nat :=
  match code with
  | 1 => (0x10, 1)
  | 2 => (0x10, 4)
  | 3 => (0x10, 3)
  | 4 => (0x07, 1)
  | 5 => (0x10, 2)
  | _ => (0x06, 1)

/-- FINFO of a refusal (R110). -/
def swFinfo (h row : Nat) : Nat := fld h 46 6 * 2 ^ 16 + row % 2 ^ 16

/-! ## The access words, R267 -/

def SwOp.reads (o : SwOp) : Bool :=
  match o with
  | .ld => true
  | .atomAdd => true
  | .atomCas => true
  | _ => false

def SwOp.isAtom (o : SwOp) : Bool :=
  match o with
  | .ld => false
  | .st => false
  | _ => true

/-- Rows of D that the word sends. -/
def SwOp.sends (o : SwOp) : Nat :=
  match o with
  | .ld => 0
  | .atomCas => 2
  | _ => 1

/-- The owner's new element value from the old one and the lane's data. -/
def SwOp.apply (o : SwOp) (e x y : Word) : Word :=
  match o with
  | .ld => e
  | .st => x
  | .atomAdd => e + x
  | .atomCas => if e = x then y else e
  | .redAdd => e + x
  | .redOr => e ||| x

/-- A swatch request leaves; a reading one holds its candidate in fault check until it is accepted (R268), in a chain
as `State.ask` does. -/
def State.askSwatch (s : State) (c : Ctx) (r : SwReq) : State :=
  if s.cur.chain = true then { s with cur := { s.cur with stops := s.cur.stops ++ [.askSwatch r] } }
  else
    State.hold { s with nextId := s.nextId + 1, swreqs := s.swreqs ++ [{ r with id := s.nextId }] } c
      (.reply s.nextId none)

/-- The accepted request that a word of a chain asked for. -/
def State.swAnswer (s : State) (c : Ctx) : Option SwReq := s.swreqs.find? (fun r => c.answers.contains r.id)

/-- What an accepted read or atomic counts in its own team: its flag, and for an atomic one arrival and 4 sectors on
its barrier (R268). -/
def State.swCounts (s : State) (r : SwReq) : State :=
  let s1 := match r.flag with
    | some f => s.modGroup r.team r.group (fun g => g.addFlag f 1)
    | none => s
  if r.op.isAtom then s1.modBar r.team r.bar (fun b => b.begin_ 4) else s1

def State.putSwreq (s : State) (r : SwReq) : State := { s with swreqs := s.swreqs.map (fun q => if q.id == r.id then r else q) }
def State.dropSwreq (s : State) (id : Nat) : State := { s with swreqs := s.swreqs.filter (fun q => q.id != id) }
def State.swreq? (s : State) (id : Nat) : Option SwReq := s.swreqs.find? (fun q => q.id == id)

/-- The module an access goes to: this one for a near form, or for a far form that names it (R268). -/
def Ctx.swModule (c : Ctx) (s : State) (far : Bool) (h : Nat) : Nat :=
  if far then (c.scal (h + 3)).toNat % 2 ^ 16 else s.regs.modid

/-- R349: a swatch access that meets a routing entry with V = 0 fails translation with cause PA. DESIGN CHOICE (log entry 154): its
word traps with TRAP_XLATE in its lanes, and the fault record has VA 0. A handle that names no die of the module needs no way. -/
def Ctx.chkSwRoute (c : Ctx) (s : State) (op : SwOp) (far : Bool) (h : Nat) : Except Stop Unit :=
  let m := c.swModule s far h
  let home := homeOfHandle (c.pair h)
  let ok := if m = s.regs.modid then decide (Config.dies ≤ home) || (s.swRoute c.t.part c.t.core home).isSome
    else !s.moduleExists m || (s.routeEntry c.t.part (dieOf c.t.core) (clusterOf c.t.core % 16) (64 + m)).isSome
  if ok then .ok () else .error (.trap 0x0D 0 (some ⟨0, 4, 4, 0, op != .ld⟩))

/-- A swatch access word (R267, R268). -/
def swatch (s : State) (op : SwOp) (far : Bool) (fs d h n : Nat) : Host.Outcome State Fault Refusal :=
  let scals := [rdS h 0, rdS (h + 1) 0, rdS (h + 2) 0] ++ (if far then [rdS (h + 3) 0] else [])
  let data := (List.range op.sends).map (fun k => rdV (d + k) 2)
  let dst := if op.reads then [wrV d] else []
  word s (fun _ => scals ++ data) noMore (fun c s =>
    match (if op.reads then s.swAnswer c else none) with
    | some r => .ok (if r.probe = .none then ((s.putSwreq { r with stage := 2 }).swCounts r).adv c 1 else s)
    | none => do
      c.chkFlag fs
      c.chkFull s fs
      c.chkBound (data ++ dst)
      if op = .ld then .ok () else c.chkBar n
      c.chkBound scals
      c.chkUninit (scals ++ data)
      c.chkPend s (scals ++ data ++ dst)
      c.chkLock s (data ++ dst)
      firstStop [if op = .ld then none else c.shadow 2 (fun l => (c.vec d l, if op.sends = 2 then c.vec (d + 1) l else 0))]
      if (s.die (dieOf c.t.core)).rtbusy = some c.t.part then .error (.wait (.room .route)) else .ok ()
      if c.lanes.isEmpty then .ok (s.adv c 1)
      else do
        c.chkSwRoute s op far h
        let bar := if op = .ld then none else some n
        let lanes := c.lanes.map (fun l => (l, c.vec d l, c.vec (d + 1) l))
        let r : SwReq := ⟨0, op, c.t.id, c.g.num, c.sl, c.t.core, c.pair h, (c.scal (h + 2)).toNat, c.swModule s far h, d,
          bar, c.flagOf fs, lanes, [], 0, 0, (s.earlier c.t.id c.g.num c.sl 5 ++ s.fencedOf c.t.id c.g.num).dedup, none, .none⟩
        if op.reads then .ok (s.askSwatch c r)
        else do
          let s1 := (s.modBar c.t.id bar (fun b => b.begin_ 4)).adv c 1
          .ok { s1 with nextId := s1.nextId + 1, swreqs := s1.swreqs ++ [{ r with id := s1.nextId }] })

/-- R267, OP 0. -/
def execSwldB32 (_c : Bool) (f d h : Nat) (s : State) : Host.Outcome State Fault Refusal := swatch s .ld false f d h 0

/-- R267, OP 1. -/
def execSwstB32 (_c : Bool) (d h n : Nat) (s : State) : Host.Outcome State Fault Refusal := swatch s .st false 0 d h n

/-- R267, OP 2. -/
def execSwatomAddN32 (_c : Bool) (f d h n : Nat) (s : State) : Host.Outcome State Fault Refusal :=
  swatch s .atomAdd false f d h n

/-- R267, OP 3. -/
def execSwatomCasB32 (_c : Bool) (f d h n : Nat) (s : State) : Host.Outcome State Fault Refusal :=
  swatch s .atomCas false f d h n

/-- R267, OP 4. -/
def execSwredAddN32 (_c : Bool) (d h n : Nat) (s : State) : Host.Outcome State Fault Refusal := swatch s .redAdd false 0 d h n

/-- R267, OP 5. -/
def execSwredOrB32 (_c : Bool) (d h n : Nat) (s : State) : Host.Outcome State Fault Refusal := swatch s .redOr false 0 d h n

/-- R267, OP 8. -/
def execSwldB32Far (_c : Bool) (f d h : Nat) (s : State) : Host.Outcome State Fault Refusal := swatch s .ld true f d h 0

/-- R267, OP 9. -/
def execSwstB32Far (_c : Bool) (d h n : Nat) (s : State) : Host.Outcome State Fault Refusal := swatch s .st true 0 d h n

/-- R267, OP 10. -/
def execSwatomAddN32Far (_c : Bool) (f d h n : Nat) (s : State) : Host.Outcome State Fault Refusal :=
  swatch s .atomAdd true f d h n

/-- R267, OP 11. -/
def execSwatomCasB32Far (_c : Bool) (f d h n : Nat) (s : State) : Host.Outcome State Fault Refusal :=
  swatch s .atomCas true f d h n

/-- R267, OP 12. -/
def execSwredAddN32Far (_c : Bool) (d h n : Nat) (s : State) : Host.Outcome State Fault Refusal := swatch s .redAdd true 0 d h n

/-- R267, OP 13. -/
def execSwredOrB32Far (_c : Bool) (d h n : Nat) (s : State) : Host.Outcome State Fault Refusal := swatch s .redOr true 0 d h n

/-! ## The access at its owner -/

/-- The owner's core, and the row that an access reaches: the front bank for a read, the shadow bank of a
double-banked swatch for the rest (R52). -/
def State.swRow (s : State) (e : SwEntry) (row : Nat) (wr : Bool) : Option (Nat × Nat) :=
  (s.swBase e).map (fun b => (b.1, b.2 + row + (if e.dbl && wr then e.len else 0)))

/-- R364, R367: a repair of a swatch row makes SOFT 2 pending in the group that owns the row, or, for a team row, as `softTeam` does;
SPACE and ROW name the row repaired. -/
def State.swSoft (s : State) (e : SwEntry) (num lane : Nat) (repaired : Bool) : State :=
  if repaired = false then s
  else if e.isTeam then s.softTeam e.team 2 num
  else s.modGroup e.team e.group (fun g => g.addSoft 2 (BitVec.ofNat 32 (2 ^ lane)) 0 num)

/-- One lane's application at the owner (R267): the element it returns, which is marked uncorrectable when its old
value could not be read. `num` is the row's number in the owner's frame. -/
def State.swApply (s : State) (w : SwEntry) (num : Nat) (op : SwOp) (core row : Nat) (ln : Nat × Word × Word) : State × Elem :=
  if op = .st then (s.putElem core row ln.1 (Elem.of ln.2.1), Elem.of 0)
  else match s.readElem core row ln.1 with
    | (s1, none, _) => (s1, ⟨0, false, .uncorrectable⟩)
    | (s0, some e, repaired) =>
      let s1 := s0.swSoft w num ln.1 repaired
      if op = .ld then (s1, e)
      else
        let old := if e.valid then e.val else 0
        (s1.putElem core row ln.1 (Elem.of (op.apply old ln.2.1 ln.2.2)), Elem.of old)

/-- Every lane of an access in ascending order, and for what writes one arrival on the export barrier (R89). -/
def State.swPerform (s : State) (r : SwReq) (e : SwEntry) : State × List (Nat × Elem) :=
  match s.swRow e r.row (r.op != .ld) with
  | none => (s, [])
  | some (core, row) =>
    let out := r.lanes.foldl (fun (acc : State × List (Nat × Elem)) ln =>
      let (s1, v) := acc.1.swApply e (e.base + r.row + (if e.dbl && r.op != .ld then e.len else 0)) r.op core row ln
      (s1, acc.2 ++ [(ln.1, v)])) (s, [])
    if r.op = .ld then out else (out.1.modBar e.team e.bar Barrier.arrive, out.2)

/-- R89: an access counts its arrival once the earlier accesses of its slices are performed at the swatch's scope. -/
def State.swReleased (s : State) (r : SwReq) (scope : Nat) : Bool :=
  let sw := s.swreqs.any (fun q => r.after.contains q.id && decide (q.stage < 2))
  let mem := s.reqs.any (fun q => r.after.contains q.id && !q.done)
  !sw && (decide (scope ≤ 1) || !mem)

/-- A free outcome of an access to another module (log entry 47): a code from 0 to 6, and elements. -/
def State.swFar (s : State) (r : SwReq) : State × Nat × List (Nat × Elem) :=
  let v := fun (k : Nat) => Config.freeValue (s.free + k)
  let code := v 0 % 7
  ({ s with free := s.free + 1 + 2 * r.lanes.length }, code,
    r.lanes.mapIdx (fun i ln => (ln.1, ⟨BitVec.ofNat 32 (v (2 * i + 1)), r.op.isAtom || nbit (v (2 * i + 2)) 0, .sound⟩)))

/-- The access is refused: a reader traps (R51), a writer's barrier records the code, and its sectors leave (R268). -/
def State.swRefuse (s : State) (r : SwReq) (code : Nat) : State :=
  let s1 := s.dropSwreq r.id
  if r.op.reads then
    let (trap, sub) := swTrap code
    s1.replyTrap r.team r.group r.id trap (info43 3 0 sub r.row (lanesMask (r.lanes.map (fun ln => ln.1))))
  else s1.modBar r.team r.bar (fun b => (b.note code (swFinfo r.handle r.row)).leave 4)

/-- The access is accepted: a read or atomic is performed in this cycle and its word completes; a write or reduction
is admitted and lands later (R268). -/
def State.swAccept (s : State) (r : SwReq) (out : State × List (Nat × Elem)) : State :=
  if r.op.reads then
    let alone : Bool := match (s.group? r.team r.group).bind (fun g => g.waiter r.id) with
      | some (c, _) => decide (c.wait = .reply r.id none)
      | none => true
    let r' := { r with replies := out.2, stage := if alone then 2 else 1 }
    (out.1.putSwreq r').reply r.team r.group r.id 1 (fun s => s.swCounts r')
  else s.putSwreq { r with stage := 1 }

/-- The group's flag has room for one more (R174). -/
def State.flagRoom (s : State) (r : SwReq) : Bool :=
  match r.flag, s.group? r.team r.group with
  | some f, some g => decide (g.flags.getD f 0 < 63)
  | _, _ => true

/-- The poisoned elements that the lanes of a reader receive where its way is down (R347, R351). -/
def SwReq.poisoned (r : SwReq) : List (Nat × Elem) := r.lanes.map (fun ln => (ln.1, ⟨0, false, .uncorrectable⟩))

/-- An access whose way is down (R347, R351): a reader's lanes receive poisoned elements, a writer's barrier records
POISON, with FINFO 0, since R110 gives a swatch write no source (DESIGN CHOICE, log entry 152). -/
def State.swPoison (s : State) (r : SwReq) : State :=
  if r.op.reads then s.swAccept r (s, r.poisoned)
  else (s.dropSwreq r.id).modBar r.team r.bar (fun b => (b.note codePoison 0).leave 4)

/-- The dies that an access of a team crosses to its home die. -/
def State.swLine (s : State) (r : SwReq) : List Nat :=
  s.wayTo (((s.team? r.team).map (fun t => t.part)).getD 0) r.core (homeOfHandle r.handle)

/-- How the way of an access to its home die stands. DESIGN CHOICE (log entry 154): R342 hashes the address of a memory line; what
goes to a swatch takes the channel of the same hash of its handle. -/
def State.swWay (s : State) (r : SwReq) : Way :=
  s.dieWay (((s.team? r.team).map (fun t => t.part)).getD 0) (lineChannel r.handle) (s.swLine r)

/-- An access has crossed the links to its home die, and its reply those back (R342). -/
def State.swCarry (s : State) (r : SwReq) : State := s.carry (lineChannel r.handle) (s.swLine r)

/-- R48, R81: an earlier access of the same source to the same row goes first: for a read only one that writes. -/
def State.swBehind (s : State) (r : SwReq) : Bool :=
  s.swreqs.any (fun q => decide (q.id < r.id) && decide (q.core = r.core) && decide (q.team = r.team) &&
    decide (q.group = r.group) && decide (q.handle = r.handle) && decide (q.row = r.row) && decide (q.stage < 2) &&
    !(r.op.reads && q.op.reads))

/-- R88, R268: an admitted write or reduction lands at the owner's rows, arrives on the export barrier, and its
sectors leave the writer's. -/
def execSwatchLanding (req : Nat) (s : State) : Host.Outcome State Fault Refusal :=
  match s.swreq? req with
  | none => .next s
  | some r =>
    if r.stage ≠ 1 ∨ r.op.reads = true ∨ s.swBehind r = true then .next s
    else match s.swFind r.handle with
      | some e =>
        if r.module = s.regs.modid then
          if s.swReleased r e.scope = false then .next s
          else .next (((s.swPerform r e).1.dropSwreq r.id).modBar r.team r.bar (fun b => b.leave 4))
        else .next ((s.dropSwreq r.id).modBar r.team r.bar (fun b => b.leave 4))
      | none => .next ((s.dropSwreq r.id).modBar r.team r.bar (fun b => b.leave 4))

/-- R268, R40 rule 5: the data of an accepted read or atomic lands; an element that arrives without data keeps what it
holds, and a lane whose element was uncorrectable dies (R360). -/
def execSwatchReplyLanding (req : Nat) (s : State) : Host.Outcome State Fault Refusal :=
  match s.swreq? req with
  | none => .next s
  | some r =>
    if r.stage ≠ 2 ∨ r.op.reads = false then .next s
    else
      let bad := (r.replies.filter (fun e => decide (e.2.ecc = .uncorrectable))).map (fun e => e.1)
      let s1 := match s.group? r.team r.group with
        | some g => (r.replies.filter (fun (e : Nat × Elem) => e.2.valid)).foldl
            (fun (s : State) (e : Nat × Elem) => s.putElem r.core (g.vecRow r.dst) e.1 (Elem.of e.2.val)) s
        | none => s
      let s2 := (s1.lanesDie r.team r.group bad).lowerFlag r.team r.group r.flag
      .next ((if r.op.isAtom then s2.modBar r.team r.bar (fun b => b.leave 4) else s2).dropSwreq r.id)

end Sys2Proof.Machine
end

