-- ==== Sys2Proof/Machine/Asked.lean ====
section
/-! DEFINITION. What becomes of the requests of words that ask (a `bump` R155, the outliers of a `cvt` R199, a swatch access
R51, R268): by itself such a request takes effect where it goes; in a chain it may only ask, or take effect together with another word's
(R182). -/

namespace Sys2Proof.Machine

open Sys2Proof

/-! ## Whether a request would trap -/

/-- R199: the list has no room for the records of a request. -/
def State.listFull (s : State) (p : Piece) : Bool :=
  match p.accs with
  | [] => false
  | a :: _ => !s.poisoned a.pa && decide (s.readMem p.tag (a.pa - 4) 4 < s.readMem p.tag a.pa 4 + p.accs.length)

/-- R155: the pool of a `bump` is malformed. -/
def State.poolBad (s : State) (p : Piece) : Bool :=
  match p.accs with
  | [] => false
  | a :: _ => !s.poisoned a.pa && !(poolOf (s.readMem p.tag a.pa 32)).ok

/-- The lanes of a request's accesses. -/
def Piece.lanes (p : Piece) : List Nat := p.accs.flatMap (fun a => a.outs)

/-- TRAP_OLIST of a full list (R199), TRAP_SHAPE of a malformed pool (R155). -/
def State.askedTrap (s : State) (r : Req) (p : Piece) : Option (Nat × Nat) :=
  match r.kind with
  | .olist => if s.listFull p then some (0x12, info43 0 0 1 0 (lanesMask p.lanes)) else none
  | .bump => if s.poolBad p then some (0x0C, info43 0 1 13 0 0) else none
  | _ => none

/-- The request is applied where it goes. -/
def State.askedApply (s : State) (r : Req) (p : Piece) : State × Piece :=
  match r.kind with
  | .olist => s.listAtomic r p
  | .bump => s.bumpAtomic r p
  | _ => (s, p)

/-! ## The request that waits for another word's, R182 -/

/-- How it stands with the request of a chain that has been checked and takes effect together with a later one: there is none, it
cannot take effect yet, its word traps after all, or the state in which it has taken effect. -/
inductive Partner where
  | none
  | wait
  | trap (code info : Nat)
  | go (s : State)

/-- The answered requests of the chain that waits for a request. -/
def State.answersFor (s : State) (team n id : Nat) : List Nat :=
  match (s.group? team n).bind (fun g => g.waiter id) with
  | some (c, _) => match c.wait with
    | .reply _ (some l) => l
    | _ => []
  | none => []

/-- A checked request of memory takes effect: its reply has come with it, and lanes that a poisoned one reaches die (R360). -/
def State.reqPartner (s : State) (q : Req) : Partner :=
  match q.pieces with
  | [] => .none
  | p :: _ => match s.askedTrap q p with
    | some (code, info) => .trap code info
    | none =>
      let r : Req := { q with probe := .none }
      let (s1, p1) := s.askedApply r p
      let s2 := s1.putReq (r.putPiece 0 { p1 with landed := true })
      .go (if p1.poisoned then s2.lanesDie r.team r.group p.lanes else s2)

/-- What a swatch access meets at the home die of its handle or on its way there: the code of R110, 0 when it is admitted. -/
def State.swCode (s : State) (r : SwReq) : Nat := s.swDecide r.handle r.row 1 r.team r.core (r.op = .st) r.op.isAtom

/-- R80, R81: a read or an atomic is performed when it is admitted: after its slices' earlier writes to the row, and an atomic, which
counts an arrival, once what precedes it is performed (R89). -/
def State.swReady (s : State) (r : SwReq) : Bool :=
  !r.op.reads || (!s.swBehind r && (!r.op.isAtom || (match s.swFind r.handle with
    | some e => s.swReleased r e.scope
    | none => true)))

/-- The trap of a refused reader (R51). -/
def SwReq.trap (r : SwReq) (code : Nat) : Nat × Nat :=
  ((swTrap code).1, info43 3 0 (swTrap code).2 r.row (lanesMask (r.lanes.map (fun ln => ln.1))))

/-- A checked swatch access takes effect: it is admitted as if its word stood alone, and the chain completes its word. -/
def State.swPartner (s : State) (q : SwReq) : Partner :=
  let done := fun (x : State × List (Nat × Elem)) => Partner.go (x.1.putSwreq { q with probe := .none, replies := x.2, stage := 1 })
  if q.module ≠ s.regs.modid then
    let (s1, _, els) := s.swFar q
    done (s1, els)
  else match s.swWay q with
  | .held => .wait
  | .dead => done (s, q.poisoned)
  | .go =>
    let code := s.swCode q
    match s.swFind q.handle with
    | some e =>
      if code ≠ 0 then .trap (q.trap code).1 (q.trap code).2
      else if s.swReady q = false then .wait
      else done (s.swPerform q e)
    | none => .trap (q.trap code).1 (q.trap code).2

/-- The checked request of memory, or of a swatch, that takes effect together with a request. -/
def State.parkedReq (s : State) (team n id : Nat) : Option Req :=
  s.reqs.find? (fun q => (s.answersFor team n id).contains q.id && decide (q.probe = .park))

def State.parkedSwreq (s : State) (team n id : Nat) : Option SwReq :=
  s.swreqs.find? (fun q => (s.answersFor team n id).contains q.id && decide (q.probe = .park))

/-- R182: the request that takes effect together with this one. -/
def State.partner (s : State) (team n id : Nat) : Partner :=
  match s.parkedReq team n id with
  | some q => s.reqPartner q
  | none => match s.parkedSwreq team n id with
    | some q => s.swPartner q
    | none => .none

/-- What a request brings about, in the state in which its partner has taken effect: nothing while that must wait, and the trap of that
word, which stands before its own, where it traps. -/
def State.withPartner (s : State) (team n id : Nat) (act : State → State) : State :=
  match s.partner team n id with
  | .none => act s
  | .wait => s
  | .trap code info => s.replyTrap team n id code info
  | .go s1 => act s1

/-- The same for a request whose own word traps: its partner takes no effect. -/
def State.unlessPartner (s : State) (team n id : Nat) (act : State → State) : State :=
  match s.partner team n id with
  | .trap code info => s.replyTrap team n id code info
  | _ => act s

/-! ## Requests of memory: OUTLIER_LIST_REQUEST, OUTLIER_REPLY (R199), BUMP_APPLY (R155) -/

/-- A request of a word that asks is applied: one that only asks takes nothing. -/
def State.askedAt (s : State) (r : Req) (p : Piece) : State :=
  let act := fun (s : State) =>
    let (s1, q) := s.askedApply r p
    s1.putReq (r.putPiece 0 q)
  if r.probe ≠ .none then act s
  else if (s.askedTrap r p).isSome then s.unlessPartner r.team r.group r.id act
  else s.withPartner r.team r.group r.id act

/-- R199: the request is applied. -/
def execOutlierListRequest (req : Nat) (s : State) : Host.Outcome State Fault Refusal :=
  match s.piece? req 0 with
  | none => .next s
  | some (r, p) => if r.kind ≠ .olist ∨ s.ripe r p = false then .next s else .next (s.askedAt r p)

/-- R155: the request is applied. -/
def execBumpApply (req : Nat) (s : State) : Host.Outcome State Fault Refusal :=
  match s.piece? req 0 with
  | none => .next s
  | some (r, p) => if r.kind ≠ .bump ∨ s.ripe r p = false then .next s else .next (s.askedAt r p)

/-- A reply by which the request's word does not trap: it completes; or the request has only asked, and the trap of a later word is
taken, or the chain goes on and the request waits for another word's (R182). -/
def State.askedReply (s : State) (r : Req) (act : State → State) : State :=
  match r.probe with
  | .later tr f => s.laterTrap r.team r.group r.id tr f
  | .park => s.answer r.team r.group r.id
  | .none => act s

/-- R199: the reply. The conversion completes, in the lanes of a poisoned reply not (R360), or traps on a full list. -/
def execOutlierReply (req : Nat) (s : State) : Host.Outcome State Fault Refusal :=
  match s.piece? req 0 with
  | none => .next s
  | some (r, p) =>
    let room := decide ((p.accs.headD ⟨[], 0, 0, 0, 0, 0, 0⟩).reply = 1)
    if r.kind ≠ .olist ∨ r.canLand p = false then .next s
    else
      let r' := r.putPiece 0 { p with landed := true }
      let s1 := s.putReq r'
      if room = false ∧ p.poisoned = false then
        .next (s1.replyTrap r.team r.group r.id 0x12 (info43 0 0 1 0 (lanesMask p.lanes)))
      else .next (s1.askedReply r (fun s =>
        State.reply (if p.poisoned then s.lanesDie r.team r.group p.lanes else s) r.team r.group r.id 2 (fun s => s.cvtEffect r')))

/-- R155: the reply of a `bump`. -/
def State.bumpReply (s : State) (r : Req) (p : Piece) : State :=
  let s1 := s.putReq (r.putPiece 0 { p with landed := true })
  if p.poisoned = false ∧ p.accs.any (fun a => a.y == 2) = true then s1.replyTrap r.team r.group r.id 0x0C (info43 0 1 13 0 0)
  else s1.askedReply r (fun s =>
    if p.poisoned then State.reply (s.lanesDie r.team r.group p.lanes) r.team r.group r.id 1 (fun s => s)
    else s.reply r.team r.group r.id 1 (fun s => s.bumpEffect r))

/-- R264, R155: the reply of an atomic or of a `bump` lands. -/
def execAtomicReplyLanding (req i : Nat) (s : State) : Host.Outcome State Fault Refusal :=
  match s.piece? req i with
  | none => .next s
  | some (r, p) =>
    if r.canLand p = false then .next s
    else match r.kind with
    | .atom _ _ => .next (s.landed r i p)
    | .bump => .next (s.bumpReply r p)
    | _ => .next s

/-! ## SWATCH_ACCESS_ARRIVAL, R51 -/

/-- The access is refused; a reader's trap gives way to that of the request that takes effect with it. -/
def State.swTurned (s : State) (r : SwReq) (code : Nat) : State :=
  if r.op.reads = true ∧ r.probe = .none then s.unlessPartner r.team r.group r.id (fun s => s.swRefuse r code) else s.swRefuse r code

/-- The access is not refused: it is accepted, or has only asked (R182). -/
def State.swPasses (s : State) (r : SwReq) (act : State → State) : State :=
  match r.probe with
  | .later tr f => (s.dropSwreq r.id).laterTrap r.team r.group r.id tr f
  | .park => (s.putSwreq { r with stage := 4 }).answer r.team r.group r.id
  | .none => if r.op.reads then s.withPartner r.team r.group r.id act else act s

/-- R51: an access reaches the home die of its handle. -/
def execSwatchAccessArrival (req : Nat) (s : State) : Host.Outcome State Fault Refusal :=
  match s.swreq? req with
  | none => .next s
  | some r =>
    if r.stage ≠ 0 ∨ s.flagRoom r = false then .next s
    else if r.module ≠ s.regs.modid then
      if s.moduleExists r.module = false then .next (s.swTurned r swStale)
      else if r.port.isNone then .next s
      else if fld r.handle 0 16 ≠ 1 then .next (s.swTurned r swStale)
      else
        let (s1, code, els) := s.swFar r
        .next (if code ≠ 0 then s1.swTurned r code else s1.swPasses r (fun s => s.swAccept r (s, els)))
    else match s.swWay r with
    | .held => .next s
    | .dead => .next (s.swPasses r (fun s => s.swPoison r))
    | .go => match s.swFind r.handle with
      | some e =>
        if s.swCode r ≠ 0 then .next ((s.swCarry r).swTurned r (s.swCode r))
        else if r.probe = .none ∧ s.swReady r = false then .next s
        else .next ((s.swCarry r).swPasses r (fun s => s.swAccept r (if r.op.reads then s.swPerform r e else (s, []))))
      | none => .next ((s.swCarry r).swTurned r (s.swCode r))

end Sys2Proof.Machine
end

