-- ==== Sys2Proof/Machine/Trans.lean ====
section
/-! DEFINITION. The transcendentals of R247. Where the table gives an exact result or a special operand, that is
the result. Elsewhere the spec gives a bound and no value: the result is a free value (`Config.transBits`, log
entry 8) where that value keeps the bound, and else the exact value rounded to nearest, which keeps it. The exact
value is taken from series in fixed point with 400 bits, far below any bound. -/

namespace Sys2Proof.Machine

open Sys2Proof

/-! ## Fixed point with 400 fraction bits -/

def fixOne : Int := 2 ^ 400
def fixLn2 : Int :=
  0xb17217f7d1cf79abc9e3b39803f2f6af40f343267298b62d8a0d175b8baafa2be7b876206debac98559552fb4afa1b10ed2e
def fixPi : Int :=
  0x3243f6a8885a308d313198a2e03707344a4093822299f31d0082efa98ec4e6c89452821e638d01377be5466cf34e90c6cc0ac
def fix2RtPi : Int :=
  0x120dd750429b6d11ae3a914fed7fd8688281341d7587cea2e7342b06199cc416180eb39f0b24e1e2281806c12d98f35d77a3e

def fixMul (a b : Int) : Int := a * b / fixOne

/-- A fraction in fixed point. -/
def fixOf (neg : Bool) (n d : Nat) : Int := (if neg then -(n : Int) else n) * fixOne / d

/-- e^f for a small f: the Taylor sum from its last term. -/
def fixExp (f : Int) : Int := (List.range 90).foldr (fun (k : Nat) (acc : Int) => fixOne + fixMul f acc / ((k : Int) + 1)) fixOne

/-- e^x as a fixed-point number times 2^k, for |x| below 2^8. -/
def fixExp2k (x : Int) : Int × Int := (fixExp (x - x / fixLn2 * fixLn2), x / fixLn2)

/-- A signed value `v · 2^k / 2^400` as a sign and a fraction. -/
def fracOf (v k : Int) : Bool × Nat × Nat :=
  (decide (v < 0), v.natAbs * (scale2 1 (k - 400)).1, (scale2 1 (k - 400)).2)

/-- ln m for m in [1, 2): 2 · artanh ((m − 1) / (m + 1)). -/
def fixLn (m : Int) : Int :=
  let z := (m - fixOne) * fixOne / (m + fixOne)
  let z2 := fixMul z z
  2 * fixMul z ((List.range 130).foldr (fun (k : Nat) (acc : Int) => fixOne / (2 * (k : Int) + 1) + fixMul z2 acc) 0)

/-- The sum of x^(2k+s) (−1)^k / (2k+s)! over k. -/
def fixCirc (s : Nat) (x : Int) : Int :=
  let x2 := fixMul x x
  let sum := (List.range 90).foldr (fun (k : Nat) (acc : Int) => fixOne - fixMul x2 acc / ((2 * (k : Int) + s + 1) * (2 * (k : Int) + s + 2))) fixOne
  if s = 0 then sum else fixMul x sum

/-- erf x for |x| below 4: the Taylor sum. -/
def fixErf (x : Int) : Int :=
  let x2 := fixMul x x
  let sum := (List.range 150).foldr (fun (k : Nat) (acc : Int) =>
    fixOne / (2 * (k : Int) + 1) - fixMul x2 acc / ((k : Int) + 1)) 0
  fixMul fix2RtPi (fixMul x sum)

/-- A fraction held to at most `b`: beyond it a function of R247 no longer changes within the grid. -/
def fixClamp (b : Nat) (neg : Bool) (n d : Nat) : Int := if b * d < n then (if neg then -(b : Int) else b) * fixOne else fixOf neg n d

/-- The exact value of function `op` of R247 at a finite operand, as a sign and a fraction. -/
def transExact (op : Nat) (neg : Bool) (n d : Nat) : Bool × Nat × Nat :=
  match op with
  | 0 => (neg, d, n)
  | 1 => (false, isqrt (d * 2 ^ 800 / n), 2 ^ 400)
  | 3 =>
    let x := fixClamp 1000 neg n d
    fracOf (fixExp (fixMul (x - x / fixOne * fixOne) fixLn2)) (x / fixOne)
  | 4 =>
    let e := floorLog n d
    let m := (n * (scale2 1 (-e)).1 : Nat) * fixOne / (d * (scale2 1 (-e)).2 : Nat)
    fracOf (fixLn m * fixOne / fixLn2 + e * fixOne) 0
  | 5 => fracOf (fixCirc 1 (fixMul fixPi (fixOf neg (n % (2 * d)) d))) 0
  | 6 => fracOf (fixCirc 0 (fixMul fixPi (fixOf neg (n % (2 * d)) d))) 0
  | 7 =>
    let t := fixExp2k (2 * fixClamp 64 neg n d)
    let a := if 0 ≤ t.2 then t.1 * 2 ^ t.2.toNat else t.1 / 2 ^ (-t.2).toNat
    fracOf ((a - fixOne) * fixOne / (a + fixOne)) 0
  | 8 =>
    let t := fixExp2k (fixClamp 128 neg n d)
    let a := if 0 ≤ t.2 then t.1 * 2 ^ t.2.toNat else t.1 / 2 ^ (-t.2).toNat
    fracOf (a * fixOne / (a + fixOne)) 0
  | _ =>
    if 4 * d ≤ n then (neg, 2 ^ 27 - 1, 2 ^ 27) else fracOf (fixErf (fixOf neg n d)) 0

/-- The bound of R247 on the error of function `op`, as a fraction: so many ulp at the exact value, for `sinpi` and
`cospi` at least 2^-24. -/
def transBound (op : Nat) (n d : Nat) : Nat × Nat :=
  let u := scale2 (if op ≤ 1 then 1 else 2) (fp32.quantum n d)
  if (op = 5 ∨ op = 6) ∧ u.1 * 2 ^ 24 < u.2 then (1, 2 ^ 24) else u

/-- Whether an FP32 code keeps the bound. -/
def transKeeps (op : Nat) (e : Bool × Nat × Nat) (code : Nat) : Bool :=
  match fp32.val code with
  | .fin neg n d =>
    let a : Int := (if neg then -(n : Int) else n) * e.2.2
    let b : Int := (if e.1 then -(e.2.1 : Int) else e.2.1) * d
    let u := transBound op e.2.1 e.2.2
    -- |n/d − e| ≤ u
    decide ((a - b).natAbs * u.2 ≤ u.1 * (d * e.2.2))
  | _ => false

/-- The result at a finite operand at which the table gives no exact result: a free value within the bound; where the exact value
lies beyond FP32, an infinity stands for the grid values there (DEDUCED, log entry 143). -/
def transFree (op : Nat) (flush : Bool) (x : Word) (neg : Bool) (n d : Nat) : Nat :=
  let e := transExact op neg n d
  let free := (Config.transBits op flush x).toNat
  let mid := fp32.round 0 e.1 e.2.1 e.2.2
  if transKeeps op e free = true then free else if fp32.top < mid then fp32.infinity e.1 else fp32.sign e.1 mid

/-- Exact results and special operands of a finite operand (R247). -/
def transFin (op : Nat) (flush : Bool) (x : Word) (neg : Bool) (n d : Nat) : Nat :=
  let nan := fp32.canonNan
  let one := 0x3F800000
  let free := transFree op flush x neg n d
  match op with
  | 0 =>
    if n = 0 then fp32.infinity neg
    else
      let r := fp32.round 1 neg d n
      if r ≤ fp32.top ∧ (fp32.magVal r).1 * n = d * (fp32.magVal r).2 then fp32.sign neg r else free
  | 1 =>
    if n = 0 then fp32.infinity neg
    else if neg then nan
    else
      let e := transExact 1 neg n d
      let r := fp32.round 0 false e.2.1 e.2.2
      let v := fp32.magVal r
      if v.1 * v.1 * n = v.2 * v.2 * d then r else free
  | 2 => if n = 0 then fp32.sign neg 0 else if neg then nan else fp32.sqrtRne n d
  | 3 =>
    if neg = false ∧ 128 * d ≤ n then fp32.infinity false
    else if n % d = 0 ∧ (neg = false ∨ n ≤ 149 * d) then
      let v := scale2 1 (if neg then -((n / d : Nat) : Int) else (n / d : Nat))
      fp32.round 0 false v.1 v.2
    else free
  | 4 =>
    if n = 0 then fp32.infinity true
    else if neg then nan
    else
      let e := floorLog n d
      if n * (scale2 1 e).2 = d * (scale2 1 e).1 then fp32.sign (decide (e < 0)) (fp32.round 0 false e.natAbs 1) else free
  | 5 =>
    if n % d = 0 then fp32.sign neg 0
    else if 2 * n % d = 0 then fp32.sign (neg != decide (n / d % 2 = 1)) one
    else free
  | 6 =>
    if n % d = 0 then fp32.sign (decide (n / d % 2 = 1)) one
    else if 2 * n % d = 0 then 0
    else free
  | 8 => if n = 0 then 0x3F000000 else free
  | _ => if n = 0 then fp32.sign neg 0 else free

/-- The result at an infinity (R247). -/
def transInf (op : Nat) (neg : Bool) : Nat :=
  let one := 0x3F800000
  match op with
  | 0 => fp32.sign neg 0
  | 1 => if neg then fp32.canonNan else 0
  | 2 => if neg then fp32.canonNan else fp32.infinity false
  | 3 => if neg then 0 else fp32.infinity false
  | 4 => if neg then fp32.canonNan else fp32.infinity false
  | 5 => fp32.canonNan
  | 6 => fp32.canonNan
  | 8 => if neg then 0 else one
  | _ => fp32.sign neg one

/-- R247: function `op` of an operand under MODE, of which only FLUSH applies. -/
def trans (op mode : Nat) (x : Word) : Word :=
  BitVec.ofNat 32 (match fp32.operand mode x.toNat with
  | .nan => fp32.canonNan
  | .inf neg => transInf op neg
  | .fin neg n d => fp32.flush mode (transFin op (flushOf mode) x neg n d))

end Sys2Proof.Machine
end

