-- ==== Sys2Proof/Machine/Vector.lean ====
section
/-! DEFINITION. Vector integer words, majors 00100 and 00101 (R238, R239). -/

namespace Sys2Proof.Machine

open Sys2Proof

/-- `D[L] ← f A[L] B[L]` in every live active lane; B a row, or with BS = 1 a scalar (R235). -/
def vec2 (s : State) (d a bs b : Nat) (f : Word → Word → Word) : Host.Outcome State Fault Refusal :=
  direct s [rdV a 0, rdB bs b, wrV d] 1 (fun c s => s.putRow c d (fun l => f (c.vec a l) (c.opB bs b l)))

/-- `D[L] ← f A[L] i`. -/
def vecI (s : State) (d a : Nat) (i : Imm) (v : Word) (f : Word → Word → Word) : Host.Outcome State Fault Refusal :=
  direct s [rdV a 0, wrV d] (immSlots i) (fun c s => s.putRow c d (fun l => f (c.vec a l) v))

/-- R238, OP 0. -/
def execVAddN32 (_c : Bool) (d a bs b : Nat) (s : State) : Host.Outcome State Fault Refusal := vec2 s d a bs b addW

/-- R238, OP 1. -/
def execVSubN32 (_c : Bool) (d a bs b : Nat) (s : State) : Host.Outcome State Fault Refusal := vec2 s d a bs b subW

/-- R238, OP 2. -/
def execVMulN32 (_c : Bool) (d a bs b : Nat) (s : State) : Host.Outcome State Fault Refusal := vec2 s d a bs b mulW

/-- R238, OP 3. -/
def execVMulhiN32 (_c : Bool) (d a bs b : Nat) (s : State) : Host.Outcome State Fault Refusal := vec2 s d a bs b mulhiN

/-- R238, OP 4. -/
def execVMulhiS32 (_c : Bool) (d a bs b : Nat) (s : State) : Host.Outcome State Fault Refusal := vec2 s d a bs b mulhiS

/-- R238, OP 5. -/
def execVAndB32 (_c : Bool) (d a bs b : Nat) (s : State) : Host.Outcome State Fault Refusal := vec2 s d a bs b andW

/-- R238, OP 6. -/
def execVOrB32 (_c : Bool) (d a bs b : Nat) (s : State) : Host.Outcome State Fault Refusal := vec2 s d a bs b orW

/-- R238, OP 7. -/
def execVXorB32 (_c : Bool) (d a bs b : Nat) (s : State) : Host.Outcome State Fault Refusal := vec2 s d a bs b xorW

/-- R238, OP 8. -/
def execVShlB32 (_c : Bool) (d a bs b : Nat) (s : State) : Host.Outcome State Fault Refusal := vec2 s d a bs b shlW

/-- R238, OP 9. -/
def execVShrN32 (_c : Bool) (d a bs b : Nat) (s : State) : Host.Outcome State Fault Refusal := vec2 s d a bs b shrN

/-- R238, OP 10. -/
def execVShrS32 (_c : Bool) (d a bs b : Nat) (s : State) : Host.Outcome State Fault Refusal := vec2 s d a bs b shrS

/-- R238, OP 11. -/
def execVMinN32 (_c : Bool) (d a bs b : Nat) (s : State) : Host.Outcome State Fault Refusal := vec2 s d a bs b minN

/-- R238, OP 12. -/
def execVMinS32 (_c : Bool) (d a bs b : Nat) (s : State) : Host.Outcome State Fault Refusal := vec2 s d a bs b minS

/-- R238, OP 13. -/
def execVMaxN32 (_c : Bool) (d a bs b : Nat) (s : State) : Host.Outcome State Fault Refusal := vec2 s d a bs b maxN

/-- R238, OP 14. -/
def execVMaxS32 (_c : Bool) (d a bs b : Nat) (s : State) : Host.Outcome State Fault Refusal := vec2 s d a bs b maxS

/-- R238, OP 15. -/
def execVAddsatS32 (_c : Bool) (d a bs b : Nat) (s : State) : Host.Outcome State Fault Refusal := vec2 s d a bs b addsatS

/-- R239, OP 0. -/
def execViAddN32 (_c : Bool) (d a : Nat) (i : Imm) (s : State) : Host.Outcome State Fault Refusal := vecI s d a i (immS7 i) addW

/-- R239, OP 1. -/
def execViSubN32 (_c : Bool) (d a : Nat) (i : Imm) (s : State) : Host.Outcome State Fault Refusal := vecI s d a i (immS7 i) subW

/-- R239, OP 2. -/
def execViMulN32 (_c : Bool) (d a : Nat) (i : Imm) (s : State) : Host.Outcome State Fault Refusal := vecI s d a i (immS7 i) mulW

/-- R239, OP 3. -/
def execViMulhiN32 (_c : Bool) (d a : Nat) (i : Imm) (s : State) : Host.Outcome State Fault Refusal := vecI s d a i (immZ i) mulhiN

/-- R239, OP 4. -/
def execViMulhiS32 (_c : Bool) (d a : Nat) (i : Imm) (s : State) : Host.Outcome State Fault Refusal := vecI s d a i (immS7 i) mulhiS

/-- R239, OP 5. -/
def execViAndB32 (_c : Bool) (d a : Nat) (i : Imm) (s : State) : Host.Outcome State Fault Refusal := vecI s d a i (immZ i) andW

/-- R239, OP 6. -/
def execViOrB32 (_c : Bool) (d a : Nat) (i : Imm) (s : State) : Host.Outcome State Fault Refusal := vecI s d a i (immZ i) orW

/-- R239, OP 7. -/
def execViXorB32 (_c : Bool) (d a : Nat) (i : Imm) (s : State) : Host.Outcome State Fault Refusal := vecI s d a i (immZ i) xorW

/-- R239, OP 8. -/
def execViShlB32 (_c : Bool) (d a : Nat) (i : Imm) (s : State) : Host.Outcome State Fault Refusal := vecI s d a i (immZ i) shlW

/-- R239, OP 9. -/
def execViShrN32 (_c : Bool) (d a : Nat) (i : Imm) (s : State) : Host.Outcome State Fault Refusal := vecI s d a i (immZ i) shrN

/-- R239, OP 10. -/
def execViShrS32 (_c : Bool) (d a : Nat) (i : Imm) (s : State) : Host.Outcome State Fault Refusal := vecI s d a i (immZ i) shrS

/-- R239, OP 11. -/
def execViMinN32 (_c : Bool) (d a : Nat) (i : Imm) (s : State) : Host.Outcome State Fault Refusal := vecI s d a i (immZ i) minN

/-- R239, OP 12. -/
def execViMinS32 (_c : Bool) (d a : Nat) (i : Imm) (s : State) : Host.Outcome State Fault Refusal := vecI s d a i (immS7 i) minS

/-- R239, OP 13. -/
def execViMaxN32 (_c : Bool) (d a : Nat) (i : Imm) (s : State) : Host.Outcome State Fault Refusal := vecI s d a i (immZ i) maxN

/-- R239, OP 14. -/
def execViMaxS32 (_c : Bool) (d a : Nat) (i : Imm) (s : State) : Host.Outcome State Fault Refusal := vecI s d a i (immS7 i) maxS

end Sys2Proof.Machine
end

