-- ==== Sys2Proof/Machine/FloatWords.lean ====
section
/-! DEFINITION. Floating words, majors 00110 and 00111 (R240 to R242), and the transcendentals, major 01010 (R247). -/

namespace Sys2Proof.Machine

open Sys2Proof

/-- `D[L] ← f A[L] B[L]` under MODE. -/
def float2 (s : State) (d a bs b : Nat) (f : Nat → Word → Word → Word) : Host.Outcome State Fault Refusal :=
  direct s [rdV a 0, rdB bs b, wrV d] 1 (fun c s => s.putRow c d (fun l => f c.g.mode (c.vec a l) (c.opB bs b l)))

/-- `D[L] ← f A[L] B[L] D[L]` under MODE: D is read too (R241). -/
def float3 (s : State) (d a bs b : Nat) (f : Nat → Word → Word → Word → Word) : Host.Outcome State Fault Refusal :=
  direct s [rdV a 0, rdB bs b, ⟨.v d, 2, true, true⟩] 1
    (fun c s => s.putRow c d (fun l => f c.g.mode (c.vec a l) (c.opB bs b l) (c.vec d l)))

/-- `D[L] ← f A[L]` under MODE. -/
def float1 (s : State) (d a : Nat) (f : Nat → Word → Word) : Host.Outcome State Fault Refusal :=
  direct s [rdV a 0, wrV d] 1 (fun c s => s.putRow c d (fun l => f c.g.mode (c.vec a l)))

/-- The sign of y on the rest of x. -/
def copySign (x y : Word) : Word := (x &&& 0x7FFFFFFF#32) ||| (y &&& 0x80000000#32)

/-- R240, OP 0. -/
def execFaddF32 (_c : Bool) (d a bs b : Nat) (s : State) : Host.Outcome State Fault Refusal := float2 s d a bs b (fun m => word2 (fp32.fadd m))

/-- R240, OP 1. -/
def execFsubF32 (_c : Bool) (d a bs b : Nat) (s : State) : Host.Outcome State Fault Refusal := float2 s d a bs b (fun m => word2 (fp32.fsub m))

/-- R240, OP 2. -/
def execFmulF32 (_c : Bool) (d a bs b : Nat) (s : State) : Host.Outcome State Fault Refusal := float2 s d a bs b (fun m => word2 (fp32.fmul m))

/-- R240, OP 3. -/
def execFminF32 (_c : Bool) (d a bs b : Nat) (s : State) : Host.Outcome State Fault Refusal := float2 s d a bs b (fun m => word2 (fp32.minmax false m))

/-- R240, OP 4. -/
def execFmaxF32 (_c : Bool) (d a bs b : Nat) (s : State) : Host.Outcome State Fault Refusal := float2 s d a bs b (fun m => word2 (fp32.minmax true m))

/-- R240, OP 5: a bit operation. -/
def execFabsF32 (_c : Bool) (d a : Nat) (s : State) : Host.Outcome State Fault Refusal := float1 s d a (fun _ x => x &&& 0x7FFFFFFF#32)

/-- R240, OP 6: a bit operation. -/
def execFnegF32 (_c : Bool) (d a : Nat) (s : State) : Host.Outcome State Fault Refusal := float1 s d a (fun _ x => x ^^^ 0x80000000#32)

/-- R240, OP 7: a bit operation. -/
def execFcpsgnF32 (_c : Bool) (d a bs b : Nat) (s : State) : Host.Outcome State Fault Refusal := float2 s d a bs b (fun _ => copySign)

/-- R241: A·B + D. -/
def execFmaF32 (_c : Bool) (d a bs b : Nat) (s : State) : Host.Outcome State Fault Refusal := float3 s d a bs b (fun m => word3 (fp32.fma false m))

/-- R241: D − A·B. -/
def execFnmaF32 (_c : Bool) (d a bs b : Nat) (s : State) : Host.Outcome State Fault Refusal := float3 s d a bs b (fun m => word3 (fp32.fma true m))

/-- R242. -/
def execFaddF16 (_c : Bool) (d a bs b : Nat) (s : State) : Host.Outcome State Fault Refusal := float2 s d a bs b (fun m => halves2 (fp16.fadd m))

/-- R242. -/
def execFsubF16 (_c : Bool) (d a bs b : Nat) (s : State) : Host.Outcome State Fault Refusal := float2 s d a bs b (fun m => halves2 (fp16.fsub m))

/-- R242. -/
def execFmulF16 (_c : Bool) (d a bs b : Nat) (s : State) : Host.Outcome State Fault Refusal := float2 s d a bs b (fun m => halves2 (fp16.fmul m))

/-- R242. -/
def execFmaF16 (_c : Bool) (d a bs b : Nat) (s : State) : Host.Outcome State Fault Refusal := float3 s d a bs b (fun m => halves3 (fp16.fma false m))

/-- R242. -/
def execFminF16 (_c : Bool) (d a bs b : Nat) (s : State) : Host.Outcome State Fault Refusal := float2 s d a bs b (fun m => halves2 (fp16.minmax false m))

/-- R242. -/
def execFmaxF16 (_c : Bool) (d a bs b : Nat) (s : State) : Host.Outcome State Fault Refusal := float2 s d a bs b (fun m => halves2 (fp16.minmax true m))

/-- R242. -/
def execFaddBf16 (_c : Bool) (d a bs b : Nat) (s : State) : Host.Outcome State Fault Refusal := float2 s d a bs b (fun m => halves2 (bf16.fadd m))

/-- R242. -/
def execFsubBf16 (_c : Bool) (d a bs b : Nat) (s : State) : Host.Outcome State Fault Refusal := float2 s d a bs b (fun m => halves2 (bf16.fsub m))

/-- R242. -/
def execFmulBf16 (_c : Bool) (d a bs b : Nat) (s : State) : Host.Outcome State Fault Refusal := float2 s d a bs b (fun m => halves2 (bf16.fmul m))

/-- R242. -/
def execFmaBf16 (_c : Bool) (d a bs b : Nat) (s : State) : Host.Outcome State Fault Refusal := float3 s d a bs b (fun m => halves3 (bf16.fma false m))

/-- R242. -/
def execFminBf16 (_c : Bool) (d a bs b : Nat) (s : State) : Host.Outcome State Fault Refusal := float2 s d a bs b (fun m => halves2 (bf16.minmax false m))

/-- R242. -/
def execFmaxBf16 (_c : Bool) (d a bs b : Nat) (s : State) : Host.Outcome State Fault Refusal := float2 s d a bs b (fun m => halves2 (bf16.minmax true m))

/-- R247, OP 0. -/
def execRcpF32 (_c : Bool) (d a : Nat) (s : State) : Host.Outcome State Fault Refusal := float1 s d a (trans 0)

/-- R247, OP 1. -/
def execRsqrtF32 (_c : Bool) (d a : Nat) (s : State) : Host.Outcome State Fault Refusal := float1 s d a (trans 1)

/-- R247, OP 2. -/
def execSqrtF32 (_c : Bool) (d a : Nat) (s : State) : Host.Outcome State Fault Refusal := float1 s d a (trans 2)

/-- R247, OP 3. -/
def execExp2F32 (_c : Bool) (d a : Nat) (s : State) : Host.Outcome State Fault Refusal := float1 s d a (trans 3)

/-- R247, OP 4. -/
def execLog2F32 (_c : Bool) (d a : Nat) (s : State) : Host.Outcome State Fault Refusal := float1 s d a (trans 4)

/-- R247, OP 5. -/
def execSinpiF32 (_c : Bool) (d a : Nat) (s : State) : Host.Outcome State Fault Refusal := float1 s d a (trans 5)

/-- R247, OP 6. -/
def execCospiF32 (_c : Bool) (d a : Nat) (s : State) : Host.Outcome State Fault Refusal := float1 s d a (trans 6)

/-- R247, OP 7. -/
def execTanhF32 (_c : Bool) (d a : Nat) (s : State) : Host.Outcome State Fault Refusal := float1 s d a (trans 7)

/-- R247, OP 8. -/
def execSigmF32 (_c : Bool) (d a : Nat) (s : State) : Host.Outcome State Fault Refusal := float1 s d a (trans 8)

/-- R247, OP 9. -/
def execErfF32 (_c : Bool) (d a : Nat) (s : State) : Host.Outcome State Fault Refusal := float1 s d a (trans 9)

end Sys2Proof.Machine
end

