-- ==== Sys2Proof/Machine/Engine.lean ====
section
/-! DEFINITION. What every engine operation shares: its rows and memory ranges, the locks and conflicts of its issue
(R55 to R57, R104), the translation of its accesses (R330, R144), the faults it records (R110, R332) and its
completion (R55, R106, R109). -/

namespace Sys2Proof.Machine

open Sys2Proof

/-! ## Operations -/

def State.op? (s : State) (id : Nat) : Option Op := s.ops.find? (fun o => o.id == id)
def State.putOp (s : State) (o : Op) : State := { s with ops := s.ops.map (fun p => if p.id == o.id then o else p) }

/-- The operations that count against the core's limit of 64 (R104, R136, R150). -/
def OpKind.counted (k : OpKind) : Bool :=
  match k with
  | .mma => false
  | .mzero => false
  | .mload => false
  | .mstore => false
  | _ => true

/-- How many such operations of a core are outstanding: those of a team whose stop has aborted them are not (R317). -/
def State.opCount (s : State) (core : Nat) : Nat :=
  (s.ops.filter (fun o => o.kind.counted && (match s.team? o.team with
    | some t => t.engaged && decide (t.core = core)
    | none => false))).length

/-- A fresh operation of the issuing candidate. -/
def Ctx.newOp (c : Ctx) (s : State) (kind : OpKind) (bar : Option Nat) (word pool scope total : Nat) (snap : List Nat) : Op :=
  ⟨0, kind, c.t.id, c.g.num, bar, word, pool, scope, snap, [], [], 0, total, 0, 0, [], [], false, s.clk (dieOf c.t.core),
    s.earlier c.t.id c.g.num c.sl 5⟩

/-! ## Rows -/

/-- The core row of a named row: row `d` of the team rows, or of a group's frame. -/
def Team.rowAt (t : Team) (isTeam : Bool) (grp d : Nat) : Nat :=
  if isTeam then t.teamBase + d else ((t.group? grp).map (fun g => g.vecRow d)).getD 0

/-- How many rows the frame or the team rows have. -/
def Team.rowLimit (t : Team) (isTeam : Bool) (grp : Nat) : Nat :=
  if isTeam then t.kernel.trows else ((t.group? grp).map (fun g => g.vrows)).getD 0

/-- A range of rows of an operation: where it lies, its first row, its length, whether it is written, and which
elements of a row are read. -/
structure RowRange where
  isTeam : Bool
  grp : Nat
  d : Nat
  n : Nat
  dest : Bool
  opnd : Nat
  deriving DecidableEq, Repr

def RowRange.space (r : RowRange) : Nat := if r.isTeam then 2 else 0

/-- R43: OPND of the range: 3 for a destination. -/
def RowRange.pos (r : RowRange) : Nat := if r.dest then 3 else r.opnd

/-- R104 check 5, R136 check 5: the range lies inside the rows; ROW is the first that does not. -/
def RowRange.chkBound (r : RowRange) (t : Team) : Option Stop :=
  let limit := t.rowLimit r.isTeam r.grp
  if limit < r.d + r.n then some (.t 0x07 (info43 r.space r.pos 1 (max r.d limit) 0)) else none

/-- R57: the first pending row of the range. -/
def RowRange.chkPend (r : RowRange) (s : State) (t : Team) : Option Stop :=
  if r.isTeam then none
  else ((List.range r.n).find? (fun k => s.rowPending t.id r.grp (r.d + k))).map
    (fun k => .t 0x05 (info43 r.space r.pos 1 (r.d + k) 0))

/-- R56, a new engine operation: the first row of the range whose lock conflicts. -/
def RowRange.chkLock (r : RowRange) (s : State) (t : Team) : Option Stop :=
  ((List.range r.n).find? (fun k =>
    let row := t.rowAt r.isTeam r.grp (r.d + k)
    s.destLocked t.core row || (r.dest && s.srcLocked t.core row))).map (fun k => .t 0x06 (info43 r.space r.pos 4 (r.d + k) 0))

/-- The range as a lock. -/
def RowRange.lock (r : RowRange) (t : Team) : Lock :=
  let row := t.rowAt r.isTeam r.grp r.d
  ⟨t.core, 0, t.id, false, row, row + r.n - 1, r.dest, none⟩

/-- The elements of a row that are not valid, among the given lanes. -/
def State.rowInvalid (s : State) (core row : Nat) (lanes : List Nat) : List Nat :=
  lanes.filter (fun l => !(palGet s.pal core row l).valid)

/-- R104 check 6, R136 check 6: the first row of a range with an element that is not valid. -/
def RowRange.chkValid (r : RowRange) (s : State) (t : Team) (lanes : Nat → List Nat) : Option Stop :=
  (List.range r.n).findSome? (fun k =>
    let bad := s.rowInvalid t.core (t.rowAt r.isTeam r.grp (r.d + k)) (lanes k)
    if bad.isEmpty then none else some (.t 0x04 (info43 r.space r.opnd 0 (r.d + k) (lanesMask bad))))

/-! ## Memory ranges -/

/-- R55: a memory range of `n` bytes as a lock, rounded outwards to 64-byte sectors. -/
def memLockOf (t : Team) (va n : Nat) (dest : Bool) : Lock :=
  ⟨t.core, 0, t.id, true, va / 64 * 64, cdiv (va + n) 64 * 64 - 1, dest, none⟩

/-- R104 check 8: a new memory range against the team's own memory locks. -/
def Lock.chkMem (l : Lock) (s : State) : Option Stop :=
  if s.memLock l.team l.lo (l.hi + 1 - l.lo) true || (l.dest && s.memLock l.team l.lo (l.hi + 1 - l.lo) false) then
    some (.t 0x06 (infoSub 4))
  else none

/-! ## Issue -/

/-- R104, R136, R150: room for one more operation and its locks, else a wait in fault check. -/
def chkRoom (s : State) (core n : Nat) : Except Stop Unit :=
  if 64 ≤ s.opCount core then .error (.wait (.room .copies))
  else if s.lockRoom core n = false then .error (.wait (.room (.locks n)))
  else .ok ()

/-- An operation starts: its locks stand, its barrier counts its sectors and one arrival in one step, and its group
counts it for the next batch (R55, R109, R106). -/
def State.launch (s : State) (c : Ctx) (o : Op) (locks : List Lock) (sectors : Nat) : State :=
  let id := s.nextId
  let s1 : State := { s with
    nextId := id + 1
    ops := s.ops ++ [{ o with id := id }]
    locks := s.locks ++ locks.map (fun l => { l with op := id }) }
  (s1.modBar c.t.id o.bar (fun b => b.begin_ sectors)).modG c (fun g => { g with openOps := g.openOps ++ [id] })

/-! ## Completion -/

/-- The barrier whose error phase will report an operation's fault; none where no error stands (R110), and none for an `mma`, whose
locks are released before its arrival is counted (R125). -/
def State.errorBar (s : State) (o : Op) : Option Nat :=
  match o.bar, s.team? o.team with
  | some n, some t => if o.kind ≠ .mma ∧ o.faulted = true ∧ (t.barrier n).error = true then some n else none
  | _, _ => none

/-- R55: the locks of an operation that completes are released; after a fault they stand until its barrier completes in its error
phase. -/
def State.releaseLocks (s : State) (o : Op) : List Lock :=
  match s.errorBar o with
  | some n => s.locks.map (fun l => if l.op = o.id then { l with held := some n } else l)
  | none => s.locks.filter (fun l => l.op != o.id)

/-- An operation completes: its locks are settled, and then its batch waits for it no more. -/
def State.finishOp (s : State) (o : Op) : State :=
  State.modGroup { s with ops := s.ops.filter (fun p => p.id != o.id), locks := s.releaseLocks o }
    o.team o.group (fun g => g.opEnds o.id o.faulted)

/-- Every unit is done. -/
def Op.allDone (o : Op) : Bool := decide (o.unitsDone = 2 ^ o.total - 1)

/-- Some units of an operation are done: with the last one it completes, and then `n` sectors leave its barrier. -/
def State.unitsEnd (s : State) (o : Op) (units : List Nat) (n : Nat) : State :=
  let o' := { o with unitsDone := units.foldl setBit o.unitsDone }
  (if o'.allDone then s.finishOp o' else s.putOp o').modBar o.team o.bar (fun b => b.leave n)

/-- The operation may go on: what it waits for has been performed (R96), no stop of its team has aborted it (R317), and its
die's routes for the partition are not being swapped (R350). -/
def State.opReady (s : State) (o : Op) : Bool :=
  !s.outstanding o.after && (match s.team? o.team with
    | some t => t.engaged && decide ((s.die (dieOf t.core)).rtbusy ≠ some t.part)
    | none => false)

/-! ## Faults -/

/-- FINFO of R110: the page of the failing sector, and the source. -/
def xfinfo (va src : Nat) : Nat := fld va 12 45 * 8 + src

/-- R110: a fault is recorded on the operation's barrier. -/
def State.noteOp (s : State) (o : Op) (code finfo : Nat) : State := s.modBar o.team o.bar (fun b => b.note code finfo)

/-- A fault record of an operation's access (R332). -/
def State.opFault (s : State) (o : Op) (f : FaultRec) : State :=
  match s.team? o.team with
  | some t => s.writeFault t.part t.core t.queue (s.tickOf o.team o.group) f
  | none => s

/-- Where an engine's access goes: by the core's and the die's TLB, else the walk; in the shadow region the failures of
R144. -/
def State.engineAt (s : State) (t : Team) (va rights : Nat) : Except (Nat × Nat) (Nat × Nat) :=
  let p := s.part t.part
  if 2 ^ 57 ≤ va then .error (7, 4)
  else if p.inShadow va then .error (if (p.windowAt va 1).isSome then 3 else 8, 4)
  else match s.translate t.core t.part va rights with
    | .ok x => if s.routed t.part t.core x.1 then .ok x else .error (4, 4)
    | .error e => .error e

/-- The code of R110 for a translation failure (R327, R329). -/
def codeOf (cause : Nat) : Nat := if cause = 3 then codePerm else if cause = 9 then codePoison else codeXlate

/-- How an access of an engine fails: the code it records, its address, and the fault record it writes. -/
structure SecFault where
  code : Nat
  va : Nat
  rec_ : Option FaultRec
  deriving DecidableEq, Repr

/-- Where an engine reads or writes one sector: a failed translation, or the poisoned reply of an edge or port that is down
(R347, R351). -/
def State.engineAccess (s : State) (t : Team) (src va rights : Nat) : Except SecFault (Nat × Nat) :=
  match s.engineAt t va rights with
  | .error e => .error ⟨codeOf e.1, va, some ⟨va, e.1, e.2, src, nbit rights 1⟩⟩
  | .ok a => if s.reach t.part t.core a.1 = .dead then .error ⟨codePoison, va, none⟩ else .ok a

/-- An engine's access is held on its way at an edge or port that is not active (R346, R347, R352). -/
def State.engineHeld (s : State) (t : Team) (va rights : Nat) : Bool :=
  match s.engineAt t va rights with
  | .error _ => false
  | .ok a => decide (s.reach t.part t.core a.1 = .held)

/-- An engine reads `n` bytes of one sector. -/
def State.engineRead (s : State) (t : Team) (src va n : Nat) : Except SecFault Nat :=
  match s.engineAccess t src va 1 with
  | .error e => .error e
  | .ok (pa, tag) => if s.poisoned pa then .error ⟨codePoison, va, none⟩ else .ok (s.readMem tag pa n)

/-- An engine may write at an address, and where. -/
def State.engineWriteAt (s : State) (t : Team) (src va : Nat) : Except SecFault (Nat × Nat) := s.engineAccess t src va 2

/-- Bytes of one sector written by an engine at an address, whose place is given: an access (R342, R381), whose entry the TLBs keep
(R330). -/
def State.engineWrite (s : State) (t : Team) (va : Nat) (a : Nat × Nat) (b : List Byte) : State :=
  State.access (State.learn (s.writeSector a.2 (b.zipIdx.map (fun e => (a.1 + e.2, e.1)))) t.core t.part va 2) t.part t.core a.1 32 true

/-- What an engine's read of a sector leaves beside its value: its entry in the TLBs (R330), what it crosses and the bytes counted
(R342, R381), and the note of an error sector (R358). Nothing comes of one whose way is down. -/
def State.noteSector (s : State) (t : Team) (va : Nat) : State :=
  match s.engineAt t va 1 with
  | .ok (pa, _) =>
    if s.reach t.part t.core pa = .dead then s
    else
      let s1 := (s.learn t.core t.part va 1).access t.part t.core pa 32 false
      if s.poisoned pa then s1.noteHbmError pa else s1
  | .error _ => s

/-- An engine reads a Palette element (R361, R367): nothing when it is uncorrectable; a repair from a mirror makes
SOFT 2 pending for the issuing group, with no lane. -/
def State.engineElem (s : State) (o : Op) (core row lane space num : Nat) : State × Option Word :=
  match s.readElem core row lane with
  | (s1, some e, true) => (s1.modGroup o.team o.group (fun g => g.addSoft 2 0 space num), some e.val)
  | (s1, some e, false) => (s1, some e.val)
  | (s1, none, _) => (s1, none)

/-- Elements of one row, in the order of the lanes; nothing for one that is uncorrectable. -/
def State.engineElems (s : State) (o : Op) (core row space num : Nat) (lanes : List Nat) : State × List (Option Word) :=
  lanes.foldl (fun (acc : State × List (Option Word)) l =>
    let (s1, w) := acc.1.engineElem o core row l space num
    (s1, acc.2 ++ [w])) (s, [])

/-- An engine writes elements of a row. -/
def State.engineRow (s : State) (core row : Nat) (l : List (Nat × Word)) : State :=
  l.foldl (fun (s : State) (e : Nat × Word) => s.putElem core row e.1 (Elem.of e.2)) s

end Sys2Proof.Machine
end

