-- ==== Sys2Proof/Machine/Copy.lean ====
section
/-! DEFINITION. The copies of major 01111 (R102 to R105, R115, R116, R368) and the landing or fault of their sectors. -/

namespace Sys2Proof.Machine

open Sys2Proof

/-! ## The shape record, R103 -/

structure Shape where
  base : Nat
  hi : Nat
  count : Nat
  lane : Nat
  esz : Nat
  tgt : Nat
  low : Nat
  stride : Nat
  metaVa : Nat
  metaHi : Nat
  deriving DecidableEq, Repr

/-- The record that the scalars hold. -/
def shapeOf (l : List Nat) : Shape :=
  let w := fun (i : Nat) => l.getD i 0
  ⟨w 0 + w 1 % 2 ^ 25 * 2 ^ 32, w 1 / 2 ^ 25, fld (w 2) 19 13, fld (w 2) 14 5, fld (w 2) 12 2, fld (w 2) 7 5, fld (w 2) 0 7,
    w 3, w 4 + w 5 % 2 ^ 25 * 2 ^ 32, w 5 / 2 ^ 25⟩

/-- The forms `.x24` and `.c24`, which have metadata. -/
def OpKind.hasMeta (k : OpKind) : Bool :=
  match k with
  | .copyX24 => true
  | .copyC24 => true
  | _ => false

/-- The forms that read rows. -/
def OpKind.outward (k : OpKind) : Bool :=
  match k with
  | .copyOut => true
  | .copyC24 => true
  | .copySwatch => true
  | _ => false

/-- Bytes of an element of `.x24` or `.c24`. -/
def Shape.size (h : Shape) : Nat := 2 ^ (h.esz - 1)

/-- Bytes of memory that a row or element takes (R102, R115, R368). -/
def copyBytes (k : OpKind) (prot : Bool) : Nat :=
  if k = .copyCol then 4 else if k.hasMeta ∨ prot = true then 64 else 128

/-- Sectors of a row (R102, R368). -/
def rowSectors (prot : Bool) : Nat := if prot then 2 else 4

/-- Bytes of metadata of a row (R115). -/
def Shape.metaBytes (h : Shape) : Nat := 16 / h.size

/-- R104, the SHAPE subcodes of a copy with memory, in their order; 0 when none applies. -/
def Shape.sub (h : Shape) (k : OpKind) (prot isTeam tgtOk : Bool) : Nat :=
  let al := if k = .copyCol then 4 else 32
  let n := copyBytes k prot
  let eszBad := if k.hasMeta then decide (h.esz = 0) else decide (h.esz ≠ 0)
  let metaPast := k.hasMeta && decide (h.esz ≠ 0) && decide (2 ^ 57 < h.metaVa + h.count * h.metaBytes)
  if h.base % al ≠ 0 ∨ (k.hasMeta = true ∧ h.metaVa % 32 ≠ 0) then 1
  else if h.count = 0 ∨ 4096 < h.count then 2
  else if h.stride < n then 3
  else if h.stride % al ≠ 0 then 4
  else if 2 ^ 57 < h.base + (h.count - 1) * h.stride + n ∨ metaPast = true then 5
  else if h.hi ≠ 0 ∨ h.low ≠ 0 ∨ (h.lane ≠ 0 ∧ k ≠ .copyCol) ∨ eszBad = true ∨ (k.hasMeta = true ∧ h.metaHi ≠ 0) ∨
      (if isTeam then h.tgt ≠ 0 else tgtOk = false) then 6
  else 0

/-- The word of major 01111. -/
def cpWord (c : Bool) (op w d s n : Nat) : Nat :=
  0x3C000000 + c.toNat * 2 ^ 31 + op * 2 ^ 22 + w * 2 ^ 21 + d * 2 ^ 14 + s * 2 ^ 7 + n * 2

/-- The rows an operation of major 01111 names: team rows, group, first row. -/
def Op.isTeam (o : Op) : Bool := nbit o.word 21
def Op.rowD (o : Op) : Nat := fld o.word 14 7
def Op.shape (o : Op) : Shape := shapeOf o.snap

/-- The lanes of a row that an outward copy reads (R102, R368). -/
def readLanes (prot : Bool) : List Nat := if prot then allLanes.filter (fun l => l % 2 == 0) else allLanes

/-- R369: the lanes of the candidate's pairs, both live and active, whose elements of the rows differ. -/
def shadowPairs (s : State) (c : Ctx) (r : RowRange) : List Nat :=
  let t := c.t
  (c.lanes.filter (fun l => c.lanes.contains (l ^^^ 1))).filter (fun l => (List.range r.n).any (fun k =>
    let row := t.rowAt r.isTeam r.grp (r.d + k)
    decide ((palGet s.pal t.core row l).val ≠ (palGet s.pal t.core row (l ^^^ 1)).val)))

/-- R369: an outward copy of a protected team compares its source elements. -/
def chkShadowRows (s : State) (c : Ctx) (r : RowRange) : Except Stop Unit :=
  let bad := shadowPairs s c r
  if c.t.prot = true ∧ r.dest = false ∧ bad.isEmpty = false then .error (.t 0x13 (info43 0 0 2 0 (lanesMask bad))) else .ok ()

/-- How many sectors a copy counts (R102). -/
def Shape.sectors (h : Shape) (k : OpKind) (prot : Bool) : Nat :=
  if k = .copyCol then ((List.range h.count).map (fun i => (h.base + i * h.stride) / 32)).dedup.length
  else rowSectors prot * h.count

/-- How many units it has (R322). -/
def Shape.units (h : Shape) (k : OpKind) (prot : Bool) : Nat := if k = .copyCol then h.count else rowSectors prot * h.count

/-- A copy between memory and rows: the checks of R104, then its operation. -/
def copy (s : State) (k : OpKind) (op scope : Nat) (cb : Bool) (w d a n : Nat) : Host.Outcome State Fault Refusal :=
  let scals := (List.range (if k.hasMeta then 6 else 4)).map (fun i => rdS (a + i) 0)
  word s (fun _ => scals) noMore (fun c s => do
    let isTeam := decide (w = 1)
    if c.g.isP = false ∨ (c.t.prot = true ∧ (k.hasMeta = true ∨ k = .copyCol)) then .error (.t 0x0B 0) else .ok ()
    c.chkBar n
    c.chkBound scals
    c.chkUninit scals
    c.chkPend s scals
    let snap := (List.range scals.length).map (fun i => (c.scal (a + i)).toNat)
    let h := shapeOf snap
    let sub := h.sub k c.t.prot isTeam (c.t.group? h.tgt).isSome
    if sub ≠ 0 then .error (.t 0x0C (info43 0 1 sub 0 0)) else .ok ()
    let r : RowRange := ⟨isTeam, h.tgt, d, h.count, !k.outward, 0⟩
    let bytes := (h.count - 1) * h.stride + copyBytes k c.t.prot
    let mems := memLockOf c.t h.base bytes k.outward ::
      (if k.hasMeta then [memLockOf c.t h.metaVa (h.count * h.metaBytes) k.outward] else [])
    firstStop [r.chkBound c.t, if k.outward then r.chkValid s c.t (fun _ => readLanes c.t.prot) else none,
      r.chkPend s c.t, r.chkLock s c.t]
    firstStop (mems.map (fun l => l.chkMem s))
    chkShadowRows s c r
    chkRoom s c.t.core (1 + mems.length)
    let o := c.newOp s k (some n) (cpWord cb op w d a n) 0 scope (h.units k c.t.prot) snap
    .ok ((s.launch c o (r.lock c.t :: mems) (h.sectors k c.t.prot)).adv c 1))

/-- R102, OP 0. -/
def execCopyRows (c : Bool) (w d a n : Nat) (s : State) : Host.Outcome State Fault Refusal := copy s .copyRows 0 1 c w d a n

/-- R102, OP 1. -/
def execCopyCol (c : Bool) (d a n : Nat) (s : State) : Host.Outcome State Fault Refusal := copy s .copyCol 1 1 c 0 d a n

/-- R102, R115, OP 2. -/
def execCopyRowsX24 (c : Bool) (w d a n : Nat) (s : State) : Host.Outcome State Fault Refusal := copy s .copyX24 2 1 c w d a n

/-- R102, OP 4. -/
def execCopyOutTeam (c : Bool) (w d a n : Nat) (s : State) : Host.Outcome State Fault Refusal := copy s .copyOut 4 1 c w d a n

/-- R102, OP 5. -/
def execCopyOutClu (c : Bool) (w d a n : Nat) (s : State) : Host.Outcome State Fault Refusal := copy s .copyOut 5 2 c w d a n

/-- R102, OP 6. -/
def execCopyOutDie (c : Bool) (w d a n : Nat) (s : State) : Host.Outcome State Fault Refusal := copy s .copyOut 6 3 c w d a n

/-- R102, OP 7. -/
def execCopyOutMod (c : Bool) (w d a n : Nat) (s : State) : Host.Outcome State Fault Refusal := copy s .copyOut 7 4 c w d a n

/-- R102, OP 8. -/
def execCopyOutSys (c : Bool) (w d a n : Nat) (s : State) : Host.Outcome State Fault Refusal := copy s .copyOut 8 5 c w d a n

/-- R102, R116, OP 9. -/
def execCopyOutC24Team (c : Bool) (w d a n : Nat) (s : State) : Host.Outcome State Fault Refusal :=
  copy s .copyC24 9 1 c w d a n

/-- R102, R116, OP 10. -/
def execCopyOutC24Clu (c : Bool) (w d a n : Nat) (s : State) : Host.Outcome State Fault Refusal :=
  copy s .copyC24 10 2 c w d a n

/-- R102, R116, OP 11. -/
def execCopyOutC24Die (c : Bool) (w d a n : Nat) (s : State) : Host.Outcome State Fault Refusal :=
  copy s .copyC24 11 3 c w d a n

/-- R102, R116, OP 12. -/
def execCopyOutC24Mod (c : Bool) (w d a n : Nat) (s : State) : Host.Outcome State Fault Refusal :=
  copy s .copyC24 12 4 c w d a n

/-- R102, R116, OP 13. -/
def execCopyOutC24Sys (c : Bool) (w d a n : Nat) (s : State) : Host.Outcome State Fault Refusal :=
  copy s .copyC24 13 5 c w d a n

/-! ## 2:4 expansion and compaction, R115, R116 -/

/-- The kept element `i` of `z` bytes. -/
def elemOf (z v i : Nat) : Nat := v / 256 ^ (z * i) % 256 ^ z

/-- R115: a group of four from its two kept elements and its nibble; the flag says that the nibble is malformed. -/
def expandGroup (z k0 k1 nib : Nat) : Nat × Bool :=
  let p := nib % 4
  let q := nib / 4 % 4
  if p < q then (k0 * 256 ^ (z * p) + k1 * 256 ^ (z * q), false) else (0, true)

/-- R115: 32 bytes of a row from 16 bytes of kept elements and the nibbles of their groups. -/
def expand (z kept nibs : Nat) : Nat × Bool :=
  (List.range (8 / z)).foldl (fun (acc : Nat × Bool) g =>
    let e := expandGroup z (elemOf z kept (2 * g)) (elemOf z kept (2 * g + 1)) (nibs / 16 ^ g % 16)
    (acc.1 + e.1 * 256 ^ (4 * z * g), acc.2 || e.2)) (0, false)

/-- R116: an element other than +0 and −0. -/
def nonzeroElem (z v : Nat) : Bool := decide (v % 2 ^ (8 * z - 1) ≠ 0)

/-- R116: the two positions that a group keeps, and whether it has more than two nonzero elements. -/
def keepTwo (l : List Bool) : Nat × Nat × Bool :=
  let at_ := fun (b : Bool) => (List.range 4).filter (fun i => l.getD i false == b)
  let nz := at_ true
  let two := (nz ++ at_ false).take 2
  let p := two.getD 0 0
  let q := two.getD 1 0
  (min p q, max p q, decide (2 < nz.length))

/-- R116: one group compacted: its two kept elements, its nibble, and whether it is too dense. -/
def compactGroup (z v : Nat) : Nat × Nat × Bool :=
  let e := fun (i : Nat) => elemOf z v i
  let k := keepTwo ((List.range 4).map (fun i => nonzeroElem z (e i)))
  let kept := fun (i : Nat) => if nonzeroElem z (e i) then e i else 0
  (kept k.1 + kept k.2.1 * 256 ^ z, k.1 + 4 * k.2.1, k.2.2)

/-- R116: 32 bytes of a row compacted to 16 bytes and the nibbles of their groups. -/
def compact24 (z v : Nat) : Nat × Nat × Bool :=
  (List.range (8 / z)).foldl (fun (acc : Nat × Nat × Bool) g =>
    let e := compactGroup z (v / 256 ^ (4 * z * g))
    (acc.1 + e.1 * 256 ^ (2 * z * g), acc.2.1 + e.2.1 * 16 ^ g, acc.2.2 || e.2.2)) (0, 0, false)

/-! ## Sectors -/

/-- The row and the sector of it that a unit is. -/
def unitRow (prot : Bool) (u : Nat) : Nat × Nat := (u / rowSectors prot, u % rowSectors prot)

/-- The memory address of a unit. -/
def Op.unitVa (o : Op) (prot : Bool) (u : Nat) : Nat :=
  let h := o.shape
  match o.kind with
  | .copyCol => (h.base + u * h.stride) / 32 * 32
  | k =>
    let (r, j) := unitRow prot u
    h.base + r * h.stride + (if k.hasMeta then 16 else 32) * j

/-- The lanes that sector `j` of a row fills, each with the number of its word in the sector (R102, R368). -/
def sectorLanes (prot : Bool) (j : Nat) : List (Nat × Nat) :=
  if prot then (List.range 16).map (fun i => (16 * j + i, i / 2)) else (List.range 8).map (fun i => (8 * j + i, i))

/-- Word `i` of a sector's bytes. -/
def sectorWord (v i : Nat) : Word := BitVec.ofNat 32 (v / 2 ^ (32 * i))

/-- The elements of a `copy.col` that lie in the sector of element `u`. -/
def Op.colUnits (o : Op) (u : Nat) : List Nat :=
  (List.range o.shape.count).filter (fun i => o.unitVa false i == o.unitVa false u)

/-- The address of the nibbles of a unit, and how many bytes they are (R115). -/
def Op.nibVa (o : Op) (u : Nat) : Nat × Nat :=
  let h := o.shape
  (h.metaVa + u / 4 * h.metaBytes + u % 4 * (4 / h.size), 4 / h.size)

/-- The core row that a unit's row index names. -/
def Op.unitCoreRow (o : Op) (t : Team) (r : Nat) : Nat := t.rowAt o.isTeam o.shape.tgt (o.rowD + r)

/-- The units that one landing or fault of a unit settles. -/
def Op.unitGroup (o : Op) (u : Nat) : List Nat := if o.kind = .copyCol then o.colUnits u else [u]

/-- What a unit does when nothing fails: its new state, and a fault that is recorded although the unit is delivered
(META or DENSE); or the fault that keeps it from being delivered, with the state as its reads left it. -/
def State.copyUnit (s : State) (o : Op) (t : Team) (u : Nat) : Except (State × SecFault) (State × Option SecFault) :=
  let h := o.shape
  let va := o.unitVa t.prot u
  let (r, j) := unitRow t.prot u
  let row := o.unitCoreRow t r
  match o.kind with
  | .copyRows => match s.engineRead t 1 va 32 with
    | .error f => .error (s, f)
    | .ok v => .ok ((s.noteSector t va).engineRow t.core row ((sectorLanes t.prot j).map (fun e => (e.1, sectorWord v e.2))), none)
  | .copyCol => match s.engineRead t 1 va 32 with
    | .error f => .error (s, f)
    | .ok v => .ok ((o.colUnits u).foldl (fun (s : State) i =>
        s.engineRow t.core (o.unitCoreRow t i) [(h.lane, sectorWord v ((h.base + i * h.stride) % 32 / 4))]) (s.noteSector t va), none)
  | .copyX24 =>
    let m := o.nibVa u
    match s.engineRead t 1 va 16, s.engineRead t 1 m.1 m.2 with
    | .error f, _ => .error (s, f)
    | _, .error f => .error (s, f)
    | .ok kept, .ok nibs =>
      let e := expand h.size kept nibs
      .ok (((s.noteSector t va).noteSector t m.1).engineRow t.core row ((sectorLanes false j).map (fun x => (x.1, sectorWord e.1 x.2))),
        if e.2 then some ⟨codeMeta, m.1, none⟩ else none)
  | _ =>
    let lanes := if t.prot then (List.range 8).map (fun i => 16 * j + 2 * i) else (List.range 8).map (fun i => 8 * j + i)
    let (s1, ws) := s.engineElems o t.core row (if o.isTeam then 2 else 0) (o.rowD + r) lanes
    if ws.any (fun w => w.isNone) then .error (s1, ⟨codePoison, va, none⟩)
    else
      let v := (ws.mapIdx (fun i w => (w.getD 0).toNat * 2 ^ (32 * i))).sum
      if o.kind = .copyOut then
        match s1.engineWriteAt t 1 va with
        | .error f => .error (s1, f)
        | .ok a => .ok (s1.engineWrite t va a (bytesLE 32 v), none)
      else
        let m := o.nibVa u
        let e := compact24 h.size v
        match s1.engineWriteAt t 1 va, s1.engineWriteAt t 1 m.1 with
        | .error f, _ => .error (s1, f)
        | _, .error f => .error (s1, f)
        | .ok a, .ok b => .ok ((s1.engineWrite t va a (bytesLE 16 e.1)).engineWrite t m.1 b (bytesLE m.2 e.2.1),
            if e.2.2 then some ⟨codeDense, va, none⟩ else none)

/-- The forms whose sectors these events settle. -/
def OpKind.bySector (k : OpKind) : Bool :=
  match k with
  | .copyRows => true
  | .copyCol => true
  | .copyX24 => true
  | .copyOut => true
  | .copyC24 => true
  | _ => false

/-- A unit's access is held on its way (R346, R347). -/
def State.copyHeld (s : State) (o : Op) (t : Team) (u : Nat) : Bool :=
  let rights := if o.kind.outward then 2 else 1
  s.engineHeld t (o.unitVa t.prot u) rights || (o.kind.hasMeta && s.engineHeld t (o.nibVa u).1 rights)

/-- A unit of an operation that is still to be settled, and the team. -/
def State.copyTurn (s : State) (op u : Nat) : Option (Op × Team) :=
  match s.op? op with
  | none => none
  | some o => match s.team? o.team with
    | none => none
    | some t =>
      if o.kind.bySector = true ∧ u < o.total ∧ nbit o.unitsDone u = false ∧ s.opReady o = true ∧ s.copyHeld o t u = false then
        some (o, t)
      else none

/-- R109, R105: a sector lands. -/
def execCopySectorLanding (op u : Nat) (s : State) : Host.Outcome State Fault Refusal :=
  match s.copyTurn op u with
  | none => .next s
  | some (o, t) => match s.copyUnit o t u with
    | .error _ => .next s
    | .ok (s1, none) => .next (s1.unitsEnd o (o.unitGroup u) 1)
    | .ok (s1, some f) =>
      .next ((s1.noteOp o f.code (xfinfo f.va 0)).unitsEnd { o with faulted := true } (o.unitGroup u) 1)

/-- R105: a sector faults: it is recorded, and subtracted in place of landing. The sector of an outward copy has not been read. -/
def execCopySectorFault (op u : Nat) (s : State) : Host.Outcome State Fault Refusal :=
  match s.copyTurn op u with
  | none => .next s
  | some (o, t) => match s.copyUnit o t u with
    | .ok _ => .next s
    | .error (s1, f) =>
      let s2 := match f.rec_ with
        | some r => s1.opFault o r
        | none => if o.kind.outward then s1 else s1.noteSector t f.va
      .next ((s2.noteOp o f.code (xfinfo f.va 0)).unitsEnd
        { o with faulted := true, fault := (o.unitGroup u).foldl setBit o.fault } (o.unitGroup u) 1)

/-! ## `copy.swatch`, R113 -/

/-- R104 for `copy.swatch`: the SHAPE subcodes. -/
def Shape.swSub (h : Shape) (l : List Nat) (isTeam tgtOk : Bool) : Nat :=
  let w := fun (i : Nat) => l.getD i 0
  if h.count = 0 ∨ 4096 < h.count then 2
  else if 4096 < w 0 + h.count then 5
  else if w 1 / 16 ≠ 0 ∨ w 1 % 16 = 0 ∨ 8 < w 1 % 16 ∨ h.low ≠ 0 ∨ h.lane ≠ 0 ∨ h.esz ≠ 0 ∨ h.stride ≠ 0 ∨
      (if isTeam then h.tgt ≠ 0 else tgtOk = false) then 6
  else 0

/-- The module of the swatch that a handle names: this one when its swatch tables hold the handle's swatch, in whatever
generation; else the spec leaves open how a handle names another module's (log entry 50). -/
def State.handleModule (s : State) (h : Nat) : Nat :=
  if s.swatches.any (fun e => decide (e.part = fld h 40 6) && decide (e.tkey = fld h 16 24) && decide (e.swx = fld h 46 6)) then s.regs.modid
  else Config.handleModule h % 64

/-- R113, R353: the destinations of the handles; a delivery to another module is of class L when the bit of the module is set in the
partition's OPTCLS at issue. -/
def State.destsOf (s : State) (part n : Nat) (l : List Nat) : List Dest :=
  (List.range n).map (fun i =>
    let h := l.getD (4 + 2 * i) 0 + l.getD (5 + 2 * i) 0 * 2 ^ 32
    let m := s.handleModule h
    ⟨h, m, 0, if m ≠ s.regs.modid ∧ nbit (s.part part).optcls m = true ∧ s.moduleExists m = true then some 0 else none, 0, none⟩)

/-- R113: `copy.swatch`. DESIGN CHOICE (log entry 130): check 3 of R104 covers the handles of the first 8 destinations at most, by
the count in S + 1 when that scalar lies within the allocation, valid or not. -/
def execCopySwatch (cb : Bool) (w d a n : Nat) (s : State) : Host.Outcome State Fault Refusal :=
  let nd := fun (c : Ctx) => if c.inRange (.s (a + 1)) then min 8 ((c.scal (a + 1)).toNat % 16) else 0
  let scals := fun (c : Ctx) => (List.range (4 + 2 * nd c)).map (fun i => rdS (a + i) 0)
  word s scals noMore (fun c s => do
    let isTeam := decide (w = 1)
    if c.g.isP = false ∨ c.t.prot = true then .error (.t 0x0B 0) else .ok ()
    c.chkBar n
    c.chkBound (scals c)
    c.chkUninit (scals c)
    c.chkPend s (scals c)
    let snap := (List.range (4 + 2 * nd c)).map (fun i => (c.scal (a + i)).toNat)
    let h := shapeOf snap
    let sub := h.swSub snap isTeam (c.t.group? h.tgt).isSome
    if sub ≠ 0 then .error (.t 0x0C (info43 0 1 sub 0 0)) else .ok ()
    let r : RowRange := ⟨isTeam, h.tgt, d, h.count, false, 0⟩
    firstStop [r.chkBound c.t, r.chkValid s c.t (fun _ => allLanes), r.chkPend s c.t, r.chkLock s c.t]
    chkRoom s c.t.core 1
    let o := c.newOp s .copySwatch (some n) (cpWord cb 3 w d a n) 0 1 (nd c) snap
    let o := { o with dests := s.destsOf c.t.part (nd c) snap }
    .ok ((s.launch c o [r.lock c.t] (4 * h.count * nd c)).adv c 1))

/-- A destination of an operation, and the sender's team. -/
def State.dest? (s : State) (op i : Nat) : Option (Op × Dest × Team) :=
  (s.op? op).bind (fun o => (o.dests[i]?).bind (fun d => (s.team? o.team).map (fun t => (o, d, t))))

/-- A destination is settled: its sectors leave the sender's barrier. -/
def State.destEnds (s : State) (o : Op) (i : Nat) (d : Dest) : State :=
  s.unitsEnd { o with dests := o.dests.set i { d with stage := 2 } } [i] (4 * o.shape.count)

/-- First destination row within the swatch. -/
def Op.swRow0 (o : Op) : Nat := o.snap.getD 0 0

/-- A free outcome of a delivery to another module: a code from 0 to 6 (log entry 47). -/
def State.farCode (s : State) : State × Nat := ({ s with free := s.free + 1 }, Config.freeValue s.free % 7)

/-- Blocks of a delivery of so many rows (R353); in class S as in class L (log entry 154). -/
def blocksOf (count : Nat) : Nat := cdiv count 2

/-- The dies that a delivery crosses to its home (R349), and how its way stands, on the channel of its handle (log entry 154). -/
def State.destLine (s : State) (t : Team) (d : Dest) : List Nat := s.wayTo t.part t.core (homeOfHandle d.handle)
def State.destWay (s : State) (t : Team) (d : Dest) : Way := s.dieWay t.part (lineChannel d.handle) (s.destLine t d)

/-- A delivery has not got to its home: over the die links (R342), or to another module in class S blocks (R352). -/
def State.destHeld (s : State) (t : Team) (d : Dest) : Bool :=
  if d.module = s.regs.modid then decide (s.destWay t d = .held) else s.moduleExists d.module && d.port.isNone

/-- A delivery's way is down (R347, R351). -/
def State.destDead (s : State) (t : Team) (d : Dest) : Bool :=
  if d.module = s.regs.modid then decide (s.destWay t d = .dead) else s.portsDead d.module

/-- A delivery meets a routing entry with V = 0 (R349). -/
def State.destLost (s : State) (t : Team) (d : Dest) : Bool :=
  if d.module = s.regs.modid then decide (homeOfHandle d.handle < Config.dies) && (s.swRoute t.part t.core (homeOfHandle d.handle)).isNone
  else s.moduleExists d.module && (s.routeEntry t.part (dieOf t.core) (clusterOf t.core % 16) (64 + d.module)).isNone

/-- A delivery's flits cross the links (R342): one for each of its blocks. -/
def State.destCarry (s : State) (o : Op) (t : Team) (d : Dest) : State :=
  if d.module = s.regs.modid then
    (List.range (blocksOf o.shape.count)).foldl (fun (s : State) _ => s.carry (lineChannel d.handle) (s.destLine t d)) s
  else s

/-- A delivery fails on its way: the code is recorded with the FINFO of XLATE and POISON and source multicast (R110). -/
def State.destFails (s : State) (o : Op) (i : Nat) (d : Dest) (code : Nat) : State :=
  (s.noteOp o code (xfinfo 0 4)).destEnds { o with faulted := true, fault := setBit o.fault i } i d

/-- R113, R51: the first piece of a delivery reaches the home die, which admits or refuses it. DESIGN CHOICE (log entry 131): FINFO of
a refused delivery names its first destination row. -/
def execSwatchDeliveryArrival (op i : Nat) (s : State) : Host.Outcome State Fault Refusal :=
  match s.dest? op i with
  | none => .next s
  | some (o, d, t) =>
    if d.stage ≠ 0 ∨ d.classL.isSome ∨ s.opReady o = false then .next s
    else if s.destLost t d then .next ((s.opFault o ⟨0, 4, 4, 5, true⟩).destFails o i d codeXlate)
    else if s.destDead t d then .next (s.destFails o i d codePoison)
    else if s.destHeld t d then .next s
    else
      let u := s.destCarry o t d
      let (s1, code) := if d.module = s.regs.modid then
          (u, u.swDecide d.handle o.swRow0 o.shape.count t.id t.core true false)
        else if s.moduleExists d.module = false then (u, swStale)
        else u.farCode
      if code = 0 then .next (s1.putOp { o with dests := o.dests.set i { d with stage := 1 } })
      else
        .next ((s1.noteOp o code (swFinfo d.handle o.swRow0)).destEnds
          { o with faulted := true, fault := setBit o.fault i } i d)

/-- R113: the rows of a delivery land at its owner; a sector with an uncorrectable element is not written and is
recorded (R361). -/
def State.deliver (s : State) (o : Op) (t : Team) (e : SwEntry) : State × Bool :=
  (List.range (4 * o.shape.count)).foldl (fun (acc : State × Bool) u =>
    let r := u / 4
    let lanes := (List.range 8).map (fun k => 8 * (u % 4) + k)
    let (s1, ws) := acc.1.engineElems o t.core (o.unitCoreRow t r) (if o.isTeam then 2 else 0) (o.rowD + r) lanes
    if ws.any (fun w => w.isNone) then (s1.noteOp o codePoison (xfinfo 0 4), true)
    else match s1.swRow e (o.swRow0 + r) true with
      | some (core, row) => (s1.engineRow core row (lanes.zip (ws.map (fun w => w.getD 0))), acc.2)
      | none => (s1, acc.2)) (s, false)

/-- R113, R89: the last piece of an admitted delivery has landed: one arrival on the owner's export barrier, and the
sectors leave the sender's. DESIGN CHOICE (log entry 155): of an owner that has retired since the admission nothing lands and no code is
recorded, and the sectors leave. -/
def execSwatchDeliveryLanded (op i : Nat) (s : State) : Host.Outcome State Fault Refusal :=
  match s.dest? op i with
  | none => .next s
  | some (o, d, t) =>
    if d.stage ≠ 1 then .next s
    else if d.module ≠ s.regs.modid then .next (s.destEnds o i d)
    else match s.swFind d.handle with
      | none => .next (s.destEnds o i d)
      | some e =>
        let (s1, bad) := s.deliver o t e
        .next ((s1.modBar e.team e.bar Barrier.arrive).destEnds { o with faulted := o.faulted || bad } i d)

end Sys2Proof.Machine
end

