-- ==== Sys2Proof/Machine/Gather.lean ====
section
/-! DEFINITION. Gather, scatter and shadow windows (R133 to R145, R271, R272), and their events. -/

namespace Sys2Proof.Machine

open Sys2Proof

/-! ## The pool entry, R271 -/

/-- The fields that `gather` and `scatter` share, the element's bytes, and for a scatter its function (nothing for
`st`), its scope and whether the entry is legal. -/
structure GatherForm where
  esz : Nat
  f : Nat
  n : Nat
  i : Nat
  t : Nat
  w : Bool
  d : Nat
  bn : Nat
  op : Option AtomOp
  scope : Nat
  ok : Bool
  deriving DecidableEq, Repr

/-- R140: the function of a combination of OPN and TY and the element's bytes; nothing for one that is not listed. -/
def scatterOp (opn ty : Nat) : Option (Option AtomOp × Nat) :=
  match opn, ty with
  | 0, 0 => some (none, 1)
  | 0, 1 => some (none, 2)
  | 0, 2 => some (none, 4)
  | 0, 3 => some (none, 8)
  | 1, 4 => some (some .addN, 4)
  | 1, 5 => some (some .addN, 4)
  | 1, 6 => some (some .addN, 8)
  | 1, 7 => some (some .addN, 8)
  | 1, 8 => some (some .addF32, 4)
  | 1, 9 => some (some .addBf16, 2)
  | 2, 4 => some (some .minN, 4)
  | 2, 5 => some (some .minS, 4)
  | 2, 8 => some (some .minF, 4)
  | 3, 4 => some (some .maxN, 4)
  | 3, 5 => some (some .maxS, 4)
  | 3, 8 => some (some .maxF, 4)
  | 4, 2 => some (some .and, 4)
  | 4, 3 => some (some .and, 8)
  | 5, 2 => some (some .or, 4)
  | 5, 3 => some (some .or, 8)
  | 6, 2 => some (some .xor, 4)
  | 6, 3 => some (some .xor, 8)
  | _, _ => none

/-- The pool entry of a gather, or of a scatter. -/
def gatherForm (scat : Bool) (v : Nat) : GatherForm :=
  let fields := fun (esz : Nat) (op : Option AtomOp) (scope : Nat) (ok : Bool) =>
    (⟨esz, fld v 36 7, fld v 29 7, fld v 22 7, fld v 15 7, nbit v 14, fld v 7 7, fld v 1 6, op, scope,
      ok && !nbit v 0⟩ : GatherForm)
  if scat then
    let sc := fld v 52 3
    let legal := decide (fld v 55 9 = 0) && decide (fld v 43 2 = 0) && decide (1 ≤ sc) && decide (sc ≤ 5)
    match scatterOp (fld v 45 3) (fld v 48 4) with
    | some (op, esz) => fields esz op sc legal
    | none => fields 1 none sc false
  else fields (2 ^ fld v 43 2) none 1 (decide (fld v 45 19 = 0))

def OpKind.scatters (k : OpKind) : Bool := decide (k = .scatter)

/-- The form of a gather or scatter under way. -/
def Op.form (o : Op) : GatherForm := gatherForm o.kind.scatters o.pool

/-- The table's base, length, and the count, from the scalars sT to sT + 2 and sN (R134). -/
def tableBase (l : List Nat) : Nat := l.getD 0 0 + l.getD 1 0 % 2 ^ 25 * 2 ^ 32

/-! ## Issue, R136 -/

/-- The SHAPE subcodes in their order; 0 when none applies. -/
def GatherForm.sub (f : GatherForm) (l : List Nat) : Nat :=
  let base := tableBase l
  let tlen := l.getD 2 0
  let n := l.getD 3 0
  let nrows := cdiv (n * f.esz) 128
  if base % f.esz ≠ 0 then 1
  else if n = 0 ∨ 1024 < n ∨ tlen = 0 then 2
  else if 2 ^ 57 < base + tlen * f.esz then 5
  else if l.getD 1 0 / 2 ^ 25 ≠ 0 then 6
  else if (f.w = false ∧ f.d ≤ f.f ∧ f.f < f.d + nrows) ∨ (f.i ≤ f.f ∧ f.f < f.i + cdiv n 32) then 7
  else 0

/-- An index element that could not be read stands as a number that no element holds. -/
def lostIndex : Nat := 2 ^ 32

/-- The index values of an operation, read at issue (R137); one that is uncorrectable is lost. -/
def State.readIndex (s : State) (o : Op) (t : Team) (f : GatherForm) (n : Nat) : State × List Nat :=
  (List.range n).foldl (fun (acc : State × List Nat) k =>
    let row := f.i + k / 32
    match acc.1.engineElem o t.core (t.rowAt false o.group row) (k % 32) 0 row with
    | (s1, some w) => (s1, acc.2 ++ [w.toNat])
    | (s1, none) => (s1, acc.2 ++ [lostIndex])) (s, [])

/-- A source value that could not be read stands as a number that no value has. -/
def lostSource : Nat := 2 ^ 64

/-- The source elements of a scatter, read at issue, as values of its positions (R135). -/
def State.readSource (s : State) (o : Op) (t : Team) (f : GatherForm) (n : Nat) : State × List Nat :=
  let words := (List.range (cdiv (n * f.esz) 4)).foldl (fun (acc : State × List (Option Word)) e =>
    let row := f.d + e / 32
    let (s1, w) := acc.1.engineElem o t.core (t.rowAt f.w o.group row) (e % 32) (if f.w then 2 else 0) row
    (s1, acc.2 ++ [w])) (s, [])
  let value := fun (k : Nat) =>
    let first := k * f.esz / 4
    let es := (List.range (cdiv f.esz 4)).map (fun j => words.2.getD (first + j) none)
    if es.any (fun w => w.isNone) then lostSource
    else
      let v := (es.mapIdx (fun j w => (w.getD 0).toNat * 2 ^ (32 * j))).sum
      v / 256 ^ (k * f.esz % 4) % 256 ^ f.esz
  (words.1, (List.range n).map value)

/-- The lanes of a row that hold index elements, or source elements, of positions below `n`. -/
def usedLanes (elems k : Nat) : List Nat := allLanes.filter (fun l => decide (32 * k + l < elems))

/-- `gather` and `scatter` at issue: the pool entry, the checks of R136 and R140, the operation. -/
def gatherWord (s : State) (scat : Bool) (sub : Nat) (cb : Bool) (ix : Nat) : Host.Outcome State Fault Refusal :=
  let formOf := fun (c : Ctx) (s : State) => match c.poolEntry s ix with
    | .ok v => some (gatherForm scat v)
    | .error _ => none
  let scals := fun (f : GatherForm) => [rdS f.t 1, rdS (f.t + 1) 1, rdS (f.t + 2) 1, rdS f.n 1]
  let us := fun (c : Ctx) => match formOf c s with
    | some f => scals f
    | none => []
  word s us noMore (fun c s => do
    let v ← c.poolEntry s ix
    let f := gatherForm scat v
    if f.ok = false then .error (.t 0x01 (infoSub 6)) else .ok ()
    if c.g.isP = false ∨ c.t.prot = true then .error (.t 0x0B 0) else .ok ()
    c.chkBar f.bn
    c.chkBound (scals f)
    c.chkUninit (scals f)
    c.chkPend s (scals f)
    let snap := [f.t, f.t + 1, f.t + 2, f.n].map (fun k => (c.scal k).toNat)
    let shape := f.sub snap
    if shape ≠ 0 then .error (.t 0x0C (info43 0 1 shape 0 0)) else .ok ()
    let n := snap.getD 3 0
    let nrows := cdiv (n * f.esz) 128
    let data : RowRange := ⟨f.w, c.g.num, f.d, nrows, !scat, 1⟩
    let index : RowRange := ⟨false, c.g.num, f.i, cdiv n 32, false, 2⟩
    let mask : RowRange := ⟨false, c.g.num, f.f, 1, true, 3⟩
    let mem := memLockOf c.t (tableBase snap) (snap.getD 2 0 * f.esz) scat
    firstStop ([data, index, mask].map (fun r => r.chkBound c.t))
    firstStop [index.chkValid s c.t (usedLanes n),
      if scat then data.chkValid s c.t (usedLanes (cdiv (n * f.esz) 4)) else none]
    firstStop ([data, mask, index].map (fun r => r.chkPend s c.t))
    firstStop ([data, mask, index].map (fun r => r.chkLock s c.t) ++ [mem.chkMem s])
    chkRoom s c.t.core 4
    let word := 0x3FC00000 + cb.toNat * 2 ^ 31 + sub * 2 ^ 18 + ix
    let o := c.newOp s (if scat then .scatter else .gather) (some f.bn) word v f.scope n snap
    let (s1, idx) := s.readIndex o c.t f n
    let (s2, src) := if scat then s1.readSource o c.t f n else (s1, [])
    .ok ((s2.launch c { o with idx := idx, src := src } [data.lock c.t, mask.lock c.t, index.lock c.t, mem]
      (cdiv (n * f.esz) 32 + 4)).adv c 1))

/-- R133 to R138. -/
def execGather (c : Bool) (ix : Nat) (s : State) : Host.Outcome State Fault Refusal := gatherWord s false 0 c ix

/-- R140, R141. -/
def execScatter (c : Bool) (ix : Nat) (s : State) : Host.Outcome State Fault Refusal := gatherWord s true 1 c ix

/-! ## Positions -/

/-- The address of position `k`. -/
def Op.posVa (o : Op) (k : Nat) : Nat := tableBase o.snap + o.idx.getD k 0 * o.form.esz

/-- Whether a position needs memory: its index could be read and lies within the table. -/
def Op.posInTable (o : Op) (k : Nat) : Bool :=
  decide (o.idx.getD k 0 ≠ lostIndex) && decide (o.idx.getD k 0 < o.snap.getD 2 0)

/-- The 64-byte sector of a position; beyond the address space for one that makes no access. -/
def Op.posSector (o : Op) (k : Nat) : Nat := if o.posInTable k then o.posVa k / 64 else 2 ^ 51

/-- The code that a position without access records: PARTIAL for an index beyond TLEN, POISON for a lost one. -/
def Op.outsideCode (o : Op) (k : Nat) : Nat := if o.idx.getD k 0 = lostIndex then codePoison else codePartial

/-- A fault of a position (R137): its code and its fault record. -/
def State.posFault (s : State) (o : Op) (k code : Nat) (f : Option FaultRec) : State × Op :=
  let s1 := match f with
    | some r => s.opFault o r
    | none => s
  (s1.noteOp o code (xfinfo (o.posVa k) 1), { o with faulted := true, fault := setBit o.fault k })

/-- PARTIAL for a failure of translation or permission, POISON for an error (R137, R327). -/
def posCode (f : SecFault) : Nat := if f.code = codePoison then codePoison else codePartial

/-- The destination or source sector of a position's bytes: 32 bytes each. -/
def Op.rowSector (o : Op) (k : Nat) : Nat := k * o.form.esz / 32

/-- How many sectors have every position done after `new` are, and had not before. -/
def Op.sectorsEnd (o : Op) (new : List Nat) : Nat :=
  let after := new.foldl setBit o.unitsDone
  let full := fun (m j : Nat) => (List.range o.total).all (fun k => o.rowSector k != j || nbit m k)
  ((List.range (cdiv (o.total * o.form.esz) 32)).filter (fun j => full after j && !full o.unitsDone j)).length

/-- R135: the elements of the fault mask row. -/
def maskElem (fault l : Nat) : Word := BitVec.ofNat 32 (bitsOf 32 ((List.range 32).filter (fun j => nbit fault (32 * j + l))))

/-- R137: the fault mask row, every element valid. -/
def State.putMask (s : State) (o : Op) (t : Team) : State :=
  s.engineRow t.core (t.rowAt false o.group o.form.f) (allLanes.map (fun l => (l, maskElem o.fault l)))

/-- Positions are done: their sectors leave; after the last one the mask row is written, the operation completes, and
the mask row's 4 sectors leave (R138). -/
def State.positionsEnd (s : State) (o : Op) (t : Team) (new : List Nat) : State :=
  let n := o.sectorsEnd new
  let o' := { o with unitsDone := new.foldl setBit o.unitsDone }
  if o'.allDone then ((s.putMask o' t).finishOp o').modBar o.team o.bar (fun b => b.leave (n + 4))
  else (s.putOp o').modBar o.team o.bar (fun b => b.leave n)

/-! ## Gather events, R137, R138 -/

/-- The positions not yet served that name a sector. -/
def Op.waitingAt (o : Op) (sector : Nat) : List Nat :=
  (List.range o.total).filter (fun k => !nbit o.unitsDone k && decide (sget 0 o.got k = 0) && decide (o.posSector k = sector))

/-- A position's value stands returned. -/
def Op.gotten (o : Op) (k v : Nat) : Op := { o with got := sset 0 o.got k (v + 1) }

/-- One position served by its sector. -/
def State.gatherPos (s : State) (o : Op) (t : Team) (k : Nat) : State × Op :=
  if o.posInTable k = false then
    let (s1, o1) := s.posFault o k (o.outsideCode k) none
    (s1, o1.gotten k 0)
  else match s.engineRead t 2 (o.posVa k) o.form.esz with
    | .error f =>
      let (s1, o1) := s.posFault o k (posCode f) f.rec_
      (s1, o1.gotten k 0)
    | .ok v => (s, o.gotten k v)

/-- The rights of a scatter's position (R141, R329). -/
def GatherForm.rights (f : GatherForm) : Nat := if f.op.isSome then 3 else 2

/-- The gather engine that serves an address, one for each stack of a die (R2, R158). -/
def State.gatherEngine (s : State) (t : Team) (va : Nat) : Option Nat :=
  match s.engineAt t va 1 with
  | .ok (pa, _) => if inHbm pa then some (homeDie pa * 4 + fld pa 8 2) else none
  | .error _ => none

/-- R2: the element requests of a gather engine that have not landed. -/
def State.engineLoad (s : State) (e : Nat) : Nat :=
  (s.ops.map (fun o => match s.team? o.team with
    | some t => (o.got.filter (fun x => o.posInTable x.1 && decide (s.gatherEngine t (o.posVa x.1) = some e))).length
    | none => 0)).sum

/-- The engine of a sector has room for the requests of its positions (R2). -/
def State.engineRoom (s : State) (t : Team) (va n : Nat) : Bool :=
  match s.gatherEngine t va with
  | some e => decide (s.engineLoad e + n ≤ Config.engineRequests)
  | none => true

/-- R137: a gather engine reads a distinct sector once and serves every position that names it. -/
def execGatherEngineRequest (op sector : Nat) (s : State) : Host.Outcome State Fault Refusal :=
  match s.op? op with
  | none => .next s
  | some o => match s.team? o.team with
    | none => .next s
    | some t =>
      let ks := o.waitingAt sector
      let inTable := decide (sector ≠ 2 ^ 51)
      if o.kind ≠ .gather ∨ s.opReady o = false ∨ ks.isEmpty = true ∨
          (inTable = true ∧ (s.engineRoom t (64 * sector) ks.length = false ∨ s.engineHeld t (64 * sector) 1 = true)) then .next s
      else
        let s0 := if inTable then (s.noteSector t (64 * sector)).noteSector t (64 * sector + 32) else s
        let (s1, o1) := ks.foldl (fun (acc : State × Op) k => acc.1.gatherPos acc.2 t k) (s0, o)
        .next (s1.putOp o1)

/-- R135, R137: a position's bytes into its element, which is written whole: bytes of positions not yet landed are
zero. -/
def State.landPos (s : State) (o : Op) (t : Team) (k v : Nat) : State :=
  let f := o.form
  let z := min f.esz 4
  (List.range (cdiv f.esz 4)).foldl (fun (s : State) j =>
    let at_ := k * f.esz + 4 * j
    let row := t.rowAt f.w o.group (f.d + at_ / 128)
    let lane := at_ % 128 / 4
    let mates := (List.range o.total).filter (fun q => decide (q * f.esz / 4 = at_ / 4) && nbit o.unitsDone q)
    let old := if mates.isEmpty then 0 else (palGet s.pal t.core row lane).val.toNat
    let b := 256 ^ (at_ % 4)
    let low := old % b
    let high := old / (b * 256 ^ z) * (b * 256 ^ z)
    s.putElem t.core row lane (Elem.of (BitVec.ofNat 32 (low + v / 2 ^ (32 * j) % 256 ^ z * b + high)))) s

/-- Some returned positions land, and are done (R138). -/
def State.landReplies (s : State) (o : Op) (t : Team) (ks : List Nat) : State :=
  let (s1, o1) := ks.foldl (fun (acc : State × Op) k =>
    (acc.1.landPos acc.2 t k (sget 0 o.got k - 1), { acc.2 with unitsDone := setBit acc.2.unitsDone k })) (s, o)
  s1.positionsEnd { o with got := o1.got.filter (fun e => !ks.contains e.1) } t ks

/-- R138: a reply line of up to 64 bytes of returned elements lands, the lowest positions first. -/
def execGatherReplyLanding (op : Nat) (s : State) : Host.Outcome State Fault Refusal :=
  match s.op? op with
  | none => .next s
  | some o => match s.team? o.team with
    | none => .next s
    | some t =>
      let ks := (o.got.map (fun e => e.1)).take (64 / o.form.esz)
      if o.kind ≠ .gather ∨ ks.isEmpty = true then .next s else .next (s.landReplies o t ks)

/-! ## Scatter, R141 -/

/-- A position is applied, or faults. -/
def State.scatterPos (s : State) (o : Op) (t : Team) (k : Nat) : State × Op :=
  let f := o.form
  let va := o.posVa k
  if o.posInTable k = false then s.posFault o k (o.outsideCode k) none
  else if o.src.getD k 0 = lostSource then s.posFault o k codePoison none
  else match s.engineAccess t 2 va f.rights with
    | .error e => s.posFault o k (if e.code = codePoison then codePoison else codePartial) e.rec_
    | .ok (pa, tag) =>
      if f.op.isSome = true ∧ isHost pa = true then s.posFault o k codePartial none
      else
        let s1 := (s.learn t.core t.part va f.rights).access t.part t.core pa 32 true
        if s.poisoned pa then (s1.noteHbmError pa).posFault o k codePoison none
        else
          let x := o.src.getD k 0
          match f.op with
          | some op => ((s1.writeMem tag pa (bytesLE f.esz (op.apply (8 * f.esz) (s.readMem tag pa f.esz) x 0))).noteBytes pa 32 false, o)
          | none => (s1.writeMem tag pa (bytesLE f.esz x), o)

/-- R141: a position can be applied: those below it that name the same element are. -/
def State.posReady (s : State) (o : Op) (t : Team) (k : Nat) : Bool :=
  let behind := (List.range k).any (fun q => !nbit o.unitsDone q && decide (o.idx.getD q 0 = o.idx.getD k 0))
  decide (o.kind = .scatter) && decide (k < o.total) && !nbit o.unitsDone k && s.opReady o && !behind &&
    !(o.posInTable k && s.engineHeld t (o.posVa k) o.form.rights)

/-- R141: SCATTER_POSITION_APPLY. -/
def execScatterPositionApply (op k : Nat) (s : State) : Host.Outcome State Fault Refusal :=
  match s.op? op with
  | none => .next s
  | some o => match s.team? o.team with
    | none => .next s
    | some t =>
      if s.posReady o t k = false then .next s
      else
        let (s1, o1) := s.scatterPos o t k
        .next (s1.positionsEnd o1 t [k])

/-! ## Shadow windows, R143 -/

/-- The fields of `shbind`'s pool entry. -/
structure BindForm where
  w : Nat
  x : Nat
  t : Nat
  e : Nat
  ok : Bool
  deriving DecidableEq, Repr

def bindForm (v : Nat) : BindForm := ⟨fld v 0 7, fld v 7 7, fld v 14 7, fld v 21 4, decide (fld v 25 39 = 0)⟩

/-- The scalars of `shbind`. -/
def BindForm.uses (f : BindForm) : List Use :=
  [rdS f.w 0, rdS (f.w + 1) 0] ++ (List.range 5).map (fun i => rdS (f.x + i) 1) ++ (List.range 3).map (fun i => rdS (f.t + i) 2)

/-- Two windows meet. -/
def Window.meets (a b : Window) : Bool :=
  decide (a.wbase < b.wbase + b.nidx * b.esz) && decide (b.wbase < a.wbase + a.nidx * a.esz)

/-- The SHAPE subcodes of `shbind` in their order; 0 when none applies. -/
def Window.sub (w : Window) (p : Part) (thi : Nat) : Nat :=
  let eOk := w.esz == 1 || w.esz == 2 || w.esz == 4 || w.esz == 8
  let past := fun (a n : Nat) => decide (2 ^ 57 < a + n)
  if w.wbase % 65536 ≠ 0 ∨ w.idx % 4 ≠ 0 ∨ w.stat % 8 ≠ 0 ∨ (w.esz ≠ 0 ∧ w.base % w.esz ≠ 0) then 1
  else if w.nidx = 0 ∨ w.tlen = 0 ∨ 2 ^ 30 < w.nidx * w.esz then 2
  else if past w.wbase (w.nidx * w.esz) || past w.idx (4 * w.nidx) || past w.stat 8 || past w.base (w.tlen * w.esz) then 5
  else if thi / 2 ^ 25 ≠ 0 ∨ eOk = false then 6
  else if p.shsize = 0 ∨ w.wbase < p.shbase ∨ p.shbase + p.shsize * 2 ^ 30 < w.wbase + w.nidx * w.esz then 8
  else if p.windows.any (fun o => o.meets w) then 9
  else if 1024 ≤ p.windows.length then 10
  else 0

/-- R143: `shbind`: the checks, the status word written zero once the slices' earlier accesses are performed, and the
binding. -/
def execShbind (_c : Bool) (ix : Nat) (s : State) : Host.Outcome State Fault Refusal :=
  let us := fun (c : Ctx) => match c.poolEntry s ix with
    | .ok v => (bindForm v).uses
    | .error _ => []
  word s us noMore (fun c s => do
    let v ← c.poolEntry s ix
    let f := bindForm v
    if f.ok = false then .error (.t 0x01 (infoSub 6)) else .ok ()
    c.check s f.uses
    let x := fun (n : Nat) => (c.scal n).toNat
    let w : Window := ⟨c.pair f.w, c.pair f.x, x (f.x + 2), c.pair (f.x + 3), x f.t + x (f.t + 1) % 2 ^ 25 * 2 ^ 32,
      x (f.t + 2), f.e⟩
    let shape := w.sub (s.part c.t.part) (x (f.t + 1))
    if shape ≠ 0 then .error (.t 0x0C (info43 0 1 shape 0 0)) else .ok ()
    c.chkMemLock s true true 8 [oneAccess w.stat]
    let ws ← c.translateAll s true true 8 rightsW [oneAccess w.stat]
    c.chkFence s 5
    let s1 := match ws with
      | (_, .at_ pa tag) :: _ =>
        (s.writeSector tag ((bytesLE 8 0).zipIdx.map (fun (e : Byte × Nat) => (pa + e.2, e.1)))).access c.t.part c.t.core pa 32 true
      | _ => s
    let p := s1.part c.t.part
    .ok ((s1.putPart c.t.part { p with windows := p.windows ++ [w] }).adv c 1))

/-- R143: `shbind.off`. -/
def execShbindOff (_c : Bool) (ix : Nat) (s : State) : Host.Outcome State Fault Refusal :=
  let scals := fun (v : Nat) => [rdS (fld v 0 7) 0, rdS (fld v 0 7 + 1) 0]
  let us := fun (c : Ctx) => match c.poolEntry s ix with
    | .ok v => scals v
    | .error _ => []
  word s us noMore (fun c s => do
    let v ← c.poolEntry s ix
    if fld v 7 57 ≠ 0 then .error (.t 0x01 (infoSub 6)) else .ok ()
    c.check s (scals v)
    let p := s.part c.t.part
    let base := c.pair (fld v 0 7)
    if p.windows.any (fun w => w.wbase == base) = false then .error (.t 0x0C (info43 0 1 11 0 0)) else .ok ()
    .ok ((s.putPart c.t.part { p with windows := p.windows.filter (fun w => w.wbase != base) }).adv c 1))

end Sys2Proof.Machine
end

