-- ==== Sys2Proof/Machine/Lane.lean ====
section
/-! DEFINITION. Indexed Palette access and lane exchange, major 01011 (R248 to R251, R44 to R46, R363). -/

namespace Sys2Proof.Machine

open Sys2Proof

/-- An element that a lane reaches by an index: its row and the lane it stands in. -/
structure Touch where
  lane : Nat
  loc : Loc
  el : Nat
  deriving DecidableEq, Repr

/-- The element of a touch. -/
def Ctx.touched (c : Ctx) (t : Touch) : Elem := palGet c.pal c.t.core (c.rowOf t.loc) t.el

/-- TRAPINFO for the touches that offend, if any: the row of the first in lane order, and every lane (R43). -/
def touchStop (code sub opnd : Nat) (l : List Touch) : Option Stop :=
  match l with
  | [] => none
  | t :: _ => some (.t code (info43 t.loc.space opnd sub t.loc.num (lanesMask (l.map (fun t => t.lane)))))

/-- UNINIT of elements read by an index (R42). -/
def Ctx.touchUninit (c : Ctx) (l : List Touch) : Option Stop :=
  touchStop 0x04 0 0 (l.filter (fun t => !(c.touched t).valid))

/-- OPND of an element reached by an index: 0, or 3 where it is written (R43, R235). -/
def touchOpnd (wr : Bool) : Nat := if wr then 3 else 0

/-- PEND (R54). -/
def Ctx.touchPend (c : Ctx) (s : State) (wr : Bool) (l : List Touch) : Option Stop :=
  touchStop 0x05 1 (touchOpnd wr) (l.filter (fun t => match t.loc with
    | .v n => s.rowPending c.t.id c.g.num n
    | _ => false))

/-- LOCK (R56): 1 a read under a destination lock, 2 a write under one, 3 a write under a source lock. -/
def Ctx.touchLock (c : Ctx) (s : State) (wr : Bool) (l : List Touch) : Option Stop :=
  let bad := l.filter (fun t => s.destLocked c.t.core (c.rowOf t.loc) || (wr && s.srcLocked c.t.core (c.rowOf t.loc)))
  match bad with
  | [] => none
  | t :: _ => touchStop 0x06 (if !wr then 1 else if s.destLocked c.t.core (c.rowOf t.loc) then 2 else 3) (touchOpnd wr) bad

/-- The row that lane `l` names: element `l` of row `i` plus the offset (R44). -/
def Ctx.idxRow (c : Ctx) (i : Nat) (off : Int) (l : Nat) : Int := ((c.vec i l).toNat : Int) + off

/-- The rows an index may name: the frame's vector rows, or with W the team rows. -/
def Ctx.idxLim (c : Ctx) (w : Nat) : Nat := if w = 1 then c.t.kernel.trows else c.g.vrows
def idxLoc (w n : Nat) : Loc := if w = 1 then .w n else .v n

/-- The lanes whose element of an index row is valid: only such an element names a row or lane (DESIGN CHOICE, log entry 140). -/
def Ctx.named (c : Ctx) (i : Nat) : List Nat := c.lanes.filter (fun l => (c.elem (.v i) l).valid)

/-- R46, subcode 1: the lanes whose row is out of range; OPND is 3 where the row is written. ROW has 16 bits: of a row that is negative
or does not fit them it holds the low 16 (DESIGN CHOICE, log entry 151). -/
def Ctx.rowBound (c : Ctx) (wr : Bool) (w i : Nat) (off : Int) : Option Stop :=
  let bad := (c.named i).filter (fun l => decide (c.idxRow i off l < 0) || decide ((c.idxLim w : Int) ≤ c.idxRow i off l))
  match bad with
  | [] => none
  | l :: _ => some (.t 0x07 (info43 (if w = 1 then 2 else 0) (touchOpnd wr) 1 (wrap 16 (c.idxRow i off l)) (lanesMask bad)))

/-- R46, subcode 2: the lanes whose lane element has a bit of [31:5], or in protected mode of [31:4] (R368). -/
def Ctx.laneBound (c : Ctx) (j : Nat) : Option Stop :=
  let bad := (c.named j).filter (fun l => decide ((if c.t.prot then 16 else 32) ≤ (c.vec j l).toNat))
  if bad.isEmpty then none else some (.t 0x07 (info43 0 1 2 j (lanesMask bad)))

/-- The checks of an indexed word in the order of R235: BOUND of the direct names and of the indices, UNINIT, PEND, LOCK. Where one word
meets both a row bound and a lane bound, subcode 1 is raised (DESIGN CHOICE, log entry 140). -/
def Ctx.chkIndexed (c : Ctx) (s : State) (us : List Use) (bounds : List (Option Stop)) (wr : Bool) (ts : List Touch) :
    Except Stop Unit := do
  c.chkBound us
  firstStop bounds
  c.chkUninit us
  firstStop [if wr then none else c.touchUninit ts]
  c.chkPend s us
  firstStop [c.touchPend s wr ts]
  c.chkLock s us
  firstStop [c.touchLock s wr ts]

/-- The reads of touches, for the settling of errors: a lane consumes what it reads. -/
def Ctx.touchRefs (c : Ctx) (l : List Touch) : List ERef :=
  l.map (fun t => ⟨c.rowOf t.loc, t.el, some t.lane, 0, t.loc.space, t.loc.num⟩)

/-- The touches of `vget` and `vput`: each lane its own element. -/
def Ctx.ownTouches (c : Ctx) (w i : Nat) (off : Int) : List Touch :=
  c.lanes.filterMap (fun l =>
    if 0 ≤ c.idxRow i off l ∧ c.idxRow i off l < (c.idxLim w : Int) then
      some ⟨l, idxLoc w (c.idxRow i off l).toNat, l⟩
    else none)

/-- The physical lane that a lane value reaches: itself, or in protected mode 2v + (L mod 2) (R368). -/
def Ctx.laneOf (c : Ctx) (j l : Nat) : Nat :=
  if c.t.prot then 2 * ((c.vec j l).toNat % 16) + l % 2 else (c.vec j l).toNat % 32

/-- The touches of `xread` and `xwrite`: lane J[L] of row I[L]; with `live`, only of source
lanes that are live in `g`, the group as the word was issued (R360, R363). -/
def Ctx.crossTouches (c : Ctx) (g : Group) (w i j : Nat) (live : Bool) : List Touch :=
  c.lanes.filterMap (fun l =>
    let e := c.laneOf j l
    if (c.vec i l).toNat < c.idxLim w ∧ (live = false ∨ g.live e = true) then
      some ⟨l, idxLoc w (c.vec i l).toNat, e⟩
    else none)

/-- The value that lane `l` reads by its touch. -/
def Ctx.touchVal (c : Ctx) (ts : List Touch) (l : Nat) : Option Word :=
  (ts.find? (fun t => t.lane == l)).map (fun t => (c.touched t).val)

/-- Writes elements by touches, in ascending lane order, so that the highest lane's write stays (R45). -/
def State.putTouches (s : State) (c : Ctx) (ts : List Touch) (f : Nat → Word) : State :=
  ts.foldl (fun s t => s.putElem c.t.core (c.rowOf t.loc) t.el (Elem.of (f t.lane))) s

/-- R248: `vget`. -/
def execVgetB32 (_c : Bool) (d i w j : Nat) (s : State) : Host.Outcome State Fault Refusal :=
  let us := [rdV i 0, wrV d]
  word s (fun _ => us) (fun c => c.touchRefs (c.ownTouches w i (sext 7 j))) (fun c s => do
    let ts := c.ownTouches w i (sext 7 j)
    c.chkIndexed s us [c.rowBound false w i (sext 7 j)] false ts
    .ok ((s.putRow c d (fun l => (c.touchVal ts l).getD 0)).adv c 1))

/-- R248: `vput`; D is a source. -/
def execVputB32 (_c : Bool) (d i w j : Nat) (s : State) : Host.Outcome State Fault Refusal :=
  let us := [rdV i 0, rdV d 2]
  word s (fun _ => us) noMore (fun c s => do
    let ts := c.ownTouches w i (sext 7 j)
    c.chkIndexed s us [c.rowBound true w i (sext 7 j)] true ts
    .ok ((s.putTouches c ts (fun l => c.vec d l)).adv c 1))

/-- R249, R363: `xread`; `p6` tells the lanes that named a dead lane. -/
def execXreadB32 (_c : Bool) (d i w j : Nat) (s : State) : Host.Outcome State Fault Refusal :=
  let us := [rdV i 0, rdV j 1, wrV d]
  wordFrom s (fun _ => us) (fun c => c.touchRefs (c.crossTouches c.g w i j true)) (fun c0 c s => do
    let ts := c.crossTouches c0.g w i j true
    c.chkIndexed s us [c.rowBound false w i 0, c.laneBound j] false ts
    let s := s.putRow c d (fun l => (c.touchVal ts l).getD 0)
    .ok ((s.putPred c 6 (fun l => (c.touchVal ts l).isNone)).adv c 1))

/-- R249: `xwrite`. -/
def execXwriteB32 (_c : Bool) (d i w j : Nat) (s : State) : Host.Outcome State Fault Refusal :=
  let us := [rdV i 0, rdV j 1, rdV d 2]
  word s (fun _ => us) noMore (fun c s => do
    let ts := c.crossTouches c.g w i j false
    c.chkIndexed s us [c.rowBound true w i 0, c.laneBound j] true ts
    firstStop [c.shadow 3 (fun l => (c.vec i l, c.vec j l)), c.shadow 2 (fun l => c.vec d l)]
    .ok ((s.putTouches c ts (fun l => c.vec d l)).adv c 1))

/-- R250: the touch of a lane whose source lane is `src`: its own element beyond the edges, none when
it is dead in `g`, the group as the word was issued (R360, R363). -/
def Ctx.shflTouches (c : Ctx) (g : Group) (i : Nat) (src : Nat → Int) : List Touch :=
  c.lanes.filterMap (fun l =>
    if src l < 0 ∨ 31 < src l then some ⟨l, .v i, l⟩
    else if g.live (src l).toNat = true then some ⟨l, .v i, (src l).toNat⟩
    else none)

/-- R250, R363: a shuffle with source lane `src`; I's elements are checked where they are read. -/
def shuffle (s : State) (d i : Nat) (idx : List Use) (src : Ctx → Nat → Int)
    (illegal bounds : Ctx → List (Option Stop)) :
    Host.Outcome State Fault Refusal :=
  let us := ⟨.v i, 0, false, false⟩ :: idx ++ [wrV d]
  wordFrom s (fun _ => us) (fun c => c.touchRefs (c.shflTouches c.g i (src c))) (fun c0 c s => do
    let ts := c.shflTouches c0.g i (src c)
    firstStop (illegal c)
    c.chkIndexed s us (bounds c) false ts
    let s := s.putRow c d (fun l => (c.touchVal ts l).getD 0)
    .ok ((s.putPred c 6 (fun l => (c.touchVal ts l).isNone)).adv c 1))

/-- R250, OP 4. -/
def execShflIdxB32 (_c : Bool) (d i j : Nat) (s : State) : Host.Outcome State Fault Refusal :=
  shuffle s d i [rdV j 1] (fun c l => (c.laneOf j l : Nat)) (fun _ => []) (fun c => [c.laneBound j])

/-- The distance of a shuffle: in protected mode 2d, and a d of 16 or more is illegal (R368). -/
def Ctx.dist (c : Ctx) (j : Nat) : Nat := if c.t.prot then 2 * j else j
def Ctx.distOk (c : Ctx) (j : Nat) : List (Option Stop) :=
  [if c.t.prot = true ∧ 16 ≤ j then some (.t 0x01 (infoSub 3)) else none]

/-- R250, OP 5. -/
def execShflUpB32 (_c : Bool) (d i j : Nat) (s : State) : Host.Outcome State Fault Refusal :=
  shuffle s d i [] (fun c l => (l : Int) - c.dist j) (fun c => c.distOk j) (fun _ => [])

/-- R250, OP 6. -/
def execShflDownB32 (_c : Bool) (d i j : Nat) (s : State) : Host.Outcome State Fault Refusal :=
  shuffle s d i [] (fun c l => (l : Int) + c.dist j) (fun c => c.distOk j) (fun _ => [])

/-- R250, OP 7. -/
def execShflXorB32 (_c : Bool) (d i j : Nat) (s : State) : Host.Outcome State Fault Refusal :=
  shuffle s d i [] (fun c l => ((l ^^^ c.dist j : Nat) : Int)) (fun c => c.distOk j) (fun _ => [])

/-- R251, OP 8. -/
def execBallotB32 (_c : Bool) (d a : Nat) (s : State) : Host.Outcome State Fault Refusal :=
  direct s [wrS d] 1 (fun c s => s.putScal c d (BitVec.ofNat 32 (c.ballot a)))

/-- R251, OP 9. -/
def execVoteAny (_c : Bool) (d a : Nat) (s : State) : Host.Outcome State Fault Refusal :=
  direct s [] 1 (fun c s => s.putPred c d (fun _ => c.voteAny a))

/-- R251, OP 10. -/
def execVoteAll (_c : Bool) (d a : Nat) (s : State) : Host.Outcome State Fault Refusal :=
  direct s [] 1 (fun c s => s.putPred c d (fun _ => c.voteAll a))

/-- R251, OP 11. -/
def execPmovB32 (_c : Bool) (d a : Nat) (s : State) : Host.Outcome State Fault Refusal :=
  direct s [wrV d] 1 (fun c s => s.putRow c d (fun l => if c.g.pred a l then 1 else 0))

/-- R251, OP 12. -/
def execPtestB32 (_c : Bool) (d i : Nat) (s : State) : Host.Outcome State Fault Refusal :=
  direct s [rdV i 0] 1 (fun c s => s.putPred c d (fun l => decide (c.vec i l ≠ 0)))

end Sys2Proof.Machine
end

