-- ==== Sys2Proof/Machine/Inv.lean ====
section
/-! DEFINITION. The inversion prefix `inv` (R161 to R169, R254, R255) and its rounds. -/

namespace Sys2Proof.Machine

open Sys2Proof

/-! ## The prefix and its routine -/

/-- The fields of `inv`'s pool entry (R254); `ok` says that its reserved bits are zero. -/
structure InvForm where
  x : Nat
  y : Nat
  t : Nat
  lo : Nat
  dec : Bool
  ill : Bool
  trap : Bool
  tol : Nat
  lim : Nat
  pv : Nat
  pl : Nat
  len : Nat
  ok : Bool
  deriving DecidableEq, Repr

def invForm (v : Nat) : InvForm :=
  ⟨fld v 0 7, fld v 7 7, fld v 14 7, fld v 21 7, nbit v 28, nbit v 29, nbit v 30, fld v 31 5, fld v 36 6 + 1, fld v 42 3,
    fld v 45 3, fld v 48 4, decide (fld v 52 12 = 0)⟩

/-- R161, R254: the fields are within their limits. -/
def InvForm.legal (f : InvForm) : Bool :=
  decide (f.len ≠ 0) && decide (f.pv ≠ 7) && decide (f.pl ≠ 7) && decide (f.pv ≠ f.pl) && decide (f.lo ≠ 127) &&
    decide ([f.x, f.y, f.t, f.lo, f.lo + 1].Nodup)

/-- A routine word: its destination, its first operand row, its second operand (BS and number), whether it reads its
destination, and what it computes from MODE and the three values. -/
structure Rout where
  d : Nat
  a : Nat
  b : Option (Nat × Nat)
  usesD : Bool
  f : Nat → Word → Word → Word → Word

/-- R255: the INV-legal words. -/
def routine (i : Instr) : Option Rout :=
  match i with
  | .vAddN32 _ d a bs b => some ⟨d, a, some (bs, b), false, fun _ x y _ => addW x y⟩
  | .vSubN32 _ d a bs b => some ⟨d, a, some (bs, b), false, fun _ x y _ => subW x y⟩
  | .vMulN32 _ d a bs b => some ⟨d, a, some (bs, b), false, fun _ x y _ => mulW x y⟩
  | .vMulhiN32 _ d a bs b => some ⟨d, a, some (bs, b), false, fun _ x y _ => mulhiN x y⟩
  | .vMulhiS32 _ d a bs b => some ⟨d, a, some (bs, b), false, fun _ x y _ => mulhiS x y⟩
  | .vAndB32 _ d a bs b => some ⟨d, a, some (bs, b), false, fun _ x y _ => andW x y⟩
  | .vOrB32 _ d a bs b => some ⟨d, a, some (bs, b), false, fun _ x y _ => orW x y⟩
  | .vXorB32 _ d a bs b => some ⟨d, a, some (bs, b), false, fun _ x y _ => xorW x y⟩
  | .vShlB32 _ d a bs b => some ⟨d, a, some (bs, b), false, fun _ x y _ => shlW x y⟩
  | .vShrN32 _ d a bs b => some ⟨d, a, some (bs, b), false, fun _ x y _ => shrN x y⟩
  | .vShrS32 _ d a bs b => some ⟨d, a, some (bs, b), false, fun _ x y _ => shrS x y⟩
  | .vMinN32 _ d a bs b => some ⟨d, a, some (bs, b), false, fun _ x y _ => minN x y⟩
  | .vMinS32 _ d a bs b => some ⟨d, a, some (bs, b), false, fun _ x y _ => minS x y⟩
  | .vMaxN32 _ d a bs b => some ⟨d, a, some (bs, b), false, fun _ x y _ => maxN x y⟩
  | .vMaxS32 _ d a bs b => some ⟨d, a, some (bs, b), false, fun _ x y _ => maxS x y⟩
  | .vAddsatS32 _ d a bs b => some ⟨d, a, some (bs, b), false, fun _ x y _ => addsatS x y⟩
  | .viAddN32 _ d a (.short i) => some ⟨d, a, none, false, fun _ x _ _ => addW x (immS7 (.short i))⟩
  | .viSubN32 _ d a (.short i) => some ⟨d, a, none, false, fun _ x _ _ => subW x (immS7 (.short i))⟩
  | .viMulN32 _ d a (.short i) => some ⟨d, a, none, false, fun _ x _ _ => mulW x (immS7 (.short i))⟩
  | .viMulhiN32 _ d a (.short i) => some ⟨d, a, none, false, fun _ x _ _ => mulhiN x (immZ (.short i))⟩
  | .viMulhiS32 _ d a (.short i) => some ⟨d, a, none, false, fun _ x _ _ => mulhiS x (immS7 (.short i))⟩
  | .viAndB32 _ d a (.short i) => some ⟨d, a, none, false, fun _ x _ _ => andW x (immZ (.short i))⟩
  | .viOrB32 _ d a (.short i) => some ⟨d, a, none, false, fun _ x _ _ => orW x (immZ (.short i))⟩
  | .viXorB32 _ d a (.short i) => some ⟨d, a, none, false, fun _ x _ _ => xorW x (immZ (.short i))⟩
  | .viShlB32 _ d a (.short i) => some ⟨d, a, none, false, fun _ x _ _ => shlW x (immZ (.short i))⟩
  | .viShrN32 _ d a (.short i) => some ⟨d, a, none, false, fun _ x _ _ => shrN x (immZ (.short i))⟩
  | .viShrS32 _ d a (.short i) => some ⟨d, a, none, false, fun _ x _ _ => shrS x (immZ (.short i))⟩
  | .viMinN32 _ d a (.short i) => some ⟨d, a, none, false, fun _ x _ _ => minN x (immZ (.short i))⟩
  | .viMinS32 _ d a (.short i) => some ⟨d, a, none, false, fun _ x _ _ => minS x (immS7 (.short i))⟩
  | .viMaxN32 _ d a (.short i) => some ⟨d, a, none, false, fun _ x _ _ => maxN x (immZ (.short i))⟩
  | .viMaxS32 _ d a (.short i) => some ⟨d, a, none, false, fun _ x _ _ => maxS x (immS7 (.short i))⟩
  | .faddF32 _ d a bs b => some ⟨d, a, some (bs, b), false, fun m x y _ => word2 (fp32.fadd m) x y⟩
  | .fsubF32 _ d a bs b => some ⟨d, a, some (bs, b), false, fun m x y _ => word2 (fp32.fsub m) x y⟩
  | .fmulF32 _ d a bs b => some ⟨d, a, some (bs, b), false, fun m x y _ => word2 (fp32.fmul m) x y⟩
  | .fminF32 _ d a bs b => some ⟨d, a, some (bs, b), false, fun m x y _ => word2 (fp32.minmax false m) x y⟩
  | .fmaxF32 _ d a bs b => some ⟨d, a, some (bs, b), false, fun m x y _ => word2 (fp32.minmax true m) x y⟩
  | .fcpsgnF32 _ d a bs b => some ⟨d, a, some (bs, b), false, fun _ x y _ => copySign x y⟩
  | .fabsF32 _ d a => some ⟨d, a, none, false, fun _ x _ _ => x &&& 0x7FFFFFFF#32⟩
  | .fnegF32 _ d a => some ⟨d, a, none, false, fun _ x _ _ => x ^^^ 0x80000000#32⟩
  | .fmaF32 _ d a bs b => some ⟨d, a, some (bs, b), true, fun m x y z => word3 (fp32.fma false m) x y z⟩
  | .fnmaF32 _ d a bs b => some ⟨d, a, some (bs, b), true, fun m x y z => word3 (fp32.fma true m) x y z⟩
  | _ => none

/-- The routine of a list of words, as far as they are INV-legal. -/
def routines (words : List Nat) : List Rout :=
  words.filterMap (fun w => match decodeMain 0 w 0 with
    | .ok i => routine i
    | .illegal _ => none)

/-- The rows, and the scalars, that a routine word reads. -/
def Rout.rows (r : Rout) : List Nat :=
  r.a :: ((match r.b with
    | some (0, n) => [n]
    | _ => []) ++ (if r.usesD then [r.d] else []))

def Rout.scals (r : Rout) : List Nat :=
  match r.b with
  | some (0, _) => []
  | some (_, n) => [n]
  | none => []

/-- The rows that a routine reads before it writes them, x excepted (R162). -/
def neededRows (x : Nat) (rs : List Rout) : List Nat :=
  (rs.foldl (fun (acc : List Nat × List Nat) r =>
    (acc.1 ++ [r.d], acc.2 ++ r.rows.filter (fun n => !acc.1.contains n))) ([x], [])).2.dedup

/-- A slot of a routine: its number in its packet, its word and the word after it in the packet. -/
structure Slot where
  at_ : Nat
  word : Nat
  next : Nat
  deriving DecidableEq, Repr

/-- R177: the word takes the slot after it as a literal: what it decodes to depends on that slot. -/
def Slot.takesNext (w : Slot) : Bool := decide (w.at_ < 2) && decide (decodeMain w.at_ w.word 0 ≠ decodeMain w.at_ w.word 1)

/-- The slots that hold words: a literal slot is never decoded, and its bit 31 is data (R177). -/
def wordSlots : Bool → List Slot → List Slot
  | _, [] => []
  | true, _ :: rest => wordSlots false rest
  | false, w :: rest => w :: wordSlots w.takesNext rest

/-- The words of the `m` slots after a place; the code must be fetched. -/
def Ctx.wordsAfter (c : Ctx) (s : State) (m : Nat) : Except Stop (List Slot) := do
  let l ← (List.range m).mapM (fun k => do
    let p := c.pc.add (k + 1)
    let i ← c.fetch s (c.t.packetVa p.packet) 12
    .ok (⟨p.slot, i.word p.slot, if p.slot < 2 then i.word (p.slot + 1) else 0⟩ : Slot))
  .ok (wordSlots false l)

/-! ## Words that are no instruction beyond their decoding, R183 -/

/-- The pool entry that a word names, and whether the reserved bits of one are zero (R178). -/
def poolForm (i : Instr) : Option (Nat × (Nat → Bool)) :=
  match i with
  | .exportSwatch _ ix => some (ix, fun v => (exportForm v).ok)
  | .gather _ ix => some (ix, fun v => (gatherForm false v).ok)
  | .scatter _ ix => some (ix, fun v => (gatherForm true v).ok)
  | .shbind _ ix => some (ix, fun v => (bindForm v).ok)
  | .shbindOff _ ix => some (ix, fun v => decide (fld v 7 57 = 0))
  | .inv _ ix => some (ix, fun v => (invForm v).ok)
  | _ => none

/-- The shuffles whose distance a protected team may not use (R368). -/
def Ctx.chkDist (c : Ctx) (i : Instr) : Except Stop Unit :=
  match i with
  | .shflUpB32 _ _ _ j => firstStop (c.distOk j)
  | .shflDownB32 _ _ _ j => firstStop (c.distOk j)
  | .shflXorB32 _ _ _ j => firstStop (c.distOk j)
  | _ => .ok ()

/-- R183: what is decided with the decoding though the word alone does not show it: the selection of a header field coded 15, the
index and the reserved bits of a pool entry, the distance of a shuffle in a protected team. -/
def Ctx.chkForm (c : Ctx) (s : State) (i : Instr) : Except Stop Unit := do
  c.chkFlag (flagSel i)
  c.chkDist i
  match poolForm i with
  | none => .ok ()
  | some (ix, ok) =>
    if c.t.kernel.pooln ≤ ix then .error (.t 0x01 (infoSub 6))
    else match c.poolEntry s ix with
      | .ok v => if ok v then .ok () else .error (.t 0x01 (infoSub 6))
      | .error (.wait w) => .error (.wait w)
      | .error _ => .ok ()

/-- R162 check 4: every word is an instruction, INV-legal, and writes what it may. -/
def Ctx.chkRoutine (c : Ctx) (s : State) (f : InvForm) (ws : List Slot) : Except Stop (List Rout) := do
  let dec := ws.map (fun w => decodeMain w.at_ w.word w.next)
  firstStop (dec.map (fun d => match d with
    | .illegal sub => some (.t 0x01 (infoSub sub))
    | .ok i => match c.chkForm s i with
      | .error e => some e
      | .ok _ => none))
  do
    let rs := dec.filterMap (fun d => match d with
      | .ok i => routine i
      | .illegal _ => none)
    let wr := rs.map (fun r => r.d)
    if rs.length = ws.length ∧ [f.x, f.t, f.lo, f.lo + 1].all (fun n => !wr.contains n) = true ∧ wr.contains f.y = true then
      .ok rs
    else .error (.t 0x01 (infoSub 8))

/-! ## Arithmetic of the bracket, R164, R165 -/

/-- The order of FP32 values that are no NaN, −0 equal to +0. -/
def fpOrd (v : Nat) : Int := if nbit v 31 then -((v % 2 ^ 31 : Nat) : Int) else (v % 2 ^ 31 : Nat)

/-- A finite FP32 value in units of 2⁻¹⁴⁹. -/
def fpFix (v : Nat) : Int :=
  match fp32.val v with
  | .fin neg n d => (if neg then -1 else 1) * ((n * 2 ^ 149 / d : Nat) : Int)
  | _ => 0

def fpFinite (v : Nat) : Bool :=
  match fp32.val v with
  | .fin _ _ _ => true
  | _ => false

/-- A fraction of units of 2⁻¹⁴⁹ rounded RNE to FP32, subnormals kept. -/
def fpRound (n d : Int) : Nat :=
  let v := n * d.sign
  fp32.result 0 (.fin (decide (v < 0)) v.natAbs (d.natAbs * 2 ^ 149))

/-- R164: before(a, b). -/
def InvForm.before (f : InvForm) (a b : Nat) : Bool :=
  if f.dec then decide (fpOrd b < fpOrd a) else decide (fpOrd a < fpOrd b)

/-- A point strictly inside the bracket. -/
def inside (lo hi m : Nat) : Bool := decide (fpOrd lo < fpOrd m) && decide (fpOrd m < fpOrd hi)

/-- R165: candidate(). -/
def InvForm.candidate (f : InvForm) (st : InvLane) (lo hi : Nat) : Option Nat :=
  let mid := fpRound (fpFix lo + fpFix hi) 2
  let bis := if inside lo hi mid then some mid else none
  let gl := st.glo.toNat
  let gh := st.ghi.toNat
  if f.ill = false ∨ fpFinite gl = false ∨ fpFinite gh = false ∨ fpOrd gl = fpOrd gh then bis
  else
    let d := fpFix gh - fpFix gl
    let m := fpRound (fpFix hi * d - fpFix gh * (fpFix hi - fpFix lo)) d
    if inside lo hi m then some m else bis

/-- The tolerance test of R164. -/
def InvForm.close (f : InvForm) (lo hi : Nat) : Bool :=
  decide ((fpFix hi - fpFix lo) * 2 ^ f.tol ≤ (max (max (fpFix lo).natAbs (fpFix hi).natAbs) (2 ^ 23) : Nat))

/-- How a lane stands before its first evaluation. -/
def startLane (l t lo hi : Nat) : InvLane :=
  let st : InvLane := ⟨l, 0, 0, 0, 0, 0, 0, false, false, false, false⟩
  if fp32.isNan t then { st with u := true, fin := true }
  else if fpFinite lo = false ∨ fpFinite hi = false ∨ fpOrd hi < fpOrd lo then { st with v := true, malformed := true, fin := true }
  else st

/-- Half of a residual, rounded RNE (R165). -/
def halve (g : Word) : Word := BitVec.ofNat 32 (fp32.fmul 0 g.toNat 0x3F000000)

/-- A residual y − t, rounded RNE. -/
def residual (y t : Nat) : Word := BitVec.ofNat 32 (fp32.fsub 0 y t)

/-- R164, R165: a narrowing step. -/
def InvForm.narrow (f : InvForm) (st : InvLane) (t lo hi m y : Nat) : InvLane × Nat × Nat :=
  let w := BitVec.ofNat 32 y
  let g := residual y t
  let (st1, lo1, hi1) :=
    if f.before y t then
      ({ st with ylo := w, glo := g, ghi := if st.side = 1 then halve st.ghi else st.ghi, side := 1 }, m, hi)
    else ({ st with yhi := w, ghi := g, glo := if st.side = 2 then halve st.glo else st.glo, side := 2 }, lo, m)
  if f.close lo1 hi1 then ({ st1 with fin := true }, lo1, hi1)
  else if st1.n = f.lim then ({ st1 with u := true, fin := true }, lo1, hi1)
  else (st1, lo1, hi1)

/-- R164 after the evaluation of `round` at `m` with value `y`: the lane's state and its bracket. -/
def InvForm.evaluated (f : InvForm) (round : Nat) (st : InvLane) (t lo hi m y : Nat) : InvLane × Nat × Nat :=
  let bad := ({ st with v := true, fin := true }, lo, hi)
  let ylo := st.ylo.toNat
  match round with
  | 0 =>
    if fp32.isNan y then bad
    else if fpOrd y = fpOrd t then ({ st with fin := true }, lo, lo)
    else ({ st with ylo := BitVec.ofNat 32 y }, lo, hi)
  | 1 =>
    if fp32.isNan y = true ∨ f.before y ylo = true then bad
    else if fpOrd y = fpOrd t then ({ st with fin := true }, hi, hi)
    else if f.before t ylo = true ∨ f.before y t = true then ({ st with u := true, fin := true }, lo, hi)
    else ({ st with yhi := BitVec.ofNat 32 y, glo := residual ylo t, ghi := residual y t, side := 0, n := 0 }, lo, hi)
  | _ =>
    let st := { st with n := st.n + 1 }
    if fp32.isNan y = true ∨ f.before y ylo = true ∨ f.before st.yhi.toNat y = true then
      ({ st with v := true, fin := true }, lo, hi)
    else if fpOrd y = fpOrd t then ({ st with fin := true }, m, m)
    else f.narrow st t lo hi m y

/-- After the second evaluation a lane with no candidate strictly inside its bracket finishes (R165). -/
def InvForm.settleLane (f : InvForm) (round : Nat) (e : InvLane × Nat × Nat) : InvLane :=
  if 1 ≤ round ∧ e.1.fin = false ∧ (f.candidate e.1 e.2.1 e.2.2).isNone = true then { e.1 with fin := true } else e.1

/-! ## `inv` at issue, R162, R163 -/

/-- What `inv` names: the rows it reads and the rows it writes, and the scalars it reads. -/
def InvForm.writes (f : InvForm) (rs : List Rout) : List Nat := ([f.x, f.y, f.lo, f.lo + 1] ++ rs.map (fun r => r.d)).dedup
def InvForm.reads (f : InvForm) (rs : List Rout) : List Nat := ([f.t, f.lo, f.lo + 1] ++ neededRows f.x rs).dedup
def routScals (rs : List Rout) : List Nat := (rs.flatMap (fun r => r.scals)).dedup

/-- The elements that its lanes read. -/
def InvForm.uses (f : InvForm) (rs : List Rout) : List Use :=
  (routScals rs).map (fun n => rdS n 1) ++ (f.reads rs).map (fun n => rdV n 0)

/-- R163: the locks: destination locks on the rows written, source locks on the other rows read. -/
def InvForm.locks (f : InvForm) (c : Ctx) (rs : List Rout) : List Lock :=
  let wr := f.writes rs
  let src := ((f.t :: rs.flatMap (fun r => r.rows)).filter (fun n => !wr.contains n)).dedup
  let one := fun (dest : Bool) (n : Nat) => (⟨c.t.core, 0, c.t.id, false, c.g.vecRow n, c.g.vecRow n, dest, none⟩ : Lock)
  wr.map (one true) ++ src.map (one false)

/-- The pool entry and the routine of an `inv` whose checks up to the fourth pass. -/
def Ctx.invRoutine (c : Ctx) (s : State) (chain : Bool) (ix : Nat) : Except Stop (InvForm × Nat × List Nat × List Rout) := do
  let v ← c.poolEntry s ix
  let f := invForm v
  if f.ok = false then .error (.t 0x01 (infoSub 6)) else .ok ()
  if f.legal = false then .error (.t 0x01 (infoSub 4)) else .ok ()
  let last := c.pc.add f.len
  if (c.g.slice (c.sl.headD 0)).hdrEnd ≤ last.packet then .error (.t 0x03 (infoSub 4)) else .ok ()
  let ws ← c.wordsAfter s f.len
  if chain = true ∨ ws.any (fun w => nbit w.word 31) = true then .error (.t 0x02 (infoSub 5)) else .ok ()
  let rs ← c.chkRoutine s f ws
  .ok (f, v, ws.map (fun w => w.word), rs)

/-- R181, R183: in a chain too a word that is no instruction is found with the decoding: `chkForm`, and of an `inv` its fields and its
routine. -/
def Ctx.chkChained (c : Ctx) (s : State) (i : Instr) : Except Stop Unit := do
  c.chkForm s i
  match i with
  | .inv k ix => match c.invRoutine s k ix with
    | .error (.wait w) => .error (.wait w)
    | .error (.trap code info f) => if code = 0x01 then .error (.trap code info f) else .ok ()
    | .ok _ => .ok ()
  | _ => .ok ()

/-- The rows that an `inv` reads and does not write, t among them: no party changes them while it runs (R163), and it sees them as its
issue found them (R182). -/
def InvForm.inputs (f : InvForm) (rs : List Rout) : List Nat := (f.reads rs).filter (fun n => !(f.writes rs).contains n)

/-- R162, R163: `inv` checks, locks its rows and starts; its rounds follow. -/
def execInv (chain : Bool) (ix : Nat) (s : State) : Host.Outcome State Fault Refusal :=
  let us := fun (c : Ctx) => match c.invRoutine s chain ix with
    | .ok (f, _, _, rs) => f.uses rs
    | .error _ => []
  word s us noMore (fun c s => do
    let (f, v, ws, rs) ← c.invRoutine s chain ix
    let wr := (f.writes rs).map wrV
    let place := fun (n : Nat) => (⟨.v n, if (f.writes rs).contains n then 3 else 0, true, false⟩ : Use)
    let named := sortBy (fun a b => decide (a < b)) (f.writes rs ++ f.t :: rs.flatMap (fun r => r.rows)).dedup
    c.chkBound (named.map place)
    c.chkBound ((routScals rs).map (fun n => rdS n 1))
    let needScal := (routScals rs).map (fun n => rdS n 1)
    let needRows := (sortBy (fun a b => decide (a < b)) (f.reads rs)).map (fun n => rdV n 0)
    c.chkUninit (needScal ++ needRows)
    c.chkPend s (needRows ++ wr ++ needScal)
    c.chkLock s (needRows ++ wr)
    let ls := f.locks c rs
    if s.lockRoom c.t.core ls.length = false then .error (.wait (.room (.locks ls.length))) else .ok ()
    let lane := fun (l : Nat) => startLane l (c.vec f.t l).toNat (c.vec f.lo l).toNat (c.vec (f.lo + 1) l).toNat
    let lanes := c.lanes.map lane
    let st : InvState := ⟨c.sl, s.nextId, v, ws, c.g.mode, (routScals rs).map (fun n => (n, c.scal n)),
      (f.inputs rs).map (fun n => (n, allLanes.map (fun l => c.vec n l))), 0,
      if lanes.all (fun x => x.fin) then 0 else ws.length + 2, lanes⟩
    let s1 : State := { s with nextId := s.nextId + 1, locks := s.locks ++ ls.map (fun l => { l with op := s.nextId }) }
    .ok (s1.modG c (fun g => Group.modCand { g with inv := g.inv ++ [st] } c.sl
      (fun d => { d with wait := .inv s.nextId, failed := [] }))))

/-! ## Rounds, R168 -/

/-- The running `inv` of a number. -/
def Group.invOf (g : Group) (k : Nat) : Option InvState := g.inv.find? (fun v => decide (v.lock = k))

/-- The running `inv` of the candidate that holds a slice; once all its lanes have died, the one whose slices held it. -/
def Group.invAt (g : Group) (slice : Nat) : Option InvState :=
  match (g.cand? slice).map (fun (c : Cand) => c.wait) with
  | some (Wait.inv k) => g.invOf k
  | _ => g.inv.find? (fun v => v.slices.contains slice && !g.cands.any (fun c => decide (c.wait = .inv v.lock)))

/-- Changes, or with `none` ends, the running `inv` of a number. -/
def Group.putInv (g : Group) (k : Nat) (v : Option InvState) : Group :=
  { g with inv := g.inv.filterMap (fun w => if w.lock = k then v else some w) }

/-- The element of a row that an `inv` reads in a lane: of a pure input as it was at issue (R163, R182). -/
def State.invCell (s : State) (core : Nat) (g : Group) (iv : InvState) (l n : Nat) : Word :=
  match iv.ins.find? (fun e => decide (e.1 = n)) with
  | some e => e.2.getD l 0
  | none => (palGet s.pal core (g.vecRow n) l).val

/-- One evaluation of the routine in a lane: x is written, the words run in order, y is read; a scalar is as it was at issue
(R163). -/
def State.evalLane (s : State) (core : Nat) (g : Group) (f : InvForm) (iv : InvState) (rs : List Rout) (l m : Nat) : State × Nat :=
  let val := fun (s : State) (n : Nat) => s.invCell core g iv l n
  let scal := fun (n : Nat) => ((iv.scals.find? (fun e => decide (e.1 = n))).map (fun e => e.2)).getD 0
  let s0 := s.putElem core (g.vecRow f.x) l (Elem.of (BitVec.ofNat 32 m))
  let s1 := rs.foldl (fun (s : State) r =>
    let y := match r.b with
      | some (0, n) => val s n
      | some (_, n) => scal n
      | none => 0
    s.putElem core (g.vecRow r.d) l (Elem.of (r.f iv.mode (val s r.a) y (val s r.d)))) s0
  (s1, (val s1 f.y).toNat)

/-- A lane's turn in a round: its evaluation at lo, at hi or at its candidate, and the bracket's narrowing. -/
def State.laneRound (s : State) (core : Nat) (g : Group) (f : InvForm) (iv : InvState) (rs : List Rout) (st : InvLane) :
    State × InvLane :=
  let cell := fun (n : Nat) => (s.invCell core g iv st.lane n).toNat
  let lo := cell f.lo
  let hi := cell (f.lo + 1)
  let m := if iv.round = 0 then lo else if iv.round = 1 then hi else (f.candidate st lo hi).getD lo
  let (s1, y) := s.evalLane core g f iv rs st.lane m
  let e := f.evaluated iv.round st (cell f.t) lo hi m y
  let s2 := if e.2.1 = lo then s1 else s1.putElem core (g.vecRow f.lo) st.lane (Elem.of (BitVec.ofNat 32 e.2.1))
  let s3 := if e.2.2 = hi then s2 else s2.putElem core (g.vecRow (f.lo + 1)) st.lane (Elem.of (BitVec.ofNat 32 e.2.2))
  (s3, f.settleLane iv.round e)

/-- The elements that the running lanes read in a round. -/
def InvForm.roundRefs (f : InvForm) (g : Group) (rs : List Rout) (lanes : List Nat) : List ERef :=
  (f.reads rs).flatMap (fun n => lanes.map (fun l => ⟨g.vecRow n, l, some l, 0, 0, n⟩))

/-- R166, R167: every lane has finished: the predicates, the locks, the word after the routine, and TRAP_MONO. -/
def State.invEnds (s : State) (team n : Nat) (g : Group) (f : InvForm) (iv : InvState) : State :=
  let live := iv.lanes.filter (fun st => g.live st.lane)
  let lanes := live.map (fun st => st.lane)
  let has := fun (p : InvLane → Bool) (l : Nat) => live.any (fun st => st.lane == l && p st)
  let open_ : State := { s with locks := s.locks.filter (fun l => l.op != iv.lock) }
  match g.cands.find? (fun c => decide (c.wait = .inv iv.lock)) with
  | none => (open_.putGroup team (g.putInv iv.lock none)).tryEnter team n
  | some c =>
    let lead := c.slices.headD 0
    let pc := ((g.slice lead).pc).add (1 + f.len)
    let g1 := ((g.setPred f.pv lanes (has (fun st => st.v))).setPred f.pl lanes (has (fun st => st.u))).complete c.slices pc
    let g2 := (g1.putInv iv.lock none).modCand c.slices (fun d => { d with wait := .ready })
    let s1 := open_.putGroup team g2
    let bad := live.filter (fun st => st.v)
    if f.trap = true ∧ bad.isEmpty = false then
      let sub := (if bad.any (fun st => !st.malformed) then 1 else 0) + (if bad.any (fun st => st.malformed) then 2 else 0)
      (s1.raise team n ⟨0x11, info43 0 0 sub 0 (lanesMask (bad.map (fun st => st.lane))), pc,
        ((g2.candFor c.slices).map (fun c => c.slices)).getD c.slices⟩).tryEnter team n
    else s1.tryEnter team n

/-- The evaluations of a round, whose issue cycles have been: every lane still running evaluates the routine once. -/
def State.invRound (s : State) (t : Team) (group : Nat) (iv0 : InvState) : State :=
  let f := invForm iv0.entry
  let rs := routines iv0.words
  let lanes := (iv0.lanes.filter (fun st => !st.fin)).map (fun st => st.lane)
  let s0 := match t.group? group with
    | some g => s.settle t.id group t.core (f.roundRefs g rs lanes)
    | none => s
  match s0.group? t.id group with
  | none => s0
  | some g => match g.invOf iv0.lock with
    | none => s0
    | some iv =>
      let (s1, ls) := iv.lanes.foldl (fun (acc : State × List InvLane) st =>
        if st.fin then (acc.1, acc.2 ++ [st])
        else
          let (s', st') := acc.1.laneRound t.core g f iv rs st
          (s', acc.2 ++ [st'])) (s0, [])
      let iv1 := { iv with lanes := ls, round := iv.round + 1, left := iv.words.length + 2 }
      let g1 := g.putInv iv.lock (some iv1)
      if ls.all (fun st => st.fin) then s1.invEnds t.id group g1 f iv1 else s1.putGroup t.id g1

/-- R168: one round of a running `inv` ends, once its m + 2 cycles have issued; with no lane left running the instruction
completes. A round that has begun ends before its team stops (R169). -/
def execInvRound (team group slice : Nat) (s : State) : Host.Outcome State Fault Refusal :=
  match s.team? team with
  | none => .next s
  | some t => match t.group? group with
    | none => .next s
    | some g => match g.invAt slice with
      | none => .next s
      | some iv =>
        if (iv.left ≠ 0 ∧ g.cands.any (fun c => decide (c.wait = .inv iv.lock)) = true) ∨ t.engaged = false then .next s
        else .next (s.invRound t group iv)

end Sys2Proof.Machine
end

