-- ==== Sys2Proof/Machine/Stream.lean ====
section
/-! DEFINITION. The matrix stream: its frame, its traps (R118, R276), its short words (R278 to R282, R287, R127 to
R132), and the return of a code fetch (R217, R275). -/

namespace Sys2Proof.Machine

open Sys2Proof

/-! ## The frame of a stream word -/

/-- Why a stream word does not issue: a stream trap, or a wait. -/
inductive StreamStop where
  | trap (code info : Nat)
  | wait (w : StreamWait)
  deriving DecidableEq, Repr

/-- The team and stream that a word belongs to. -/
structure SCtx where
  t : Team
  st : Stream
  deriving DecidableEq, Repr

/-- The issuing stream. -/
def State.sctx? (s : State) : Option SCtx :=
  match s.cur.who with
  | .stream team => (s.team? team).bind (fun t => t.stream.map (fun st => ⟨t, st⟩))
  | _ => none

/-- Changes a team's stream. -/
def State.modStream (s : State) (team : Nat) (f : Stream → Stream) : State :=
  s.modTeam team (fun t => { t with stream := t.stream.map f })

/-- R118: a stream trap kills the team; the record names GROUP 0xFF and the stream address, and TICK is 0. -/
def State.streamTrap (s : State) (team : Nat) (pc : Pc) (code info : Nat) : State :=
  s.kill team 0xFF code pc.word 0 info 0

/-- What becomes of a stream word. -/
def State.streamEnds (s : State) (c : SCtx) (r : Except StreamStop State) : State :=
  match r with
  | .ok s' => s'
  | .error (.trap code info) => s.streamTrap c.t.id c.st.pc code info
  | .error (.wait w) => s.modStream c.t.id (fun st => { st with wait := w })

/-- The meaning of a stream word. -/
def sword (s : State) (body : SCtx → Except StreamStop State) : Host.Outcome State Fault Refusal :=
  match s.sctx? with
  | none => .fault .noIssuer
  | some c => .next (s.streamEnds c (body c))

/-- The word is issued: the stream stands at `pc`, and its age counts from now (R277). -/
def Stream.issued (st : Stream) (pc : Pc) (now : Nat) : Stream := { st with pc := pc, wait := .ready, stamp := now }

/-- The stream goes on with the next word. -/
def State.snext (s : State) (c : SCtx) : State := s.modStream c.t.id (fun st => st.issued (st.pc.add 1) (s.clk (dieOf c.t.core)))

/-- The stream goes to the packet OFF packets from its own (R281). -/
def State.sgoto (s : State) (c : SCtx) (off : Nat) : State :=
  s.modStream c.t.id (fun st => st.issued ⟨wrap 32 ((st.pc.packet : Int) + sext 16 off), 0⟩ (s.clk (dieOf c.t.core)))

/-! ## Stream scalars -/

def Stream.val (st : Stream) (n : Nat) : Nat := sget 0 st.q n
def Stream.valid (st : Stream) (n : Nat) : Bool := st.qvalid.getLsbD n

/-- A scalar written and valid. -/
def Stream.put (st : Stream) (n v : Nat) : Stream :=
  { st with q := sset 0 st.q n (v % 2 ^ 32), qvalid := st.qvalid ||| BitVec.ofNat 64 (2 ^ n) }

/-- A scalar written and not valid. -/
def Stream.lose (st : Stream) (n v : Nat) : Stream :=
  { st with q := sset 0 st.q n (v % 2 ^ 32), qvalid := st.qvalid &&& ~~~ BitVec.ofNat 64 (2 ^ n) }

def State.putQ (s : State) (c : SCtx) (n v : Nat) : State := s.modStream c.t.id (fun st => st.put n v)

/-- R276 check 2: scalars that are read must be valid; names past `q63` read none. -/
def SCtx.chkQ (c : SCtx) (l : List Nat) : Except StreamStop Unit :=
  match l.find? (fun n => decide (n < 64) && !c.st.valid n) with
  | some n => .error (.trap 0x04 (info43 0 0 0 n 0))
  | none => .ok ()

/-- R276 check 3. -/
def chkValue (ok : Bool) : Except StreamStop Unit := if ok then .ok () else .error (.trap 0x01 (infoSub 4))

/-- R276 check 4, for a name. -/
def chkName (ok : Bool) (n : Nat) : Except StreamStop Unit := if ok then .ok () else .error (.trap 0x07 (info43 0 0 3 n 0))

def SCtx.chkBar (c : SCtx) (n : Nat) : Except StreamStop Unit := chkName (decide (n < c.t.kernel.bars)) n

/-- The core tile behind a name. -/
def Team.tile (t : Team) (n : Nat) : Option Nat := t.tiles.getD n none

def SCtx.chkTile (c : SCtx) (n : Nat) : Except StreamStop Unit := chkName (c.t.tile n).isSome n

/-- First core row of a core tile (R36). -/
def tileBase (k : Nat) : Nat := 12288 + 512 * k

/-- The first core row of the tile behind a name. -/
def Team.tileRow (t : Team) (n : Nat) : Nat := tileBase ((t.tile n).getD 0)

/-! ## Scalar words, R278 to R280 -/

/-- R281. -/
def execMnop (s : State) : Host.Outcome State Fault Refusal := sword s (fun c => .ok (s.snext c))

/-- R278: a scalar word on two operands. -/
def qword (s : State) (d a b : Nat) (f : Nat → Nat → Nat) : Host.Outcome State Fault Refusal :=
  sword s (fun c => do
    c.chkQ [a, b]
    .ok ((s.putQ c d (f (c.st.val a) (c.st.val b))).snext c))

/-- R278, OP 0. -/
def execQmov (d a : Nat) (s : State) : Host.Outcome State Fault Refusal := qword s d a a (fun x _ => x)

/-- R278, OP 1. -/
def execQadd (d a b : Nat) (s : State) : Host.Outcome State Fault Refusal := qword s d a b (fun x y => x + y)

/-- R278, OP 2. -/
def execQsub (d a b : Nat) (s : State) : Host.Outcome State Fault Refusal := qword s d a b (fun x y => x + 2 ^ 32 - y)

/-- R278, OP 3. -/
def execQmul (d a b : Nat) (s : State) : Host.Outcome State Fault Refusal := qword s d a b (fun x y => x * y)

/-- R278, OP 4. -/
def execQand (d a b : Nat) (s : State) : Host.Outcome State Fault Refusal := qword s d a b (fun x y => x &&& y)

/-- R278, OP 5. -/
def execQor (d a b : Nat) (s : State) : Host.Outcome State Fault Refusal := qword s d a b (fun x y => x ||| y)

/-- R278, OP 6. -/
def execQshl (d a b : Nat) (s : State) : Host.Outcome State Fault Refusal := qword s d a b (fun x y => x * 2 ^ (y % 32))

/-- R278, OP 7. -/
def execQshr (d a b : Nat) (s : State) : Host.Outcome State Fault Refusal := qword s d a b (fun x y => x / 2 ^ (y % 32))

/-- R279. -/
def execQli (d i : Nat) (s : State) : Host.Outcome State Fault Refusal := sword s (fun c => .ok ((s.putQ c d i).snext c))

/-- R279: the upper half written; the lower half of a scalar that is not valid becomes zero. -/
def execQlih (d i : Nat) (s : State) : Host.Outcome State Fault Refusal :=
  sword s (fun c =>
    let low := if c.st.valid d then c.st.val d % 2 ^ 16 else 0
    .ok ((s.putQ c d (i * 2 ^ 16 + low)).snext c))

/-- R280: an element of a team row as the cycle finds it (R86), with its valid bit; one repaired from a mirror makes SOFT 2 pending
(R367). An uncorrectable element gives a scalar that is not valid (log entry 60). -/
def execQrd (d w l : Nat) (s : State) : Host.Outcome State Fault Refusal :=
  sword s (fun c => do
    let row := c.t.teamBase + w
    chkName (decide (w < c.t.kernel.trows)) w
    if s.destLocked c.t.core row then .error (.trap 0x06 (infoSub 4)) else .ok ()
    match s.readElem c.t.core row l with
    | (s1, some x, repaired) =>
      let e := if repaired then x else palGet (s.seen c.t.core) c.t.core row l
      let s2 := if repaired then s1.softTeam c.t.id 2 w else s1
      .ok ((s2.modStream c.t.id (fun st => if e.valid then st.put d e.val.toNat else st.lose d e.val.toNat)).snext c)
    | (s1, none, _) => .ok ((s1.modStream c.t.id (fun st => st.lose d 0)).snext c))

/-! ## Barriers and flow, R130, R281, R282 -/

/-- Long words run in the background (R117). -/
def Op.isLong (o : Op) (team : Nat) : Bool := !o.kind.counted && decide (o.team = team)

/-- How many long words of a team's stream are outstanding. -/
def State.longCount (s : State) (team : Nat) : Nat := (s.ops.filter (fun o => o.isLong team)).length

/-- R130: `mwait`, without a time limit. The barrier's row is checked at every reading (R361, R365), also when the word waits on. -/
def execMwait (n k : Nat) (s : State) : Host.Outcome State Fault Refusal :=
  sword s (fun c => do
    c.chkQ [k]
    c.chkBar n
    let s1 := s.readBarrier c.t n
    let b := ((s1.team? c.t.id).map (fun t => t.barrier n)).getD Barrier.fresh
    if b.reached (c.st.val k % 16) then .ok (s1.snext c) else .ok (s1.modStream c.t.id (fun st => { st with wait := .phase })))

/-- R130: `marrive` once every earlier word has completed. -/
def execMarrive (n : Nat) (s : State) : Host.Outcome State Fault Refusal :=
  sword s (fun c => do
    c.chkBar n
    if s.longCount c.t.id = 0 then .ok ((s.modBarrier c.t.id n Barrier.arrive).snext c) else .error (.wait .arrive))

/-- R130: `mloop`. -/
def execMloop (d o : Nat) (s : State) : Host.Outcome State Fault Refusal :=
  sword s (fun c => do
    c.chkQ [d]
    let v := (c.st.val d + 2 ^ 32 - 1) % 2 ^ 32
    let s1 := s.putQ c d v
    .ok (if v = 0 then s1.snext c else s1.sgoto c o))

/-- R132: the kept blocks, in ascending order. -/
def keptBlocks (qblk w : Nat) (anchors : List Nat) : List Nat :=
  (List.range (qblk + 1)).filter (fun b => decide (qblk < b + w) || anchors.contains b)

/-- The query block of the mask in force. -/
def Stream.qblk (st : Stream) : Nat := st.mblk.getD 0 0 % 2 ^ 16

/-- R131, R132: the kept blocks that are still to be given. -/
def Stream.keep (st : Stream) : List Nat :=
  match st.mblk with
  | a :: b :: l =>
    let anchor := fun (h : Nat) => l.getD (h / 2) 0 / 2 ^ (16 * (h % 2)) % 2 ^ 16
    (keptBlocks (a % 2 ^ 16) (a / 2 ^ 16) ((List.range (b % 32)).map anchor)).drop st.iter
  | _ => []

/-- R132, R281: `mkeep`. -/
def execMkeep (d o : Nat) (s : State) : Host.Outcome State Fault Refusal :=
  sword s (fun c => do
    chkName (decide (d ≠ 63)) d
    match c.st.keep with
    | [] => .ok (s.sgoto c o)
    | k :: _ =>
      let s1 := (s.putQ c d k).putQ c (d + 1) (if k = c.st.qblk then 1 else 0)
      .ok ((s1.modStream c.t.id (fun st => { st with iter := st.iter + 1 })).snext c))

/-- R281. -/
def execMjmp (o : Nat) (s : State) : Host.Outcome State Fault Refusal := sword s (fun c => .ok (s.sgoto c o))

/-- R281, R117: the stream's fetch ends. -/
def execMend (s : State) : Host.Outcome State Fault Refusal :=
  sword s (fun c => .ok ((s.snext c).modStream c.t.id (fun st => { st with ended := true })))

/-! ## Tiles, R127, R128 -/

/-- A core tile that no team of the core holds. -/
def State.tileFree (s : State) (core k : Nat) : Bool :=
  !(s.teams.any (fun t => decide (t.core = core) && t.onCore && t.tiles.contains (some k)))

/-- The lowest free tile of a core. -/
def State.freeTile (s : State) (core : Nat) : Option Nat := (List.range 8).find? (fun k => s.tileFree core k)

/-- R127: rows whose valid bits are cleared. -/
def wipeRows (p : Sparse Elem) (core lo n : Nat) : Sparse Elem :=
  let a := palKey core lo 0
  let b := palKey core (lo + n) 0
  (p.map (fun (e : Nat × Elem) => if a ≤ e.1 ∧ e.1 < b then (e.1, { e.2 with valid := false }) else e)).filter
    (fun e => decide (e.2 ≠ Elem.blank))

/-- R127: a free tile mapped to a name. -/
def State.mapTile (s : State) (t : Team) (n k : Nat) : State :=
  State.modTeam { s with pal := wipeRows s.pal t.core (tileBase k) 512 } t.id (fun u => { u with tiles := u.tiles.set n (some k) })

/-- The streams of a core that wait in `macq`, each with its team. -/
def State.tileWaiters (s : State) (core : Nat) : List (Team × Stream) :=
  s.teams.filterMap (fun t => if t.core = core ∧ t.runs = true then
      t.stream.bind (fun st => if st.wait = .tile then some (t, st) else none)
    else none)

/-- R127, R287: `macq`: a free tile is granted at once; among waiting streams the sequencer's order decides (R277). -/
def execMacq (t q : Nat) (s : State) : Host.Outcome State Fault Refusal :=
  sword s (fun c => do
    chkName (c.t.tile t).isNone t
    match s.freeTile c.t.core with
    | some k => .ok (((s.mapTile c.t t k).putQ c q 1).snext c)
    | none => .error (.wait .tile))

/-- A lock of the core meets some rows. -/
def State.rowsLocked (s : State) (core lo n : Nat) : Bool :=
  s.locks.any (fun l => !l.mem && decide (l.core = core) && decide (l.lo < lo + n) && decide (lo ≤ l.hi))

/-- R127, R287: `mrel`, once the tile is released by every earlier word. -/
def execMrel (t : Nat) (s : State) : Host.Outcome State Fault Refusal :=
  sword s (fun c => do
    c.chkTile t
    if s.rowsLocked c.t.core (c.t.tileRow t) 512 then .error (.wait .locks)
    else .ok ((s.modTeam c.t.id (fun u => { u with tiles := u.tiles.set t none })).snext c))

/-- The word at which a stream stands, once its packet is in the code store. -/
def State.streamOp (s : State) (t : Team) (st : Stream) : Option StreamOp :=
  match (s.codeItem (dieOf t.core) t.part t.kernel.desc (t.packetVa st.pc.packet) 12).map (fun i => decodeStreamOp (i.word st.pc.slot)) with
  | some (.ok o) => some o
  | _ => none

/-- The name and scalar of the `macq` at which a stream waits. -/
def State.macqAt (s : State) (t : Team) (st : Stream) : Option (Nat × Nat) :=
  match s.streamOp t st with
  | some (.macq n q) => some (n, q)
  | _ => none

/-- A `macq` that waited ends with `v` in its scalar. -/
def State.macqEnds (s : State) (t : Team) (q v : Nat) : State :=
  s.modStream t.id (fun st => (st.put q v).issued (st.pc.add 1) (s.clk (dieOf t.core)))

/-- A stream may issue: it has not ended, and waits for no event but a tile that is free. -/
def State.streamTries (s : State) (t : Team) (st : Stream) : Bool :=
  !st.ended && (match st.wait with
    | .tile => (s.freeTile t.core).isSome
    | .fetch _ _ => false
    | _ => true)

/-- The streams of a core that may issue, the first in the order of R277 first. -/
def State.streams (s : State) (core : Nat) : List (Team × Stream) :=
  let l := (s.teams.filter (fun t => t.runs && decide (t.core = core))).filterMap (fun t =>
    t.stream.bind (fun st => if s.streamTries t st then some (t, st) else none))
  sortBy (fun a b => lexLt [a.2.stamp, a.1.placed, a.1.id] [b.2.stamp, b.1.placed, b.1.id]) l

/-- R128: no tile is free, and every team of the core that holds one waits in `macq`. -/
def State.tileDeadlock (s : State) (core : Nat) : Bool :=
  (s.freeTile core).isNone && s.teams.all (fun t =>
    !(decide (t.core = core) && t.onCore && t.tiles.any (fun k => k.isSome)) ||
      (s.tileWaiters core).any (fun w => w.1.id == t.id))

/-- R128: the request of the youngest waiting team fails. -/
def execMacqDeadlockFail (core : Nat) (s : State) : Host.Outcome State Fault Refusal :=
  if s.tileDeadlock core = false then .next s
  else
    let young := (s.tileWaiters core).foldl (fun (a : Option (Team × Stream)) w => match a with
      | none => some w
      | some b => if b.1.placed ≤ w.1.placed then some w else some b) none
    match young with
    | none => .next s
    | some (t, st) => match s.macqAt t st with
      | some (_, q) => .next (s.macqEnds t q 0)
      | none => .next s

/-! ## Masks, R131, R132 -/

/-- R131: whether the values of the block, as far as they lie below `q64`, are in their ranges. -/
def Stream.maskOk (st : Stream) (q : Nat) : Bool :=
  let a := st.val q
  let b := st.val (q + 1)
  st.valid q && decide (1 ≤ a / 2 ^ 16) && decide (a / 2 ^ 16 ≤ 4096) &&
    (decide (q = 63) || (st.valid (q + 1) && decide (1 ≤ b / 2 ^ 16) && decide (fld b 5 11 = 0) && decide (b % 32 ≤ 16) &&
      decide (a % 2 ^ 16 < b / 2 ^ 16) &&
      (List.range (cdiv (b % 32) 2)).all (fun i => decide (64 ≤ q + 2 + i) || st.valid (q + 2 + i))))

/-- R131, R287: `mmask`. -/
def execMmask (q : Nat) (s : State) : Host.Outcome State Fault Refusal :=
  sword s (fun c => do
    chkValue (c.st.maskOk q)
    let n := c.st.val (q + 1) % 32
    chkName (decide (q + 1 + cdiv n 2 ≤ 63)) q
    let blk := (List.range (2 + cdiv n 2)).map (fun i => c.st.val (q + i))
    .ok ((s.modStream c.t.id (fun st => { st with mblk := blk, iter := 0 })).snext c))

/-! ## CODE_FETCH_RETURN, R217, R275, R308 -/

/-- A fetch of code for a candidate returns; the word is issued again, and traps on a failure. -/
def State.fetchMain (s : State) (t : Team) (g : Group) (slice va n : Nat) : State :=
  let (s1, f) := s.codeFetch t va n g.tick
  s1.modGroup t.id g.num (fun h => h.modCand [slice] (fun c =>
    { c with wait := .ready, failed := c.failed ++ (f.map (fun e => (⟨⟨va, 4⟩, e.1, e.2⟩ : Failed))).toList }))

/-- A fetch of code for a stream returns; its failure is a stream trap with subcode 7. -/
def State.fetchStream (s : State) (t : Team) (st : Stream) (va n : Nat) : State :=
  match s.codeFetch t va n 0 with
  | (s1, none) => s1.modStream t.id (fun x => { x with wait := .ready })
  | (s1, some _) => s1.streamTrap t.id st.pc 0x01 (infoSub 7)

/-- The fetch that the candidate holding a slice, or with group 32 the matrix stream, waits for returns. -/
def execCodeFetchReturn (team group slice : Nat) (s : State) : Host.Outcome State Fault Refusal :=
  match s.team? team with
  | none => .next s
  | some t =>
    if group = 32 then
      match t.stream with
      | some st => match st.wait with
        | .fetch va n => if s.codeHeld t.core t.part va n then .next s else .next (s.fetchStream t st va n)
        | _ => .next s
      | none => .next s
    else match t.group? group with
      | none => .next s
      | some g => match (g.cand? slice).map (fun (c : Cand) => c.wait) with
        | some (Wait.fetch va n) => if s.codeHeld t.core t.part va n then .next s else .next (s.fetchMain t g slice va n)
        | _ => .next s

end Sys2Proof.Machine
end

