-- ==== Sys2Proof/Machine/Matrix.lean ====
section
/-! DEFINITION. The long words of the matrix stream: `mma` with its format block and segments (R119 to R126, R283),
the tile words (R127, R129, R285, R286), outlier lists, and their completion (R277), with the power gating of the
arrays (R377). -/

namespace Sys2Proof.Machine

open Sys2Proof

/-! ## Issue of a long word (R55 to R57, R117) -/

/-- The C group in a quadrant (R18, R22). -/
def Team.cgroup (t : Team) (q : Nat) : Option Group := t.groups.find? (fun g => !g.isP && decide (g.quad = q))

/-- The core row of row `r` of C group `q`. -/
def Team.cRow (t : Team) (q r : Nat) : Nat := ((t.cgroup q).map (fun g => g.vecRow r)).getD 0

/-- A range of rows in every C frame: its first row, its length, and whether it is written. -/
structure CRange where
  lo : Nat
  n : Nat
  dest : Bool
  deriving DecidableEq, Repr

/-- R276 check 5. -/
def SCtx.chkRows (c : SCtx) (l : List CRange) : Except StreamStop Unit :=
  match l.find? (fun r => (List.range 4).any (fun q => decide (((c.t.cgroup q).map (fun g => g.vrows)).getD 0 < r.lo + r.n))) with
  | some r => .error (.trap 0x07 (info43 0 0 1 r.lo 0))
  | none => .ok ()

/-- The locks of a long word: its rows in the four C frames, its tile, its memory ranges. -/
def SCtx.locksOf (c : SCtx) (rows : List CRange) (tile : Nat) (tdest : Bool) (mems : List (Nat × Nat)) : List Lock :=
  rows.flatMap (fun r => (List.range 4).map (fun q =>
    (⟨c.t.core, 0, c.t.id, false, c.t.cRow q r.lo, c.t.cRow q r.lo + r.n - 1, r.dest, none⟩ : Lock))) ++
    [⟨c.t.core, 0, c.t.id, false, c.t.tileRow tile, c.t.tileRow tile + 511, tdest, none⟩] ++
    mems.map (fun m => memLockOf c.t m.1 m.2 false)

/-- R56: two locks conflict. -/
def Lock.conflicts (a b : Lock) : Bool :=
  decide (a.core = b.core) && decide (a.mem = b.mem) && (!a.mem || decide (a.team = b.team)) && decide (a.lo ≤ b.hi) &&
    decide (b.lo ≤ a.hi) && (a.dest || b.dest)

/-- A lock held by a long word of the team's own stream. -/
def State.ownLock (s : State) (team : Nat) (l : Lock) : Bool := s.ops.any (fun o => decide (o.id = l.op) && o.isLong team)

/-- The rows of a lock that a shadow bank holds (R52). -/
def State.shadowLock (s : State) (l : Lock) : Bool :=
  !l.mem && (List.range (l.hi + 1 - l.lo)).any (fun i => s.shadowRow l.core (l.lo + i))

/-- R276 check 6: another party's lock is a trap; the own stream's lock, a pending row, a fifth long word and a full
lock table are waits. -/
def SCtx.pass (c : SCtx) (s : State) (rows : List CRange) (locks : List Lock) : Except StreamStop Unit :=
  let met := s.locks.filter (fun l => locks.any (fun m => m.conflicts l))
  let pending := rows.any (fun r => (List.range r.n).any (fun i => (List.range 4).any (fun q =>
    match c.t.cgroup q with
    | some g => s.rowPending c.t.id g.num (r.lo + i)
    | none => false)))
  if met.any (fun l => !s.ownLock c.t.id l) ∨ locks.any (fun l => s.shadowLock l) then .error (.trap 0x06 (infoSub 4))
  else if 4 ≤ s.longCount c.t.id ∨ met.isEmpty = false ∨ pending = true ∨ s.lockRoom c.t.core locks.length = false then
    .error (.wait .locks)
  else .ok ()

/-- A long word starts; one that reaches memory waits for every access of the team that is outstanding (R96, R99). -/
def State.startLong (s : State) (c : SCtx) (kind : OpKind) (bar : Option Nat) (word pool total : Nat) (snap : List Nat)
    (tile : Nat) (memory : Bool) (locks : List Lock) : State :=
  let id := s.nextId
  let after := if memory then s.earlier c.t.id 0xFF [] 5 else []
  let o : Op := ⟨id, kind, c.t.id, 0xFF, bar, word, pool, 0, snap, [], [], tile, total, 0, 0, [], [], false,
    s.clk (dieOf c.t.core), after⟩
  { s with nextId := id + 1, ops := s.ops ++ [o], locks := s.locks ++ locks.map (fun l => { l with op := id }) }

/-- R55, R99, R127: a long word completes: its locks are released, and then its arrival is counted, if it names a
barrier. -/
def State.longEnds (s : State) (o : Op) : State := (s.finishOp o).modBar o.team o.bar Barrier.arrive

/-! ## `mma`: pool entry, format block and shape (R121, R122, R283) -/

/-- What an `mma` reads at issue: operand codes and bases, K, TRI, the block lengths, and for each scaled operand the
scale row base or the memory address. -/
structure MmaForm where
  t : Nat
  bn : Nat
  qs : Nat
  qf : Nat
  bbase : Nat
  abase : Nat
  deriving DecidableEq, Repr

def mmaForm (v : Nat) : MmaForm := ⟨fld v 42 3, fld v 36 6, fld v 30 6, fld v 24 6, fld v 12 12, fld v 0 12⟩

/-- Elements of a format in 32 bits (R119). -/
def perWord (code : Nat) : Nat := 32 / codeWidth code

/-- R120: a scaled format. -/
def scaled (code : Nat) : Bool := decide (3 ≤ code) && decide (code ≤ 10)

/-- The values that an `mma` keeps, its format block f0, f1, SUPA, SUPB, its shape, and the addresses of scales in
memory. -/
structure MmaSnap where
  f0 : Nat
  f1 : Nat
  supa : Nat
  supb : Nat
  shape : Nat
  adra : Nat
  adrb : Nat
  deriving DecidableEq, Repr

def MmaSnap.list (m : MmaSnap) : List Nat := [m.f0, m.f1, m.supa, m.supb, m.shape, m.adra, m.adrb]

def mmaSnap (l : List Nat) : MmaSnap :=
  let w := fun (i : Nat) => l.getD i 0
  ⟨w 0, w 1, w 2, w 3, w 4, w 5, w 6⟩

def MmaSnap.klen (m : MmaSnap) : Nat := m.shape % 2 ^ 13
def MmaSnap.tri (m : MmaSnap) : Bool := nbit m.shape 16

/-- Operand A, or B: its code, whether its scales come from memory, block length, scale row base, superscale. -/
structure Side where
  code : Nat
  mem : Bool
  bl : Nat
  scl : Nat
  sup : Nat
  adr : Nat
  base : Nat
  deriving DecidableEq, Repr

def MmaSnap.side (m : MmaSnap) (f : MmaForm) (b : Bool) : Side :=
  if b then ⟨fld m.f0 4 4, nbit m.f0 13, 16 * 2 ^ fld m.f0 10 2, fld m.f1 16 12, m.supb, m.adrb, f.bbase⟩
  else ⟨fld m.f0 0 4, nbit m.f0 12, 16 * 2 ^ fld m.f0 8 2, fld m.f1 0 12, m.supa, m.adra, f.abase⟩

/-- The first scalar of the pair with the address of the scales, if they come from memory: the fields of codes 0 to 2 alone are
ignored (R121). DESIGN CHOICE (log entry 132): the bits of the field above the pair's number are ignored, and so are bits [31:25]
of the pair's second scalar. -/
def Side.pair (x : Side) : List Nat := if 3 ≤ x.code ∧ x.mem = true then [x.scl % 64] else []

/-- R124: the segment length. -/
def segLen (a b : Side) : Nat :=
  match scaled a.code, scaled b.code with
  | true, true => min a.bl b.bl
  | true, false => a.bl
  | false, true => b.bl
  | false, false => 32

/-- Rows of an operand and of its scales (R119, R120). -/
def Side.ranges (x : Side) (klen : Nat) : List CRange :=
  ⟨x.base, klen / perWord x.code, false⟩ ::
    (if scaled x.code = true ∧ x.mem = false then [⟨x.scl, cdiv (klen / x.bl) 4, false⟩] else [])

/-- The bytes of scales in memory. -/
def Side.mems (x : Side) (klen : Nat) : List (Nat × Nat) :=
  if scaled x.code = true ∧ x.mem = true then [(x.adr, 128 * (klen / x.bl))] else []

/-- R123 checks 2 and 3: reserved fields, format codes, K. -/
def MmaSnap.legal (m : MmaSnap) (a b : Side) : Bool :=
  decide (m.f0 / 2 ^ 14 = 0) && decide (fld m.f1 28 4 = 0) && decide (fld m.f1 12 4 = 0) && decide (m.shape / 2 ^ 17 = 0) &&
    decide (fld m.shape 13 3 = 0) && decide (a.code ≤ 10) && decide (b.code ≤ 10) && decide (32 ≤ m.klen) &&
    decide (m.klen ≤ 4096) && decide (m.klen % 32 = 0) && (!scaled a.code || decide (m.klen % a.bl = 0)) &&
    (!scaled b.code || decide (m.klen % b.bl = 0))

/-- The stream's pool entry (R178, R283): past the pool, subcode 6; not fetched yet, a wait. -/
def SCtx.poolEntry (c : SCtx) (s : State) (ix : Nat) : Except StreamStop Nat :=
  let va := c.t.kernel.pool + 8 * ix
  if c.t.kernel.pooln ≤ ix then .error (.trap 0x01 (infoSub 6))
  else match s.codeItem (dieOf c.t.core) c.t.part c.t.kernel.desc va 8 with
    | some i => .ok (i.val % 2 ^ 64)
    | none => .error (.wait (.fetch va 8))

/-- The values of an `mma` at issue; the addresses are those of the pairs (R121). -/
def Stream.mmaSnap (st : Stream) (f : MmaForm) : MmaSnap :=
  let v := fun (n : Nat) => if n < 64 then st.val n else 0
  let m : MmaSnap := ⟨v f.qf, v (f.qf + 1), v (f.qf + 2), v (f.qf + 3), v f.qs, 0, 0⟩
  let adr := fun (x : Side) => match x.pair with
    | n :: _ => v n + v (n + 1) % 2 ^ 25 * 2 ^ 32
    | [] => 0
  { m with adra := adr (m.side f false), adrb := adr (m.side f true) }

/-- The rows and the locks of an `mma` with pool entry `v`. -/
def SCtx.mmaRanges (c : SCtx) (v : Nat) : List CRange × List Lock :=
  let f := mmaForm v
  let m := c.st.mmaSnap f
  let a := m.side f false
  let b := m.side f true
  let rows := a.ranges m.klen ++ b.ranges m.klen
  (rows, c.locksOf rows f.t true (a.mems m.klen ++ b.mems m.klen))

/-- R123, R283: `mma` at issue. -/
def execMma (i : Nat) (s : State) : Host.Outcome State Fault Refusal :=
  sword s (fun c => do
    let v ← c.poolEntry s i
    let f := mmaForm v
    if v / 2 ^ 45 = 0 then .ok () else .error (.trap 0x01 (infoSub 6))
    c.chkQ ((List.range 4).map (fun k => f.qf + k) ++ [f.qs])
    let m := c.st.mmaSnap f
    let a := m.side f false
    let b := m.side f true
    let pairs := if f.qf + 1 < 64 then a.pair ++ b.pair else []
    c.chkQ (pairs.flatMap (fun n => [n, n + 1]))
    chkValue (m.legal a b)
    chkName (decide (f.qf ≤ 60)) f.qf
    chkName (pairs.all (fun n => decide (n ≤ 62))) 63
    c.chkTile f.t
    c.chkBar f.bn
    let (rows, locks) := c.mmaRanges v
    c.chkRows rows
    let mems := a.mems m.klen ++ b.mems m.klen
    c.pass s rows locks
    let core := s.core c.t.core
    let s1 := s.putCore c.t.core { core with lastMma := s.clk (dieOf c.t.core) }
    .ok ((s1.startLong c .mma (some f.bn) (0x10000000 + i) v (m.klen / segLen a b) m.list f.t (!mems.isEmpty) locks).snext c))

/-! ## The data of a segment, R125 -/

/-- MUNINIT and OLFULL (R125). -/
def codeMuninit : Nat := 0x20
def codeOlfull : Nat := 0x21

/-- An element that a long word reads: its quadrant, core row, frame or tile row, and lane. -/
structure MRef where
  q : Nat
  row : Nat
  num : Nat
  lane : Nat
  tile : Bool
  deriving DecidableEq, Repr

/-- FINFO of MUNINIT. -/
def MRef.finfo (r : MRef) (seg : Nat) : Nat :=
  seg * 2 ^ 32 + r.num % 2 ^ 16 * 2 ^ 16 + r.lane * 2 ^ 11 + r.q * 2 ^ 9 + r.tile.toNat * 2 ^ 8 + 3

/-- Reads an element for the arrays or a tile path (R365, R367): an element repaired from its mirror makes SOFT 2
pending for the C group of its quadrant (log entry 61). -/
def State.matRead (s : State) (t : Team) (r : MRef) : State × Option Elem :=
  match s.readElem t.core r.row r.lane with
  | (s1, e, false) => (s1, e)
  | (s1, e, true) =>
    match t.cgroup r.q with
    | some g => (s1.modGroup t.id g.num (fun h => h.addSoft 2 0 0 r.num), e)
    | none => (s1, e)

/-- R125: the first element of a list that cannot be used: MUNINIT for one that is not valid, POISON for one that is
uncorrectable (R361), with FINFO. -/
def State.firstBad (s : State) (t : Team) (seg : Nat) : List MRef → State × Option (Nat × Nat)
  | [] => (s, none)
  | r :: rest =>
    match s.matRead t r with
    | (s1, none) => (s1, some (codePoison, xfinfo 0 3))
    | (s1, some e) => if e.valid then s1.firstBad t seg rest else (s1, some (codeMuninit, r.finfo seg))

/-- Rows of the four C frames, in ascending quadrant, row and lane. -/
def frameRefs (t : Team) (lo n : Nat) : List MRef :=
  (List.range 4).flatMap (fun q => (List.range n).flatMap (fun i => allLanes.map (fun l =>
    (⟨q, t.cRow q (lo + i), lo + i, l, false⟩ : MRef))))

/-- The rows of a tile; with TRI without the elements that it excludes (R122). -/
def tileRefs (t : Team) (tile : Nat) (tri : Bool) : List MRef :=
  (List.range 512).flatMap (fun r => (allLanes.filter (fun l => !tri || decide (r % 128 ≤ 32 * (r / 128) + l))).map (fun l =>
    (⟨r / 128, t.tileRow tile + r, r, l, true⟩ : MRef)))

/-- The rows that segment `seg` of `g` elements of K reads of one operand, and its scale row. -/
def Side.refs (x : Side) (t : Team) (g seg : Nat) : List MRef :=
  let e := perWord x.code
  let r0 := seg * g / e
  frameRefs t (x.base + r0) (((seg + 1) * g - 1) / e + 1 - r0) ++
    (if scaled x.code = true ∧ x.mem = false then frameRefs t (x.scl + seg * g / x.bl / 4) 1 else [])

/-- Element `k` of lane vector `i` of an operand (R119). -/
def State.operandVal (s : State) (t : Team) (x : Side) (i k : Nat) : Val :=
  let e := perWord x.code
  codeVal x.code (elemAt x.code (k % e) (palGet s.pal t.core (t.cRow (i / 32) (x.base + k / e)) (i % 32)).val)

/-- The address of lane vector `i`'s scale of block `b` in memory (R120). -/
def Side.scaleVa (x : Side) (klen i b : Nat) : Nat := x.adr + i * (klen / x.bl) + b

/-- The first lane vector whose scale in memory cannot be read: its code, FINFO and fault record. -/
def State.scaleFault (s : State) (t : Team) (x : Side) (klen b : Nat) : Option SecFault :=
  if scaled x.code = true ∧ x.mem = true then
    (List.range 128).findSome? (fun i => match s.engineRead t 4 (x.scaleVa klen i b) 1 with
      | .error f => some f
      | .ok _ => none)
  else none

/-- The sectors of a block's scales in memory have been read. -/
def State.noteScales (s : State) (t : Team) (x : Side) (klen b : Nat) : State :=
  if scaled x.code = true ∧ x.mem = true then
    (((List.range 128).map (fun i => x.scaleVa klen i b / 32 * 32)).dedup).foldl (fun (s : State) va => s.noteSector t va) s
  else s

/-- A scale in memory is held on its way (R346, R347). -/
def State.scaleHeld (s : State) (t : Team) (x : Side) (klen b : Nat) : Bool :=
  scaled x.code && x.mem && (List.range 128).any (fun i => s.engineHeld t (x.scaleVa klen i b) 1)

/-- The scale of lane vector `i` in a block (R120, R189, R190). -/
def State.scaleVal (s : State) (t : Team) (x : Side) (klen i b : Nat) : Val :=
  let byte := if x.mem then (match s.engineRead t 4 (x.scaleVa klen i b) 1 with
      | .ok v => v
      | .error _ => 0)
    else (palGet s.pal t.core (t.cRow (i / 32) (x.scl + b / 4)) (i % 32)).val.toNat / 256 ^ (b % 4) % 256
  cvtScale x.code (scaled x.code) byte x.sup

/-! ## The sum of a segment, R124 -/

/-- The exact sum of some products: a zero keeps the sign of the products when every one is a zero of that sign. -/
def sumVals (l : List Val) : Val :=
  match l with
  | [] => .fin false 0 1
  | v :: rest => rest.foldl (Val.add 0) v

/-- D + s · scaleA · scaleB, rounded once under RNE with subnormals kept. -/
def mmaElem (d : Nat) (a b : List Val) (sa sb : Val) : Nat :=
  let s := sumVals (a.zipWith Val.mul b)
  fp32.result 0 (Val.add 0 (fp32.val d) (Val.mul (Val.mul s sa) sb))

/-- One segment applied to the tile (R124). -/
def State.applySegment (s : State) (t : Team) (o : Op) (seg : Nat) : State :=
  let m := mmaSnap o.snap
  let f := mmaForm o.pool
  let a := m.side f false
  let b := m.side f true
  let g := segLen a b
  let ks := (List.range g).map (fun k => seg * g + k)
  let va := (List.range 128).map (fun i => ks.map (fun k => s.operandVal t a i k))
  let vb := (List.range 128).map (fun j => ks.map (fun k => s.operandVal t b j k))
  let sa := (List.range 128).map (fun i => s.scaleVal t a m.klen i (seg * g / a.bl))
  let sb := (List.range 128).map (fun j => s.scaleVal t b m.klen j (seg * g / b.bl))
  (List.range 128).foldl (fun (s : State) i => (List.range 128).foldl (fun (s : State) j =>
    if m.tri = true ∧ i < j then s
    else
      let row := t.tileRow o.tile + 128 * (i / 32) + j
      let d := (palGet s.pal t.core row (i % 32)).val.toNat
      let v := mmaElem d (va.getD i []) (vb.getD j []) (sa.getD i .nan) (sb.getD j .nan)
      s.putElem t.core row (i % 32) (Elem.of (BitVec.ofNat 32 v))) s) s

/-- R125: the first fault of a segment: its code and FINFO, and the fault record of a scale in memory. DESIGN CHOICE (log entry
133): an element that cannot be used comes before a scale in memory that cannot be read, and A's scales come before B's. -/
def State.segmentFault (s : State) (t : Team) (o : Op) (seg : Nat) : State × Option (Nat × Nat × Option FaultRec) :=
  let m := mmaSnap o.snap
  let f := mmaForm o.pool
  let a := m.side f false
  let b := m.side f true
  let g := segLen a b
  match s.firstBad t seg (a.refs t g seg ++ b.refs t g seg ++ tileRefs t o.tile m.tri) with
  | (s1, some (code, fi)) => (s1, some (code, fi, none))
  | (s1, none) => match s1.scaleFault t a m.klen (seg * g / a.bl) with
    | some e => (s1.noteSector t e.va, some (e.code, xfinfo e.va 3, e.rec_))
    | none => match s1.scaleFault t b m.klen (seg * g / b.bl) with
      | some e => (s1.noteSector t e.va, some (e.code, xfinfo e.va 3, e.rec_))
      | none => ((s1.noteScales t a m.klen (seg * g / a.bl)).noteScales t b m.klen (seg * g / b.bl), none)

/-- A scale that the next segment reads from memory is held on its way. -/
def State.segmentHeld (s : State) (t : Team) (o : Op) : Bool :=
  let m := mmaSnap o.snap
  let a := m.side (mmaForm o.pool) false
  let b := m.side (mmaForm o.pool) true
  let k := o.unitsDone * segLen a b
  s.scaleHeld t a m.klen (k / a.bl) || s.scaleHeld t b m.klen (k / b.bl)

/-- R277: the `mma` that the arrays of a core run. -/
def State.runningMma (s : State) (core : Nat) : Option Op :=
  s.ops.find? (fun o => decide (o.kind = .mma) && (match s.team? o.team with
    | some t => decide (t.core = core) && t.runs
    | none => false))

/-- An `mma` that reads scales from memory, which wait for what happens before its issue (R99). -/
def Op.readsMemory (o : Op) : Bool :=
  let m := mmaSnap o.snap
  let x := m.side (mmaForm o.pool)
  !((x false).mems m.klen ++ (x true).mems m.klen).isEmpty

/-- R377: the gated arrays of a core start their ramp. -/
def Core.wake (k : Core) (now : Nat) : Core :=
  { k with
    ramp := k.ramp.mapIdx (fun i r => if k.gated.getD i false then now + 256 else r)
    gated := k.gated.map (fun _ => false) }

/-- R124, R125: one segment of an `mma` is checked and applied; the last one, or the first that faults, completes the
word. A gated array ramps up first (R377). -/
def execMmaSegment (op : Nat) (s : State) : Host.Outcome State Fault Refusal :=
  match s.op? op with
  | none => .next s
  | some o => match s.team? o.team with
    | none => .next s
    | some t =>
      let k := s.core t.core
      let now := s.clk (dieOf t.core)
      if (s.runningMma t.core).map (fun p => p.id) ≠ some op ∨ k.ramp.any (fun r => decide (now < r)) = true ∨
          (o.readsMemory = true ∧ (s.opReady o = false ∨ s.segmentHeld t o = true)) then .next s
      else if k.gated.any id then .next (s.putCore t.core (k.wake now))
      else
        let s0 := s.putCore t.core { k with lastMma := now }
        match s0.segmentFault t o o.unitsDone with
        | (s1, some (code, fi, rec_)) =>
          let s2 := match rec_ with
            | some r => s1.opFault o r
            | none => s1
          .next ((s2.noteOp o code fi).longEnds { o with faulted := true })
        | (s1, none) =>
          let o' := { o with unitsDone := o.unitsDone + 1 }
          let s2 := s1.applySegment t o o.unitsDone
          .next (if o'.unitsDone < o.total then s2.putOp o' else s2.longEnds o')

/-- R377: an array that has run no `mma` for 4,096 ACLK is gated. -/
def execArrayPowerGate (core quad : Nat) (s : State) : Host.Outcome State Fault Refusal :=
  let k := s.core core
  if k.lastMma + 4096 ≤ s.clk (dieOf core) ∧ (s.runningMma core).isNone = true then
    .next (s.putCore core { k with gated := k.gated.set quad true })
  else .next s

/-! ## Tile words, R127, R129, R285, R286 -/

/-- The tile word's encoding, kept for a saved image. -/
def tileWord (minor t v q n : Nat) : Nat := 0x14000000 + minor * 2 ^ 22 + t * 2 ^ 19 + v * 2 ^ 12 + q * 2 ^ 6 + n

/-- R127: `mzero`. -/
def execMzero (t : Nat) (s : State) : Host.Outcome State Fault Refusal :=
  sword s (fun c => do
    c.chkTile t
    let locks := c.locksOf [] t true []
    c.pass s [] locks
    .ok ((s.startLong c .mzero none (tileWord 0 t 0 0 0) 0 1 [] t false locks).snext c))

/-- The rows that an `mload` of format `w` reads, and that an `mstore` writes (R127, R129). -/
def mloadRows (v w : Nat) : List CRange := [⟨v, 128 / perWord w, false⟩]
def mstoreRows (v w : Nat) : List CRange := [⟨v, 128 / perWord (w % 16), true⟩]

/-- R285: `mload`. -/
def execMload (t v q n : Nat) (s : State) : Host.Outcome State Fault Refusal :=
  sword s (fun c => do
    c.chkQ [q]
    let w := c.st.val q
    chkValue (decide (w ≤ 2))
    c.chkTile t
    c.chkBar n
    let rows := mloadRows v w
    c.chkRows rows
    let locks := c.locksOf rows t true []
    c.pass s rows locks
    .ok ((s.startLong c .mload (some n) (tileWord 1 t v q n) 0 1 [w, v] t false locks).snext c))

/-- OVF of an output block (R129). -/
def ovfOf (w : Nat) : Nat := fld w 4 2

/-- The outlier list of an output block. -/
def olistVa (snap : List Nat) : Nat := snap.getD 2 0 + snap.getD 3 0 % 2 ^ 25 * 2 ^ 32

/-- R286 check 2. -/
def storeLegal (snap : List Nat) : Bool :=
  let w := snap.getD 0 0
  decide (w / 2 ^ 11 = 0) && decide (w % 16 ≤ 4) && decide (ovfOf w ≠ 3) &&
    (decide (ovfOf w ≠ 2) || (decide (snap.getD 2 0 % 16 = 0) && decide (snap.getD 3 0 / 2 ^ 25 = 0) &&
      decide (1 ≤ fld w 8 3) && decide (fld w 8 3 ≤ 5)))

/-- R286: `mstore`; the values of its output block, and the first row, are kept. -/
def execMstore (t v q n : Nat) (s : State) : Host.Outcome State Fault Refusal :=
  sword s (fun c => do
    c.chkQ [q]
    let w := c.st.val q
    c.chkQ ((List.range (if ovfOf w = 2 then 3 else 1)).map (fun k => q + 1 + k))
    let val := fun (k : Nat) => if k < 64 then c.st.val k else 0
    let snap := [w, val (q + 1)] ++ (if ovfOf w = 2 then [val (q + 2), val (q + 3)] else [0, 0]) ++ [v]
    chkValue (storeLegal snap)
    chkName (decide (q ≤ 60)) q
    c.chkTile t
    c.chkBar n
    let rows := mstoreRows v w
    c.chkRows rows
    let locks := c.locksOf rows t false []
    c.pass s rows locks
    .ok ((s.startLong c .mstore (some n) (tileWord 2 t v q n) 0 1 snap t (decide (ovfOf w = 2)) locks).snext c))

/-- R127: every element of the tile +0 and valid. -/
def State.zeroTile (s : State) (t : Team) (tile : Nat) : State :=
  (List.range 512).foldl (fun (s : State) r => allLanes.foldl (fun (s : State) l =>
    s.putElem t.core (t.tileRow tile + r) l (Elem.of 0)) s) s

/-- The FP32 value of an element of format 0, 1 or 2, exactly. -/
def widenExact (code v : Nat) : Nat := if code = 0 then v else fp32.result 0 (codeVal code v)

/-- R285: the tile from the rows of the C groups. -/
def State.loadTile (s : State) (t : Team) (o : Op) : State :=
  let code := o.snap.getD 0 0
  let v := o.snap.getD 1 0
  let e := perWord code
  (List.range 128).foldl (fun (s : State) i => (List.range 128).foldl (fun (s : State) j =>
    let x := elemAt code (j % e) (palGet s.pal t.core (t.cRow (i / 32) (v + j / e)) (i % 32)).val
    s.putElem t.core (t.tileRow o.tile + 128 * (i / 32) + j) (i % 32) (Elem.of (BitVec.ofNat 32 (widenExact code x)))) s) s

/-- One element converted (R129, R198). -/
def storeElem (w mul d : Nat) : Narrow :=
  narrow (w % 16) (fld w 6 2) (ovfOf w) (Val.mul (fp32.val d) (fp32.val mul)) (.fin false 1 1)

/-- How an outlier fares: its record stands, or the element saturates; and what is recorded. -/
structure Outlier where
  s : State
  listed : Bool
  note : Option (Nat × Nat × Option FaultRec)

/-- R129: an outlier takes a slot by an atomic conditional increment of COUNT and writes its record. A list whose
header cannot be reached counts as full (log entry 62); a record that cannot be written is lost. -/
def State.takeSlot (s : State) (t : Team) (va index value : Nat) : Outlier :=
  match s.engineAccess t 4 va 3 with
  | .error e => ⟨s, false, some (e.code, xfinfo va 3, e.rec_)⟩
  | .ok (pa, tag) =>
    let s0 := s.noteSector t va
    if s.poisoned pa then ⟨s0, false, some (codePoison, xfinfo va 3, none)⟩
    else
      let cap := s.readMem tag pa 4
      let n := s.readMem tag (pa + 4) 4
      if cap ≤ n then ⟨s0, false, some (codeOlfull, index % 2 ^ 16 * 2 ^ 16 + 3, none)⟩
      else
        let s1 := (s0.writeMem tag (pa + 4) (bytesLE 4 (n + 1))).access t.part t.core pa 32 true
        let at_ := va + 16 + 8 * n
        match s1.engineAccess t 4 at_ 2 with
        | .error e => ⟨s1, true, some (e.code, xfinfo at_ 3, e.rec_)⟩
        | .ok a => ⟨s1.engineWrite t at_ a (bytesLE 8 (index + value * 2 ^ 32)), true, none⟩

/-- R125: a fault of a tile word is recorded, and its operation bears it (R55). -/
def State.noteLong (s : State) (o : Op) (code finfo : Nat) : State := (s.noteOp o code finfo).putOp { o with faulted := true }

/-- Element (i, j) of a tile. -/
def State.tileVal (s : State) (t : Team) (o : Op) (i j : Nat) : Nat :=
  (palGet s.pal t.core (t.tileRow o.tile + 128 * (i / 32) + j) (i % 32)).val.toNat

/-- The code that element (i, j) stores; an outlier goes to the list first. -/
def State.storeCode (s : State) (t : Team) (o : Op) (i j : Nat) : State × Nat :=
  let w := o.snap.getD 0 0
  let mul := o.snap.getD 1 0
  let d := s.tileVal t o i j
  match storeElem w mul d with
  | .code v => (s, v)
  | .outlier =>
    let p := Val.mul (fp32.val d) (fp32.val mul)
    let r := s.takeSlot t (olistVa o.snap) (i * 128 + j) (fp32.result 0 p)
    let s1 := match r.note with
      | none => r.s
      | some (code, fi, none) => r.s.noteLong o code fi
      | some (code, fi, some f) => (r.s.opFault o f).noteLong o code fi
    if r.listed then (s1, 0)
    else match narrow (w % 16) (fld w 6 2) 0 p (.fin false 1 1) with
      | .code v => (s1, v)
      | .outlier => (s1, 0)

/-- R129: the rows of the C groups from the tile, in ascending element index. -/
def State.storeTile (s : State) (t : Team) (o : Op) : State :=
  let code := o.snap.getD 0 0 % 16
  let e := perWord code
  let v := o.snap.getD 4 0
  (List.range 128).foldl (fun (s : State) i => (List.range (128 / e)).foldl (fun (s : State) r =>
    let (s1, x) := (List.range e).foldl (fun (acc : State × Nat) k =>
      let (s1, c) := acc.1.storeCode t o i (r * e + k)
      (s1, acc.2 + c * 2 ^ (codeWidth code * k))) (s, 0)
    s1.putElem t.core (t.cRow (i / 32) (v + r)) (i % 32) (Elem.of (BitVec.ofNat 32 x))) s) s

/-- What a tile word does: nothing when a source element cannot be used. DESIGN CHOICE (log entry 156): FINFO of its MUNINIT has
segment 0, since a tile word has no segments. -/
def State.tileEffect (s : State) (t : Team) (o : Op) : State :=
  let refs := match o.kind with
    | .mload => frameRefs t (o.snap.getD 1 0) (128 / perWord (o.snap.getD 0 0))
    | .mstore => tileRefs t o.tile false
    | _ => []
  match s.firstBad t 0 refs with
  | (s1, some (code, fi)) => s1.noteLong o code fi
  | (s1, none) => match o.kind with
    | .mload => s1.loadTile t o
    | .mstore => s1.storeTile t o
    | _ => s1.zeroTile t o.tile

/-- A word of a tile path. -/
def OpKind.onPath (k : OpKind) : Bool :=
  match k with
  | .mzero => true
  | .mload => true
  | .mstore => true
  | _ => false

/-- A tile word of the path of another's tile. -/
def Op.samePath (o p : Op) : Bool := p.kind.onPath && decide (p.team = o.team) && decide (p.tile = o.tile) && decide (p.id ≠ o.id)

/-- R277: the tile word occupies its path: those of the same tile that issued before it have completed. -/
def State.pathTurn (s : State) (o : Op) : Bool := s.ops.all (fun p => !(o.samePath p && decide (p.id < o.id)))

/-- R277: a tile word has completed, and the next of its tile begins. -/
def State.pathEnds (s : State) (o : Op) (now : Nat) : State :=
  { s with ops := s.ops.map (fun p => if o.samePath p then { p with since := now } else p) }

/-- A tile word can complete: its 136 ACLK are over, and what it waits for is performed. -/
def State.tileReady (s : State) (o : Op) (t : Team) : Bool :=
  o.kind.onPath && s.pathTurn o && decide (o.since + 136 ≤ s.clk (dieOf t.core)) && t.onCore && !s.outstanding o.after &&
    !(decide (o.kind = .mstore) && decide (ovfOf (o.snap.getD 0 0) = 2) && s.engineHeld t (olistVa o.snap) 3)

/-- A `mstore` meets an outlier. -/
def State.storesOutlier (s : State) (t : Team) (o : Op) : Bool :=
  (List.range 128).any (fun i => (List.range 128).any (fun j =>
    decide (storeElem (o.snap.getD 0 0) (o.snap.getD 1 0) (s.tileVal t o i j) = .outlier)))

/-- R277: a tile word completes after 136 ACLK on its tile path. -/
def execTileWordCompletion (op : Nat) (s : State) : Host.Outcome State Fault Refusal :=
  match s.op? op with
  | none => .next s
  | some o => match s.team? o.team with
    | none => .next s
    | some t =>
      if s.tileReady o t then
        let s1 := s.tileEffect t o
        .next ((s1.longEnds ((s1.op? op).getD o)).pathEnds o (s.clk (dieOf t.core)))
      else .next s

/-! ## MACQ_GRANT, R127, R277 -/

/-- A long word of a stream, or its `mrel`, waits for locks, for pending rows, for room, or for an earlier long word. -/
def SCtx.passWaits (c : SCtx) (s : State) (o : StreamOp) : Bool :=
  let waits := fun (rows : List CRange) (locks : List Lock) => match c.pass s rows locks with
    | .error (.wait _) => true
    | _ => false
  match o with
  | .mrel n => s.rowsLocked c.t.core (c.t.tileRow n) 512
  | .mzero n => waits [] (c.locksOf [] n true [])
  | .mload n v q _ => waits (mloadRows v (c.st.val q)) (c.locksOf (mloadRows v (c.st.val q)) n true [])
  | .mstore n v q _ => waits (mstoreRows v (c.st.val q)) (c.locksOf (mstoreRows v (c.st.val q)) n false [])
  | .mma i => match c.poolEntry s i with
    | .ok v => waits (c.mmaRanges v).1 (c.mmaRanges v).2
    | .error _ => false
  | _ => false

/-- A stream whose word still waits: for a phase, for its earlier words, or for a lock. -/
def State.streamHeld (s : State) (t : Team) (st : Stream) : Bool :=
  match st.wait, s.streamOp t st with
  | .phase, some (.mwait n k) =>
    let s1 := s.readBarrier t n
    s1.liveTeam t.id && !(((s1.team? t.id).map (fun u => u.barrier n)).getD Barrier.fresh).reached (st.val k % 16)
  | .arrive, _ => decide (s.longCount t.id ≠ 0)
  | .locks, some o => SCtx.passWaits ⟨t, st⟩ s o
  | _, _ => false

/-- R127, R277: a free tile is granted to a waiting `macq`: to that of the oldest stream that is ready, in a cycle in which the
sequencer has issued nothing. -/
def execMacqGrant (team : Nat) (s : State) : Host.Outcome State Fault Refusal :=
  match s.team? team with
  | none => .next s
  | some t =>
    let spent := decide ((s.core t.core).issuedAt = s.clk (dieOf t.core) + 1 ∧ 4 < (s.core t.core).unit)
    match (s.streams t.core).find? (fun w => !s.streamHeld w.1 w.2) with
    | none => .next s
    | some (u, st) =>
      if spent = true ∨ u.id ≠ team ∨ st.wait ≠ .tile then .next s
      else match s.freeTile t.core, s.macqAt t st with
        | some k, some (n, q) => .next ((((s.mapTile t n k).macqEnds t q 1).tookUnit t.core 4).firstIssue team)
        | _, _ => .next s

end Sys2Proof.Machine
end

