-- ==== Sys2Proof/Machine/Carder.lean ====
section
/-! DEFINITION. The Carder (R147 to R153, R289 to R293): the word `walk`, the walk contexts, the Carder's own words,
the return of a read and the step limit. -/

namespace Sys2Proof.Machine

open Sys2Proof

/-! ## Contexts and sections (R147, R148) -/

def State.walk? (s : State) (id : Nat) : Option Walk := s.walks.find? (fun w => w.id == id)
def State.putWalk (s : State) (w : Walk) : State := { s with walks := s.walks.map (fun v => if v.id == w.id then w else v) }

/-- The walks that run on a cluster. -/
def State.walksOn (s : State) (cluster : Nat) : List Walk := s.walks.filter (fun w => decide (w.cluster = cluster))

/-- A free context of the 16: the lowest one (DESIGN CHOICE, log entry 159). -/
def State.freeContext (s : State) (cluster : Nat) : Option Nat :=
  (List.range 16).find? (fun k => !(s.walksOn cluster).any (fun w => decide (w.ctx = k)))

/-- The section of a kernel in a cluster's store. -/
def State.section? (s : State) (t : Team) : Option Section :=
  (s.cluster (clusterOf t.core)).sections.find? (fun x => decide (x.part = t.part) && decide (x.desc = t.kernel.desc))

/-- A word of a section: nothing past it, or a word, or the code of its failed load. -/
inductive SectionWord where
  | past
  | word (w : Nat)
  | failed (code : Nat)
  deriving DecidableEq, Repr

def State.sectionWord (s : State) (t : Team) (pc : Nat) : SectionWord :=
  if t.kernel.cardlen ≤ pc then .past
  else match s.section? t with
    | none => .past
    | some x => match x.words[pc]? with
      | none => .past
      | some (some w) => .word w
      | some none => .failed (x.codes.getD pc 0)

/-! ## The descriptor, R149 -/

structure WalkForm where
  tgt : Nat
  fill : Bool
  entry : Nat
  nrows : Nat
  steps : Nat
  init : List Nat
  low : Nat
  deriving DecidableEq, Repr

/-- The descriptor that 19 scalars hold; `low` gathers the reserved fields. -/
def walkForm (l : List Nat) : WalkForm :=
  let w := fun (i : Nat) => l.getD i 0
  ⟨fld (w 0) 16 5, nbit (w 0) 15, w 0 % 256, w 1 % 2 ^ 13, if w 2 = 0 then 2 ^ 32 else w 2,
    (List.range 8).map (fun i => w (3 + 2 * i) + w (4 + 2 * i) * 2 ^ 32), w 0 / 2 ^ 21 + fld (w 0) 8 7 + w 1 / 2 ^ 13⟩

/-- R150 check 3. -/
def WalkForm.sub (f : WalkForm) (isTeam tgtOk : Bool) (cardlen : Nat) : Nat :=
  if f.nrows = 0 ∨ 4096 < f.nrows then 2
  else if f.low ≠ 0 ∨ (if isTeam then f.tgt ≠ 0 else tgtOk = false) then 6
  else if cardlen = 0 ∨ cardlen ≤ f.entry then 12
  else 0

def Op.walkForm (o : Op) : WalkForm := Machine.walkForm o.snap

/-- Whether a walk's region lies in the team rows, and its first row. -/
def Op.walkTeam (o : Op) : Bool := nbit o.word 21
def Op.walkRow (o : Op) : Nat := fld o.word 14 7

/-- The core row of row `r` of the region. -/
def Op.regionRow (o : Op) (t : Team) (r : Nat) : Nat := t.rowAt o.walkTeam o.walkForm.tgt (o.walkRow + r)

/-- R149: with FILL the region of a walk is +0 and valid before its first word, once what happens before its issue has been
performed (R96, R99). -/
def State.walkFill (s : State) (t : Team) (o : Op) : State :=
  let f := o.walkForm
  if f.fill then
    (List.range f.nrows).foldl (fun (s : State) r => s.engineRow t.core (o.regionRow t r) (allLanes.map (fun l => (l, 0)))) s
  else s

/-- A walk starts in a free context: `c0` to `c7` are as INIT says (R149). -/
def State.startWalk (s : State) (t : Team) (o : Op) (ctx : Nat) : State :=
  let f := o.walkForm
  let w : Walk := ⟨s.nextId, o.id, clusterOf t.core, ctx, t.id, f.entry, f.init ++ List.replicate 8 0, [], 0, s.clk (dieOf t.core)⟩
  { s with nextId := s.nextId + 1, walks := s.walks ++ [w] }

/-- Walks of resident teams of a cluster that wait for a context start as contexts free (R153). -/
def State.startWalks (s : State) (cluster : Nat) : State :=
  s.ops.foldl (fun (s : State) (o : Op) =>
    if o.kind ≠ .walk ∨ s.walks.any (fun w => w.op == o.id) = true then s
    else match s.team? o.team with
      | none => s
      | some t =>
        if t.engaged = false ∨ clusterOf t.core ≠ cluster then s
        else match s.freeContext cluster with
          | some k => s.startWalk t o k
          | none => s) s

/-- R149, R150: `walk`. -/
def execWalk (cb : Bool) (w d a n : Nat) (s : State) : Host.Outcome State Fault Refusal :=
  let scals := (List.range 19).map (fun i => rdS (a + i) 1)
  word s (fun _ => scals) noMore (fun c s => do
    let isTeam := decide (w = 1)
    if c.g.isP = false ∨ c.t.prot = true then .error (.t 0x0B 0) else .ok ()
    c.chkBar n
    c.chkBound scals
    let snap := (List.range 19).map (fun i => (c.scal (a + i)).toNat)
    let f := walkForm snap
    let sub := f.sub isTeam (c.t.group? f.tgt).isSome c.t.kernel.cardlen
    if sub ≠ 0 then .error (.t 0x0C (info43 0 1 sub 0 0)) else .ok ()
    let r : RowRange := ⟨isTeam, f.tgt, d, f.nrows, true, 0⟩
    firstStop [r.chkBound c.t]
    c.chkUninit scals
    c.chkPend s scals
    firstStop [r.chkPend s c.t, r.chkLock s c.t]
    chkRoom s c.t.core 1
    match s.freeContext (clusterOf c.t.core) with
    | none => .error (.wait (.room .contexts))
    | some k =>
      let word := 0x3F800000 + cb.toNat * 2 ^ 31 + w * 2 ^ 21 + d * 2 ^ 14 + a * 2 ^ 7 + n * 2
      let o := c.newOp s .walk (some n) word 0 1 (4 * f.nrows) snap
      let s1 := s.launch c o [r.lock c.t] (4 * f.nrows)
      .ok ((s1.startWalk c.t { o with id := s.nextId } k).adv c 1))

/-! ## The end of a walk, R152 -/

/-- The walk ends, with a code if it ended early: the context frees, the lock is released, and the region's sectors
leave together. -/
def State.walkEnds (s : State) (w : Walk) (fault : Option (Nat × Nat)) : State :=
  let s1 := { s with walks := s.walks.filter (fun v => v.id != w.id) }
  match s.op? w.op with
  | none => s1
  | some o =>
    let s2 := match fault with
      | some (code, fi) => s1.noteOp o code fi
      | none => s1
    State.startWalks ((s2.finishOp { o with faulted := fault.isSome }).modBar o.team o.bar
      (fun b => b.leave (4 * o.walkForm.nrows))) w.cluster

/-- Codes of R152, and FINFO with a Carder word address. -/
def codeCstep : Nat := 0x30
def codeCbound : Nat := 0x31
def codeCill : Nat := 0x32
def codeCalign : Nat := 0x33
def cfinfo (pc : Nat) : Nat := pc * 2 ^ 32 + 2

/-- Whether a walk has executed its STEPS words. -/
def State.atLimit (s : State) (w : Walk) : Bool :=
  match s.op? w.op with
  | some o => decide (o.walkForm.steps ≤ w.steps)
  | none => true

/-- R289, R293: why a walk does not run its next word: the word failed its load, the steps are used up, or there is no
such word. -/
def State.walkStop (s : State) (t : Team) (w : Walk) : Option (Nat × Nat) :=
  match s.sectionWord t w.pc with
  | .failed code => some (code, xfinfo (t.kernel.carder + 4 * w.pc) 2)
  | .past => some (if s.atLimit w then codeCstep else codeCill, cfinfo w.pc)
  | .word v =>
    if s.atLimit w then some (codeCstep, cfinfo w.pc)
    else if (decodeCarderOp v).isNone then some (codeCill, cfinfo w.pc)
    else none

/-- R293: a walk that has executed STEPS words ends with CSTEP, once its reads have returned. -/
def execWalkStepLimit (walk : Nat) (s : State) : Host.Outcome State Fault Refusal :=
  match s.walk? walk with
  | none => .next s
  | some w => match s.team? w.team with
    | none => .next s
    | some t =>
      if s.atLimit w = true ∧ w.reads.isEmpty = true then .next (s.walkEnds w (s.walkStop t w)) else .next s

/-! ## The frame of a Carder word -/

/-- The registers that a word names, and whether it waits for every earlier read (R291). -/
def carderNames (o : CarderOp) : List Nat :=
  match o with
  | .cnop => []
  | .cmov d a => [d, a]
  | .cli d _ => [d]
  | .cadd d a b => [d, a, b]
  | .csub d a b => [d, a, b]
  | .cmul d a b => [d, a, b]
  | .cand d a b => [d, a, b]
  | .cor d a b => [d, a, b]
  | .caddi d a _ => [d, a]
  | .cshli d a _ => [d, a]
  | .cshri d a _ => [d, a]
  | .crd8 d a _ => [d, a]
  | .crd16 d a _ => [d, a]
  | .crd32 d a _ => [d, a]
  | .crd64 d a _ => [d, a]
  | .cemit8 a b => [a, b]
  | .cemit16 a b => [a, b]
  | .cemit32 a b => [a, b]
  | .cbeq a b _ => [a, b]
  | .cbne a b _ => [a, b]
  | .cblt a b _ => [a, b]
  | .cbge a b _ => [a, b]
  | .cjmp _ => []
  | .cend => []

def carderWaits (o : CarderOp) : Bool :=
  match o with
  | .cemit8 _ _ => true
  | .cemit16 _ _ => true
  | .cemit32 _ _ => true
  | .cbeq _ _ _ => true
  | .cbne _ _ _ => true
  | .cblt _ _ _ => true
  | .cbge _ _ _ => true
  | .cjmp _ => true
  | .cend => true
  | _ => false

def carderReads (o : CarderOp) : Bool :=
  match o with
  | .crd8 _ _ _ => true
  | .crd16 _ _ _ => true
  | .crd32 _ _ _ => true
  | .crd64 _ _ _ => true
  | _ => false

/-- R291, R147: a walk waits before a word. -/
def State.walkWaits (s : State) (w : Walk) (o : CarderOp) : Bool :=
  ((carderNames o).any (fun n => w.reads.any (fun r => decide (r.reg = n)))) || (carderWaits o && !w.reads.isEmpty) ||
    (carderReads o && (decide (4 ≤ w.reads.length) ||
      decide (64 ≤ ((s.walksOn w.cluster).map (fun v => v.reads.length)).sum)))

/-- What a Carder word acts on: the walk, its operation and its team. -/
structure KCtx where
  w : Walk
  o : Op
  t : Team
  deriving DecidableEq, Repr

def State.kctx? (s : State) : Option KCtx :=
  match s.cur.who with
  | .carder id => (s.walk? id).bind (fun w => (s.op? w.op).bind (fun o => (s.team? w.team).map (fun t => ⟨w, o, t⟩)))
  | _ => none

/-- Register `cN`. -/
def KCtx.reg (k : KCtx) (n : Nat) : Nat := k.w.regs.getD n 0

/-- The walk with one word counted, standing at the next word (R293). -/
def Walk.stepped (w : Walk) (now : Nat) : Walk := { w with steps := w.steps + 1, stamp := now, pc := w.pc + 1 }

/-- The meaning of a Carder word: it waits, or counts a step and acts on the walk so stepped. -/
def cword (s : State) (op : CarderOp) (act : KCtx → Walk → State) : Host.Outcome State Fault Refusal :=
  match s.kctx? with
  | none => .fault .noIssuer
  | some k => if s.walkWaits k.w op then .next s else .next (act k (k.w.stepped (s.clk (dieOf k.t.core))))

/-- A word that writes a register (R290). -/
def calu (s : State) (op : CarderOp) (d : Nat) (f : KCtx → Nat) : Host.Outcome State Fault Refusal :=
  cword s op (fun k w => s.putWalk { w with regs := w.regs.set d (f k % 2 ^ 64) })

/-- sext(IMM) modulo 2^64. -/
def cimm (i : Nat) : Nat := wrap 64 (sext 15 i)

/-! ## R290: registers -/

/-- OP 0x00. -/
def execCnop (s : State) : Host.Outcome State Fault Refusal := cword s .cnop (fun _ w => s.putWalk w)

/-- OP 0x01. -/
def execCmov (d a : Nat) (s : State) : Host.Outcome State Fault Refusal := calu s (.cmov d a) d (fun k => k.reg a)

/-- OP 0x02. -/
def execCli (d i : Nat) (s : State) : Host.Outcome State Fault Refusal := calu s (.cli d i) d (fun _ => cimm i)

/-- OP 0x03. -/
def execCadd (d a b : Nat) (s : State) : Host.Outcome State Fault Refusal :=
  calu s (.cadd d a b) d (fun k => k.reg a + k.reg b)

/-- OP 0x04. -/
def execCsub (d a b : Nat) (s : State) : Host.Outcome State Fault Refusal :=
  calu s (.csub d a b) d (fun k => k.reg a + 2 ^ 64 - k.reg b)

/-- OP 0x05. -/
def execCmul (d a b : Nat) (s : State) : Host.Outcome State Fault Refusal :=
  calu s (.cmul d a b) d (fun k => k.reg a * k.reg b)

/-- OP 0x06. -/
def execCand (d a b : Nat) (s : State) : Host.Outcome State Fault Refusal :=
  calu s (.cand d a b) d (fun k => k.reg a &&& k.reg b)

/-- OP 0x07. -/
def execCor (d a b : Nat) (s : State) : Host.Outcome State Fault Refusal :=
  calu s (.cor d a b) d (fun k => k.reg a ||| k.reg b)

/-- OP 0x08. -/
def execCaddi (d a i : Nat) (s : State) : Host.Outcome State Fault Refusal :=
  calu s (.caddi d a i) d (fun k => k.reg a + cimm i)

/-- OP 0x09. -/
def execCshli (d a n : Nat) (s : State) : Host.Outcome State Fault Refusal :=
  calu s (.cshli d a n) d (fun k => k.reg a * 2 ^ (n % 64))

/-- OP 0x0A. -/
def execCshri (d a n : Nat) (s : State) : Host.Outcome State Fault Refusal :=
  calu s (.cshri d a n) d (fun k => k.reg a / 2 ^ (n % 64))

/-! ## R291: reads -/

/-- A read of `z` bytes: out of range it ends the walk with XLATE and a fault record; misaligned, with CALIGN;
otherwise it is outstanding. -/
def cread (s : State) (op : CarderOp) (z d a i : Nat) : Host.Outcome State Fault Refusal :=
  cword s op (fun k w =>
    let va : Int := (k.reg a : Int) + sext 15 i
    if va < 0 ∨ 2 ^ 57 ≤ va then
      (s.opFault k.o ⟨wrap 64 va, 7, 4, 3, false⟩).walkEnds k.w (some (codeXlate, xfinfo (wrap 57 va) 2))
    else if va.toNat % z ≠ 0 then s.walkEnds k.w (some (codeCalign, cfinfo k.w.pc))
    else s.putWalk { w with reads := w.reads ++ [⟨k.w.steps, d, va.toNat, z⟩] })

/-- OP 0x0B. -/
def execCrd8 (d a i : Nat) (s : State) : Host.Outcome State Fault Refusal := cread s (.crd8 d a i) 1 d a i

/-- OP 0x0C. -/
def execCrd16 (d a i : Nat) (s : State) : Host.Outcome State Fault Refusal := cread s (.crd16 d a i) 2 d a i

/-- OP 0x0D. -/
def execCrd32 (d a i : Nat) (s : State) : Host.Outcome State Fault Refusal := cread s (.crd32 d a i) 4 d a i

/-- OP 0x0E. -/
def execCrd64 (d a i : Nat) (s : State) : Host.Outcome State Fault Refusal := cread s (.crd64 d a i) 8 d a i

/-- R291: a read returns to its register, or its failure ends the walk with the code of the failure. It returns what stands in memory
once every access that happens before the issue of `walk` has been performed (R96, R99). -/
def execCarderReadReturn (walk rd : Nat) (s : State) : Host.Outcome State Fault Refusal :=
  match s.walk? walk with
  | none => .next s
  | some w => match w.reads.find? (fun r => decide (r.id = rd)), s.op? w.op, s.team? w.team with
    | some r, some o, some t => if s.opReady o = false ∨ s.engineHeld t r.va 1 = true then .next s else match s.engineRead t 3 r.va r.size with
      | .ok v =>
        .next ((s.noteSector t r.va).putWalk
          { w with regs := w.regs.set r.reg v, reads := w.reads.filter (fun q => q.id != rd) })
      | .error f =>
        let s1 := match f.rec_ with
          | some e => s.opFault o e
          | none => s.noteSector t f.va
        .next (s1.walkEnds w (some (f.code, xfinfo f.va 2)))
    | _, _, _ => .next s

/-! ## R292: emissions -/

/-- `w` bits at a bit place of an element: narrower writes keep the other bits of a valid element, and make those of
one that is not valid zero (R41). -/
def putBits (old : Elem) (w lo v : Nat) : Elem :=
  let base := if old.valid then old.val.toNat else 0
  let was := base / 2 ^ lo % 2 ^ w
  Elem.of (BitVec.ofNat 32 (base - was * 2 ^ lo + v % 2 ^ w * 2 ^ lo))

/-- The element as an emission of `z` bytes finds it: a narrow one reads it, under its check bits (R41, R365); nothing where it is
uncorrectable. -/
def State.emitOver (s : State) (o : Op) (core row num lane z : Nat) : State × Option Elem :=
  if z = 4 then (s, some Elem.blank)
  else match s.readElem core row lane with
    | (s1, some e, true) => (s1.modGroup o.team o.group (fun g => g.addSoft 2 0 (if o.walkTeam then 2 else 0) num), some e)
    | (s1, e, _) => (s1, e)

/-- An emission of `z` bytes at the position in register `a`: past the region it ends the walk with CBOUND. DESIGN CHOICE (log entry
157): a narrow one over an uncorrectable element ends it with POISON, as a read that fails does. -/
def cemit (s : State) (op : CarderOp) (z a b : Nat) : Host.Outcome State Fault Refusal :=
  cword s op (fun k w =>
    let p := k.reg a
    if 128 * k.o.walkForm.nrows < (p + 1) * z then s.walkEnds k.w (some (codeCbound, cfinfo k.w.pc))
    else
      let row := k.o.regionRow k.t (p * z / 128)
      let lane := p * z % 128 / 4
      match s.emitOver k.o k.t.core row (k.o.walkRow + p * z / 128) lane z with
      | (s1, none) => s1.walkEnds k.w (some (codePoison, xfinfo 0 2))
      | (s1, some old) => (s1.putElem k.t.core row lane (putBits old (8 * z) (8 * (p * z % 4)) (k.reg b))).putWalk w)

/-- OP 0x0F. -/
def execCemit8 (a b : Nat) (s : State) : Host.Outcome State Fault Refusal := cemit s (.cemit8 a b) 1 a b

/-- OP 0x10. -/
def execCemit16 (a b : Nat) (s : State) : Host.Outcome State Fault Refusal := cemit s (.cemit16 a b) 2 a b

/-- OP 0x11. -/
def execCemit32 (a b : Nat) (s : State) : Host.Outcome State Fault Refusal := cemit s (.cemit32 a b) 4 a b

/-! ## Branches and the end, R289, R290 -/

/-- A branch, taken when the comparison holds: to a word past the section it ends the walk with CILL. -/
def cbranch (s : State) (op : CarderOp) (target : Nat) (taken : KCtx → Bool) : Host.Outcome State Fault Refusal :=
  cword s op (fun k w =>
    if taken k = false then s.putWalk w
    else if k.t.kernel.cardlen ≤ target then s.walkEnds k.w (some (codeCill, cfinfo k.w.pc))
    else s.putWalk { w with pc := target })

/-- OP 0x12. -/
def execCbeq (a b i : Nat) (s : State) : Host.Outcome State Fault Refusal :=
  cbranch s (.cbeq a b i) i (fun k => decide (k.reg a = k.reg b))

/-- OP 0x13. -/
def execCbne (a b i : Nat) (s : State) : Host.Outcome State Fault Refusal :=
  cbranch s (.cbne a b i) i (fun k => decide (k.reg a ≠ k.reg b))

/-- OP 0x14. -/
def execCblt (a b i : Nat) (s : State) : Host.Outcome State Fault Refusal :=
  cbranch s (.cblt a b i) i (fun k => decide (k.reg a < k.reg b))

/-- OP 0x15. -/
def execCbge (a b i : Nat) (s : State) : Host.Outcome State Fault Refusal :=
  cbranch s (.cbge a b i) i (fun k => decide (k.reg b ≤ k.reg a))

/-- OP 0x16. -/
def execCjmp (i : Nat) (s : State) : Host.Outcome State Fault Refusal := cbranch s (.cjmp i) i (fun _ => true)

/-- OP 0x17. -/
def execCend (s : State) : Host.Outcome State Fault Refusal := cword s .cend (fun k _ => s.walkEnds k.w none)

end Sys2Proof.Machine
end

