-- ==== Sys2Proof/Machine/Compare.lean ====
section
/-! DEFINITION. Compare and predicate words, major 01000 (R243, R244). -/

namespace Sys2Proof.Machine

open Sys2Proof

/-- `pD[L] ← A[L] cc B[L]`. -/
def vcmp (s : State) (cc t p a bs b : Nat) : Host.Outcome State Fault Refusal :=
  direct s [rdV a 0, rdB bs b] 1 (fun c s => s.putPred c p (fun l => cmpTy t cc (c.vec a l) (c.opB bs b l)))

/-- `pD[L] ← f pA[L] pB[L]`. -/
def pred2 (s : State) (d a b : Nat) (f : Bool → Bool → Bool) : Host.Outcome State Fault Refusal :=
  direct s [] 1 (fun c s => s.putPred c d (fun l => f (c.g.pred a l) (c.g.pred b l)))

/-- R243, CMP 0. -/
def execVcmpEq (_c : Bool) (t p a bs b : Nat) (s : State) : Host.Outcome State Fault Refusal := vcmp s 0 t p a bs b

/-- R243, CMP 1. -/
def execVcmpNe (_c : Bool) (t p a bs b : Nat) (s : State) : Host.Outcome State Fault Refusal := vcmp s 1 t p a bs b

/-- R243, CMP 2. -/
def execVcmpLt (_c : Bool) (t p a bs b : Nat) (s : State) : Host.Outcome State Fault Refusal := vcmp s 2 t p a bs b

/-- R243, CMP 3. -/
def execVcmpLe (_c : Bool) (t p a bs b : Nat) (s : State) : Host.Outcome State Fault Refusal := vcmp s 3 t p a bs b

/-- R243, CMP 4. -/
def execVcmpGt (_c : Bool) (t p a bs b : Nat) (s : State) : Host.Outcome State Fault Refusal := vcmp s 4 t p a bs b

/-- R243, CMP 5. -/
def execVcmpGe (_c : Bool) (t p a bs b : Nat) (s : State) : Host.Outcome State Fault Refusal := vcmp s 5 t p a bs b

/-- R244, TY 0. -/
def execPand (_c : Bool) (d a b : Nat) (s : State) : Host.Outcome State Fault Refusal := pred2 s d a b (· && ·)

/-- R244, TY 1. -/
def execPor (_c : Bool) (d a b : Nat) (s : State) : Host.Outcome State Fault Refusal := pred2 s d a b (· || ·)

/-- R244, TY 2. -/
def execPxor (_c : Bool) (d a b : Nat) (s : State) : Host.Outcome State Fault Refusal := pred2 s d a b (· != ·)

/-- R244, TY 3. -/
def execPnot (_c : Bool) (d a : Nat) (s : State) : Host.Outcome State Fault Refusal := pred2 s d a 7 (fun x _ => !x)

end Sys2Proof.Machine
end

