-- ==== Sys2Proof/Machine/Links.lean ====
section
/-! DEFINITION. The die links (R342 to R348) and the swap of mesh routes (R350). A request and its reply cross the
inner edges piece by piece: a flit carries the pieces that stand ready at its channel. -/

namespace Sys2Proof.Machine

open Sys2Proof

/-! ## Where a piece goes -/

/-- The place of a piece that flies in a flit. -/
def inFlight : Nat := 100

/-- R349: the die to which a piece goes next: along its way to its home, or with its reply back along it. -/
def Piece.nextDie (p : Piece) : Option Nat :=
  (((if p.performed then p.way.reverse else p.way).dropWhile (fun d => decide (d ≠ p.at_))).drop 1).head?

/-- The edge by which a piece leaves the die where it stands. -/
def Piece.nextEdge (p : Piece) : Option Nat := p.nextDie.bind (fun d => edgeTo p.at_ d)

def Piece.lineChannel (p : Piece) : Nat := Machine.lineChannel ((p.accs.headD ⟨[], 0, 0, 0, 0, 0, 0⟩).pa)

/-- Changes a module at both of its ends. -/
def State.modEnds (s : State) (die edge m : Nat) (f : Link → Link) : State :=
  let s1 := s.modLink die edge m f
  match opposite die edge with
  | some (d, e) => s1.modLink d e m f
  | none => s1

/-- A channel moved to another module, at both ends. -/
def State.moveChannel (s : State) (die edge chan m : Nat) : State :=
  let move := fun (s : State) (d e : Nat) =>
    let v := s.lnkMap d e
    { s with lnkmap := sset 0xFAC688 s.lnkmap (d * 4 + e) (v - fld v (3 * chan) 3 * 8 ^ chan + m * 8 ^ chan) }
  match opposite die edge with
  | some (d, e) => move (move s die edge) d e
  | none => s

/-! ## FLIT_SEND, R343, R344 -/

/-- A piece stands ready for a channel of an edge: not while the next die drains its partition's requests (R350). -/
def State.readyFor (s : State) (r : Req) (p : Piece) (die edge chan : Nat) : Bool :=
  decide (p.at_ = die) && decide (p.nextEdge = some edge) && decide (p.lineChannel = chan) &&
    !(!p.performed && (match opposite die edge with
      | some (d, _) => decide ((s.die d).rtbusy = some r.part)
      | none => true))

/-- The pieces ready for a channel, in the order of their requests. -/
def State.readyPieces (s : State) (die edge chan : Nat) : List (Nat × Nat) :=
  s.reqs.flatMap (fun r => r.pieces.zipIdx.filterMap (fun (e : Piece × Nat) =>
    if s.readyFor r e.1 die edge chan then some (r.id, e.2) else none))

/-- Some pieces now stand at a place. -/
def State.placePieces (s : State) (l : List (Nat × Nat)) (place : Nat) : State :=
  { s with reqs := s.reqs.map (fun r =>
    { r with pieces := r.pieces.mapIdx (fun i p => if l.contains (r.id, i) then { p with at_ := place } else p) }) }

/-- What a piece takes of a flit's payload: 16 bytes, and 8 with its data for each access that carries some on this leg, a request its
operands, a reply its values (log entry 83). -/
def Piece.bytesIn (p : Piece) (r : Req) : Nat :=
  let data := if p.performed then !r.kind.plainWrite else decide (r.kind ≠ .load)
  16 + (if data then (p.accs.map (fun a => 8 + a.size)).sum else 0)

/-- The bytes of one piece of a request. -/
def State.bytesOf (s : State) (e : Nat × Nat) : Nat :=
  ((s.req? e.1).bind (fun r => (r.pieces[e.2]?).map (fun p => p.bytesIn r))).getD 0

/-- The first of some ready pieces that fit a payload of 248 bytes; one that is larger goes by itself, in several flits. -/
def State.packed (s : State) : Nat → List (Nat × Nat) → List (Nat × Nat)
  | _, [] => []
  | used, e :: rest =>
    let n := used + s.bytesOf e
    if used ≠ 0 ∧ 248 < n then [] else e :: s.packed n rest

/-- The data flits that some pieces take (R343). -/
def State.flitsOf (s : State) (l : List (Nat × Nat)) : Nat := max 1 (cdiv ((l.map s.bytesOf).sum) 248)

/-- R343: a free module packs what is ready of one channel into the next data flit; a piece larger than a payload takes as many as it
needs, and has arrived with the last. -/
def execFlitSend (die edge chan : Nat) (s : State) : Host.Outcome State Fault Refusal :=
  let l := s.packed 0 (s.readyPieces die edge chan)
  let n := s.flitsOf l
  if (s.link die edge (s.moduleOf die edge chan)).state ≠ 2 ∨ 8 ≤ chan ∨ 64 < (s.chan die edge chan).held.length + n ∨ l.isEmpty = true then
    .next s
  else
    let s1 := (List.range (n - 1)).foldl (fun (s : State) _ => s.flit die edge chan []) (s.placePieces l inFlight)
    .next (s1.flit die edge chan l)

/-! ## Replay -/

/-- Sends the held flits again, and counts a replay. -/
def State.replay (s : State) (die edge chan : Nat) : State :=
  let c := s.chan die edge chan
  if c.held.isEmpty then s
  else (State.fly (s.putChan die edge chan { c with heldSince := s.ns die }) die edge c.held).modLink die edge (s.moduleOf die edge chan)
    (fun k => { k with replay := satAdd 16 k.replay 1 })

/-- The held flits from a sequence on; none when every one before the next to send is freed. -/
def Chan.from_ (c : Chan) (e : Nat) : List Flit := c.held.dropWhile (fun f => f.seq != e)

/-- A sequence that some held flit has, or the next to be sent: an ACK or NAK may name it. -/
def Chan.knows (c : Chan) (e : Nat) : Bool := c.held.any (fun f => f.seq == e) || c.tx == e

/-- Frees the held flits before a sequence. -/
def State.freeBefore (s : State) (die edge chan e : Nat) : State :=
  let c := s.chan die edge chan
  if c.knows e = true ∧ (c.from_ e).length ≠ c.held.length then
    s.putChan die edge chan { c with held := c.from_ e, heldSince := s.ns die }
  else s

/-- At the end of a retrain or on a new module each sender goes on from the other end's E (R346). -/
def State.resume (s : State) (die edge chan : Nat) : State :=
  match opposite die edge with
  | some (d, e) => ((s.freeBefore die edge chan (s.chan d e chan).rx).replay die edge chan)
  | none => s

/-- Both directions of a channel go on. -/
def State.resumeBoth (s : State) (die edge chan : Nat) : State :=
  match opposite die edge with
  | some (d, e) => (s.resume die edge chan).resume d e chan
  | none => s

/-- R344: the oldest held flit has waited ACKTO. -/
def State.linkTimeout (s : State) (die edge chan : Nat) : State :=
  let c := s.chan die edge chan
  let k := s.link die edge (s.moduleOf die edge chan)
  if k.state = 2 ∧ c.held.isEmpty = false ∧ c.heldSince + max 16 k.ackto ≤ s.ns die then s.replay die edge chan else s

/-! ## Retrain and down, R346, R347 -/

/-- WINERR: CRC failures among the last 4,096 flits. -/
def Link.winerr (k : Link) : Nat := (k.win.filter (fun i => decide (k.seen < i + 4096))).length

/-- One more flit is received. -/
def Link.received (k : Link) : Link := { k with seen := k.seen + 1 }

/-- The flit just received fails its CRC; a third failure of the window is not counted there, but begins a retrain (R346). -/
def Link.failed (k : Link) : Link :=
  { k with
    crcerr := satAdd 16 k.crcerr 1
    win := if 2 ≤ k.winerr then k.win else k.win.filter (fun i => decide (k.seen < i + 4096)) ++ [k.seen] }

/-- A retrain begins, at x32 or at the present width: what flies is lost. -/
def State.startRetrain (s : State) (die edge m : Nat) (x32 : Bool) : State :=
  s.modEnds die edge m (fun k => { k with state := 3, x32 := k.x32 || x32, wire := [], retrain := satAdd 16 k.retrain 1 })

/-- LNKCTL.OFF stands at one of the two ends of a module. -/
def State.moduleOff (s : State) (die edge m : Nat) : Bool :=
  (s.link die edge m).off || (match opposite die edge with
    | some (d, e) => (s.link d e m).off
    | none => false)

/-- A module is down under R347: three retrains have failed, or it is off. -/
def State.moduleDown (s : State) (die edge m : Nat) : Bool :=
  !s.moduleUp die edge m && (decide (3 ≤ (s.link die edge m).fails) || s.moduleOff die edge m)

/-- R347: a channel of a module that is down moves to the next module that is up; with none up the edge holds its
traffic from now on. -/
def State.rehome (s : State) (die edge chan : Nat) : State :=
  let m := s.moduleOf die edge chan
  match ((List.range 7).map (fun i => (m + 1 + i) % 8)).find? (fun k => s.moduleUp die edge k) with
  | some k =>
    let s1 := s.moveChannel die edge chan k
    if (s1.link die edge k).state = 2 then s1.resumeBoth die edge chan else s1
  | none =>
    let hold := fun (d : Nat) (c : Chan) => { c with heldDown := some (c.heldDown.getD (s.ns d)) }
    let s1 := s.modChan die edge chan (hold die)
    match opposite die edge with
    | some (d, e) => s1.modChan d e chan (hold d)
    | none => s1

/-- R347: a module goes down. -/
def State.linkDown (s : State) (die edge m : Nat) : State :=
  let s1 := s.modEnds die edge m (fun k => { k with state := 0, wire := [] })
  (List.range 8).foldl (fun (s : State) c => if s.moduleOf die edge c = m then s.rehome die edge c else s) s1

/-- A module is up: its channels, and those whose module is down, go on on it; the window restarts. -/
def State.linkUp (s : State) (die edge m : Nat) : State :=
  let s1 := s.modEnds die edge m (fun k => { k with state := 2, win := [], fails := 0 })
  (List.range 8).foldl (fun (s : State) c =>
    let k := s.moduleOf die edge c
    let s2 := if s.moduleDown die edge k then s.moveChannel die edge c m else s
    if s2.moduleOf die edge c = m then
      let clear := fun (x : Chan) => { x with heldDown := none }
      let s3 := s2.modChan die edge c clear
      let s4 := match opposite die edge with
        | some (d, e) => s3.modChan d e c clear
        | none => s3
      s4.resumeBoth die edge c
    else s2) s1

/-- R346, R347: the retrain of a link module ends; one that fails is made again until three have failed. The first training after
power-on ends in the same way (log entry 23). -/
def State.linkTrained (s : State) (die edge m : Nat) (ok laneFail : Bool) : State :=
  let k := s.link die edge m
  if (opposite die edge).isNone = true ∨ 8 ≤ m ∨ k.state = 2 ∨ s.moduleOff die edge m = true ∨ 3 ≤ k.fails then s
  else if ok then (s.modEnds die edge m (fun k => { k with x32 := k.x32 || laneFail })).linkUp die edge m
  else
    let s1 := s.modEnds die edge m (fun k => { k with fails := k.fails + 1 })
    if 2 ≤ k.fails then s1.linkDown die edge m else if k.state = 3 then s1.startRetrain die edge m false else s1

/-- R346, R348: WIDEN retrains an active module at x64. -/
def execWiden (die edge m : Nat) (s : State) : Host.Outcome State Fault Refusal :=
  if s.managed = true ∧ (s.link die edge m).state = 2 then
    .next ((s.startRetrain die edge m false).modEnds die edge m (fun k => { k with x32 := false }))
  else .next s

/-- R348: CLR clears LNKCNT. -/
def execClr (die edge m : Nat) (s : State) : Host.Outcome State Fault Refusal :=
  if s.managed = false ∨ (opposite die edge).isNone = true ∨ 8 ≤ m then .next s
  else .next (s.modLink die edge m (fun k => { k with crcerr := 0, replay := 0, dup := 0, retrain := 0 }))

/-- R347, R348: OFF takes the module down; a 0 lets it train again (log entry 79). -/
def execLinkOff (die edge m value : Nat) (s : State) : Host.Outcome State Fault Refusal :=
  let k := s.link die edge m
  if s.managed = false ∨ (opposite die edge).isNone = true ∨ 8 ≤ m then .next s
  else if nbit value 0 then .next ((s.modLink die edge m (fun k => { k with off := true })).linkDown die edge m)
  else if k.off then
    let s1 := s.modLink die edge m (fun k => { k with off := false })
    .next (if s1.moduleOff die edge m then s1 else s1.modEnds die edge m (fun k => { k with state := 1, fails := 0 }))
  else .next s

/-- R347: a request at an edge that has no module up is answered with a poisoned reply. -/
def poisonPiece (core : Nat) (p : Piece) : Piece := { p with performed := true, poisoned := true, at_ := dieOf core }

/-- Some pieces are answered with poisoned replies. -/
def State.poisonPieces (s : State) (p : Req → Nat → Piece → Bool) : State :=
  { s with reqs := s.reqs.map (fun r => { r with pieces := r.pieces.mapIdx (fun i q => if p r i q then poisonPiece r.core q else q) }) }

/-- R347: after 1 ms with no module up, every request held for the edge, and every request or reply still in a replay buffer of it
that its requester has not had, is answered with a poisoned reply, whether or not it had been accepted. -/
def State.edgeExpires (s : State) (die edge : Nat) : State :=
  if s.edgeDead die edge = false then s
  else
    let flying := (List.range 8).flatMap (fun c => (s.chan die edge c).held.flatMap (fun f => f.load))
    let had := fun (r : Req) (p : Piece) => p.landed || p.acked || (p.performed && decide (p.at_ = dieOf r.core))
    let s1 := s.poisonPieces (fun r i p => !had r p && (flying.contains (r.id, i) ||
      (decide (p.at_ = die) && decide (p.nextEdge = some edge))))
    (List.range 8).foldl (fun (s : State) c => match opposite die edge with
      | some (d, e) => s.modChan die edge c (fun x => { x with held := [], tx := (s.chan d e c).rx })
      | none => s) s1

/-! ## Receiving, R345 -/

/-- An ACK or NAK of a channel goes back. -/
def State.control (s : State) (die edge chan type aseq : Nat) : State := s.fly die edge [⟨chan, type, 0, aseq, []⟩]

/-- An ACK of everything accepted. -/
def State.sendAck (s : State) (die edge chan : Nat) : State :=
  let c := s.chan die edge chan
  (s.putChan die edge chan { c with unacked := 0 }).control die edge chan 2 ((c.rx + 255) % 256)

/-- A NAK E, unless one stands. -/
def State.sendNak (s : State) (die edge chan : Nat) : State :=
  let c := s.chan die edge chan
  if c.naked then s else (s.putChan die edge chan { c with naked := true }).control die edge chan 3 c.rx

/-- The flit that has reached a module's end, while the module is active. -/
def State.takeFlit (s : State) (die edge m : Nat) : Option (Flit × State) :=
  let k := s.link die edge m
  match k.wire with
  | [] => none
  | f :: rest => if k.state = 2 then some (f, s.putLink die edge m { k with wire := rest }.received) else none

/-- R345, R346: a flit whose CRC fails; the third failure of the window retrains the module at x32. -/
def State.badCrc (s : State) (die edge m : Nat) (nak : Option Nat) : State :=
  let k := s.link die edge m
  let s1 := s.putLink die edge m k.failed
  if 2 ≤ k.winerr then s1.startRetrain die edge m true
  else match nak with
    | some chan => s1.sendNak die edge chan
    | none => s1

/-- A flit is accepted: its contents go on, E advances, and every fourth is acknowledged. -/
def State.accept (s : State) (die edge : Nat) (f : Flit) : State :=
  let c := s.chan die edge f.chan
  let here := f.load.filter (fun e => (s.piece? e.1 e.2).any (fun x => decide (x.2.at_ = inFlight)))
  let s1 := (s.placePieces here die).putChan die edge f.chan
    { c with rx := (c.rx + 1) % 256, naked := false, unacked := c.unacked + 1, lastRx := s.ns die }
  if 3 ≤ c.unacked then s1.sendAck die edge f.chan else s1

/-- R343: a flit arrives that an event of one TYPE receives: `act` takes one of that type, with whether its CRC held; a flit of TYPE 0
carries nothing, and one of a TYPE above 3 whose CRC holds makes the receiver retrain the module. -/
def State.receive (s : State) (die edge m type : Nat) (crcOk : Bool) (act : Flit → State → State) : State :=
  match s.takeFlit die edge m with
  | none => s
  | some (f, s1) =>
    if f.type = type then act f s1
    else if f.type = 0 then s1
    else if 4 ≤ f.type then (if crcOk then s1.startRetrain die edge m false else s1.badCrc die edge m none)
    else s

/-- R345: a data flit arrives. -/
def execDataFlitReceive (die edge m : Nat) (crcOk : Bool) (s : State) : Host.Outcome State Fault Refusal :=
  .next (s.receive die edge m 1 crcOk (fun f s1 =>
    let e := (s1.chan die edge f.chan).rx
    let ahead := (f.seq + 256 - e) % 256
    if crcOk = false then s1.badCrc die edge m (some f.chan)
    else if ahead = 0 then s1.accept die edge f
    else if 192 ≤ ahead then (s1.modLink die edge m (fun k => { k with dup := satAdd 16 k.dup 1 })).sendAck die edge f.chan
    else if ahead ≤ 63 then s1.sendNak die edge f.chan
    else s1.startRetrain die edge m false))

/-- R344: an ACK frees the held flits up to its sequence. -/
def State.linkAck (s : State) (die edge m : Nat) (crcOk : Bool) : State :=
  s.receive die edge m 2 crcOk (fun f s1 =>
    if crcOk then s1.freeBefore die edge f.chan ((f.aseq + 1) % 256) else s1.badCrc die edge m none)

/-- R344: a NAK frees the held flits before its sequence, and the rest is sent again. -/
def State.linkNak (s : State) (die edge m : Nat) (crcOk : Bool) : State :=
  s.receive die edge m 3 crcOk (fun f s1 =>
    if crcOk = false then s1.badCrc die edge m none
    else if (s1.chan die edge f.chan).knows f.aseq then (s1.freeBefore die edge f.chan f.aseq).replay die edge f.chan
    else s1)

/-- R345: 8 ns after the last acceptance an ACK is sent, if none has followed it. -/
def State.linkAckDelay (s : State) (die edge chan : Nat) : State :=
  let c := s.chan die edge chan
  if (s.link die edge (s.moduleOf die edge chan)).state = 2 ∧ c.unacked ≠ 0 ∧ c.lastRx + 8 ≤ s.ns die then s.sendAck die edge chan
  else s

/-! ## Routes, R350 -/

/-- R350: GO starts the drain of a partition's requests on a die; ignored while one runs. -/
def execRtswap (die value : Nat) (s : State) : Host.Outcome State Fault Refusal :=
  let d := s.die die
  if s.managed = true ∧ nbit value 31 = true ∧ d.rtbusy.isNone = true then .next (s.putDie die { d with rtbusy := some (value % 64) }) else .next s

/-- A request still waits for a reply to a piece. -/
def Req.awaits (r : Req) : Bool := r.pieces.any (fun p => !p.acked && !p.landed && !(p.performed && decide (p.at_ = dieOf r.core) &&
  (match r.kind with
    | .load => false
    | .store => false
    | .atom _ _ => false
    | _ => true)))

/-- R350: a die has admitted a request of a partition whose reply is still to come: one of its own sources, or one whose way
crosses the die and has come so far. -/
def State.admitted (s : State) (die part : Nat) : Bool :=
  let reached := fun (p : Piece) => p.way.contains die && (p.performed || decide (p.at_ = inFlight) ||
    (p.way.takeWhile (fun d => decide (d ≠ p.at_))).contains die || decide (p.at_ = die))
  s.reqs.any (fun r => decide (r.part = part) && r.awaits && (decide (dieOf r.core = die) || r.pieces.any reached)) ||
  s.swreqs.any (fun r => decide ((s.team? r.team).map (fun t => t.part) = some part) && decide (r.stage < 2) &&
    (decide (dieOf r.core = die) || (decide (r.stage = 1) && (s.wayTo part r.core (homeOfHandle r.handle)).contains die))) ||
  s.ops.any (fun o => (s.team? o.team).any (fun t => decide (t.part = part) && o.dests.any (fun d =>
    (decide (d.stage = 1) || (decide (d.stage = 0) && decide (0 < d.sent))) &&
      (decide (dieOf t.core = die) || (decide (d.module = s.regs.modid) && (s.wayTo part t.core (homeOfHandle d.handle)).contains die)))))

/-- R350: every admitted request has its reply: the bank flips. -/
def execRouteSwapComplete (die : Nat) (s : State) : Host.Outcome State Fault Refusal :=
  let d := s.die die
  match d.rtbusy with
  | none => .next s
  | some p =>
    if s.admitted die p then .next s
    else .next (s.putDie die { d with rtbusy := none, rtbank := if nbit d.rtbank p then d.rtbank - 2 ^ p else d.rtbank + 2 ^ p })

end Sys2Proof.Machine
end

