-- ==== Sys2Proof/Machine/Optical.lean ====
section
/-! DEFINITION. The optical ports and the two traffic classes (R351 to R356), and the events that serve a die edge or,
as edge 4, the optical port of a die: the end of a retrain (R346, R352) and of a hold (R347, R351). -/

namespace Sys2Proof.Machine

open Sys2Proof

/-! ## Ports (R351) -/

/-- The port of a die. -/
def portOf (die : Nat) : Option Nat := if die < 6 then some die else if 18 ≤ die ∧ die < 24 then some (die - 12) else none

def State.modPort (s : State) (k : Nat) (f : Port → Port) : State := s.putPort k (f (s.port k))

/-- The port by which a piece reaches the other module. -/
def State.piecePort (s : State) (p : Piece) : Option Nat := s.portFor (p.home - farNode 0) p.lineChannel

/-- A piece bound for another module. -/
def Piece.far (p : Piece) : Bool := decide (farNode 0 ≤ p.home)

/-- A far piece that waits for its port to send it. -/
def Piece.toSend (p : Piece) (r : Req) : Bool := p.far && !p.performed && decide (p.at_ = dieOf r.core)

/-- The pieces of all requests that satisfy a test, in the order of their requests. -/
def State.piecesWith (s : State) (f : Req → Piece → Bool) : List (Nat × Nat) :=
  s.reqs.flatMap (fun r => r.pieces.zipIdx.filterMap (fun (e : Piece × Nat) => if f r e.1 then some (r.id, e.2) else none))

/-! ## Class S, R352 -/

/-- The far swatch access that a port sends next. -/
def State.swToSend (s : State) (k : Nat) : Option SwReq :=
  s.swreqs.find? (fun r => decide (r.module ≠ s.regs.modid) && decide (r.stage = 0) && r.port.isNone &&
    decide (s.portFor r.module (lineChannel r.handle) = some k))

/-- The class L delivery whose block a port sends next, with its destination's number. -/
def State.classLToSend (s : State) (k : Nat) : Option (Op × Dest × Nat) :=
  s.ops.findSome? (fun o => if s.opReady o = false then none
    else (o.dests.zipIdx.find? (fun (e : Dest × Nat) => e.1.classL.isSome && decide (e.1.stage = 0) &&
      decide (s.portFor e.1.module (lineChannel e.1.handle) = some k))).map (fun e => (o, e.1, e.2)))

/-- The `copy.swatch` delivery to another module whose class S blocks a port sends next, with its destination's number (R352). -/
def State.copyToSend (s : State) (k : Nat) : Option (Op × Dest × Nat) :=
  s.ops.findSome? (fun o => if s.opReady o = false then none
    else (o.dests.zipIdx.find? (fun (e : Dest × Nat) => e.1.classL.isNone && decide (e.1.stage = 0) && e.1.port.isNone &&
      decide (e.1.module ≠ s.regs.modid) && !(s.team? o.team).any (fun t => s.destLost t e.1) &&
        decide (s.portFor e.1.module (lineChannel e.1.handle) = some k))).map (fun e => (o, e.1, e.2)))

/-- A delivery after one more class S block has been sent by a port: with the last of its blocks it has gone (R352). -/
def Dest.blockSent (d : Dest) (k count : Nat) : Dest :=
  { d with sent := d.sent + 1, port := if blocksOf count ≤ d.sent + 1 then some k else none }

/-- One class S block is sent and held for replay: a piece of a request, which takes more blocks where it is larger than one, a swatch
access, or one block of a delivery. -/
def State.sendS (s : State) (k : Nat) : Option State :=
  let p := s.port k
  let hold := fun (p : Port) (l : List (Nat × Nat)) => p.hold (s.ns (portDie k)) l
  let sent := fun (t : State) (l : List (Nat × Nat)) => t.putPort k (hold p l)
  if 8192 ≤ p.held.length then none
  else match s.piecesWith (fun r q => q.toSend r && decide (s.piecePort q = some k)) with
    | e :: _ =>
      let home := (((s.req? e.1).bind (fun r => r.pieces[e.2]?)).map (fun q => q.home)).getD 0
      let n := max 1 (cdiv (s.bytesOf e) 256)
      if 8192 < p.held.length + n then none
      else some ((s.placePieces [e] home).putPort k (hold ((List.range (n - 1)).foldl (fun p _ => hold p []) p) [e]))
    | [] => match s.swToSend k with
      | some r => some (sent (s.putSwreq { r with port := some k }) [(r.id, 0)])
      | none => (s.copyToSend k).map (fun x =>
        sent (s.putOp { x.1 with dests := x.1.dests.set x.2.2 (x.2.1.blockSent k x.1.shape.count) }) [(x.1.id, x.2.2)])

/-- One class L block is handed to the port: its two rows are read, and with the last block the sectors leave (R355). -/
def State.sendL (s : State) (o : Op) (d : Dest) (i : Nat) : State :=
  match s.team? o.team with
  | none => s
  | some t =>
    let b := d.classL.getD 0
    let rows := ([2 * b, 2 * b + 1]).filter (fun r => decide (r < o.shape.count))
    let (s1, bad) := rows.foldl (fun (acc : State × Bool) r =>
      let (s1, ws) := acc.1.engineElems o t.core (o.unitCoreRow t r) (if o.isTeam then 2 else 0) (o.rowD + r) allLanes
      (s1, acc.2 || ws.any (fun w => w.isNone))) (s, false)
    let s2 := if bad then s1.noteOp o codePoison (xfinfo 0 4) else s1
    let o1 := { o with faulted := o.faulted || bad, dests := o.dests.set i { d with classL := some (b + 1) } }
    if cdiv o.shape.count 2 ≤ b + 1 then s2.destEnds o1 i { d with classL := some (b + 1) } else s2.putOp o1

/-- R353: a port sends a block, class L within its share while class S waits. -/
def execOpticalBlockSend (k : Nat) (s : State) : Host.Outcome State Fault Refusal :=
  let p := s.port k
  if p.state ≠ 2 then .next s
  else
    let s1 := s.putPort k { p with turn := (p.turn + 1) % 16 }
    match s1.sendS k, s1.classLToSend k with
    | none, none => .next s
    | some t, none => .next t
    | none, some (o, d, i) => .next (s1.sendL o d i)
    | some t, some (o, d, i) => if p.turn < p.lweight then .next (s1.sendL o d i) else .next t

/-- The port retrains. -/
def Port.retrains (p : Port) : Port := { p with state := 3 }

/-- R345 with the figures of R352: a block whose CRC fails; a third failure of the window retrains the port. -/
def Port.badCrc (p : Port) : Port :=
  let win := p.win.filter (fun i => decide (p.seen < i + 4096))
  if 2 ≤ win.length then p.retrains else { p with win := win ++ [p.seen] }

/-- An ACK of everything accepted, and a NAK unless one stands (R345). -/
def Port.sayAck (p : Port) : Port := { p with unacked := 0, said := some (2, (p.rx + 65535) % 65536) }
def Port.sayNak (p : Port) : Port := if p.naked then p else { p with naked := true, said := some (3, p.rx) }

/-- A block is accepted: every fourth is acknowledged. -/
def Port.accepts (p : Port) (ns : Nat) : Port :=
  let q := { p with rx := (p.rx + 1) % 65536, naked := false, unacked := p.unacked + 1, lastRx := ns }
  if 4 ≤ q.unacked then q.sayAck else q

/-- An accepted class S block brings the reply to the oldest performed access of the port back (log entry 85). -/
def State.acceptS (s : State) (k : Nat) : State :=
  let s1 := s.modPort k (fun p => p.accepts (s.ns (portDie k)))
  match s.piecesWith (fun r q => q.far && q.performed && decide (q.at_ ≠ dieOf r.core) && decide (s.piecePort q = some k)) with
  | e :: _ =>
    let core := ((s.req? e.1).map (fun r => r.core)).getD 0
    s1.placePieces [e] (dieOf core)
  | [] => s1

/-- R352: a class S block is received. -/
def execClassSBlockReceive (k seq : Nat) (crcOk : Bool) (s : State) : Host.Outcome State Fault Refusal :=
  let p0 := s.port k
  if p0.state ≠ 2 then .next s
  else
    let p := { p0 with seen := p0.seen + 1 }
    let ahead := (seq % 65536 + 65536 - p.rx) % 65536
    if crcOk = false then
      let q := p.badCrc
      .next (s.putPort k (if q.state = 2 then q.sayNak else q))
    else if ahead = 0 then .next ((s.putPort k p).acceptS k)
    else if 65536 - 8192 ≤ ahead then .next (s.putPort k p.sayAck)
    else if ahead < 8192 then .next (s.putPort k p.sayNak)
    else .next (s.putPort k p.retrains)

/-! ## The sender of class S, R344 with the figures of R352 -/

/-- The held blocks go out again. -/
def Port.replays (p : Port) (ns : Nat) : Port :=
  if p.held.isEmpty then p else { p with heldSince := ns, sreplay := satAdd 16 p.sreplay 1 }

/-- Frees the held blocks before a sequence, where one is held or it is the next to be sent. -/
def Port.freeBefore (p : Port) (ns e : Nat) : Port :=
  let rest := p.held.dropWhile (fun f => f.seq != e)
  if (p.held.any (fun f => f.seq == e) || p.tx == e) = true ∧ rest.length ≠ p.held.length then { p with held := rest, heldSince := ns }
  else p

/-- An ACK or NAK that the other module's port has sent. -/
def State.portAck (s : State) (k n : Nat) (crcOk : Bool) : State :=
  let p := { s.port k with seen := (s.port k).seen + 1 }
  if p.state ≠ 2 then s
  else s.putPort k (if crcOk then p.freeBefore (s.ns (portDie k)) ((n + 1) % 65536) else p.badCrc)

def State.portNak (s : State) (k e : Nat) (crcOk : Bool) : State :=
  let p := { s.port k with seen := (s.port k).seen + 1 }
  if p.state ≠ 2 then s
  else if crcOk = false then s.putPort k p.badCrc
  else if (p.held.any (fun f => f.seq == e) || p.tx == e) = true then s.putPort k ((p.freeBefore (s.ns (portDie k)) e).replays (s.ns (portDie k)))
  else s.putPort k p

/-- The wait after which a port sends its held blocks again: no register gives one, and the model takes LNKCFG.ACKTO's reset value,
in ns (log entry 135). -/
def portAckto : Nat := 128

/-- The event of an edge, or with edge 4 of the optical port of the die. -/
def atEdge (die edge : Nat) (s : State) (port : Nat → State) (link : State) : Host.Outcome State Fault Refusal :=
  .next (if edge = 4 then ((portOf die).map port).getD s else link)

/-- R344: an ACK is received. -/
def execAckReceive (die edge m : Nat) (crcOk : Bool) (s : State) : Host.Outcome State Fault Refusal :=
  atEdge die edge s (fun k => s.portAck k m crcOk) (s.linkAck die edge m crcOk)

/-- R344: a NAK is received. -/
def execNakReceive (die edge m : Nat) (crcOk : Bool) (s : State) : Host.Outcome State Fault Refusal :=
  atEdge die edge s (fun k => s.portNak k m crcOk) (s.linkNak die edge m crcOk)

/-- R344: the oldest held flit or block has waited ACKTO. -/
def execReplayTimeout (die edge chan : Nat) (s : State) : Host.Outcome State Fault Refusal :=
  atEdge die edge s (fun k =>
    let p := s.port k
    if p.state = 2 ∧ p.held.isEmpty = false ∧ p.heldSince + portAckto ≤ (s.ns (portDie k)) then s.putPort k (p.replays (s.ns (portDie k))) else s)
    (s.linkTimeout die edge chan)

/-- R345: 8 ns after the last acceptance an ACK is sent, if none has followed it. -/
def execAckDelayExpiry (die edge chan : Nat) (s : State) : Host.Outcome State Fault Refusal :=
  atEdge die edge s (fun k =>
    let p := s.port k
    if p.state = 2 ∧ p.unacked ≠ 0 ∧ p.lastRx + 8 ≤ (s.ns (portDie k)) then s.putPort k p.sayAck else s)
    (s.linkAckDelay die edge chan)

/-! ## A port goes down, R351 -/

/-- What a port held and the other module has not performed is to be sent again, by another port of the set. -/
def State.portDown (s : State) (k : Nat) : State :=
  let p := s.port k
  let held := fun (id i : Nat) => p.held.any (fun f => f.load.contains (id, i))
  let s1 : State := { s with
    reqs := s.reqs.map (fun (r : Req) =>
      { r with pieces := r.pieces.mapIdx (fun i q => if held r.id i = true ∧ q.performed = false then { q with at_ := dieOf r.core } else q) })
    swreqs := s.swreqs.map (fun (r : SwReq) => if r.port = some k ∧ r.stage = 0 then { r with port := none } else r)
    ops := s.ops.map (fun (o : Op) =>
      { o with dests := o.dests.map (fun d => if d.port = some k ∧ d.stage = 0 then { d with port := none } else d) }) }
  s1.putPort k { p with state := 0, lambda := 0, held := [], downAt := some (s.ns (portDie k)) }

/-- R351: an optical port goes down. -/
def execOpticalPortDown (k : Nat) (s : State) : Host.Outcome State Fault Refusal :=
  if (s.port k).state = 0 then .next s else .next (s.portDown k)

/-- R352: a training of a port ends: it runs on the wavelengths that have not failed it, and what it holds is sent again; a third
failure takes it down. -/
def State.portTrained (s : State) (k : Nat) (ok : Bool) (out : Nat) : State :=
  let p := s.port k
  if p.state = 2 then s
  else if ok = true ∧ out < 64 then
    s.putPort k (Port.replays { p with state := 2, lambda := 64 - out, win := [], fails := 0, downAt := none } (s.ns (portDie k)))
  else if 2 ≤ p.fails then (s.putPort k { p with fails := p.fails + 1 }).portDown k
  else s.putPort k { p with fails := p.fails + 1 }

/-- R346, R352: a retrain of a link module, or with edge 4 of the die's port, ends. -/
def execRetrainComplete (die edge m : Nat) (ok laneFail : Bool) (s : State) : Host.Outcome State Fault Refusal :=
  if edge = 4 then
    match portOf die with
    | some k => .next (s.portTrained k ok (if laneFail then max 1 m else 0))
    | none => .next s
  else .next (s.linkTrained die edge m ok laneFail)

/-- R351: with every port to a module down for 1 ms, its class S traffic is answered with poisoned replies. -/
def State.portExpires (s : State) (k : Nat) : State :=
  let lost := fun (m : Nat) => (s.portsTo m).contains k && s.portsDead m
  let s1 := s.poisonPieces (fun r _ q => q.far && lost (q.home - farNode 0) && !q.landed && !q.acked &&
    (decide (q.at_ ≠ dieOf r.core) || !q.performed))
  (s.swreqs.filter (fun r => decide (r.module ≠ s.regs.modid) && decide (r.stage = 0) && lost r.module)).foldl
    (fun (s : State) r => s.swPoison r) s1

/-- R347, R351: after 1 ms without a module, or with edge 4 without a port, what is held is answered. -/
def execEdgeHoldExpiry (die edge : Nat) (s : State) : Host.Outcome State Fault Refusal :=
  if edge = 4 then
    match portOf die with
    | some k => .next (s.portExpires k)
    | none => .next s
  else .next (s.edgeExpires die edge)

/-! ## Class L at the owner, R354 -/

/-- The rows that a delivery needs. -/
def deliveryRows (count : Nat) : Nat := count + cdiv count 32

/-- The core that stands for a core of another module: in no cluster and no die of this one. -/
def foreignCore : Nat := 128 * 64

/-- R354: the decision on the first block of a delivery: 0 when it is admitted. Its sender lies within `sys` only; an owner that has
begun a stop takes none (R355). -/
def State.lDecide (s : State) (b : LBlock) : Nat :=
  match s.swFind b.handle with
  | none => swStale
  | some e =>
    let code := s.swDecide b.handle b.baselo (deliveryRows b.count) 0 foreignCore true false
    if e.scope < 5 ∧ code ≠ swStale then swScope
    else if code ≠ 0 then code
    else match s.team? e.team with
      | some t => if t.status = .stopping then swAbsent else if s.lockRoom t.core 1 then 0 else swLocked
      | none => swStale

/-- The owner's core of a delivery. -/
def State.ldelCore (s : State) (d : LDelivery) : Nat := ((s.team? d.team).map (fun t => t.core)).getD 0

/-- R354: the end of a delivery, in one step: zeros for what has not landed, the validity mask, the lock, the arrival. -/
def State.endLDel (s : State) (d : LDelivery) : State :=
  let core := s.ldelCore d
  let got := fun (r : Nat) => d.landed.contains (r / 2)
  let s1 := (List.range d.count).foldl (fun (s : State) r =>
    if got r then s else s.engineRow core (d.row + r) (allLanes.map (fun l => (l, 0)))) s
  let s2 := (List.range d.count).foldl (fun (s : State) r =>
    s.engineRow core (d.row + d.count + r / 32) [(r % 32, if got r then 0xFFFFFFFF else 0)]) s1
  let rest := if d.landed.length = blocksOf d.count then s2.ldels.filter (fun x => x.id != d.id)
    else s2.ldels.map (fun x => if x.id == d.id then { d with ended := true } else x)
  State.modBar { s2 with locks := s2.locks.filter (fun l => l.op != d.id), ldels := rest } d.team d.bar Barrier.arrive

/-- The rows of a block land. -/
def State.landBlock (s : State) (d : LDelivery) (b : LBlock) : State :=
  let core := s.ldelCore d
  let s1 := (([0, 1] : List Nat).filter (fun i => decide (2 * b.b + i < d.count))).foldl (fun (s : State) i =>
    s.engineRow core (d.row + 2 * b.b + i) (allLanes.map (fun l => (l, BitVec.ofNat 32 (b.data.getD (32 * i + l) 0))))) s
  let d1 := { d with landed := d.landed ++ [b.b] }
  let s2 := { s1 with ldels := s1.ldels.map (fun x => if x.id == d.id then d1 else x) }
  if d1.landed.length = blocksOf d.count then s2.endLDel d1 else s2

/-- R354: the first block of a delivery decides it. -/
def State.newLDel (s : State) (k : Nat) (b : LBlock) : State :=
  let refuse := fun (s : State) =>
    let s1 := s.modPort k (fun p => { p with lrefuse := satAdd 16 p.lrefuse 1 })
    if blocksOf b.count = 1 then s1
    else { s1 with
      nextId := s.nextId + 1
      ldels := s1.ldels ++ [⟨s.nextId, k, 0, b.sender, b.handle, b.baselo, b.count, 0, (s.ns (portDie k)), [b.b], none, true⟩] }
  if s.lDecide b ≠ 0 then refuse s
  else match s.swFind b.handle with
    | none => refuse s
    | some e => match s.swRow e b.baselo true with
      | none => refuse s
      | some (core, row) =>
        let id := s.nextId
        let d : LDelivery := ⟨id, k, e.team, b.sender, b.handle, b.baselo, b.count, row, (s.ns (portDie k)), [], e.bar, false⟩
        let lock : Lock := ⟨core, id, e.team, false, row, row + deliveryRows b.count - 1, true, none⟩
        State.landBlock { s with nextId := id + 1, ldels := s.ldels ++ [d], locks := s.locks ++ [lock] } d b

/-- A block that comes after its delivery's end is dropped. -/
def State.lateBlock (s : State) (d : LDelivery) (b : Nat) : State :=
  let d1 := { d with landed := d.landed ++ [b] }
  { s with ldels := if d1.landed.length = blocksOf d.count then s.ldels.filter (fun x => x.id != d.id)
    else s.ldels.map (fun x => if x.id == d.id then d1 else x) }

/-- R353, R354: a class L block arrives. -/
def execClassLBlockArrival (k : Nat) (b : LBlock) (crcOk : Bool) (s : State) : Host.Outcome State Fault Refusal :=
  if (s.port k).state ≠ 2 then .next s
  else if crcOk = false then .next (s.modPort k (fun p => { p with lcrc := satAdd 16 p.lcrc 1 }))
  else if b.count = 0 ∨ 4096 < b.count ∨ blocksOf b.count ≤ b.b then .next s
  else
    let mine := fun (d : LDelivery) => decide (d.sender = b.sender) && decide (d.handle = b.handle) &&
      decide (d.baselo = b.baselo) && decide (d.count = b.count) &&
      !d.landed.contains b.b
    match s.ldels.find? mine with
    | some d => if d.ended then .next (s.lateBlock d b.b) else .next (s.landBlock d b)
    | none => .next (s.newLDel k b)

/-- R354: OPTLTO has passed since the admission of a delivery. -/
def execClassLTimeout (id : Nat) (s : State) : Host.Outcome State Fault Refusal :=
  match s.ldels.find? (fun d => d.id == id) with
  | none => .next s
  | some d =>
    let lto := ((s.team? d.team).map (fun t => (s.part t.part).optlto)).getD 20
    if d.ended = true ∨ s.ns (portDie d.port) < d.since + 1000 * lto then .next s
    else .next ((s.endLDel d).modPort d.port (fun p => { p with ltimeout := satAdd 16 p.ltimeout 1 }))

/-- R355: at its owner's stop every delivery under way ends. -/
def State.stopLDels (s : State) (team : Nat) : State :=
  (s.ldels.filter (fun d => decide (d.team = team) && !d.ended)).foldl (fun (s : State) d => s.endLDel d) s

end Sys2Proof.Machine
end

