-- ==== Sys2Proof/Machine/Queue.lean ====
section
/-! DEFINITION. The queue scheduler (R298 to R304): the scan of the pending array, slots, the head packet, and the six
packets (R301 to R303, R95). -/

namespace Sys2Proof.Machine

open Sys2Proof

/-! ## Slots (R304) -/

def State.slot? (s : State) (i : Nat) : Option HwSlot := s.slots.getD i none
def State.putSlot (s : State) (i : Nat) (h : Option HwSlot) : State := { s with slots := s.slots.set i h }

/-- The slot that holds a queue. -/
def State.slotOf (s : State) (part q : Nat) : Option Nat :=
  (List.range 256).find? (fun i => match s.slot? i with
    | some h => decide (h.part = part) && decide (h.queue = q)
    | none => false)

/-- How many slots a partition holds. -/
def State.slotsHeld (s : State) (part : Nat) : Nat :=
  (s.slots.filter (fun h => match h with
    | some x => decide (x.part = part)
    | none => false)).length

/-- A queue's state set aside at its unmapping, for its next mapping: a packet that stood at its head is read again. -/
def State.park (s : State) (h : HwSlot) : State :=
  { s with parked := s.parked.filter (fun x => !(decide (x.part = h.part) && decide (x.queue = h.queue))) ++
      [{ h with head := none, started := false, straight := false }] }

def State.parked? (s : State) (part q : Nat) : Option HwSlot :=
  s.parked.find? (fun x => decide (x.part = part) && decide (x.queue = q))

def State.unpark (s : State) (part q : Nat) : State :=
  { s with parked := s.parked.filter (fun x => !(decide (x.part = part) && decide (x.queue = q))) }

/-- The kernels of a queue that have not completed. -/
def State.running (s : State) (part q : Nat) : Bool := s.launches.any (fun l => decide (l.part = part) && decide (l.queue = q))

/-- The queue has a team on a core. -/
def State.hasTeams (s : State) (part q : Nat) : Bool :=
  s.teams.any (fun t => decide (t.part = part) && decide (t.queue = q) && t.onCore)

/-- The entry of a queue, where it can be read and is well formed. -/
def State.entry? (s : State) (part q : Nat) : Option QEntry :=
  match s.vread schedCore part (s.entryVa part q) 64 with
  | .ok v => if (qentryOf v).ok then some (qentryOf v) else none
  | .error _ => none

/-- A packet of a queue waits: the queue may run, and the slot at RDIDX is not empty, or cannot be read (R299, R300). -/
def State.packetWaits (s : State) (part q : Nat) : Bool :=
  match s.entry? part q with
  | none => false
  | some e => e.on && !e.err && (match s.vread schedCore part (e.packetVa e.rdidx) 4 with
    | .ok v => decide (v % 256 ≠ 0)
    | .error _ => true)

/-- R304: a mapped queue is idle: no packet waits, in its ring or in the slot itself, and no team is resident. -/
def State.slotIdle (s : State) (h : HwSlot) : Bool :=
  !s.hasTeams h.part h.queue && !h.started && !(h.straight && h.head.isSome) && !s.packetWaits h.part h.queue

/-- R304: the slice of a mapped queue has run out. -/
def State.sliceOver (s : State) (h : HwSlot) : Bool :=
  match s.entry? h.part h.queue with
  | some e => decide (h.sliceAt + e.slice * 100000 ≤ s.ns 0)
  | none => true

/-- A queue's class (R299). -/
def State.classOf (s : State) (part q : Nat) : Nat := ((s.entry? part q).map (fun e => e.cls)).getD 3

/-- The least recently active of some slots. -/
def State.oldestSlot (s : State) (p : HwSlot → Bool) : Option Nat :=
  (List.range 256).foldl (fun (a : Option Nat) i => match s.slot? i with
    | none => a
    | some h => if p h = false then a else match a.bind (fun j => s.slot? j) with
      | none => some i
      | some b => if h.lastActive < b.lastActive then some i else a) none

/-- The slot a queue can take (R304): a free one; else an idle queue's; else that of a queue of its partition whose
slice has run out and whose class is not lower. At SLOTMAX only a slot of its own partition serves (log entry 67). -/
def State.claim (s : State) (part q : Nat) : Option Nat :=
  let full := decide ((s.part part).slotmax ≤ s.slotsHeld part)
  let mine := fun (h : HwSlot) => !full || decide (h.part = part)
  let free := if full then none else (List.range 256).find? (fun i => (s.slot? i).isNone)
  let idle := s.oldestSlot (fun h => mine h && s.slotIdle h)
  let spent := s.oldestSlot (fun h => decide (h.part = part) && s.sliceOver h &&
    decide (s.classOf part q ≤ s.classOf h.part h.queue))
  if (s.part part).slotmax = 0 then none else (free.or idle).or spent

/-- Unmaps the queue of a slot; it resumes at its next mapping. -/
def State.unmap (s : State) (i : Nat) : State :=
  match s.slot? i with
  | none => s
  | some h => (s.park h).putSlot i none

/-- A slot that has just been given to a queue. -/
def HwSlot.fresh (part q : Nat) : HwSlot := ⟨part, q, none, false, false, 0, none, 0, 0, 0, 0⟩

/-- R304: maps a queue onto a slot: its slice and its timer start, under the TIMEOUT of its partition (R357). -/
def State.mapQueue (s : State) (i part q : Nat) : State :=
  let h := (s.parked? part q).getD (HwSlot.fresh part q)
  ((s.unmap i).unpark part q).putSlot i (some { h with sliceAt := s.ns 0, timer := 0, lastActive := s.ns 0, limit := (s.part part).wdTimeout })

/-! ## Refusal, R303 -/

def statusType : Nat := 1
def statusFault : Nat := 2
def statusDesc : Nat := 3
def statusRoles : Nat := 4
def statusBudget : Nat := 5
def statusGrid : Nat := 6
def statusCoop : Nat := 7
def statusOrder : Nat := 8
def statusKilled : Nat := 9
def statusQdesc : Nat := 0x0A
def statusWatchdog : Nat := 0x0B

/-- R300: a queue whose entry cannot be read: its pending byte is cleared and it is left unmapped. -/
def State.entryLost (s : State) (part q : Nat) : State :=
  let s1 := (s.qwrite part q ((s.part part).pendbase + q) [0]).unpark part q
  match s1.slotOf part q with
  | some i => s1.putSlot i none
  | none => s1

/-- The packet at the head of a slot is let go: it is read again. -/
def HwSlot.letGo (h : HwSlot) : HwSlot := { h with head := none, started := false, straight := false }

/-- The slot of a queue lets go of its head. -/
def State.letGo (s : State) (part q : Nat) : State :=
  match s.slotOf part q with
  | some i => s.putSlot i ((s.slot? i).map HwSlot.letGo)
  | none => s

/-- ERR and STATUS of an entry; RDIDX stays at the refused packet, which is read again when the queue resumes, since software may
rewrite it (R303). -/
def State.stopQueue (s : State) (part q status : Nat) : State :=
  match s.qentry part q with
  | (s1, none) => s1.entryLost part q
  | (s1, some e) => ((s1.setOnErr part q e.on true).setStatus part q status).letGo part q

/-- The head packet of a slot is refused. -/
def State.refuse (s : State) (i : Nat) (h : HwSlot) (status : Nat) : State :=
  (s.putSlot i (some { h.letGo with lastActive := s.ns 0 })).stopQueue h.part h.queue status

/-- A read for the packet at a slot's head, and what follows with its value; one that fails refuses the packet (R303). -/
def State.readFor (s : State) (i : Nat) (h : HwSlot) (va n : Nat) (k : State → Nat → State) : State :=
  match s.qread h.part h.queue va n with
  | (s1, .error _) => s1.refuse i h statusFault
  | (s1, .ok v) => k s1 v

/-! ## PENDING_SCAN and HEAD_POLL, R300 -/

/-- The scan takes up a queue that can have a slot: its pending byte is cleared, its header read, and a nonzero header
maps it. -/
def State.takeUp (s : State) (part q i : Nat) (pending : Bool) : State :=
  let s1 := if pending then s.qwrite part q ((s.part part).pendbase + q) [0] else s
  let fresh := (s1.parked? part q).getD (HwSlot.fresh part q)
  match s1.qentry part q with
  | (s2, none) => s2.unpark part q
  | (s2, some e) =>
    if e.ok = false then (if e.err = true ∧ e.status = statusQdesc then s2 else s2.stopQueue part q statusQdesc).park fresh
    else if e.on = false ∨ e.err = true then s2.park fresh
    else match s2.qread part q (e.packetVa e.rdidx) 4 with
      | (s3, .error _) => (s3.stopQueue part q statusFault).park fresh
      | (s3, .ok v) =>
        if v ≠ 0 then s3.mapQueue i part q
        else if fresh.skip = 0 ∧ fresh.compact = none then s3.unpark part q
        else s3

/-- R300: the scan of one queue. No queue runs before BOOTST is 1 (R338), and none while its partition is being reset
(R372). -/
def execPendingScan (part q : Nat) (s : State) : Host.Outcome State Fault Refusal :=
  let va := (s.part part).pendbase + q
  if (s.part part).qcount ≤ q ∨ (s.slotOf part q).isSome = true ∨ s.regs.bootst ≠ 1 ∨ (s.part part).wdBusy = true then .next s
  else match s.qread part q va 1 with
    | (s1, .error _) => .next s1
    | (s1, .ok b) =>
      if b = 0 ∧ (s.parked? part q).isNone = true then .next s1
      else match s1.claim part q with
        | none => .next s1
        | some i => .next (s1.takeUp part q i (decide (b ≠ 0)))

/-- The packet at the head is done with (R300): its first word is cleared and RDIDX advances. -/
def State.consume (s : State) (i : Nat) (h : HwSlot) (e : QEntry) : State :=
  let s1 := s.qwrite h.part h.queue (e.packetVa e.rdidx) (bytesLE 4 0)
  (s1.putSlot i (some { h.letGo with lastActive := s.ns 0 })).setRdidx h.part h.queue ((e.rdidx + 1) % 2 ^ 64)

/-- The packet at the head completes: it is done with, what a COMPACT left for it is used up, and the slot's timer restarts
(R371). -/
def State.complete (s : State) (i : Nat) (h : HwSlot) (e : QEntry) : State :=
  s.consume i { h with compact := none, timer := 0 } e

/-- A first word that no packet may have (R301): its type is unknown, or a reserved bit is set. -/
def badFirst (w : Nat) : Bool := decide (6 < w % 256) || decide (w / 2 ^ 9 ≠ 0)

/-- R300, R302: the head of a mapped queue is read; a packet that a COND skips is consumed, one whose first word no packet may have is
refused. One that came straight from an `enq` is held already. -/
def State.poll (s : State) (i : Nat) (h : HwSlot) : State :=
  match s.qentry h.part h.queue with
  | (s1, none) => s1.entryLost h.part h.queue
  | (s1, some e) =>
    if e.ok = false then (s1.stopQueue h.part h.queue statusQdesc).unmap i
    else if e.on = false ∨ e.err = true then s1
    else if h.straight = true ∧ h.head.isSome = true then
      (if badFirst ((h.head.getD []).headD 0) then s1.refuse i h statusType else s1)
    else
      let va := e.packetVa e.rdidx
      s1.readFor i h va 4 (fun s2 v =>
        if v % 256 = 0 then s2.putSlot i (some { h with head := none })
        else if h.skip ≠ 0 then s2.consume i { h with skip := h.skip - 1 } e
        else s2.readFor i h va 64 (fun s3 p =>
          if badFirst v then s3.refuse i h statusType
          else s3.putSlot i (some { h with head := some (packetWords p), lastActive := s3.ns 0 })))

/-- R300: a slot whose packet has not started reads its head; one that a packet came to straight from an `enq` holds it. -/
def execHeadPoll (slot : Nat) (s : State) : Host.Outcome State Fault Refusal :=
  match s.slot? slot with
  | none => .next s
  | some h => if h.started = true ∨ (s.part h.part).wdBusy = true then .next s else .next (s.poll slot h)

/-! ## Packets, R301 -/

/-- The types that act as though FENCE were set. -/
def fencing (type : Nat) : Bool := decide (type = 2) || decide (type = 4) || decide (type = 5) || decide (type = 6)

/-- The packet of a type at the head of a slot that may start: its first word is one of a packet, its queue runs, its partition is not
being reset, and the kernels before it have completed where FENCE asks for it. -/
def State.headOf (s : State) (i type : Nat) : Option (HwSlot × QEntry × List Nat) :=
  (s.slot? i).bind (fun h => h.head.bind (fun w => (s.entry? h.part h.queue).bind (fun e =>
    let w0 := w.headD 0
    if w0 % 256 = type ∧ badFirst w0 = false ∧ e.on = true ∧ e.err = false ∧ (s.part h.part).wdBusy = false ∧
        ((nbit w0 8 || fencing type) && s.running h.part h.queue) = false then some (h, e, w) else none)))

/-- Byte, 64-bit word, and the zero of some bytes of a packet. -/
def pbyte (w : List Nat) (i : Nat) : Nat := fld (w.getD (i / 4) 0) (8 * (i % 4)) 8
def plong (w : List Nat) (i : Nat) : Nat := w.getD (i / 4) 0 + w.getD (i / 4 + 1) 0 * 2 ^ 32
def pzero (w : List Nat) (lo hi : Nat) : Bool := (List.range (hi - lo)).all (fun i => decide (pbyte w (lo + i) = 0))

/-- The scheduler's access to a word of memory: its physical place, or the failure. -/
def State.tokenAt (s : State) (part va rights : Nat) : Except (Nat × Nat) (Nat × Nat) :=
  match s.place schedCore part va rights with
  | .error e => .error e
  | .ok a => if s.poisoned a.1 then .error (9, 4) else .ok a

/-! ## KERNEL, R301 to R303 -/

/-- The kernel that a descriptor describes (R209). -/
def kernelOf (desc v : Nat) : Kernel :=
  let entry := fun (lo : Nat) => if fld v lo 32 = 0xFFFFFFFF then none else some (fld v lo 32)
  ⟨desc, fld v 0 64, entry 64, entry 96, entry 128, fld v 160 32, fld v 192 64, fld v 256 64, fld v 320 16, fld v 336 16,
    fld v 352 16, fld v 368 16, fld v 384 16, fld v 400 16, fld v 416 8, fld v 424 8⟩

/-- The frames of a team in the order of its groups (R18, R20): role P, scalar rows, vector rows. -/
def Kernel.frames (k : Kernel) (nc : Nat) (hasp : Bool) : List (Bool × Nat × Nat) :=
  List.replicate nc (false, cdiv k.cscal 32, k.crows) ++ (if hasp then [(true, cdiv k.pscal 32, k.prows)] else [])

/-- The runs of rows of a team (R35): its frames, its team rows, its barrier rows. -/
def Kernel.runs (k : Kernel) (nc : Nat) (hasp : Bool) : List Nat :=
  (k.frames nc hasp).map (fun f => f.2.1 + f.2.2 + 16) ++ [k.trows, cdiv k.bars 8]

/-- How many of its groups go into a quadrant (R18). -/
def quadCount (n q : Nat) : Nat := ((List.range n).filter (fun g => decide (g % 4 = q))).length

/-- How many such teams an empty core holds (R23). -/
def Kernel.perCore (k : Kernel) (nc : Nat) (hasp : Bool) : Nat :=
  let n := nc + hasp.toNat
  let lim := [12288 / (k.runs nc hasp).sum] ++ ((List.range 4).filterMap (fun q =>
    if quadCount n q = 0 then none else some (8 / quadCount n q))) ++ (if k.acc = 0 then [] else [8 / k.acc]) ++
    (if k.mentry.isSome then [4] else [])
  lim.foldl min 12288

/-- The dies of a partition in ascending order (R306), and its clusters on a die. -/
def State.clustersOf (s : State) (part die : Nat) : Nat :=
  ((List.range 16).filter (fun c => decide (s.owner (16 * die + c) = part))).length
def State.diesOf (s : State) (part : Nat) : List Nat := (List.range Config.dies).filter (fun d => decide (s.clustersOf part d ≠ 0))

/-- The chunks of a grid (R306). -/
def chunksOf (dies : List Nat) (grid : Nat) : List Chunk :=
  if dies.isEmpty then []
  else (List.range (cdiv grid 64)).map (fun k => ⟨k, dies.getD (k % dies.length) 0, 64 * k, min (64 * k + 64) grid⟩)

/-- The clusters of a partition on a die whose cores can take teams (R379). -/
def State.usableOf (s : State) (part die : Nat) : Nat :=
  ((List.range 16).filter (fun c => decide (s.owner (16 * die + c) = part) && !(s.cluster (16 * die + c)).retire)).length

/-- R303, R306: a cooperative grid fits the partition while no other team is resident. -/
def State.coopFits (s : State) (part : Nat) (perCore grid : Nat) : Bool :=
  let cs := chunksOf (s.diesOf part) grid
  !(s.diesOf part).isEmpty && (s.diesOf part).all (fun d =>
    decide (((cs.filter (fun c => decide (c.die = d))).map (fun c => c.stop - c.next)).sum ≤ perCore * 8 * s.usableOf part d))

/-- The fields of a KERNEL packet. -/
structure KernelPacket where
  grid : Nat
  desc : Nat
  args : Nat
  narg : Nat
  nc : Nat
  hasp : Bool
  coop : Bool
  ok : Bool
  deriving DecidableEq, Repr

def kernelPacket (w : List Nat) : KernelPacket :=
  let narg := pbyte w 24 % 32
  let args := plong w 16
  ⟨w.getD 1 0, plong w 8, args, narg, pbyte w 25 % 64, nbit (pbyte w 25) 6, nbit (pbyte w 25) 7,
    pzero w 26 32 && decide (pbyte w 24 / 32 = 0) && decide (narg ≤ 16) && decide (plong w 8 % 64 = 0) &&
      (if narg ≤ 8 then decide (args = 0) else decide (args % 32 = 0))⟩

/-- R303: the checks of a KERNEL from DESC on, in the order of the table; 0 when it may start. `grid` is the one that
COMPACT gave, if it gave one. -/
def State.kernelStatus (s : State) (part : Nat) (p : KernelPacket) (k : Kernel) (reserved : Bool) (grid : Option Nat) : Nat :=
  let perCore := k.perCore p.nc p.hasp
  if reserved = false ∨ 256 < k.trows ∨ 64 < k.bars ∨ 8 < k.acc ∨ 4096 < k.pooln ∨ (p.hasp = true ∧ k.pentry = none) ∨
      (p.nc ≠ 0 ∧ k.centry = none) then statusDesc
  else if p.nc + p.hasp.toNat = 0 ∨ 32 < p.nc + p.hasp.toNat ∨ (k.mentry.isSome = true ∧ (p.nc ≠ 4 ∨ p.hasp = false)) ∨
      ((s.part part).relProt = true ∧ (k.mentry.isSome = true ∨ k.cardlen ≠ 0)) then statusRoles
  else if 4096 < k.prows ∨ 4096 < k.crows ∨ 1024 < k.pscal ∨ 1024 < k.cscal ∨ 256 < k.cardlen ∨ perCore = 0 then statusBudget
  else if grid = none ∧ (p.grid = 0 ∨ 2 ^ 31 < p.grid) then statusGrid
  else if p.coop = true ∧ s.coopFits part perCore (grid.getD p.grid) = false then statusCoop
  else 0

/-- The kernels whose items a die's code store holds: those with a team on the die, and the 32 launched there last (R308). -/
def State.evict (s : State) (die : Nat) : State :=
  let d := s.die die
  let stays := fun (c : CodeItem) => d.launched.contains (c.part, c.desc) ||
    s.teams.any (fun t => t.onCore && decide (dieOf t.core = die) && decide (t.part = c.part) && decide (t.kernel.desc = c.desc))
  s.putDie die { d with code := d.code.filter stays }

/-- A kernel is launched on a die: its descriptor stands in the code store, and it is the latest launched there (R308). -/
def State.launchedOn (s : State) (die part desc v : Nat) : State :=
  let s1 := s.putCode die ⟨part, desc, desc, 64, v⟩
  let d := s1.die die
  (s1.putDie die { d with launched := ((part, desc) :: d.launched.filter (fun x => x != (part, desc))).take 32 }).evict die

/-- R302: the launch of a KERNEL; a grid of 0 completes at once. -/
def State.launchKernel (s : State) (h : HwSlot) (cls : Nat) (p : KernelPacket) (k : Kernel) (args : List Nat) (v : Nat) : State :=
  let grid := (h.compact.map (fun c => c.1)).getD p.grid
  let args := match h.compact.bind (fun c => c.2) with
    | some (slot, c) => args.set slot c
    | none => args
  let cs := chunksOf (s.diesOf h.part) grid
  let l : Launch := ⟨s.nextId, 0, h.part, h.queue, cls, k, args, p.nc, p.hasp, p.coop, grid, 0, false, cs⟩
  if grid = 0 then s
  else ((s.diesOf h.part).filter (fun d => cs.any (fun c => decide (c.die = d)))).foldl (fun t d => t.launchedOn d h.part k.desc v)
    { s with nextId := s.nextId + 1, launches := s.launches ++ [l] }

/-- The descriptor of a kernel that is resident in the code store of the die that owns chunk 0 (R308). -/
def State.resident (s : State) (part desc : Nat) : Option CodeItem :=
  (s.diesOf part).head?.bind (fun d => s.codeItem d part desc desc 64)

/-- The descriptor of a kernel: from the code store, else from memory (R308). -/
def State.descriptor (s : State) (i : Nat) (h : HwSlot) (desc : Nat) (k : State → Nat → State) : State :=
  match s.resident h.part desc with
  | some c => k s c.val
  | none => s.readFor i h desc 64 k

/-- R302, R303: KERNEL. -/
def execKernel (slot : Nat) (s : State) : Host.Outcome State Fault Refusal :=
  match s.headOf slot 1 with
  | none => .next s
  | some (h, e, w) =>
    let p := kernelPacket w
    let more := fun (s : State) (f : State → Nat → State) =>
      if p.narg ≤ 8 then f s 0 else s.readFor slot h p.args (4 * (p.narg - 8)) f
    if p.ok = false then .next (s.refuse slot h statusType)
    else .next (s.descriptor slot h p.desc (fun s1 v => more s1 (fun s2 m =>
      let k := kernelOf p.desc v
      let st := s2.kernelStatus h.part p k (decide (fld v 432 80 = 0)) (h.compact.map (fun c => c.1))
      if st ≠ 0 then s2.refuse slot h st
      else
        let args := (List.range p.narg).map (fun i => if i < 8 then w.getD (8 + i) 0 else fld m (32 * (i - 8)) 32)
        let grid := (h.compact.map (fun c => c.1)).getD p.grid
        (s2.launchKernel h e.cls p k args v).consume slot
          { h with compact := none, timer := if grid = 0 then 0 else h.timer } e)))

/-! ## COND, WAIT, SIGNAL, COMPACT, BARRIER -/

/-- R302: the test of a COND on values of `n` bits. -/
def condTest (op n x y : Nat) : Bool :=
  match op with
  | 0 => decide (x = y)
  | 1 => decide (x ≠ y)
  | 2 => decide (x < y)
  | 3 => decide (y ≤ x)
  | 4 => decide (sext n x < sext n y)
  | _ => decide (sext n y ≤ sext n x)

/-- The fields of a COND hold what R301 and R302 allow. -/
def condOk (w : List Nat) : Bool :=
  let n := if nbit (pbyte w 4) 3 then 8 else 4
  let big := n == 4 && (decide (2 ^ 32 ≤ plong w 16) || decide (2 ^ 32 ≤ plong w 24))
  decide (pbyte w 4 / 16 = 0) && decide (pbyte w 4 % 8 ≤ 5) && pzero w 7 8 && pzero w 32 64 && decide (plong w 8 % n = 0) && !big

/-- R302: COND. -/
def execCond (slot : Nat) (s : State) : Host.Outcome State Fault Refusal :=
  match s.headOf slot 2 with
  | none => .next s
  | some (h, e, w) =>
    let op := pbyte w 4 % 8
    let wide := nbit (pbyte w 4) 3
    let n := if wide then 8 else 4
    if condOk w = false then .next (s.refuse slot h statusType)
    else .next (s.readFor slot h (plong w 8) n (fun s1 v =>
      let skip := if condTest op (8 * n) (v &&& plong w 16) (plong w 24) then pbyte w 5 else pbyte w 6
      s1.complete slot { h with skip := skip } e))

/-- The token of a WAIT or SIGNAL is well formed. -/
def tokenOk (w : List Nat) : Bool := pzero w 4 8 && pzero w 24 64 && decide (plong w 8 % 8 = 0)

/-- R302: WAIT holds the queue until the token reaches its target. -/
def execWait (slot : Nat) (s : State) : Host.Outcome State Fault Refusal :=
  match s.headOf slot 3 with
  | none => .next s
  | some (h, e, w) =>
    if tokenOk w = false then .next (s.refuse slot h statusType)
    else .next (s.readFor slot h (plong w 8) 8 (fun s1 v =>
      if plong w 16 ≤ v then s1.complete slot h e else s1.putSlot slot (some { h with started := true })))

/-- R302, R95: the token of a WAIT that holds its queue has reached the target. -/
def execTokenWaitSatisfied (slot : Nat) (s : State) : Host.Outcome State Fault Refusal :=
  match s.headOf slot 3 with
  | none => .next s
  | some (h, e, w) =>
    if h.started = false then .next s
    else .next (s.readFor slot h (plong w 8) 8 (fun s1 v => if plong w 16 ≤ v then s1.complete slot h e else s1))

/-- R302: SIGNAL. -/
def execSignal (slot : Nat) (s : State) : Host.Outcome State Fault Refusal :=
  match s.headOf slot 4 with
  | none => .next s
  | some (h, e, w) =>
    let va := plong w 8
    if tokenOk w = false then .next (s.refuse slot h statusType)
    else match s.tokenAt h.part va 3 with
      | .error f => .next (((s.vseen schedCore h.part va 8).queueFault h.part h.queue va f true).refuse slot h statusFault)
      | .ok (pa, tag) =>
        let v := s.readMem tag pa 8
        let s1 := (State.learn (s.writeMem tag pa (bytesLE 8 (v + plong w 16))) schedCore h.part va 3).access h.part schedCore pa 32 false
        .next ((s1.noteBytes pa 32 true).complete slot h e)

/-- The fields of a COMPACT hold what R301 and R302 allow. -/
def compactOk (w : List Nat) : Bool :=
  let per := w.getD 4 0
  let top := w.getD 5 0
  pzero w 4 8 && pzero w 25 64 && decide (fld (pbyte w 24) 4 3 = 0) && decide (plong w 8 % 4 = 0) && decide (1 ≤ per) &&
    decide (per ≤ 2 ^ 31) && decide (1 ≤ top) && decide (top ≤ 2 ^ 31)

/-- R302: COMPACT, once the packet after it is written. -/
def execCompact (slot : Nat) (s : State) : Host.Outcome State Fault Refusal :=
  match s.headOf slot 5 with
  | none => .next s
  | some (h, e, w) =>
    let va := plong w 8
    let per := w.getD 4 0
    let top := w.getD 5 0
    let b := pbyte w 24
    let at_ := e.packetVa (e.rdidx + 1)
    if compactOk w = false then .next (s.refuse slot h statusType)
    else .next (s.readFor slot h at_ 64 (fun s1 v =>
      let next := packetWords v
      let type := pbyte next 0
      if type = 0 then s1
      else s1.readFor slot h va 4 (fun s2 c =>
        if type ≠ 1 ∨ (nbit b 7 = true ∧ pbyte next 24 % 32 ≤ b % 16) then s2.refuse slot h statusOrder
        else
          let arg := if nbit b 7 then some (b % 16, c) else none
          s2.consume slot { h with compact := some (min (cdiv c per) top, arg), timer := 0 } e)))

/-- R302: BARRIER. -/
def execBarrier (slot : Nat) (s : State) : Host.Outcome State Fault Refusal :=
  match s.headOf slot 6 with
  | none => .next s
  | some (h, e, w) =>
    if pzero w 4 64 then .next (s.complete slot h e) else .next (s.refuse slot h statusType)

/-! ## SLICE_EXPIRY, R304 -/

/-- A queue has a team to be placed, or to be brought back. -/
def State.wantsCores (s : State) (part q : Nat) : Bool :=
  s.launches.any (fun l => decide (l.part = part) && decide (l.queue = q) && !l.killed && l.chunks.any (fun c => decide (c.next < c.stop))) ||
    s.teams.any (fun t => decide (t.part = part) && decide (t.queue = q) && !t.onCore)

/-- A queue waits for a slot: it is not mapped, and it was left with teams to be placed or brought back, or a scan would find it and a
packet of it. -/
def State.waitsSlot (s : State) (part q : Nat) : Bool :=
  (s.slotOf part q).isNone && (((s.parked? part q).isSome && s.wantsCores part q) ||
    (((s.parked? part q).isSome || (match s.vread schedCore part ((s.part part).pendbase + q) 1 with
      | .ok b => decide (b ≠ 0)
      | .error _ => false)) && s.packetWaits part q))

/-- A queue waits for cores: a team of it is to be placed or brought back, while the queue waits for no mapping (R304, R383). -/
def State.waitsCores (s : State) (part q : Nat) : Bool := s.wantsCores part q && (s.parked? part q).isNone

/-- Another queue of the partition with an equal or lower class waits for a slot or for cores. -/
def State.waiterFor (s : State) (h : HwSlot) : Bool :=
  let cls := s.classOf h.part h.queue
  (List.range (s.part h.part).qcount).any (fun q => decide (q ≠ h.queue) && decide (s.classOf h.part q ≤ cls) &&
    (s.waitsSlot h.part q || s.waitsCores h.part q))

/-- R304: a slice that has run out ends the mapping when a waiter stands, and else starts again. -/
def execSliceExpiry (slot : Nat) (s : State) : Host.Outcome State Fault Refusal :=
  match s.slot? slot with
  | none => .next s
  | some h =>
    if s.sliceOver h = false then .next s
    else if s.waiterFor h then .next (s.unmap slot)
    else .next (s.putSlot slot (some { h with sliceAt := s.ns 0 }))

end Sys2Proof.Machine
end

