-- ==== Sys2Proof/Machine/Place.lean ====
section
/-! DEFINITION. Placement and retirement of teams (R18, R23, R24, R27, R35, R148, R303, R306, R307, R383), and the
staggered start of the cores (R376). -/

namespace Sys2Proof.Machine

open Sys2Proof

/-! ## CORE_START, R376 -/

/-- The time at which a core starts after BOOTST became 1. -/
def startNs (core : Nat) : Nat := 2000000 * dieOf core + 50000 * (core / 8 % 16) + 1000 * (core % 8)

/-- R376: a core reaches its start. -/
def execCoreStart (core : Nat) (s : State) : Host.Outcome State Fault Refusal :=
  if core < Config.cores ∧ s.regs.bootst = 1 ∧ s.regs.bootNs + startNs core ≤ s.ns 0 then
    .next (s.putCore core { s.core core with started := true })
  else .next s

/-! ## Rows (R23, R35) -/

/-- The teams that hold rows of a core. -/
def State.teamsOn (s : State) (core : Nat) : List Team := s.teams.filter (fun t => decide (t.core = core) && t.onCore)

/-- The runs of rows of a team. -/
def Team.runs_ (t : Team) : List (Nat × Nat) :=
  t.groups.map (fun g => (g.frame, g.frameRows)) ++ [(t.teamBase, t.kernel.trows), (t.barBase, t.barRows)]

/-- A run put into a list that rises by first row. -/
def insertRun (r : Nat × Nat) : List (Nat × Nat) → List (Nat × Nat)
  | [] => [r]
  | x :: rest => if r.1 ≤ x.1 then r :: x :: rest else x :: insertRun r rest

/-- The allocated runs of a core, by first row. -/
def State.allocated (s : State) (core : Nat) : List (Nat × Nat) :=
  (((s.teamsOn core).flatMap (fun t => t.runs_)).filter (fun r => decide (r.2 ≠ 0))).foldr insertRun []

/-- The allocated ordinary rows of a core. -/
def State.allocatedRows (s : State) (core : Nat) : Nat := ((s.allocated core).map (fun r => r.2)).sum

/-- The free runs between allocated ones, from row `at_` on. -/
def holes (at_ : Nat) : List (Nat × Nat) → List (Nat × Nat)
  | [] => if at_ < Config.ordinaryRows then [(at_, Config.ordinaryRows - at_)] else []
  | r :: rest => (if at_ < r.1 then [(at_, r.1 - at_)] else []) ++ holes (max at_ (r.1 + r.2)) rest

/-- A place for each of some runs in free runs, none overlapping, if there is one: the lowest is tried first. -/
def fitRuns : List Nat → List (Nat × Nat) → Option (List Nat)
  | [], _ => some []
  | r :: rest, hs =>
    if r = 0 then (fitRuns rest hs).map (fun l => 0 :: l)
    else (List.range hs.length).findSome? (fun i =>
      let h := hs.getD i (0, 0)
      if h.2 < r then none else (fitRuns rest (hs.set i (h.1 + r, h.2 - r))).map (fun l => h.1 :: l))

/-! ## Whether a core can take a team (R15, R18, R22, R23, R148) -/

/-- Resident groups of a quadrant. -/
def State.quadLoad (s : State) (core q : Nat) : Nat :=
  ((s.teamsOn core).flatMap (fun t => t.groups.filter (fun g => decide (g.quad = q)))).length

/-- Free tiles of a core. -/
def State.freeTiles (s : State) (core : Nat) : List Nat := (List.range 8).filter (fun k => s.tileFree core k)

/-- The streams of a core. -/
def State.streamsOn (s : State) (core : Nat) : Nat := ((s.teamsOn core).filter (fun t => t.stream.isSome)).length

/-- The lowest free run of a cluster's program store. -/
def State.storeRun (s : State) (cluster n : Nat) : Option Nat :=
  let xs := (s.cluster cluster).sections
  (List.range (257 - n)).find? (fun a => xs.all (fun x => decide (a + n ≤ x.base) || decide (x.base + x.words.length ≤ a)))

/-- R148: the store holds the section or has room for it. -/
def State.sectionFits (s : State) (cluster part : Nat) (k : Kernel) : Bool :=
  decide (k.cardlen = 0) ||
    (s.cluster cluster).sections.any (fun x => decide (x.part = part) && decide (x.desc = k.desc)) ||
    (s.storeRun cluster k.cardlen).isSome

/-- What a team needs of a core. -/
structure TeamNeed where
  part : Nat
  kernel : Kernel
  nc : Nat
  hasp : Bool
  tiles : Nat
  stream : Bool
  deriving DecidableEq, Repr

/-- Where a core would put the runs of such a team, if it can take it. -/
def State.fits (s : State) (core : Nat) (n : TeamNeed) : Option (List Nat) :=
  let k := clusterOf core
  let num := n.nc + n.hasp.toNat
  if (s.core core).started = false ∨ s.owner k ≠ n.part ∨ (s.cluster k).retire = true then none
  else if (List.range 4).any (fun q => decide (8 < s.quadLoad core q + quadCount num q)) then none
  else if (s.freeTiles core).length < n.tiles ∨ (n.stream = true ∧ 4 ≤ s.streamsOn core) then none
  else if s.sectionFits k n.part n.kernel = false then none
  else fitRuns (n.kernel.runs n.nc n.hasp) (holes 0 (s.allocated core))

/-- R306: among some cores in ascending order, the one with the most free rows that can take the team. -/
def State.bestCore (s : State) (cores : List Nat) (n : TeamNeed) : Option (Nat × List Nat) :=
  cores.foldl (fun (a : Option (Nat × List Nat)) c => match s.fits c n with
    | none => a
    | some l => match a with
      | none => some (c, l)
      | some b => if s.allocatedRows c < s.allocatedRows b.1 then some (c, l) else a) none

def coresOf (die : Nat) : List Nat := (List.range 128).map (fun i => 128 * die + i)

/-! ## Creating a team (R24) -/

/-- TKEY: unique among the partition's teams, with the die where it was assigned (R49). -/
def State.newTkey (s : State) (part die : Nat) : Nat :=
  die * 2 ^ 19 + ((List.range (s.teams.length + 1)).find? (fun k =>
    !s.teams.any (fun t => decide (t.part = part) && decide (t.tkey = die * 2 ^ 19 + k)))).getD 0

/-- QDEAD of a core's quadrant (R358). -/
def State.qdead (s : State) (core q : Nat) : BitVec 32 := BitVec.ofNat 32 (sget 0 (s.die (dieOf core)).qdead (4 * (core % 128) + q))

/-- The lanes of a mask. -/
def lanesIn (m : BitVec 32) : List Nat := allLanes.filter (fun l => m.getLsbD l)

/-- DEADMASK of a new group (R359, R370). -/
def State.deadAt (s : State) (prot : Bool) (core q : Nat) : BitVec 32 := deadWith 0 (withPartners prot (lanesIn (s.qdead core q)))

/-- A group as it is created (R24); its candidate counts its age from there (DESIGN CHOICE, log entry 136). -/
def newGroup (num : Nat) (f : Bool × Nat × Nat) (frame entry : Nat) (dead : BitVec 32) (now : Nat) : Group :=
  let slice := fun (i : Nat) => (⟨⟨entry, 0⟩, liveNibble dead i, [], 0, entry, decide (liveNibble dead i = 0)⟩ : Slice)
  let xs := (List.range 8).map slice
  let live := (List.range 8).filter (fun i => decide (liveNibble dead i ≠ 0))
  ⟨num, f.1, num % 4, f.2.1, f.2.2, frame, xs, if live.isEmpty then [] else [⟨live, .ready, now, 0, [], []⟩],
    List.replicate 7 0, List.replicate 12 0, dead, 0, 0, 0, 0, 0, 0, false, none,
    if live.isEmpty then some ⟨0x14, 0, ⟨entry, 0⟩, []⟩ else none, 0, ⟨0, 0, 0, 0⟩, 0, [], false, [], [], []⟩

/-- The stream of a new team (R117). -/
def newStream (entry : Nat) (args : List Nat) (now : Nat) : Stream :=
  let st : Stream := ⟨⟨entry, 0⟩, [], 0, .ready, now, [], 0, false⟩
  args.zipIdx.foldl (fun (st : Stream) (a : Nat × Nat) => st.put a.2 a.1) st

/-- Rows as allocation leaves them (R40): the valid bits of their elements clear. -/
def State.clearRows (s : State) (core : Nat) (l : List (Nat × Nat)) : State :=
  { s with pal := l.foldl (fun p r => wipeRows p core r.1 r.2) s.pal }

/-- Rows written afresh, for the barriers (R108). -/
def State.freshRows (s : State) (core lo n : Nat) : State :=
  { s with pal := s.pal.filter (fun e => decide (e.1 < palKey core lo 0) || decide (palKey core (lo + n) 0 ≤ e.1)) }

/-- R148, R308: a word of a kernel's section read as code through the die's code store: its value, or the code (XLATE, PERM,
POISON) of its failure, which writes a fault record. -/
def State.sectionRead (s : State) (part core queue desc va : Nat) : State × Option Nat × Nat :=
  match s.codeItem (dieOf core) part desc va 4 with
  | some c => (s, some c.val, 0)
  | none =>
    let s1 := s.codeSeen core part va 4
    match s.codeRead core part va 4 with
    | .error e => (s1.writeFault part core queue 0 ⟨va, e.1, e.2, 6, false⟩, none, codeOf e.1)
    | .ok v => (s1.putCode (dieOf core) ⟨part, desc, va, 4, v⟩, some v, 0)

/-- R148: a section read word by word. -/
def State.readSection (s : State) (part core queue desc va : Nat) : Nat → State × List (Option Nat × Nat)
  | 0 => (s, [])
  | n + 1 =>
    let (s1, l) := s.readSection part core queue desc va n
    let (s2, w) := s1.sectionRead part core queue desc (va + 4 * n)
    (s2, l ++ [w])

/-- R148: a team of a kernel comes to a cluster: its section is loaded with the first. -/
def State.enterSection (s : State) (core part queue : Nat) (k : Kernel) : State :=
  let c := clusterOf core
  if k.cardlen = 0 then s
  else
    let mine := fun (x : Section) => decide (x.part = part) && decide (x.desc = k.desc)
    let v := s.cluster c
    if v.sections.any mine then
      s.putCluster c { v with sections := v.sections.map (fun x => if mine x then { x with teams := x.teams + 1 } else x) }
    else
      let (s1, l) := s.readSection part core queue k.desc k.carder k.cardlen
      let v1 := s1.cluster c
      s1.putCluster c { v1 with sections := v1.sections ++
        [⟨part, k.desc, (s1.storeRun c k.cardlen).getD 0, l.map (fun e => e.1), l.map (fun e => e.2), 1⟩] }

/-- R148: a team of a kernel leaves a cluster: the section leaves with the last. -/
def State.leaveSection (s : State) (core part : Nat) (k : Kernel) : State :=
  let c := clusterOf core
  let v := s.cluster c
  if k.cardlen = 0 then s
  else s.putCluster c { v with sections := v.sections.filterMap (fun x =>
    if x.part = part ∧ x.desc = k.desc then (if x.teams ≤ 1 then none else some { x with teams := x.teams - 1 }) else some x) }

/-- R366: after an allocation, the mirrors that a core keeps: none above 6,144 allocated rows, and none on rows that
are now allocated. -/
def State.trimMirrors (s : State) (core : Nat) : State :=
  let c := s.core core
  let runs := s.allocated core
  let clear := fun (m : Mirror) => runs.all (fun r => decide (r.1 + r.2 ≤ m.at_) || decide (m.at_ + m.len ≤ r.1))
  s.putCore core { c with mirrors := if Config.mirrorRows < s.allocatedRows core then [] else c.mirrors.filter clear }

/-- R24: the launch's argument words in the scalars that reach them. -/
def writeArgs (p : Sparse Elem) (core : Nat) (g : Group) (args : List Nat) : Sparse Elem :=
  (args.zipIdx.filter (fun (a : Nat × Nat) => decide (a.2 < 32 * g.srows))).foldl (fun p (a : Nat × Nat) =>
    palPut p core (g.scalRow a.2) (a.2 % 32) (Elem.of (BitVec.ofNat 32 a.1))) p

/-- Places a team of a launch on a core, its runs at the given rows (R24, R35), under the RELCTL of its partition (R357). -/
def State.placeTeam (s : State) (l : Launch) (teamid core : Nat) (at_ : List Nat) : State :=
  let k := l.kernel
  let frames := k.frames l.nc l.hasp
  let r := s.part l.part
  let now := s.clk (dieOf core)
  let group := fun (i : Nat) (f : Bool × Nat × Nat) =>
    newGroup i f (at_.getD i 0) ((if f.1 then k.pentry else k.centry).getD 0) (s.deadAt r.relProt core (i % 4)) now
  let groups := frames.mapIdx group
  let n := frames.length
  let tiles := (s.freeTiles core).take k.acc
  let t : Team := ⟨s.nextId, l.part, l.id, l.queue, l.cls, teamid, s.newTkey l.part (dieOf core), core, .resident, k, l.nc,
    l.hasp, l.coop, r.relProt, r.relMirror, s.ps, none, at_.getD n 0, at_.getD (n + 1) 0, groups, List.replicate k.bars Barrier.fresh,
    (List.range 8).map (fun i => tiles[i]?), k.mentry.map (fun e => newStream e l.args now)⟩
  let s1 := (s.enterSection core l.part l.queue k).clearRows core (t.runs_ ++ tiles.map (fun x => (tileBase x, 512)))
  let s2 := s1.freshRows core t.barBase t.barRows
  let pal := groups.foldl (fun p g => writeArgs p core g l.args) s2.pal
  State.trimMirrors { s2 with nextId := s.nextId + 1, pal := pal, teams := s2.teams ++ [t] } core

/-! ## TEAM_PLACEMENT, R306 -/

def Launch.need (l : Launch) : TeamNeed := ⟨l.part, l.kernel, l.nc, l.hasp, l.kernel.acc, l.kernel.mentry.isSome⟩

/-- The next chunk of a launch on a die with a team to place. -/
def Launch.chunkOn (l : Launch) (die : Nat) : Option Chunk := l.chunks.find? (fun c => decide (c.die = die) && decide (c.next < c.stop))

/-- A team of a chunk is placed. -/
def Launch.taken (l : Launch) (k : Nat) : Launch :=
  { l with chunks := l.chunks.map (fun c => if c.k = k then { c with next := c.next + 1 } else c) }

def State.putLaunch (s : State) (l : Launch) : State :=
  { s with launches := s.launches.map (fun x => if x.id == l.id then l else x) }

/-- The next team of a launch on a die, placed on its best core. -/
def State.placeNext (s : State) (l : Launch) (die : Nat) : Option (State × Launch) :=
  (l.chunkOn die).bind (fun c => (s.bestCore (coresOf die) l.need).map (fun b =>
    let l1 := l.taken c.k
    ((s.placeTeam l c.next b.1 b.2).putLaunch l1, l1)))

/-- R306, R30: a cooperative grid placed whole, die by die in the order of its teams; nothing when some team does not
fit. -/
def State.placeGrid (s : State) (l : Launch) : Option State :=
  let dies := l.chunks.flatMap (fun c => List.replicate (c.stop - c.next) c.die)
  (dies.foldl (fun (a : Option (State × Launch)) d => a.bind (fun x => x.1.placeNext x.2 d)) (some (s, l))).map (fun x => x.1)

/-- Whether a pre-empted team waits for its restore: its queue does not wait for its next mapping (R304), and is not
set to ON = 0 by a quiesce (R340; log entry 78). -/
def State.wantsBack (s : State) (t : Team) : Bool :=
  !t.onCore && (match s.entry? t.part t.queue with
    | some e => e.err || (e.on && (s.parked? t.part t.queue).isNone)
    | none => true)

/-- The die that owns a team's chunk (R383). -/
def State.ownerDie (s : State) (t : Team) : Nat :=
  ((s.launches.find? (fun l => l.id == t.launch)).bind (fun l =>
    (l.chunks.find? (fun c => decide (c.k = t.teamid / 64))).map (fun c => c.die))).getD (homeOfKey t.tkey)

/-- R383: at a die's distributor a team waits for its restore ahead of the placements of its class and of every higher one. -/
def State.restoreWaits (s : State) (part die cls : Nat) : Bool :=
  s.teams.any (fun t => decide (t.part = part) && decide (t.cls ≤ cls) && decide (s.ownerDie t = die) && s.wantsBack t)

/-- A launch has its turn to place teams: it has not been killed, and its queue does not wait for its next mapping (R304). -/
def State.places (s : State) (l : Launch) : Bool := !l.killed && (s.parked? l.part l.queue).isNone

/-- The launches in the order in which their teams are placed: the lower class first, then the earlier launch. -/
def State.placeOrder (s : State) : List Launch :=
  (List.range 4).flatMap (fun c => s.launches.filter (fun l => decide (l.cls = c) && s.places l))

/-- R306: the launch of a partition that a die's distributor serves: the first in order with a team to place there; one that
must wait holds back every later one. -/
def State.nextLaunch (s : State) (part die : Nat) : Option Launch :=
  s.placeOrder.find? (fun l => decide (l.part = part) && (l.chunkOn die).isSome)

/-- R306, R383: it is a launch's turn at a die's distributor: no launch and no restore comes before it there. -/
def State.itsTurn (s : State) (l : Launch) (die : Nat) : Bool :=
  decide ((s.nextLaunch l.part die).map (fun x => x.id) = some l.id) && !s.restoreWaits l.part die l.cls

/-- The dies on which a launch has teams to place. -/
def Launch.openDies (l : Launch) : List Nat := ((l.chunks.filter (fun c => decide (c.next < c.stop))).map (fun c => c.die)).dedup

/-- R306: a die's distributor places the next team of a partition, or a cooperative grid whose turn it is at every distributor. -/
def State.placeFor (s : State) (die part : Nat) : Option State :=
  (s.nextLaunch part die).bind (fun l =>
    if s.itsTurn l die = false then none
    else if l.coop then (if l.openDies.all (fun d => s.itsTurn l d) then s.placeGrid l else none)
    else (s.placeNext l die).map (fun x => x.1))

/-- R306: a die's distributor places a team. -/
def execTeamPlacement (die : Nat) (s : State) : Host.Outcome State Fault Refusal :=
  .next (((List.range 64).findSome? (fun p => s.placeFor die p)).getD s)

/-! ## STEAL_REQUEST, R307 -/

/-- A partition's chunks on a die of which no team is placed, each with its launch. -/
def State.untouched (s : State) (part die : Nat) : List (Launch × Chunk) :=
  (s.placeOrder.filter (fun l => decide (l.part = part))).flatMap (fun l =>
    (l.chunks.filter (fun c => decide (c.die = die) && decide (c.next = 64 * c.k) && decide (c.next < c.stop))).map (fun c => (l, c)))

/-- The highest-numbered of some chunks; of chunks of one number that of the later launch (log entry 70). -/
def lastChunk (l : List (Launch × Chunk)) : Option (Launch × Chunk) :=
  l.foldl (fun a x => match a with
    | none => some x
    | some b => if b.2.k ≤ x.2.k then some x else some b) none

/-- The other dies of a partition in the order in which a request goes round. -/
def State.roundFrom (s : State) (part die : Nat) : List Nat :=
  (s.diesOf part).filter (fun d => decide (die < d)) ++ (s.diesOf part).filter (fun d => decide (d < die))

/-- R307: what a die's distributor takes for a partition: it has no team to place, and a core able to take one; the first die in the round
that holds two untouched chunks hands over the highest-numbered. -/
def State.steal (s : State) (die part : Nat) : Option (Launch × Chunk) :=
  if (s.diesOf part).contains die = false ∨ (s.nextLaunch part die).isSome = true then none
  else
    let round := s.roundFrom part die
    if round.all (fun d => (s.untouched part d).all (fun x => (s.bestCore (coresOf die) x.1.need).isNone)) then none
    else (round.find? (fun d => decide (2 ≤ (s.untouched part d).length))).bind (fun d => lastChunk (s.untouched part d))

/-- R307: a distributor sends a steal request. -/
def execStealRequest (die : Nat) (s : State) : Host.Outcome State Fault Refusal :=
  match (List.range 64).findSome? (fun p => s.steal die p) with
  | some (l, c) => .next (s.putLaunch { l with chunks := l.chunks.map (fun x => if x.k = c.k then { x with die := die } else x) })
  | none => .next s

/-! ## TEAM_RETIREMENT, R27, R50, R303 -/

/-- Every operation of a team has completed; those of a killed team are aborted but for the requests that have left. -/
def State.teamQuiet (s : State) (t : Team) : Bool :=
  s.ops.all (fun o => decide (o.team ≠ t.id)) && s.walks.all (fun w => decide (w.team ≠ t.id)) &&
    s.reqs.all (fun r => decide (r.team ≠ t.id) || (decide (t.status = .killed) && r.done)) &&
    s.swreqs.all (fun r => decide (r.team ≠ t.id) || (decide (t.status = .killed) && decide (2 ≤ r.stage)))

/-- R27: a team may retire: its groups and its stream have ended, or it has been killed, and nothing of it is under
way. A team of a partition that is being reset goes with the reset (R372). -/
def State.mayRetire (s : State) (t : Team) : Bool :=
  s.teamQuiet t && !(s.part t.part).wdBusy && (decide (t.status = .killed) ||
    (decide (t.status = .resident) && t.groups.all (fun g => g.isEnded && g.trapping.isNone) && (match t.stream with
      | some st => st.ended
      | none => true)))

/-- The generation after a retirement (R50). -/
def nextGen (g : Nat) : Nat := if g = 4095 then 1 else g + 1

/-- R27, R50: everything that a team held is freed. -/
def State.freeTeam (s : State) (t : Team) : State :=
  let free := fun (e : SwEntry) => if e.team = t.id ∧ e.live = true then { e with live := false, gen := nextGen e.gen } else e
  let c := s.core t.core
  let mine := fun (m : Mirror) => t.runs_.any (fun r => decide (r.1 ≤ m.lo) && decide (m.lo < r.1 + r.2))
  let s1 := if t.onCore then
      (s.putCore t.core { c with mirrors := c.mirrors.filter (fun m => !mine m) }).leaveSection t.core t.part t.kernel
    else s
  State.evict { s1 with
    swatches := s1.swatches.map free
    reqs := s1.reqs.filter (fun r => r.team != t.id)
    swreqs := s1.swreqs.filter (fun r => r.team != t.id)
    ops := s1.ops.filter (fun o => o.team != t.id)
    walks := s1.walks.filter (fun w => w.team != t.id)
    locks := s1.locks.filter (fun l => l.team != t.id)
    ldels := s1.ldels.filter (fun d => d.team != t.id)
    teams := s1.teams.filter (fun u => u.id != t.id) } (dieOf t.core)

/-- The timer of the slot that holds a queue restarts as a packet completes (R371). -/
def State.restartTimer (s : State) (part q : Nat) : State :=
  match s.slotOf part q with
  | none => s
  | some i => s.putSlot i ((s.slot? i).map (fun h => { h with timer := 0, lastActive := s.ns 0 }))

/-- R302, R303: a kernel completes when every team has retired; one with a killed team when those placed have, and then
its queue stops with KILLED. -/
def State.kernelEnds (s : State) (id : Nat) : State :=
  match s.launches.find? (fun l => l.id == id) with
  | none => s
  | some l =>
    let left := s.teams.any (fun t => decide (t.launch = id))
    if left = true ∨ (l.killed = false ∧ l.retired < l.grid) then s
    else
      let s1 := State.restartTimer { s with launches := s.launches.filter (fun x => x.id != id) } l.part l.queue
      if l.killed then s1.stopQueue l.part l.queue statusKilled else s1

/-- A team is gone: its launch counts it. -/
def State.retire (s : State) (t : Team) : State :=
  let count := fun (l : Launch) => if l.id = t.launch then { l with retired := l.retired + 1 } else l
  let s1 := (s.firstIssue t.id).freeTeam t
  State.kernelEnds { s1 with launches := s1.launches.map count } t.launch

/-- R27: a team retires. -/
def execTeamRetirement (team : Nat) (s : State) : Host.Outcome State Fault Refusal :=
  match s.team? team with
  | none => .next s
  | some t => if s.mayRetire t then .next ((s.retire t).startWalks (clusterOf t.core)) else .next s

end Sys2Proof.Machine
end

