-- ==== Sys2Proof/Machine/Preempt.lean ====
section
/-! DEFINITION. Pre-emption: the stop, the image in a save slot and the restore (R304, R305, R317 to R325, R383, R384,
R386). The image's bytes are written as R320 to R323 lay them down, and a restore reads them back (log entry 16). -/

namespace Sys2Proof.Machine

open Sys2Proof

/-! ## Save slots (R316, R317, R320) -/

/-- Rounded up to a multiple of 128. -/
def up128 (n : Nat) : Nat := cdiv n 128 * 128

/-- The operations that have an engine record (R322). -/
def State.engineOps (s : State) (t : Team) : List Op := s.ops.filter (fun o => decide (o.team = t.id) && o.kind.counted)

/-- The held tiles: name and core tile, in name order. -/
def Team.heldTiles (t : Team) : List (Nat × Nat) :=
  (List.range 8).filterMap (fun n => (t.tile n).map (fun k => (n, k)))

/-- Bytes of a group's section. -/
def Group.imageSize (g : Group) : Nat := up128 (3072 + 132 * g.frameRows)

/-- Bytes of the sections after the header. -/
def Team.sections (t : Team) (neng : Nat) : List Nat :=
  [(t.groups.map (fun g => g.imageSize)).sum, up128 (128 * (t.kernel.trows + t.barRows) + 4 * t.kernel.trows),
    67584 * t.heldTiles.length, if t.stream.isSome then 1024 else 0, 2176 * neng]

def Team.imageSize (t : Team) (neng : Nat) : Nat := 256 + (t.sections neng).sum

/-- The offset of section `i`. -/
def Team.offset (t : Team) (neng i : Nat) : Nat := 256 + ((t.sections neng).take i).sum

/-- The pool's usable slots (R316). -/
def State.slotCount (s : State) (part : Nat) : Nat :=
  let p := s.part part
  if 16 ≤ p.slotlog2 ∧ p.slotlog2 ≤ 26 then p.saveSlots else 0

/-- A slot without an image: no team's, and with STATE 0 as far as it can be read (log entry 80). -/
def State.slotFree (s : State) (part i : Nat) : Bool :=
  !s.teams.any (fun t => decide (t.part = part) && (decide (t.status = .preempted i) || decide (t.saveSlot = some i))) &&
    (match s.vread schedCore part (s.slotVa part i + 4) 1 with
      | .ok v => decide (v = 0)
      | .error _ => true)

/-- The STATE bytes of the pool's slots have been read (R342, R358). -/
def State.slotsRead (s : State) (part : Nat) : State :=
  (List.range (s.slotCount part)).foldl (fun (s : State) i => s.vseen schedCore part (s.slotVa part i + 4) 1) s

def State.freeSlots (s : State) (part : Nat) : List Nat := (List.range (s.slotCount part)).filter (fun i => s.slotFree part i)

/-- R317: free slots can hold the images of some teams, beside those of the teams that are stopping. -/
def State.slotsHold (s : State) (l : List Team) : Bool :=
  l.all (fun t => decide (t.imageSize (s.engineOps t).length ≤ 2 ^ (s.part t.part).slotlog2)) && (match l with
    | [] => true
    | t :: _ =>
      let stopping := (s.teams.filter (fun u => decide (u.part = t.part) && decide (u.status = .stopping ∨ u.status = .stopped))).length
      decide (l.length + stopping ≤ (s.freeSlots t.part).length))

/-- What a team's restore needs. -/
def Team.need (t : Team) : TeamNeed := ⟨t.part, t.kernel, t.nc, t.hasp, t.heldTiles.length, t.stream.isSome⟩

/-! ## A team on its new core (R29, R324) -/

/-- R29, R359: the lanes that are dead in the new quadrant, reported by a SOFT event before the first issue. -/
def Group.moved (g : Group) (prot : Bool) (qdead : BitVec 32) : Group :=
  let new := (withPartners prot (lanesIn qdead)).filter g.live
  if new.isEmpty then g
  else
    let h := (g.killLanes prot new).addSoft 1 (BitVec.ofNat 32 (lanesMask new)) 0 0
    if g.isEnded = false ∧ h.noLane = true then { h with trapping := some (deadlane g) } else h

/-- A saved candidate as it goes on (R318): those waiting in fault check issue their word again, `twait` and `waitb` wait
again, a `twait` with a fresh limit, as R310 gives after `rte` (DESIGN CHOICE, log entry 137); its age counts from the restore and its
starvation counter is 0 (DESIGN CHOICE, log entry 136). -/
def Cand.back (now : Nat) (c : Cand) : Cand := { c with wait := c.wait.resumed, stamp := now, starve := 0, failed := [], kept := [] }

/-- The team on its new core: its runs and tiles there, its candidates and its stream as they go on. -/
def State.rehoused (s : State) (t : Team) (slot core : Nat) (at_ : List Nat) : Team :=
  let n := t.groups.length
  let free := s.freeTiles core
  let now := s.clk (dieOf core)
  let names := t.heldTiles.map (fun x => x.1)
  let group := fun (i : Nat) (g : Group) => { g with frame := at_.getD i 0, cands := g.cands.map (Cand.back now) }
  { t with
    core := core, status := .resident, placed := s.ps, saveSlot := some slot, groups := t.groups.mapIdx group,
    teamBase := at_.getD n 0, barBase := at_.getD (n + 1) 0, stream := t.stream.map (fun st => { st with stamp := now, wait := .ready }),
    tiles := (List.range 8).map (fun k => if names.contains k then free[names.idxOf k]? else none) }

/-! ## Victims (R30, R304, R305) -/

/-- The team alone, or the resident teams of its cooperative grid. -/
def State.unitOf (s : State) (t : Team) : List Team :=
  if t.coop then s.teams.filter (fun u => decide (u.launch = t.launch) && u.runs) else [t]

/-- R383: the core for a restore: of its own die first, then of the partition's other dies. -/
def State.restoreCore (s : State) (t : Team) : Option (Nat × List Nat) :=
  (s.ownerDie t :: s.roundFrom t.part (s.ownerDie t)).findSome? (fun d => s.bestCore (coresOf d) t.need)

/-- Some teams take the cores that their restores would; nothing when one of them finds none. -/
def State.standIn (s : State) (l : List Team) : Option State :=
  l.foldl (fun (a : Option State) t => a.bind (fun s => (s.restoreCore t).map (fun c =>
    (s.enterSection c.1 t.part t.queue t.kernel).putTeam (s.rehoused t 0 c.1 c.2)))) (some s)

/-- The next teams of a launch on a die, as many as it places at once: the one, or a cooperative grid's share (R306). -/
def Launch.share (l : Launch) (die : Nat) : Nat :=
  if l.coop then ((l.chunks.filter (fun c => decide (c.die = die))).map (fun c => c.stop - c.next)).sum else 1

/-- R305: a launch whose turn it is on a die, and whose next teams the cores of the die cannot take. -/
def State.unplaceable (s : State) (l : Launch) (die : Nat) : Bool :=
  s.itsTurn l die && ((List.range (l.share die)).foldl (fun (a : Option (State × Launch)) _ =>
    a.bind (fun x => x.1.placeNext x.2 die)) (some (s, l))).isNone

/-- A team to be restored, with the rest of its cooperative grid, that finds no core on any die of its partition (R383). -/
def State.homeless (s : State) (u : Team) : Bool :=
  s.wantsBack u && (s.standIn (if u.coop then s.teams.filter (fun v => decide (v.launch = u.launch) && !v.onCore) else [u])).isNone

/-- R305: a launch of a lower class waits for a place on a die, where its distributor is to put it. -/
def State.launchWaits (s : State) (part die cls : Nat) : Bool :=
  s.launches.any (fun l => decide (l.part = part) && decide (l.cls < cls) && s.unplaceable l die)

/-- R305, R383: a team of a lower class waits to be brought back, to a core of any die of its partition. -/
def State.returnWaits (s : State) (part cls : Nat) : Bool :=
  s.teams.any (fun u => decide (u.part = part) && decide (u.cls < cls) && s.homeless u)

/-- R304: the queue of a team has lost its slot, and another of an equal or lower class waits for the team's core, to place a team or to
bring one back. -/
def State.sliceLost (s : State) (t : Team) : Bool :=
  (s.slotOf t.part t.queue).isNone &&
    (s.launches.any (fun l => decide (l.part = t.part) && decide (l.queue ≠ t.queue) && decide (l.cls ≤ t.cls) &&
        s.unplaceable l (dieOf t.core)) ||
      s.teams.any (fun u => decide (u.part = t.part) && decide (u.queue ≠ t.queue) && decide (u.cls ≤ t.cls) && s.homeless u))

/-- R305: no candidate among some dies comes before a team: none of a higher class, none of its class placed later. -/
def State.firstVictim (s : State) (t : Team) (among : Nat → Bool) : Bool :=
  !s.teams.any (fun u => decide (u.part = t.part) && u.runs && among (dieOf u.core) &&
    (decide (t.cls < u.cls) || (decide (u.cls = t.cls) && decide (t.placed < u.placed))) && s.slotsHold (s.unitOf u))

/-- R317: the team is on its way out. -/
def Team.leaving (t : Team) : Bool := decide (t.status = .stopping ∨ t.status = .stopped ∨ t.status = .saving)

/-- R305: the team is a victim of what waits for cores of some dies: the first in order, no other stop of its partition being under way
there. -/
def State.isVictim (s : State) (t : Team) (among : Nat → Bool) : Bool :=
  s.firstVictim t among && !s.teams.any (fun u => decide (u.part = t.part) && u.leaving && among (dieOf u.core))

/-- Whether a team may be stopped now (R304, R305). -/
def State.mayStop (s : State) (t : Team) : Bool :=
  let here := fun (d : Nat) => decide (d = dieOf t.core)
  t.runs && s.slotsHold (s.unitOf t) &&
    ((s.sliceLost t && !s.teams.any (fun u => decide (u.part = t.part) && u.leaving && here (dieOf u.core))) ||
      (s.launchWaits t.part (dieOf t.core) t.cls && s.isVictim t here) ||
      (s.returnWaits t.part t.cls && s.isVictim t (fun _ => true)))

/-! ## The stop, R317 steps 1 to 3 -/

/-- The replies of a team's gathers that have come back land (log entry 81). -/
def State.landGathers (s : State) (team : Nat) : State :=
  (s.ops.filter (fun o => decide (o.team = team) && decide (o.kind = .gather) && !o.got.isEmpty)).foldl (fun (s : State) o =>
    match s.team? team with
    | some t => s.landReplies o t (o.got.map (fun e => e.1))
    | none => s) s

/-- R318: a destination not admitted when its sender stops is sent whole again. -/
def Dest.unsent (d : Dest) : Dest := if d.stage = 0 then { d with classL := d.classL.map (fun _ => 0), port := none } else d

/-- R317 steps 1 and 2: the team issues no more, and its class L deliveries end (R355). -/
def State.stopTeam (s : State) (t : Team) : State := (s.putTeam { t with status := .stopping }).stopLDels t.id

/-- R317 step 3, once step 2 has ended: its copies, gathers, scatters and walks are aborted and their locks released, its swatches are
absent, and its TICK stops. -/
def State.abortTeam (s : State) (t : Team) : State :=
  let s1 := (s.putTeam { t with status := .stopped }).landGathers t.id
  let mine := fun (o : Op) => decide (o.team = t.id) && o.kind.counted
  let gone := (s1.ops.filter mine).map (fun o => o.id)
  State.startWalks { s1 with
    ops := s1.ops.map (fun o => if mine o then { o with dests := o.dests.map Dest.unsent } else o)
    locks := s1.locks.filter (fun l => !gone.contains l.op)
    walks := s1.walks.filter (fun w => w.team != t.id) } (clusterOf t.core)

/-- A team is stopped, or with it its cooperative grid (R30). -/
def State.stopUnit (s : State) (t : Team) : State :=
  (s.unitOf t).foldl (fun (s : State) u => match s.team? u.id with
    | some v => s.stopTeam v
    | none => s) s

/-! ## When the image can be written (R114, R317 to R319, R325) -/

/-- Requests whose answers the candidates that trap entry has saved hold until their chains issue again. -/
def Group.answersHeld (g : Group) : List Nat :=
  ((g.saved.map (fun v => v.cands)).getD []).flatMap (fun c => match c.wait with
    | .answered l => l
    | _ => [])

/-- A candidate waits for a reply whose request has left the core, or has its answers and issues first. -/
def Group.awaitsReply (g : Group) : Bool :=
  (g.cands ++ ((g.saved.map (fun v => v.cands)).getD [])).any (fun c => match c.wait with
    | .reply _ _ => true
    | .acquire _ => true
    | _ => false) || g.cands.any (fun c => match c.wait with
    | .answered _ => true
    | _ => false)

/-- A running `inv` stands at a round boundary (R169). -/
def InvState.atRound (v : InvState) : Bool := decide (v.left = v.words.length + 2)

/-- An admitted delivery or access of any team has still to land at a team's swatches. -/
def State.incoming (s : State) (team : Nat) : Bool :=
  let mine := fun (h : Nat) => decide ((s.swFind h).map (fun e => e.team) = some team)
  s.ops.any (fun o => o.dests.any (fun d => decide (d.stage = 1) && mine d.handle)) ||
    s.swreqs.any (fun r => decide (r.stage = 1) && mine r.handle)

/-- Everything that R317 and R318 let complete has: the image can be written. -/
def State.drained (s : State) (t : Team) : Bool :=
  let held := t.groups.flatMap (fun g => g.answersHeld)
  t.groups.all (fun g => g.trapping.isNone && !g.awaitsReply && g.inv.all (fun v => v.atRound)) &&
    s.reqs.all (fun r => decide (r.team ≠ t.id) || held.contains r.id) &&
    s.swreqs.all (fun r => decide (r.team ≠ t.id) || held.contains r.id) &&
    s.ops.all (fun o => decide (o.team ≠ t.id) || (!o.kind.onPath && o.dests.all (fun d => decide (d.stage ≠ 1)))) &&
    !s.incoming t.id

/-! ## R386: the elements that the save finds uncorrectable -/

/-- What a core row is to a team: the group whose vector row, scalar row or trap frame row it is, with the row's
number; a team row with its number; a tile row; a barrier row; nothing. -/
inductive RowKind where
  | vec (group num : Nat)
  | scal (group num : Nat)
  | trap (group : Nat)
  | team (num : Nat)
  | tile
  | bar
  | none
  deriving DecidableEq, Repr

def Team.rowKind (t : Team) (row : Nat) : RowKind :=
  match t.groups.find? (fun g => decide (g.frame ≤ row) && decide (row < g.frame + g.frameRows)) with
  | some g =>
    let d := row - g.frame
    if d < g.srows then .scal g.num d else if d < g.srows + g.vrows then .vec g.num (d - g.srows) else .trap g.num
  | none =>
    if t.teamBase ≤ row ∧ row < t.teamBase + t.kernel.trows then .team (row - t.teamBase)
    else if t.barBase ≤ row ∧ row < t.barBase + t.barRows then .bar
    else if t.heldTiles.any (fun x => decide (tileBase x.2 ≤ row) && decide (row < tileBase x.2 + 512)) then .tile
    else .none

/-- An element whose valid bit is cleared, with fresh check bits. -/
def State.voidElem (s : State) (core row lane : Nat) : State :=
  { s with pal := palPut s.pal core row lane { palGet s.pal core row lane with valid := false, ecc := .sound } }

/-- One element read by the save and settled; the flag says that the team must be killed. -/
def State.settleSave (s : State) (team core : Nat) (k : RowKind) (row lane : Nat) : State × Bool :=
  match s.readElem core row lane, k with
  | (s1, some _, true), .vec n num => (s1.modGroup team n (fun g => g.addSoft 2 0 0 num), false)
  | (s1, some _, true), .scal n num => (s1.modGroup team n (fun g => g.addSoft 2 0 1 (32 * num + lane)), false)
  | (s1, some _, true), .trap n => (s1.modGroup team n (fun g => g.addSoft 2 0 0 0), false)
  | (s1, some _, true), .team num => (s1.softTeam team 2 num, false)
  | (s1, some _, true), .bar => (s1.softTeam team 0 0, false)
  | (s1, some _, _), _ => (s1, false)
  | (s1, none, _), .vec n _ => ((s1.lanesDie team n [lane]).voidElem core row lane, false)
  | (s1, none, _), .scal n num => ((s1.voidElem core row lane).modGroup team n (fun g => g.addSoft 3 0 1 (32 * num + lane)), false)
  | (s1, none, _), .team _ => (s1.voidElem core row lane, false)
  | (s1, none, _), .tile => (s1.voidElem core row lane, false)
  | (s1, none, _), _ => (s1, true)

/-- The elements of a team's rows and tiles that are not sound. -/
def State.unsound (s : State) (t : Team) : List (Nat × Nat × RowKind) :=
  s.pal.filterMap (fun (e : Nat × Elem) =>
    let row := e.1 / 32 % 16384
    let k := t.rowKind row
    if e.2.ecc = .sound ∨ e.1 / 32 / 16384 ≠ t.core ∨ k = .none then none else some (row, e.1 % 32, k))

/-- R386: every such element is settled; the flag says that the team must be killed. -/
def State.settleAll (s : State) (t : Team) : State × Bool :=
  (s.unsound t).foldl (fun (acc : State × Bool) (x : Nat × Nat × RowKind) =>
    let (s1, bad) := acc.1.settleSave t.id t.core x.2.2 x.1 x.2.1
    (s1, acc.2 || bad)) (s, false)

/-! ## The image (R320 to R323) -/

/-- Bytes made up to a length with zeros. -/
def padTo (n : Nat) (l : List Byte) : List Byte := l ++ List.replicate (n - l.length) 0

/-- The 128 bytes of 32 words. -/
def wordsBytes (f : Nat → Nat) : List Byte := allLanes.flatMap (fun e => bytesLE 4 (f e))

/-- A core row as its 128 bytes, and its valid bits as a mask. -/
def rowBytes (p : Sparse Elem) (core row : Nat) : List Byte := wordsBytes (fun l => (palGet p core row l).val.toNat)
def rowMask (p : Sparse Elem) (core row : Nat) : Nat := lanesMask (allLanes.filter (fun l => (palGet p core row l).valid))

/-- Rows, then their valid masks. -/
def rowsImage (p : Sparse Elem) (core : Nat) (rows : List Nat) : List Byte :=
  rows.flatMap (fun r => rowBytes p core r) ++ rows.flatMap (fun r => bytesLE 4 (rowMask p core r))

/-- The header (R320), with a STATE. -/
def Team.header (t : Team) (state neng : Nat) : List Byte :=
  let bn := bytesLE
  padTo 256 (bn 4 1 ++ bn 1 state ++ bn 1 t.groups.length ++ bn 1 t.nc ++ bn 1 t.hasp.toNat ++ bn 8 t.kernel.desc ++
    bn 4 t.teamid ++ bn 2 t.queue ++ bn 1 t.cls ++ bn 1 t.part ++ bn 4 t.tkey ++ bn 2 t.core ++
    bn 1 (bitsOf 8 (t.heldTiles.map (fun x => x.1))) ++ bn 1 neng ++
    (List.range 5).flatMap (fun i => bn 4 (t.offset neng i)) ++ bn 4 (t.imageSize neng))

/-- Word `e` of row 9 of a group record (R321). -/
def Group.recordWord9 (g : Group) (e : Nat) : Nat :=
  match e with
  | 0 => g.mode
  | 1 => g.tick % 2 ^ 32
  | 2 => g.tick / 2 ^ 32
  | 3 => g.tcmp % 2 ^ 32
  | 4 => g.tcmp / 2 ^ 32
  | 5 => g.dead.toNat
  | 6 => (List.range 5).foldl (fun a i => a + g.flags.getD i 0 * 2 ^ (6 * i)) 0
  | 7 => (List.range 5).foldl (fun a i => a + g.flags.getD (5 + i) 0 * 2 ^ (6 * i)) 0
  | 8 => (List.range 2).foldl (fun a i => a + g.flags.getD (10 + i) 0 * 2 ^ (6 * i)) 0
  | 9 => g.timerDue.toNat
  | 10 => g.nextBatch % 2 ^ 16
  | 11 => g.openBatches.length
  | 12 => g.soft.sub + (if 2 ≤ g.soft.sub then g.soft.space * 2 ^ 4 + g.soft.row * 2 ^ 16 else 0)
  | 13 => g.soft.lanes.toNat
  | _ => 0

/-- Word `e` of rows 12 to 17 (R321, R169). The running `inv`s of a group hold lanes of their own; the one ROUND is that of the first
(DESIGN CHOICE, log entry 138). -/
def Group.recordInv (g : Group) (r e : Nat) : Nat :=
  let f := fun (x : InvLane → Nat) => (((g.inv.flatMap (fun v => v.lanes)).find? (fun (l : InvLane) => decide (l.lane = e))).map x).getD 0
  match r with
  | 12 => f (fun l => l.ylo.toNat)
  | 13 => f (fun l => l.yhi.toNat)
  | 14 => f (fun l => l.glo.toNat)
  | 15 => f (fun l => l.ghi.toNat)
  | 16 => f (fun l => l.n % 2 ^ 7 + l.side * 2 ^ 7 + l.v.toNat * 2 ^ 9 + l.u.toNat * 2 ^ 10 + l.fin.toNat * 2 ^ 11)
  | 17 => if e = 0 then (g.inv.head?.map (fun v => v.round % 2 ^ 7 + 2 ^ 7)).getD 0 else 0
  | _ => 0

/-- Word `e` of row `r` of a group record; `ops` are the engine records in their order. -/
def Group.recordWord (g : Group) (ops : List Nat) (r e : Nat) : Nat :=
  if r < 9 then g.frameWord r e
  else if r = 9 then g.recordWord9 e
  else if r = 10 then bitsOf 7 ((List.range 7).filter (fun p => g.pred p e))
  else if r = 11 then
    match g.openBatches[e / 2]? with
    | some b => bitsOf 64 ((List.range ops.length).filter (fun i => b.open_.contains (ops.getD i 0))) / 2 ^ (32 * (e % 2)) % 2 ^ 32
    | none => 0
  else g.recordInv r e

/-- A group's section. -/
def Group.image (g : Group) (p : Sparse Elem) (core : Nat) (ops : List Nat) : List Byte :=
  padTo g.imageSize ((List.range 24).flatMap (fun r => wordsBytes (g.recordWord ops r)) ++
    rowsImage p core ((List.range g.frameRows).map (fun i => g.frame + i)))

/-- The team section: team rows, barrier rows, valid masks of the team rows. -/
def Team.teamImage (t : Team) (p : Sparse Elem) : List Byte :=
  let rows := (List.range t.kernel.trows).map (fun i => t.teamBase + i)
  padTo (up128 (128 * (t.kernel.trows + t.barRows) + 4 * t.kernel.trows))
    (rows.flatMap (fun r => rowBytes p t.core r) ++ padTo (128 * t.barRows) (t.barriers.flatMap (fun b => bytesLE 16 b.bits)) ++
      rows.flatMap (fun r => bytesLE 4 (rowMask p t.core r)))

/-- STATE of a stream record (R323). -/
def Stream.state (st : Stream) : Nat :=
  if st.ended then 5
  else match st.wait with
    | .ready => 0
    | .phase => 1
    | .arrive => 2
    | .tile => 3
    | .locks => 4
    | .fetch _ _ => 0

/-- A long-word record. -/
def longRecord (o : Op) : List Byte :=
  padTo 64 (bytesLE 2 1 ++ bytesLE 2 o.unitsDone ++ bytesLE 4 0 ++ bytesLE 8 o.pool ++ (o.snap.take 5).flatMap (fun w => bytesLE 4 w))

/-- The stream section (R323). -/
def Stream.image (st : Stream) (mmas : List Op) : List Byte :=
  padTo 1024 (padTo 320 (padTo 272 (bytesLE 4 st.pc.word ++ bytesLE 1 st.state ++ bytesLE 1 0 ++ bytesLE 2 st.iter ++
    bytesLE 8 st.qvalid.toNat ++ (List.range 64).flatMap (fun n => bytesLE 4 (st.val n))) ++
    st.mblk.flatMap (fun w => bytesLE 4 w)) ++ mmas.flatMap longRecord)

/-- KIND of an engine record (R322). -/
def Op.recordKind (o : Op) : Nat := if o.kind = .gather ∨ o.kind = .scatter then 16 + fld o.word 18 4 else fld o.word 22 4

/-- An engine record: its header and the DONE bitmap. -/
def Op.image (o : Op) : List Byte :=
  padTo 2176 (padTo 128 (bytesLE 1 o.recordKind ++ bytesLE 1 o.group ++ bytesLE 2 (o.bar.getD 0) ++ bytesLE 4 o.word ++
    bytesLE 8 (if o.kind = .gather ∨ o.kind = .scatter then o.pool else 0) ++ (o.snap.take 24).flatMap (fun w => bytesLE 4 w)) ++
    bytesLE 2048 (if o.kind = .walk then 0 else o.unitsDone))

/-- The image of a team, with STATE 2. -/
def State.image (s : State) (t : Team) : List Byte :=
  let ops := s.engineOps t
  t.header 2 ops.length ++ t.groups.flatMap (fun g => g.image s.pal t.core (ops.map (fun o => o.id))) ++ t.teamImage s.pal ++
    t.heldTiles.flatMap (fun x => rowsImage s.pal t.core ((List.range 512).map (fun i => tileBase x.2 + i))) ++
    ((t.stream.map (fun st => st.image (s.ops.filter (fun o => decide (o.kind = .mma) && decide (o.team = t.id))))).getD []) ++
    ops.flatMap (fun o => o.image)

/-! ## Writing and reading a slot (R384) -/

/-- Bytes written from an address on, 128 at a time; or the address, cause and level of the first failure. -/
def State.writeSlot (s : State) (core part : Nat) : Nat → Nat → List Byte → Except (Nat × Nat × Nat) State
  | 0, _, _ => .ok s
  | n + 1, va, b => match s.vwrite core part va (b.take 128) with
    | .error e => .error (va, e.1, e.2)
    | .ok s' => s'.writeSlot core part n (va + 128) (b.drop 128)

/-- `n` pieces of 128 bytes read from a core, or the first failure; and what the reads leave. -/
def State.readImage (s : State) (core part va : Nat) : Nat → State × Except (Nat × Nat × Nat) (List Nat)
  | 0 => (s, .ok [])
  | n + 1 => match s.readImage core part va n with
    | (s1, .error e) => (s1, .error e)
    | (s1, .ok l) =>
      let at_ := va + 128 * n
      (s1.vseen core part at_ 128, match s1.vread core part at_ 128 with
        | .error e => .error (at_, e.1, e.2)
        | .ok v => .ok (l ++ [v]))

/-- The CAUSE of a team killed by a save or restore (R384). -/
def slotCause (cause : Nat) : Nat := if cause = 3 then 0x0F else if cause = 9 then 0x16 else 0x0D

/-- The rows of a team leave its core: its section, its mirrors, its locks. -/
def State.leaveCore (s : State) (t : Team) : State :=
  let c := s.core t.core
  let mine := fun (m : Mirror) => t.runs_.any (fun r => decide (r.1 ≤ m.lo) && decide (m.lo < r.1 + r.2))
  let s1 := s.putCore t.core { c with mirrors := c.mirrors.filter (fun m => !mine m) }
  State.leaveSection { s1 with locks := s1.locks.filter (fun l => l.team != t.id) } t.core t.part t.kernel

/-- R384: a save that fails is abandoned; its slot is left empty, and the team is killed. -/
def State.saveFails (s : State) (t : Team) (slot : Nat) (e : Nat × Nat × Nat) : State :=
  ((s.setSlotState t slot 0).writeFault t.part t.core t.queue 0 ⟨e.1, e.2.1, e.2.2, 8, true⟩).kill t.id 0 (slotCause e.2.1) 0 0 0 0

/-- R319: the save begins in the lowest free slot, whose STATE becomes 1; the slot from which the team was restored, should it not have
issued since, is free (DESIGN CHOICE, log entry 139). Without a slot that can hold the image it waits. -/
def State.beginSave (s : State) (t : Team) : State :=
  let s := s.slotsRead t.part
  match (s.freeSlots t.part).head? with
  | none => s
  | some i =>
    let neng := (s.engineOps t).length
    if 2 ^ (s.part t.part).slotlog2 < t.imageSize neng then s
    else
      let s1 := (s.firstIssue t.id).putTeam { t with status := .saving, saveSlot := some i }
      match s1.writeSlot t.core t.part 2 (s.slotVa t.part i) (t.header 1 neng) with
      | .error e => s1.saveFails t i e
      | .ok s2 => s2

/-- R317 step 4, R319, R384: the image is written and ready, and the core's rows and tiles are freed; a save that fails kills the
team. -/
def State.saveTeam (s : State) (t : Team) (slot : Nat) : State :=
  match s.settleAll t with
  | (s1, true) => State.kill (s1.setSlotState t slot 0) t.id 0 0x16 0 0 0 0
  | (s1, false) => match s1.team? t.id with
    | none => s1
    | some t1 =>
      let t2 : Team := { t1 with groups := t1.groups.map (s1.inClauses t1) }
      let img := s1.image t2
      match s1.writeSlot t.core t.part (img.length / 128) (s1.slotVa t.part slot) img with
      | .error e => s1.saveFails t1 slot e
      | .ok s2 => ((s2.leaveCore t2).putTeam { t2 with status := .preempted slot, saveSlot := none }).evict (dieOf t.core)

/-- R317: a team is stopped; once what has left it is settled, its operations are aborted, and it is saved, in two steps: the slot is
being written, and it is ready. -/
def execPreemptionStop (team : Nat) (s : State) : Host.Outcome State Fault Refusal :=
  match s.team? team with
  | none => .next s
  | some t =>
    if t.status = .stopping then (if s.drained t then .next (s.abortTeam t) else .next s)
    else if t.status = .stopped then .next (s.beginSave t)
    else if t.status = .saving then
      match t.saveSlot with
      | some i => .next (s.saveTeam t i)
      | none => .next s
    else if s.mayStop t then .next (s.stopUnit t)
    else .next s

/-! ## A kill of a team that is out (R325) -/

/-- A pre-empted team is killed: its record is written, and it is gone; its slot is freed unless it keeps its image. -/
def State.killOut (s : State) (t : Team) (cause : Nat) (keep : Bool) : State :=
  let s1 := s.writeError t (errRecord t 0 cause 0 0 0 0) 0
  let s2 := match t.status with
    | .preempted i => if keep then s1 else s1.setSlotState t i 0
    | _ => s1
  let mark := fun (x : Launch) => if x.id == t.launch then { x with killed := true } else x
  State.retire { s2 with launches := s2.launches.map mark } t

/-- A team is killed, wherever it stands. -/
def State.killAny (s : State) (t : Team) (cause : Nat) : State :=
  if t.onCore then s.kill t.id 0 cause 0 0 0 0 else s.killOut t cause false

/-! ## The restore, R324 -/

/-- The ranges that an operation to be resumed locks (R55). -/
def Op.locks (o : Op) (t : Team) : List Lock :=
  let long := match t.stream with
    | some st =>
      let m := mmaSnap o.snap
      let a := m.side (mmaForm o.pool) false
      let b := m.side (mmaForm o.pool) true
      SCtx.locksOf ⟨t, st⟩ (a.ranges m.klen ++ b.ranges m.klen) o.tile true (a.mems m.klen ++ b.mems m.klen)
    | none => []
  let wide := fun (scat : Bool) =>
    let f := o.form
    let n := o.snap.getD 3 0
    [RowRange.lock ⟨f.w, o.group, f.d, cdiv (n * f.esz) 128, !scat, 1⟩ t, RowRange.lock ⟨false, o.group, f.f, 1, true, 3⟩ t,
      RowRange.lock ⟨false, o.group, f.i, cdiv n 32, false, 2⟩ t,
      memLockOf t (tableBase o.snap) (o.snap.getD 2 0 * f.esz) scat]
  let h := o.shape
  let rows := RowRange.lock ⟨o.isTeam, h.tgt, o.rowD, h.count, !o.kind.outward, 0⟩ t
  match o.kind with
  | .mma => long
  | .mzero => []
  | .mload => []
  | .mstore => []
  | .gather => wide false
  | .scatter => wide true
  | .walk => [RowRange.lock ⟨o.walkTeam, o.walkForm.tgt, o.walkRow, o.walkForm.nrows, true, 0⟩ t]
  | .copySwatch => [rows]
  | k =>
    rows :: memLockOf t h.base ((h.count - 1) * h.stride + copyBytes k t.prot) k.outward ::
      (if k.hasMeta then [memLockOf t h.metaVa (h.count * h.metaBytes) k.outward] else [])

/-- The locks of a group's running `inv` (R163). -/
def Group.invLocks (g : Group) (t : Team) : List Lock :=
  g.inv.flatMap (fun iv =>
    ((invForm iv.entry).locks ⟨t, g, [], iv.slices, [], ⟨0, 0⟩⟩ (routines iv.words)).map (fun l => { l with op := iv.lock }))

/-- `n` bytes of an image at an offset, within one of its pieces of 128. -/
def imgNat (img : List Nat) (o n : Nat) : Nat := fld (img.getD (o / 128) 0) (8 * (o % 128)) (8 * n)

/-- Rows written from the image: `rows` and `masks` are the offsets of the first row and of the first mask. -/
def loadRows (p : Sparse Elem) (img : List Nat) (core row rows masks n : Nat) : Sparse Elem :=
  (List.range n).foldl (fun (p : Sparse Elem) i =>
    let m := imgNat img (masks + 4 * i) 4
    allLanes.foldl (fun (p : Sparse Elem) l =>
      palPut p core (row + i) l ⟨BitVec.ofNat 32 (imgNat img (rows + 128 * i + 4 * l) 4), nbit m l, .sound⟩) p) p

/-- The offset of the section of a team's group `i`. -/
def Team.groupAt (t : Team) (i : Nat) : Nat := 256 + ((t.groups.take i).map (fun g => g.imageSize)).sum

/-- The frames, team rows and tiles of a team written back. -/
def loadTeam (p : Sparse Elem) (img : List Nat) (t : Team) (neng : Nat) : Sparse Elem :=
  let p1 := t.groups.zipIdx.foldl (fun (p : Sparse Elem) (x : Group × Nat) =>
    let o := t.groupAt x.2 + 3072
    loadRows p img t.core x.1.frame o (o + 128 * x.1.frameRows) x.1.frameRows) p
  let o := t.offset neng 1
  let p2 := loadRows p1 img t.core t.teamBase o (o + 128 * (t.kernel.trows + t.barRows)) t.kernel.trows
  t.heldTiles.zipIdx.foldl (fun (p : Sparse Elem) (x : (Nat × Nat) × Nat) =>
    let o := t.offset neng 2 + 67584 * x.2
    loadRows p img t.core (tileBase x.1.2) o (o + 128 * 512) 512) p2

/-- A slice from words of a group record: its program counter, state, header, and a word of its token stack. -/
def loadSlice (x : Slice) (pc st hdr : Nat) (tok : Nat → Nat) : Slice :=
  let entry := fun (e : Nat) => (⟨!nbit (tok (2 * e + 1)) 4, fld (tok (2 * e)) 0 30, BitVec.ofNat 4 (tok (2 * e + 1))⟩ : Token)
  { x with
    pc := ⟨pc / 4, pc % 4⟩, hdr := hdr, mask := BitVec.ofNat 4 st, ended := decide (fld st 12 4 = 6)
    stack := ((List.range (min (fld st 4 5) 16)).map entry).reverse }

/-- The candidates that slice states name (R311): the slices that have not ended, by CAND. A candidate that waited at `regang` or for a
clause waits on; one in a running `inv`, which the record shows as ready, goes on with it. -/
def loadCands (old : List Cand) (st : Nat → Nat) (now : Nat) : List Cand :=
  let live := (List.range 8).filter (fun i => decide (fld (st i) 12 4 ≠ 6))
  let wait := fun (i : Nat) =>
    if fld (st i) 12 4 = 5 then Wait.regang (fld (st i) 16 4)
    else if fld (st i) 12 4 = 1 then Wait.clause
    else match (old.find? (fun c => c.slices.contains i)).map (fun c => c.wait) with
      | some (Wait.inv k) => Wait.inv k
      | _ => .ready
  (List.range 8).filterMap (fun k =>
    match live.filter (fun i => decide (fld (st i) 9 3 = k)) with
    | [] => none
    | i :: l => some ⟨i :: l, wait i, now, 0, [], []⟩)

/-- A lane of a running `inv` from rows 12 to 16. -/
def loadLane (w : Nat → Nat → Nat) (l : InvLane) : InvLane :=
  let v := w 16 l.lane
  let word := fun (r : Nat) => BitVec.ofNat 32 (w r l.lane)
  { l with
    ylo := word 12, yhi := word 13, glo := word 14, ghi := word 15
    n := fld v 0 7, side := fld v 7 2, v := nbit v 9, u := nbit v 10, fin := nbit v 11 }

/-- A group from its record (R321), of which `w r e` is word `e` of row `r`; `ops` are the engine records in their order. -/
def Group.fromRecord (g : Group) (w : Nat → Nat → Nat) (ops : List Nat) (now : Nat) : Group :=
  let wide := fun (e : Nat) => w 9 e + 2 ^ 32 * w 9 (e + 1)
  let st := fun (i : Nat) => w 0 (8 + i)
  let nth := fun (b : Batch) => (g.openBatches.map (fun x => x.num)).idxOf b.num
  let members := fun (i : Nat) => (List.range ops.length).filter (fun k => nbit (w 11 (2 * i) + 2 ^ 32 * w 11 (2 * i + 1)) k)
  { g with
    slices := g.slices.mapIdx (fun i x => loadSlice x (w 0 i) (st i) (w 0 (16 + i)) (w (i + 1)))
    cands := loadCands g.cands st now
    trapcode := w 0 24, trappc := w 0 25, trapinfo := w 0 26 + 2 ^ 32 * w 0 27
    mode := w 9 0, tick := wide 1, tcmp := wide 3, dead := BitVec.ofNat 32 (w 9 5)
    flags := (List.range 12).map (fun f => fld (w 9 (6 + f / 5)) (6 * (f % 5)) 6)
    nextBatch := fld (w 9 10) 0 16
    batches := g.batches.map (fun b => if b.complete then b else { b with open_ := (members (nth b)).map (fun k => ops.getD k 0) })
    soft := ⟨fld (w 9 12) 0 3, BitVec.ofNat 32 (w 9 13), fld (w 9 12) 4 2, fld (w 9 12) 16 16⟩
    preds := (List.range 7).map (fun p => BitVec.ofNat 32 (lanesMask (allLanes.filter (fun l => nbit (w 10 l) p))))
    inv := g.inv.mapIdx (fun i v =>
      { v with lanes := v.lanes.map (loadLane w), round := if i = 0 then fld (w 17 0) 0 7 else v.round }) }

/-- A barrier from its 128 bits (R108). -/
def barrierOf (v : Nat) : Barrier := ⟨fld v 80 48, fld v 64 16, fld v 32 32, fld v 13 16, fld v 5 8, nbit v 4, fld v 0 4⟩

/-- A stream from its record (R323): it goes on from PC, where a word that waited issues again. `b` gives bytes of the record. -/
def Stream.fromRecord (st : Stream) (b : Nat → Nat → Nat) : Stream :=
  { st with
    pc := ⟨b 0 4 / 4, b 0 4 % 4⟩, ended := decide (b 4 1 = 5), iter := b 6 2, qvalid := BitVec.ofNat 64 (b 8 8)
    q := (List.range 64).foldl (fun q n => sset 0 q n (b (16 + 4 * n) 4)) []
    mblk := (List.range 10).map (fun i => b (272 + 4 * i) 4) }

/-- A running `mma` from its long-word record. -/
def Op.fromLong (o : Op) (b : Nat → Nat → Nat) : Op :=
  { o with unitsDone := b 2 2, pool := b 8 8, snap := (List.range 5).map (fun i => b (16 + 4 * i) 4) ++ o.snap.drop 5 }

/-- An engine operation from its record (R322). -/
def Op.fromRecord (o : Op) (b : Nat → Nat → Nat) : Op :=
  let pooled := decide (o.kind = .gather ∨ o.kind = .scatter)
  let n := min o.snap.length 24
  { o with
    group := b 1 1, bar := o.bar.map (fun _ => b 2 2), word := b 4 4, pool := if pooled then b 8 8 else o.pool
    snap := (List.range n).map (fun i => b (16 + 4 * i) 4) ++ o.snap.drop 24
    unitsDone := (List.range 512).foldl (fun v i => v + 2 ^ (32 * i) * b (128 + 4 * i) 4) 0 }

/-- A team from the image's records (R320 to R323), lanes that are dead in their new quadrants buried (R29). -/
def State.loadRecords (s : State) (t : Team) (img : List Nat) (ops : List Nat) : Team :=
  let now := s.clk (dieOf t.core)
  let b := fun (o : Nat) (i n : Nat) => imgNat img (o + i) n
  let group := fun (i : Nat) (g : Group) =>
    (g.fromRecord (fun r e => b (t.groupAt i) (128 * r + 4 * e) 4) ops now).moved t.prot (s.qdead t.core (g.num % 4))
  let bars := t.offset ops.length 1 + 128 * t.kernel.trows
  { t with
    groups := t.groups.mapIdx group
    barriers := t.barriers.mapIdx (fun i _ => barrierOf (b bars (16 * i) 16))
    stream := t.stream.map (fun st => st.fromRecord (b (t.offset ops.length 3))) }

/-- A team's operations from the image's records, to be resumed under R318. -/
def loadOps (t : Team) (img : List Nat) (engines longs : List Nat) (o : Op) : Op :=
  let b := fun (o : Nat) (i n : Nat) => imgNat img (o + i) n
  if engines.contains o.id then { o.fromRecord (b (t.offset engines.length 4 + 2176 * engines.idxOf o.id)) with after := [] }
  else if longs.contains o.id then { o.fromLong (b (t.offset engines.length 3 + 320 + 64 * longs.idxOf o.id)) with after := [] }
  else o

/-- The long words of a team that a stop has left running. -/
def State.longOps (s : State) (t : Team) : List Op := s.ops.filter (fun o => decide (o.kind = .mma) && decide (o.team = t.id))

/-- R324: the team stands on a core again: every section is written back, the locks of its operations are registered, and its
operations go on. -/
def State.bringBack (s : State) (t : Team) (slot core : Nat) (at_ : List Nat) (img : List Nat) : State :=
  let engines := (s.engineOps t).map (fun o => o.id)
  let longs := (s.longOps t).map (fun o => o.id)
  let t1 := s.loadRecords (s.rehoused t slot core at_) img engines
  let s1 := (s.enterSection core t.part t.queue t.kernel).clearRows core (t1.runs_ ++ t1.heldTiles.map (fun x => (tileBase x.2, 512)))
  let s2 := (s1.freshRows core t1.barBase t1.barRows).putTeam t1
  let s3 : State := { s2 with pal := loadTeam s2.pal img t1 engines.length, ops := s2.ops.map (loadOps t1 img engines longs) }
  let mine := s3.ops.filter (fun o => decide (o.team = t.id))
  let locks := mine.flatMap (fun o => (o.locks t1).map (fun l => { l with op := o.id })) ++ t1.groups.flatMap (fun g => g.invLocks t1)
  let s4 : State := { s3 with
    ops := s3.ops.filter (fun o => decide (o.team ≠ t.id)) ++ mine
    locks := s3.locks ++ locks
    reqs := s3.reqs.map (fun r => if r.team = t.id then { r with core := core } else r)
    swreqs := s3.swreqs.map (fun r => if r.team = t.id then { r with core := core } else r) }
  ((s4.setSlotState t1 slot 3).trimMirrors core).startWalks (clusterOf core)

/-- A team is restored, from a ready image (R319), on the core that R383 chooses: nothing when no core can take it. A slot that cannot
be read kills the team and keeps its image (R384). -/
def State.restore1 (s : State) (t : Team) : Option State :=
  match t.status with
  | .preempted slot => (s.restoreCore t).bind (fun c =>
    match s.readImage c.1 t.part (s.slotVa t.part slot) (t.imageSize (s.engineOps t).length / 128) with
    | (s1, .error (va, cause, level)) =>
      some ((s1.writeFault t.part c.1 t.queue 0 ⟨va, cause, level, 8, false⟩).killOut t (slotCause cause) true)
    | (s1, .ok img) => if imgNat img 4 1 = 2 then some (s1.bringBack t slot c.1 c.2 img) else none)
  | _ => none

/-- R383: what waits at a team's distributor ahead of it: a team's restore of a lower class, of an earlier launch, of a
lower TEAMID; a placement of a lower class. -/
def State.restoreBehind (s : State) (t : Team) : Bool :=
  let die := s.ownerDie t
  s.teams.any (fun u => decide (u.part = t.part) && s.wantsBack u && decide (s.ownerDie u = die) && decide (u.launch ≠ t.launch ∨ !t.coop) &&
    (decide (u.cls < t.cls) || (decide (u.cls = t.cls) &&
      (decide (u.launch < t.launch) || (decide (u.launch = t.launch) && decide (u.teamid < t.teamid)))))) ||
  s.launches.any (fun l => decide (l.part = t.part) && decide (l.cls < t.cls) && s.places l && (l.chunkOn die).isSome)

/-- The teams restored with a team: it alone, or its cooperative grid (R383). -/
def State.restoreUnit (s : State) (t : Team) : List Team :=
  if t.coop then s.teams.filter (fun u => decide (u.launch = t.launch) && !u.onCore) else [t]

/-- R383: a cooperative grid is restored whole, or not at all. -/
def State.restoreGrid (s : State) (l : List Team) : Option State :=
  l.foldl (fun (a : Option State) t => a.bind (fun s => match s.team? t.id with
    | some u => s.restore1 u
    | none => some s)) (some s)

/-- R30: a team of a cooperative grid is still on its way out; the grid is all in or all out. -/
def State.gridLeaving (s : State) (t : Team) : Bool := t.coop && s.teams.any (fun u => decide (u.launch = t.launch) && u.leaving)

/-- R324, R383: a pre-empted team is placed again, once nothing waits ahead of it, or of a team of its grid, at the distributors
concerned. -/
def execTeamRestore (team : Nat) (s : State) : Host.Outcome State Fault Refusal :=
  match s.team? team with
  | none => .next s
  | some t =>
    let unit := s.restoreUnit t
    if s.wantsBack t = false ∨ s.gridLeaving t = true ∨ unit.any s.restoreBehind = true then .next s
    else .next ((s.restoreGrid unit).getD s)

end Sys2Proof.Machine
end

