-- ==== Sys2Proof/Machine/Reliable.lean ====
section
/-! DEFINITION. Mirrors, soft errors, the watchdog and the drain and reset of a partition (R365, R366, R371 to R373,
R385). -/

namespace Sys2Proof.Machine

open Sys2Proof

/-! ## Errors that befall the memories -/

/-- R365: bits of a Palette element flip: one, which its check bits correct, or two. -/
def execPaletteSoftError (core row lane : Nat) (fatal : Bool) (s : State) : Host.Outcome State Fault Refusal :=
  let e := palGet s.pal core row lane
  if core < Config.cores ∧ row < Config.rows ∧ lane < 32 ∧ e.ecc ≠ .uncorrectable then
    .next { s with pal := palPut s.pal core row lane { e with ecc := if fatal then .uncorrectable else .correctable } }
  else .next s

/-- R385: a 32-byte sector of HBM suffers an error that its check bits cannot correct. -/
def execHbmUncorrectableError (sector : Nat) (s : State) : Host.Outcome State Fault Refusal :=
  if inHbm (32 * sector) then .next (s.setPoison (32 * sector) true) else .next s

/-! ## MIRROR_BUILD, R366 -/

/-- The first row of the lowest free run of `n` rows of a core, other mirrors apart. -/
def State.mirrorRoom (s : State) (core n : Nat) : Option Nat :=
  let taken := ((s.core core).mirrors.map (fun m => (m.at_, m.len))).foldr insertRun (s.allocated core)
  ((holes 0 taken).find? (fun h => decide (n ≤ h.2))).map (fun h => h.1)

/-- A row copied, each element read under its check bits; an uncorrectable one is copied as it stands. -/
def State.copyRow (s : State) (core src dst : Nat) : State :=
  allLanes.foldl (fun (s : State) l =>
    let (s1, e, _) := s.readElem core src l
    { s1 with pal := palPut s1.pal core dst l (e.getD (palGet s1.pal core src l)) }) s

/-- The allocated run of a mirrored team that holds a row and has no mirror. -/
def State.runToMirror (s : State) (core row : Nat) : Option (Nat × Nat) :=
  (((s.teamsOn core).filter (fun t => t.mirror)).flatMap (fun t => t.runs_)).find? (fun r =>
    decide (r.1 ≤ row) && decide (row < r.1 + r.2) && (s.core core).mirrors.all (fun m => m.lo != r.1))

/-- R366: the run that holds a row is copied into its mirror, and is covered. -/
def execMirrorBuild (core row : Nat) (s : State) : Host.Outcome State Fault Refusal :=
  if Config.mirrorRows < s.allocatedRows core then .next s
  else match s.runToMirror core row with
    | none => .next s
    | some r => match s.mirrorRoom core r.2 with
      | none => .next s
      | some at_ =>
        let s1 := (List.range r.2).foldl (fun (s : State) i => s.copyRow core (r.1 + i) (at_ + i)) s
        let c := s1.core core
        .next (s1.putCore core { c with mirrors := c.mirrors ++ [⟨r.1, r.2, at_⟩] })

/-! ## Every queue of a partition -/

/-- Something done to each queue of a partition whose entry can be read; the others get a fault record (R384). -/
def State.eachQueue (s : State) (part : Nat) (f : State → Nat → QEntry → State) : State :=
  (List.range (s.part part).qcount).foldl (fun (s : State) q => match s.qentry part q with
    | (s1, some e) => f s1 q e
    | (s1, none) => s1) s

/-- The slots of a partition let go of the packets at their heads. -/
def State.dropHeads (s : State) (part : Nat) : State :=
  { s with slots := s.slots.map (fun h => h.map (fun x =>
      if x.part = part then { x.letGo with timer := 0 } else x)) }

/-! ## The drain and reset, R372, R373 -/

/-- R372 step 2: a resident team stops with an error record of cause 0x18; an image is set to STATE 0; a class L
delivery ends (R373). -/
def State.resetTeam (s : State) (id : Nat) : State :=
  match s.team? id with
  | none => s
  | some t => match t.status with
    | .preempted i => (s.setSlotState t i 0).freeTeam t
    | _ => ((s.stopLDels id).kill id 0 0x18 0 0 0 0).firstIssue id

/-- R372 steps 1 and 2. ERRWR counts from the reset on, so that the records of step 2 are its first (R316; DESIGN CHOICE, log entry
99). -/
def State.beginReset (s : State) (part : Nat) (sw : Bool) (queue : Option Nat) : State :=
  let s1 := (s.eachQueue part (fun s q _ => (s.setOnErr part q false true).setStatus part q statusWatchdog)).dropHeads part
  let p := s1.part part
  let s2 := s1.putPart part { p with wdBusy := true, wdSw := sw, wdQueue := queue.getD p.wdQueue, errwr := 0 }
  let s3 := ((s2.teams.filter (fun t => decide (t.part = part))).map (fun t => t.id)).foldl (fun (s : State) id => s.resetTeam id) s2
  { s3 with launches := s3.launches.filter (fun l => l.part != part) }

/-- R371: the timer of a slot reaches the TIMEOUT it was mapped under. -/
def execWatchdogExpiry (slot : Nat) (s : State) : Host.Outcome State Fault Refusal :=
  match s.slot? slot with
  | none => .next s
  | some h =>
    if h.limit = 0 ∨ h.timer < h.limit * 1000000 ∨ (s.part h.part).wdBusy = true then .next s
    else .next (s.beginReset h.part false (some h.queue))

/-- R357, R373: a write of WDCTL: TIMEOUT, and with RESET the drain and reset, unless one runs. -/
def execWdctlReset (part value : Nat) (s : State) : Host.Outcome State Fault Refusal :=
  if s.managed = false ∨ 64 ≤ part then .next s
  else
    let s1 := s.putPart part { s.part part with wdTimeout := value % 2 ^ 16 }
    if nbit value 31 = true ∧ (s.part part).wdBusy = false then .next (s1.beginReset part true none) else .next s1

/-- R372 step 4: a team's rows and tiles are zeroed with their valid bits cleared, and all it held is freed. -/
def State.sweepTeam (s : State) (t : Team) : State :=
  let runs := t.runs_ ++ t.heldTiles.map (fun x => (tileBase x.2, 512))
  (runs.foldl (fun (s : State) r => s.freshRows t.core r.1 r.2) s).freeTeam t

/-- R372 steps 3 and 4: the requests of the partition have their replies: everything of its teams is freed, its shadow
windows are unbound, BUSY falls and RESETS rises. -/
def execResetComplete (part : Nat) (s : State) : Host.Outcome State Fault Refusal :=
  let mine := s.teams.filter (fun t => decide (t.part = part))
  if (s.part part).wdBusy = false ∨ mine.all (fun t => s.teamQuiet t) = false then .next s
  else
    let s1 := mine.foldl (fun (s : State) t => s.sweepTeam t) s
    let p := s1.part part
    let s2 := s1.putPart part { p with windows := [], wdBusy := false, wdResets := satAdd 16 p.wdResets 1 }
    .next ((List.range 384).foldl (fun (s : State) k => s.startWalks k) s2)

end Sys2Proof.Machine
end

