-- ==== Sys2Proof/Machine/Security.lean ====
section
/-! DEFINITION. Translation registers, key slots, boot, attestation, the security alarm, and power on and off (R326,
R330 to R341, R374, R382). -/

namespace Sys2Proof.Machine

open Sys2Proof

/-! ## A register write -/

/-- A write of a register of a partition: taken while management is available (R295). -/
def State.partWrite (s : State) (part : Nat) (f : Part → Part) : State :=
  if s.managed = true ∧ part < 64 then s.putPart part (f (s.part part)) else s

/-- A write of a module register. -/
def State.regWrite (s : State) (f : Regs → Regs) : State := if s.managed then { s with regs := f s.regs } else s

/-! ## QCFG, R298 -/

/-- The QCOUNT of every partition but one, summed. -/
def State.otherQueues (s : State) (part : Nat) : Nat :=
  ((s.parts.filter (fun e => e.1 != part)).map (fun e => e.2.qcount)).sum

/-- R298: SLOTMAX and QCOUNT, unless a limit is exceeded. -/
def execQcfgWrite (part value : Nat) (s : State) : Host.Outcome State Fault Refusal :=
  let n := fld value 17 9
  let q := fld value 0 17
  if 256 < n ∨ 65536 < q ∨ 65536 < q + s.otherQueues part then .next s
  else .next (s.partWrite part (fun p => { p with slotmax := n, qcount := q }))

/-! ## PTROOT, SHBASE, SHSIZE, TLBINV: R330, R331 -/

/-- R331: the partition has no resident or pre-empted team, and every queue has ON = 0, as far as its entry can be
read. -/
def State.partIdle (s : State) (part : Nat) : Bool :=
  s.teams.all (fun t => t.part != part) && (List.range (s.part part).qcount).all (fun q =>
    match s.vread schedCore part (s.entryVa part q + 10) 1 with
    | .ok v => !nbit v 0
    | .error _ => true)

/-- The entries have been read for it (R358). -/
def State.onRead (s : State) (part : Nat) : State :=
  (List.range (s.part part).qcount).foldl (fun (s : State) q => s.vseen schedCore part (s.entryVa part q + 10) 1) s

/-- R331: PTROOT; every translation of the partition leaves the TLBs. -/
def execPtrootWrite (part value : Nat) (s : State) : Host.Outcome State Fault Refusal :=
  let s := s.onRead part
  if s.managed = false ∨ 64 ≤ part ∨ s.partIdle part = false then .next s
  else .next ((s.partWrite part (fun p => { p with ptroot := fld value 21 31 * 2 ^ 21, ptrootEn := nbit value 0 })).tlbDrop
    part 0 (2 ^ 57))

/-- R331: SHBASE. -/
def execShbaseWrite (part value : Nat) (s : State) : Host.Outcome State Fault Refusal :=
  let s := s.onRead part
  if s.partIdle part then .next (s.partWrite part (fun p => { p with shbase := fld value 30 27 * 2 ^ 30 })) else .next s

/-- R331: SHSIZE. -/
def execShsizeWrite (part value : Nat) (s : State) : Host.Outcome State Fault Refusal :=
  let s := s.onRead part
  if s.partIdle part then .next (s.partWrite part (fun p => { p with shsize := value % 2 ^ 32 })) else .next s

/-- A request has an access in a range that is still to be performed. -/
def Req.under (r : Req) (lo size : Nat) : Bool :=
  r.pieces.any (fun p => !p.done r.kind.plainWrite && p.accs.any (fun a => decide (lo < a.va + a.size) && decide (a.va < lo + size)))

/-- R330: an invalidation starts: the range leaves every TLB, and the requests that were translated before are noted. -/
def execTlbinv (part value : Nat) (s : State) : Host.Outcome State Fault Refusal :=
  let log2 := fld value 57 6
  let va := fld value 16 41 * 2 ^ 16
  let size := 2 ^ (log2 + 16)
  if s.managed = false ∨ 64 ≤ part ∨ (s.part part).tlbBusy = true ∨ 41 < log2 ∨ va % size ≠ 0 then .next s
  else
    let wait := (s.reqs.filter (fun r => decide (r.part = part) && r.under va size)).map (fun r => r.id)
    .next ((s.tlbDrop part va size).partWrite part (fun p => { p with tlbBusy := true, tlbLog2 := log2, tlbVa := va, tlbWait := wait }))

/-- R330: BUSY falls: the accesses translated before have been performed, and no TLB holds the range. -/
def execTlbinvComplete (part : Nat) (s : State) : Host.Outcome State Fault Refusal :=
  let p := s.part part
  let size := 2 ^ (p.tlbLog2 + 16)
  if p.tlbBusy = false ∨ s.reqs.any (fun r => p.tlbWait.contains r.id && r.under p.tlbVa size) = true then .next s
  else
    let s1 := s.tlbDrop part p.tlbVa size
    .next (s1.putPart part { s1.part part with tlbBusy := false, tlbWait := [] })

/-! ## CLUOWN, R333 -/

/-- A team is resident on a cluster, or pre-empted from it. -/
def State.clusterUsed (s : State) (c : Nat) : Bool := s.teams.any (fun t => decide (clusterOf t.core = c))

/-- R333: CLUOWN of a cluster. -/
def execCluownWrite (c value : Nat) (s : State) : Host.Outcome State Fault Refusal :=
  let v := value % 256
  if 384 ≤ c ∨ (64 ≤ v ∧ v ≠ 0xFF) ∨ s.clusterUsed c = true then .next s
  else .next (s.regWrite (fun r => { r with cluOwn := sset 0xFF r.cluOwn c v }))

/-! ## Key slots, R335 -/

/-- A write of a key slot's registers; slot 0 takes none. -/
def State.keyWrite (s : State) (k : Nat) (f : KeySlot → KeySlot) : State :=
  if s.managed = true ∧ 0 < k ∧ k < 4096 then s.putKey k (f (s.key k)) else s

/-- R335: KSCTL. -/
def execKsctlWrite (k value : Nat) (s : State) : Host.Outcome State Fault Refusal :=
  .next (s.keyWrite k (fun x => { x with en := nbit value 7, owner := value % 64 }))

/-- R335: KSKEY1, while the slot is disabled. -/
def execKskey1Write (k value : Nat) (s : State) : Host.Outcome State Fault Refusal :=
  if (s.key k).en then .next s else .next (s.keyWrite k (fun x => { x with key1 := value % 2 ^ 128 }))

/-- R335: KSKEY2, while the slot is disabled. -/
def execKskey2Write (k value : Nat) (s : State) : Host.Outcome State Fault Refusal :=
  if (s.key k).en then .next s else .next (s.keyWrite k (fun x => { x with key2 := value % 2 ^ 128 }))

/-! ## Alarms, R340, R341, R382 -/

def sourceTemp : Nat := 1
def sourceFwsig : Nat := 4
def sourceKey : Nat := 5
def sourceSoftware : Nat := 6
/-- The die of an event that concerns the module (R382). -/
def dieModule : Nat := 0xFF

/-- An alarm that the module raises: its event is the next turn. -/
def State.raiseAlarm (s : State) (source die part : Nat) : State :=
  { s with agenda := ⟨0, .alarm source die part⟩ :: s.agenda }

/-- The action of a source's policy: 0 record, 1 quiesce, 2 erase; 3 acts as erase. -/
def Regs.policy (r : Regs) (source : Nat) : Nat := min (fld r.alarmPol (2 * source) 2) 2

/-- R382: the moment of an event: the ACLK count of die 0. -/
def State.alarmCount (s : State) : Nat := s.clk 0 % 2 ^ 64

/-- R382, R341: an event is logged, before those of its cycle with a higher source: the log holds the last 64 records. -/
def State.logAlarm (s : State) (source die : Nat) : State :=
  let r := s.regs
  let later := fun (x : AlarmRec) => decide (x.count = s.alarmCount) && decide (source < x.source)
  let l := r.alarmLog.filter (fun x => !later x) ++ [⟨s.alarmCount, source, r.policy source, die⟩] ++ r.alarmLog.filter later
  { s with regs := { r with
      alarmStat := setBit r.alarmStat source, alarmCnt := (r.alarmCnt + 1) % 2 ^ 64, alarmLog := l.drop (l.length - 64) } }

/-- R340: the queues of a partition are set to ON = 0, and its resident teams are pre-empted as far as save slots can
hold them (R317). -/
def State.quiesce (s : State) (part : Nat) : State :=
  let s1 := s.eachQueue part (fun s q e => if e.on then s.setOnErr part q false e.err else s)
  ((s1.teams.filter (fun t => decide (t.part = part))).map (fun t => t.id)).foldl (fun (s : State) id => match s.team? id with
    | none => s
    | some t => if t.runs = true ∧ s.slotsHold (s.unitOf t) = true then s.stopUnit t else s) s1

/-- CAUSE of the error records of an erase, to which the spec gives no code: a free value (log entry 92). -/
def State.eraseCause (s : State) : Nat := Config.freeValue s.free % 256

/-- R340, R341: every team is killed, every queue stops with KILLED, every Palette row is zeroed with its valid bits
cleared, every key slot is zeroised. -/
def State.erase (s : State) : State :=
  let cause := s.eraseCause
  let s0 := { s with free := s.free + 1 }
  let s1 := (s0.teams.map (fun t => t.id)).foldl (fun (s : State) id => match s.team? id with
    | none => s
    | some t => s.killAny t cause) s0
  let s2 := (List.range 64).foldl (fun (s : State) p => (s.eachQueue p (fun s q _ => s.stopQueue p q statusKilled)).dropHeads p) s1
  let left := s2.launches.filter (fun l => s2.teams.any (fun t => decide (t.launch = l.id)))
  { s2 with launches := left.map (fun l => { l with killed := true }), pal := [], keys := [] }

/-- R341: an alarm of the same cycle has taken a stronger action. -/
def State.outranked (s : State) (action : Nat) : Bool :=
  s.regs.alarmLog.any (fun x => decide (x.count = s.alarmCount) && decide (action < x.action))

/-- R340, R341: an event of a source: it is logged, and its policy acts, unless a stronger action of the cycle has; KEY concerns only the
accessing partition. An erase leaves nothing of what a quiesce of its cycle has begun. -/
def State.alarm (s : State) (source die part : Nat) : State :=
  let s1 := s.logAlarm source die
  if s.outranked (s.regs.policy source) then s1
  else match s.regs.policy source with
  | 0 => s1
  | 1 => if source = sourceKey then s1.quiesce part else (List.range 64).foldl (fun (s : State) p => s.quiesce p) s1
  | _ => s1.erase

/-- R340: an alarm source raises an event. -/
def execAlarmEvent (source die part : Nat) (s : State) : Host.Outcome State Fault Refusal :=
  if s.powered = true ∧ source < 7 then .next (s.alarm source die part) else .next s

/-- R340: ALARMPOL, until it is locked. -/
def execAlarmpolWrite (value : Nat) (s : State) : Host.Outcome State Fault Refusal :=
  if s.regs.alarmLock then .next s
  else .next (s.regWrite (fun r => { r with alarmPol := fld value 0 14, alarmLock := nbit value 31 }))

/-- R334: ALARMRAISE. -/
def execAlarmraise (value : Nat) (s : State) : Host.Outcome State Fault Refusal :=
  if s.managed = true ∧ nbit value 0 = true then .next (s.raiseAlarm sourceSoftware dieModule 0) else .next s

/-! ## Boot, R338 -/

/-- R338: BOOTGO starts the check of an image. -/
def execBootgo (value : Nat) (s : State) : Host.Outcome State Fault Refusal :=
  let n := value % 2 ^ 32
  if s.regs.bootst = 1 ∨ s.regs.bootst = 3 ∨ n % 256 ≠ 0 ∨ n < 256 ∨ 2 ^ 28 < n then .next s
  else .next (s.regWrite (fun r => { r with bootst := 3, bootLen := n }))

/-- The image: at PA 0 of die 0, without encryption (R334). -/
def State.imageBytes (s : State) : List Byte := (List.range s.regs.bootLen).map (fun i => s.readByte 0 i)

/-- The image's sectors have been read: those in error are noted (R358). -/
def State.imageRead (s : State) : State :=
  (List.range (cdiv s.regs.bootLen 32)).foldl (fun (s : State) i =>
    let s1 := s.noteBytes (32 * i) 32 false
    if s.poisoned (32 * i) then s1.noteHbmError (32 * i) else s1) s

/-- R338: the ROM's check ends. -/
def execBootCheckComplete (s : State) : Host.Outcome State Fault Refusal :=
  if s.regs.bootst ≠ 3 then .next s
  else
    let b := s.imageBytes
    let s := s.imageRead
    if Config.signatureOk b then .next { s with regs := { s.regs with bootst := 1, image := b, bootNs := s.ns 0 } }
    else .next (State.raiseAlarm { s with regs := { s.regs with bootst := 2 } } sourceFwsig dieModule 0)

/-! ## Attestation, R339 -/

/-- R334, R339: GO starts a report, unless one is under way. -/
def execAttcmdGo (value : Nat) (s : State) : Host.Outcome State Fault Refusal :=
  if nbit value 0 = true ∧ s.regs.attGo = false then .next (s.regWrite (fun r => { r with attGo := true, attErr := false })) else .next s

/-- `n` bytes of a digest or signature. -/
def digest (n : Nat) (b : List Byte) : List Byte := (List.range n).map (fun i => b.getD i 0)

/-- KSCTL as it reads. -/
def State.ksctl (s : State) (k : Nat) : Nat := if k = 0 then 0x80 else (if (s.key k).en then 0x80 else 0) + (s.key k).owner

/-- R339: the report (the widths of the stepping, the count and KSCTL: log entry 93). -/
def State.report (s : State) : List Byte :=
  let own := (List.range 384).map (fun c => BitVec.ofNat 8 (s.owner c))
  let ks := (List.range 4096).flatMap (fun k => bytesLE 4 (s.ksctl k))
  let body := bytesLE 32 s.regs.attNonce ++ Sys2Proof.Machine.sm3 s.regs.image ++ Sys2Proof.Machine.sm3 (own ++ ks) ++
    [0x41, 0x31] ++ bytesLE 8 s.regs.alarmCnt
  body ++ digest 64 (Config.sm2 body)

/-- R339: the report is written through the primary port, or ERR is set. -/
def execAttestationReportWritten (ok : Bool) (s : State) : Host.Outcome State Fault Refusal :=
  if s.regs.attGo = false then .next s
  else
    let good := ok && s.regs.primaryUp
    let s1 := if good then s.writeMem 0 (2 ^ 50 + s.regs.attDest) s.report else s
    .next { s1 with regs := { s1.regs with attGo := false, attErr := !good } }

/-! ## MODID, OPTLTO -/

/-- R326: MODID, while no team is resident or pre-empted. -/
def execModidWrite (value : Nat) (s : State) : Host.Outcome State Fault Refusal :=
  if s.teams.isEmpty then .next (s.regWrite (fun r => { r with modid := value % 64 })) else .next s

/-- R356: OPTLTO; a zero is ignored. -/
def execOptltoWrite (part value : Nat) (s : State) : Host.Outcome State Fault Refusal :=
  if value % 2 ^ 16 = 0 then .next s else .next (s.partWrite part (fun p => { p with optlto := value % 2 ^ 16 }))

/-! ## Power, R374 -/

/-- R374: the module loses power: what it held is gone, but for memory that is not its own. -/
def execPowerOff (s : State) : Host.Outcome State Fault Refusal :=
  .next { State.reset with
    agenda := s.agenda, nextId := s.nextId, free := s.free, powered := false
    mem := s.mem.filter (fun e => decide (2 ^ 50 ≤ e.1)), poison := s.poison.filter (fun e => decide (2 ^ 45 ≤ e.1)) }

/-- R374: power comes on: the module stands as `State.reset` has it, beside the memory that is not its own. -/
def execPowerOn (s : State) : Host.Outcome State Fault Refusal :=
  if s.powered then .next s
  else .next { State.reset with agenda := s.agenda, nextId := s.nextId, free := s.free, mem := s.mem, poison := s.poison }

/-- R295: the primary link goes down; kernels and queues run on. -/
def execPrimaryLinkDown (s : State) : Host.Outcome State Fault Refusal := .next { s with regs := { s.regs with primaryUp := false } }

/-- R295: the primary link returns. -/
def execPrimaryLinkReturn (s : State) : Host.Outcome State Fault Refusal := .next { s with regs := { s.regs with primaryUp := true } }

end Sys2Proof.Machine
end

