-- ==== Sys2Proof/Machine/Power.lean ====
section
/-! DEFINITION. Power, temperature, ageing and telemetry (R375, R378 to R381). -/

namespace Sys2Proof.Machine

open Sys2Proof

/-! ## ACLK, R375 -/

/-- The cap in W (R375). -/
def Regs.cap (r : Regs) : Nat := if r.pwrcap = 0 then 19500 else max r.pwrcap 8000

/-- ACLK a step lower, and a step higher up to a bound. -/
def slower (f : Nat) : Nat := max (f - 100) 800
def faster (bound f : Nat) : Nat := min (f + 100) bound

/-- Sets every die's ACLK. -/
def State.clocks (s : State) (f : Die → Nat) : State :=
  (List.range Config.dies).foldl (fun (s : State) d => s.putDie d ((s.die d).setClock s.ps (f (s.die d)))) s

/-- R375: DRAW is measured; firmware lowers ACLK on every die above the cap and raises it below 95 % of it, on a die at
95 °C or more not (log entry 95). -/
def execPowerThrottle (draw : Nat) (s : State) : Host.Outcome State Fault Refusal :=
  let s1 := { s with regs := { s.regs with draw := draw % 2 ^ 32 } }
  let cap := s.regs.cap
  if s.powered = false then .next s
  else if s.regs.bootst ≠ 1 then .next s1
  else if cap < draw then
    .next (State.clocks { s1 with regs := { s1.regs with aclkMhz := slower s.regs.aclkMhz } } (fun d => slower d.aclk))
  else if draw * 100 < cap * 95 then
    let m := faster 1600 s.regs.aclkMhz
    .next (State.clocks { s1 with regs := { s1.regs with aclkMhz := m } } (fun d => if 95 ≤ d.temp then d.aclk else faster m d.aclk))
  else .next s1

/-- R375: a die's temperature is measured: at 95 °C firmware lowers its ACLK alone, at 110 °C the source TEMP is
raised. -/
def execDieTemperature (die temp : Nat) (s : State) : Host.Outcome State Fault Refusal :=
  if s.powered = false ∨ Config.dies ≤ die then .next s
  else
    let d := s.die die
    let aclk := if s.regs.bootst ≠ 1 then d.aclk else if 95 ≤ temp then slower d.aclk else faster s.regs.aclkMhz d.aclk
    let s1 := s.putDie die { d.setClock s.ps aclk with temp := temp }
    .next (if 110 ≤ temp then s1.raiseAlarm sourceTemp die 0 else s1)

/-! ## Ageing, R378, R379 -/

/-- R378: firmware measures an empty cluster: MARGIN and INDEX, which is 255 at MAXMARGIN (R379), or RETIRE when MARGIN would exceed
MAXMARGIN. -/
def execAgeingMeasurement (cluster margin index : Nat) (s : State) : Host.Outcome State Fault Refusal :=
  let c := s.cluster cluster
  if s.powered = false ∨ s.regs.bootst ≠ 1 ∨ 384 ≤ cluster ∨
      s.teams.any (fun t => decide (clusterOf t.core = cluster) && t.onCore) = true then .next s
  else
    let top := Config.fusedMaxMargin cluster % 256
    if top < margin then .next (s.putCluster cluster { c with retire := true })
    else .next (s.putCluster cluster { c with margin := some margin, index := if margin = top then 255 else index % 256 })

/-! ## Telemetry, R380, R381 -/

/-- The counters of what the spec gives no event: ENERGY of the die, and the corrected sectors HBMCE of its stacks (log entry 94). -/
def freeCounters : List Nat := [8, 0x2010, 0x2810, 0x3010, 0x3810]

/-- Such a counter after so many cycles of the die: it has risen by a free value in each. -/
def freeCount (die off cycles : Nat) : Nat := (List.range cycles).foldl (fun n k => n + Config.freeRise die off k) 0 % 2 ^ 64

/-- PALGATE of a core is held as the bank-cycles of its 64 banks that were not gated (`State.awake`). -/
def isPalgate (off : Nat) : Bool := decide (0x100 ≤ off) && decide (off < 0x1100) && decide (off % 32 = 0x18)

/-- PALGATE after so many cycles of the die. -/
def gateCount (cycles awake : Nat) : Nat := (64 * cycles + (2 ^ 64 - awake % 2 ^ 64)) % 2 ^ 64

/-- A counter's live value. -/
def State.liveCount (s : State) (die off : Nat) : Nat :=
  let v := sget 0 (s.die die).tm.live off
  if freeCounters.contains off then freeCount die off (s.clk die) else if isPalgate off then gateCount (s.clk die) v else v

/-- Its latched value. -/
def Telemetry.latchedCount (t : Telemetry) (off : Nat) : Nat :=
  let v := sget 0 t.latched off
  if isPalgate off then gateCount t.stamp v else v

/-- R380: GO latches every counter of the die and sets FROZEN. -/
def execTmsnapGo (die value : Nat) (s : State) : Host.Outcome State Fault Refusal :=
  if s.managed = false ∨ Config.dies ≤ die ∨ nbit value 63 = false then .next s
  else
    let d := s.die die
    let latched := freeCounters.foldl (fun m off => sset 0 m off (s.liveCount die off)) d.tm.live
    .next (s.putDie die { d with tm := { d.tm with latched := latched, frozen := true, stamp := s.clk die % 2 ^ 62 } })

/-- R380: FROZEN written. -/
def execFrozenWrite (die value : Nat) (s : State) : Host.Outcome State Fault Refusal :=
  if s.managed = false ∨ Config.dies ≤ die then .next s
  else .next (s.putDie die { s.die die with tm := { (s.die die).tm with frozen := nbit value 62 } })

end Sys2Proof.Machine
end

