-- ==== Sys2Proof/Machine/HostEvents.lean ====
section
/-! DEFINITION. What the host does to module memory through BAR2 (R295, R296, R337, R385), and the failures of accesses to
host memory (R297, R332). -/

namespace Sys2Proof.Machine

open Sys2Proof

/-! ## BAR2, R337 -/

/-- The module address of an offset in the aperture. -/
def State.aperture (s : State) (off : Nat) : Nat := s.regs.b2base * 2 ^ 36 + off

/-- `n` bytes of the aperture exist and may be reached under its key slot. -/
def State.apertureOk (s : State) (off n : Nat) : Bool :=
  s.keyEn s.regs.b2key && decide (off + n ≤ 2 ^ 36) && inHbm (s.aperture off) && inHbm (s.aperture (off + n - 1))

/-- A free value of `n` bits, and the state after it is drawn (log entry 12). -/
def State.draw (s : State) (n : Nat) : State × Nat := ({ s with free := s.free + 1 }, Config.freeValue s.free % 2 ^ n)

/-- The sectors that a host read meets are counted (R381), and those in error noted (R358). -/
def State.hostNotes (s : State) (off n : Nat) : State :=
  if s.apertureOk off n = false then s
  else (List.range (n / 32 + 2)).foldl (fun (t : State) i =>
    let pa := s.aperture off / 32 * 32 + 32 * i
    if s.aperture off + n ≤ pa then t else if s.poisoned pa then t.noteHbmError pa else t.noteBytes pa 32 false) s

/-- The bytes that a host read returns: a free value for one that cannot be read (log entry 97). -/
def State.hostRead (s : State) (off n : Nat) : State :=
  let r := (List.range n).foldl (fun (acc : State × List Nat) i =>
    let pa := s.aperture (off + i)
    if s.apertureOk (off + i) 1 = true ∧ s.poisoned pa = false then (acc.1, acc.2 ++ [(s.readByte (s.keyTag s.regs.b2key) pa).toNat])
    else
      let d := acc.1.draw 8
      (d.1, acc.2 ++ [d.2])) (s.hostNotes off n, [])
  { r.1 with hostReply := r.2 }

/-- The bytes of a host write that fall in one sector. -/
def sectorBytes (pa : Nat) (data : List Nat) (sector : Nat) : List (Nat × Byte) :=
  (data.zipIdx.map (fun (e : Nat × Nat) => (pa + e.2, BitVec.ofNat 8 e.1))).filter (fun e => decide (e.1 / 32 = sector))

/-- R385: a host write, sector by sector. -/
def State.hostWrite (s : State) (off : Nat) (data : List Nat) : State :=
  let pa := s.aperture off
  if s.apertureOk off data.length = false then s
  else (List.range (data.length / 32 + 2)).foldl (fun (s : State) i => match sectorBytes pa data (pa / 32 + i) with
    | [] => s
    | b => (s.writeSector (s.keyTag s.regs.b2key) b).noteBytes ((b.headD (0, 0)).1) 32 true) s

/-- R337: a host request through BAR2: a read of `len` bytes, or a write of the bytes given. -/
def execHostAccess (off len : Nat) (data : List Nat) (s : State) : Host.Outcome State Fault Refusal :=
  if s.powered = false then .next s else if data.isEmpty then .next (s.hostRead off len) else .next (s.hostWrite off data)

/-- The atomic that an AtomicOp is. -/
def hostOp (op : HostAtomic) : AtomOp :=
  match op with
  | .fetchAdd => .addN
  | .swap => .xchg
  | .cas => .cas

/-- R296, R100: a host AtomicOp through BAR2; one that cannot be performed is answered with a free value. -/
def execHostAtomicop (off : Nat) (op : HostAtomic) (x n : Nat) (wide : Bool) (s : State) : Host.Outcome State Fault Refusal :=
  let z := if wide then 8 else 4
  let pa := s.aperture off
  let tag := s.keyTag s.regs.b2key
  if s.powered = false ∨ off % z ≠ 0 then .next s
  else if s.apertureOk off z = false ∨ s.poisoned pa = true then
    let d := (s.hostNotes off z).draw (8 * z)
    .next { d.1 with hostReply := [d.2] }
  else
    let m := s.readMem tag pa z
    let v := (hostOp op).apply (8 * z) m (x % 2 ^ (8 * z)) (n % 2 ^ (8 * z))
    let s1 := ((s.writeMem tag pa (bytesLE z v)).noteBytes pa 32 false).noteBytes pa 32 true
    .next { s1 with hostReply := [m] }

/-! ## Failures of accesses to host memory, R297 -/

/-- The record of a failure: CAUSE 6, LEVEL 4. -/
def hostFault (va source : Nat) (wr : Bool) : FaultRec := ⟨va, 6, 4, source, wr⟩

/-- The host address that an access of a request's virtual memory has, if it goes there. -/
def State.hostVa (s : State) (r : Req) (va : Nat) : Option Nat :=
  match s.translate r.core r.part va 1 with
  | .ok a => if isHost a.1 then some va else none
  | .error _ => none

/-- The host accesses of a position of a shadow window: of its index word and of its table element (R144). -/
def State.windowHost (s : State) (r : Req) (w : Window) (k : Nat) : List (Nat × Nat) :=
  let elem := match (s.windowRead r (w.idx + 4 * k) 4).1 with
    | .ok i => if i < w.tlen then s.hostVa r (w.base + i * w.esz) else none
    | .error _ => none
  ((s.hostVa r (w.idx + 4 * k)).toList ++ elem.toList).map (fun va => (k, va))

/-- One of several, by a free value (log entry 158). -/
def State.oneOf {α : Type} (s : State) (l : List α) : State × Option α :=
  match l with
  | [a] => (s, some a)
  | _ => ({ s with free := s.free + 1 }, l[Config.freeValue s.free % l.length]?)

/-- A host read of a piece through a window fails: it was of one position, and the lanes that its bytes would reach get a poisoned
reply; the piece is served in the others. -/
def State.hostWindow (s : State) (r : Req) (i : Nat) (p : Piece) (w : Window) : State :=
  match s.oneOf ((p.accs.flatMap w.positions).dedup.flatMap (fun k => s.windowHost r w k)) with
  | (_, none) => s
  | (s1, some (k, va)) =>
    if r.kind ≠ .load ∨ s.ripe r p = false then s
    else
      let (s2, q) := (s1.reqFault r (hostFault va 0 false)).serveWindow r w (some k) p
      let hit := fun (a : LaneAcc) => (w.positions a).contains k
      let lost := { q with accs := q.accs.filter hit, poisoned := true }
      match q.accs.filter (fun a => !hit a) with
      | [] => s2.performed r i lost
      | l => s2.performed { r with pieces := r.pieces ++ [lost] } i { q with accs := l }

/-- A piece of a request: a load, through a window too, or an atomic gets a poisoned reply; the flushing read behind a store
completes. -/
def State.hostPiece (s : State) (r : Req) (i : Nat) (p : Piece) : State :=
  match p.window with
  | some w => s.hostWindow r i p w
  | none => if p.toHost = false then s else
    let fault := fun (wr : Bool) => s.reqFault r (hostFault (p.accs.headD ⟨[], 0, 0, 0, 0, 0, 0⟩).va 0 wr)
    let q := { p with performed := true, poisoned := true }
    match r.kind with
    | .load => if s.ripe r p then (fault false).performed r i q else s
    | .atom _ _ => if s.ripe r p then (fault true).performed r i q else s
    | .olist => if s.ripe r p then (fault true).putReq (r.putPiece i q) else s
    | .store =>
      if p.performed = true ∧ p.acked = false then
        let ready := fun (q : Piece) => q.toHost && q.performed && !q.acked
        let r' := { r with pieces := r.pieces.map (fun q => if ready q then { q with acked := true } else q) }
        let s1 := fault false
        if r'.done then (s1.putReq r').completeReq r' else s1.putReq r'
      else s
    | _ => s

/-- An engine's access at an address goes to host memory. -/
def State.engineToHost (s : State) (t : Team) (va : Nat) : Bool :=
  match s.engineAt t va 1 with
  | .ok a => isHost a.1
  | .error _ => false

/-- A gather's read of a sector of host memory fails, and with it every position that the sector serves (R137). -/
def State.hostSector (s : State) (o : Op) (t : Team) (u : Nat) : State :=
  if (o.waitingAt (o.posSector u)).contains u = false ∨ o.posInTable u = false ∨ s.engineToHost t (o.posVa u) = false then s
  else
    let (s1, o1) := (o.waitingAt (o.posSector u)).foldl (fun (acc : State × Op) k =>
      let (s1, o1) := acc.1.posFault acc.2 k codePoison none
      (s1, o1.gotten k 0)) (s.opFault o (hostFault (o.posVa u) 2 false), o)
    s1.putOp o1

/-- A unit or position of an engine operation that reads host memory: POISON is recorded (R110, R125). -/
def State.hostUnit (s : State) (o : Op) (t : Team) (u : Nat) : State :=
  if s.opReady o = false then s
  else match o.kind with
  | .gather => s.hostSector o t u
  | .mma =>
    let m := mmaSnap o.snap
    let f := mmaForm o.pool
    let seg := segLen (m.side f false) (m.side f true)
    let scale := fun (x : Side) => x.scaleVa m.klen (u % 128) (o.unitsDone * seg / x.bl)
    let hit := [m.side f false, m.side f true].find? (fun x => scaled x.code && x.mem && s.engineToHost t (scale x))
    match hit with
    | none => s
    | some x =>
      if (s.runningMma t.core).map (fun p => p.id) ≠ some o.id then s
      else ((s.opFault o (hostFault (scale x) 4 false)).noteOp o codePoison (xfinfo (scale x) 3)).longEnds { o with faulted := true }
  | k =>
    let reads := o.unitVa t.prot u :: (if k.hasMeta then [(o.nibVa u).1] else [])
    let va := (reads.find? (fun a => s.engineToHost t a)).getD 0
    if k.bySector = false ∨ k.outward = true ∨ o.total ≤ u ∨ nbit o.unitsDone u = true ∨
        reads.any (fun a => s.engineToHost t a) = false then s
    else ((s.opFault o (hostFault va 1 false)).noteOp o codePoison (xfinfo va 0)).unitsEnd
      { o with faulted := true, fault := (o.unitGroup u).foldl setBit o.fault } (o.unitGroup u) 1

/-- A walk's read of host memory: the walk ends with POISON (R152). -/
def State.hostWalkRead (s : State) (w : Walk) (rd : CRead) : State :=
  match s.op? w.op, s.team? w.team with
  | some o, some t =>
    if s.engineToHost t rd.va then (s.opFault o (hostFault rd.va 3 false)).walkEnds w (some (codePoison, xfinfo rd.va 2)) else s
  | _, _ => s

/-- What the scheduler accesses for a slot: the packet; for one that it acts on and whose fields hold, a KERNEL's descriptor and
arguments where they lie in memory, COND's, WAIT's and SIGNAL's word, and for COMPACT the next packet and, once that is written, the
count. -/
def State.headVas (s : State) (slot : Nat) (h : HwSlot) (e : QEntry) : List Nat :=
  let word := fun (w : List Nat) => plong w 8
  match h.head with
  | none => [e.packetVa e.rdidx]
  | some w => if (s.headOf slot (w.headD 0 % 256)).isNone then [] else match w.headD 0 % 256 with
    | 1 =>
      let p := kernelPacket w
      if p.ok = false then []
      else (if (s.resident h.part p.desc).isSome then [] else [p.desc]) ++ (if p.narg ≤ 8 then [] else [p.args])
    | 2 => if condOk w then [word w] else []
    | 3 => if tokenOk w then [word w] else []
    | 4 => if tokenOk w then [word w] else []
    | 5 =>
      let next := e.packetVa (e.rdidx + 1)
      if compactOk w = false then []
      else next :: (match s.vread schedCore h.part next 64 with
        | .ok v => if v % 256 = 0 then [] else [word w]
        | .error _ => [])
    | _ => []

/-- The scheduler's access to host memory for a slot: the packet is refused with FAULT. -/
def State.hostHead (s : State) (slot : Nat) : State :=
  match s.slot? slot with
  | none => s
  | some h => match s.entry? h.part h.queue with
    | none => s
    | some e =>
      let onHost := fun (va : Nat) => match s.translate schedCore h.part va 1 with
        | .ok a => isHost a.1
        | .error _ => false
      match s.oneOf ((s.headVas slot h e).filter onHost) with
      | (_, none) => s
      | (s1, some va) =>
        let signal := decide ((h.head.map (fun w => w.headD 0 % 256)) = some 4)
        (s1.writeFault h.part schedCore h.queue 0 (hostFault va 7 signal)).refuse slot h statusFault

/-- R297: an access to host memory fails: `req` numbers a request, an engine operation or a walk's read, and 0 stands for
the queue scheduler's access for slot `piece`. -/
def State.hostFails (s : State) (req piece : Nat) : State :=
  if req = 0 then s.hostHead piece
  else match s.piece? req piece with
    | some (r, p) => s.hostPiece r piece p
    | none => match s.op? req with
      | some o => (match s.team? o.team with
        | some t => s.hostUnit o t piece
        | none => s)
      | none => match s.walks.findSome? (fun w => (w.reads.find? (fun r => decide (r.id = req))).map (fun r => (w, r))) with
        | some (w, r) => s.hostWalkRead w r
        | none => s

/-- R297: a completion with an error status, or a poisoned one. -/
def execHostCompletionError (req piece : Nat) (s : State) : Host.Outcome State Fault Refusal := .next (s.hostFails req piece)

/-- R297: no completion within the timeout. -/
def execCompletionTimeout (req piece : Nat) (s : State) : Host.Outcome State Fault Refusal := .next (s.hostFails req piece)

end Sys2Proof.Machine
end

