-- ==== Sys2Proof/Machine/Reduce.lean ====
section
/-! DEFINITION. Reductions, major 10101 (R252, R253), over the fixed tree of R200. -/

namespace Sys2Proof.Machine

open Sys2Proof

/-- The destination: a scalar, or with BS = 1 a vector row (R252). -/
def redDst (bs d : Nat) : Use := if bs = 1 then wrV d else wrS d

/-- Writes the result to the scalar, or to every live active lane. -/
def State.putRed (s : State) (c : Ctx) (bs d : Nat) (v : Word) : State :=
  if bs = 1 then s.putRow c d (fun _ => v) else s.putScal c d v

/-- The values of the lanes, an identity for a lane that takes no part (R200); in protected mode only the primaries
take part (R368). -/
def Ctx.lanesOf (c : Ctx) (f : Nat → Nat) (ident : Nat) : List Nat :=
  allLanes.map (fun l => if c.primaries.contains l then f l else ident)

/-- R252: A combined over the live active lanes. -/
def reduce (s : State) (d a bs ident : Nat) (op : Nat → Nat → Nat → Nat) : Host.Outcome State Fault Refusal :=
  direct s [rdV a 0, redDst bs d] 1 (fun c s =>
    s.putRed c bs d (BitVec.ofNat 32 (tree (op c.g.mode) (c.lanesOf (fun l => (c.vec a l).toNat) ident))))

/-- An integer operation for the tree. -/
def redInt (f : Word → Word → Word) (_mode x y : Nat) : Nat := (f (BitVec.ofNat 32 x) (BitVec.ofNat 32 y)).toNat

/-- R252, OP 0; the identity is −0. -/
def execVredAddF32 (_c : Bool) (d a bs : Nat) (s : State) : Host.Outcome State Fault Refusal :=
  reduce s d a bs 0x80000000 fp32.fadd

/-- R252, OP 1. -/
def execVredAddN32 (_c : Bool) (d a bs : Nat) (s : State) : Host.Outcome State Fault Refusal :=
  reduce s d a bs 0 (redInt addW)

/-- R252, OP 2; the identity is +∞. -/
def execVredMinF32 (_c : Bool) (d a bs : Nat) (s : State) : Host.Outcome State Fault Refusal :=
  reduce s d a bs 0x7F800000 (fp32.minmax false)

/-- R252, OP 3; the identity is −∞. -/
def execVredMaxF32 (_c : Bool) (d a bs : Nat) (s : State) : Host.Outcome State Fault Refusal :=
  reduce s d a bs 0xFF800000 (fp32.minmax true)

/-- R252, OP 4. -/
def execVredMinS32 (_c : Bool) (d a bs : Nat) (s : State) : Host.Outcome State Fault Refusal :=
  reduce s d a bs 0x7FFFFFFF (redInt minS)

/-- R252, OP 5. -/
def execVredMaxS32 (_c : Bool) (d a bs : Nat) (s : State) : Host.Outcome State Fault Refusal :=
  reduce s d a bs 0x80000000 (redInt maxS)

/-- R252, OP 6. -/
def execVredAndB32 (_c : Bool) (d a bs : Nat) (s : State) : Host.Outcome State Fault Refusal :=
  reduce s d a bs 0xFFFFFFFF (redInt andW)

/-- R252, OP 7. -/
def execVredOrB32 (_c : Bool) (d a bs : Nat) (s : State) : Host.Outcome State Fault Refusal :=
  reduce s d a bs 0 (redInt orW)

/-- R253: the live active lanes whose bit in sM is 1. -/
def Ctx.lmLanes (c : Ctx) (m : Nat) : List Nat := c.lanes.filter (fun l => (c.scal m).getLsbD l)

/-- R253, R368: the lanes that contribute. -/
def Ctx.lmParts (c : Ctx) (m : Nat) : List Nat := c.primaries.filter (fun l => (c.scal m).getLsbD l)

/-- R253: the tree over one column, −0 in the place of a contribution that is not valid. -/
def Ctx.lmTree (c : Ctx) (m : Nat) (f : Nat → Nat) : Nat :=
  tree (fp32.fadd c.g.mode) (allLanes.map (fun l => if (c.lmParts m).contains l then f l else 0x80000000))

/-- R253: t · n ÷ count, formed exactly and rounded once to FP32; +0 with no contribution. -/
def Ctx.lmScale (c : Ctx) (m t : Nat) : Nat :=
  let count := (c.lmParts m).length
  if count = 0 then 0 else fp32.result c.g.mode (Val.mul (fp32.operand c.g.mode t) (.fin false c.primaries.length count))

/-- R253: the checks read A only where sM's bit is 1; the pair of destinations is the result and the count. -/
def reduceLm (s : State) (d a bs m : Nat) (res : Ctx → Nat) : Host.Outcome State Fault Refusal :=
  let us := [⟨.v a, 0, false, false⟩, rdS m 1, redDst bs d, redDst bs (d + 1)]
  word s (fun _ => us)
    (fun c => (c.lmLanes m).map (fun l => ⟨c.g.vecRow a, l, some l, 0, 0, a⟩))
    (fun c s => do
      firstStop [if bs = 0 ∧ d = 127 then some (.t 0x07 (info43 1 3 3 128 c.mask)) else none]
      c.chkBound us
      let bad := (c.lmLanes m).filter (fun l => !(c.elem (.v a) l).valid)
      firstStop [if (c.elem (.s m) 0).valid then none else c.uninit (rdS m 1),
        if bad.isEmpty then none else some (.t 0x04 (info43 0 0 0 a (lanesMask bad)))]
      let rd := if (c.lmLanes m).isEmpty then us else rdV a 0 :: us
      c.chkPend s rd
      c.chkLock s rd
      let s := s.putRed c bs d (BitVec.ofNat 32 (res c))
      .ok ((s.putRed c bs (d + 1) (BitVec.ofNat 32 (c.lmParts m).length)).adv c 1))

/-- R253, OP 8. -/
def execVredLmF32 (_c : Bool) (d a bs m : Nat) (s : State) : Host.Outcome State Fault Refusal :=
  reduceLm s d a bs m (fun c => c.lmScale m (c.lmTree m (fun l => (c.vec a l).toNat)))

/-- R253, OP 9: each half is widened exactly, and its result rounded to FP32 and then to BF16. -/
def execVredLmBf16 (_c : Bool) (d a bs m : Nat) (s : State) : Host.Outcome State Fault Refusal :=
  reduceLm s d a bs m (fun c =>
    let col := fun (h : Nat) => c.lmScale m (c.lmTree m (fun l => (c.vec a l).toNat / 2 ^ (16 * h) % 2 ^ 16 * 2 ^ 16))
    let half := fun (h : Nat) => bf16.result c.g.mode (fp32.operand c.g.mode (col h))
    half 0 + 2 ^ 16 * half 1)

end Sys2Proof.Machine
end

