-- ==== Sys2Proof/Machine/Registers.lean ====
section
/-! DEFINITION. BAR0: where each register lies, what it reads, and what a write of it does (R8, R9, R295, R298, R316, R331,
R334, R335, R348, R350, R356 to R358, R375, R379 to R382). -/

namespace Sys2Proof.Machine

open Sys2Proof

/-- The registers of BAR0: `p` a partition, `c` a cluster, `d` a die, `e` an edge, `m` a module, `k` a key slot, port or
record. -/
inductive BarReg where
  | qtbase (p : Nat) | pendbase (p : Nat) | qcfg (p : Nat)
  | csabase (p : Nat) | csacfg (p : Nat) | errbase (p : Nat) | errwr (p : Nat)
  | ptroot (p : Nat) | shbase (p : Nat) | shsize (p : Nat) | tlbinv (p : Nat) | fltbase (p : Nat) | fltwr (p : Nat)
  | cluown (c : Nat) | b2ctl | bootgo | bootst | attnonce | attdest | attcmd | attcert (i : Nat)
  | alarmstat | alarmpol | alarmraise | alarmcnt | alarmlog (k : Nat)
  | ksctl (k : Nat) | kskey1 (k : Nat) | kskey2 (k : Nat)
  | lnkstat (d e m : Nat) | lnkctl (d e m : Nat) | lnkcfg (d e m : Nat) | lnkcnt (d e m : Nat) | lnkmap (d e : Nat)
  | rtaddr (d : Nat) | rtdata (d : Nat) | rtswap (d : Nat) | rtstat (d : Nat) | rtbank (d : Nat)
  | optstat (k : Nat) | optcfg (k : Nat) | optcnt (k : Nat) | optroute (m : Nat) | modid | optcls (p : Nat) | optlto (p : Nat)
  | relctl (p : Nat) | wdctl (p : Nat) | wdstat (p : Nat)
  | qdead (d q : Nat) | ecccnt (d : Nat) | ecclast (d : Nat)
  | tmsnap (d : Nat) | counter (d off : Nat) | ageclu (c : Nat) | pwrcap | pwrstat
  deriving DecidableEq, Repr

/-- Bytes of a register. -/
def BarReg.width (r : BarReg) : Nat :=
  match r with
  | .cluown _ => 1
  | .attcert _ => 4
  | .attnonce => 32
  | .alarmlog _ => 16
  | .kskey1 _ => 16
  | .kskey2 _ => 16
  | .qcfg _ => 4
  | .csacfg _ => 4
  | .shsize _ => 4
  | .bootgo => 4
  | .bootst => 4
  | .attcmd => 4
  | .alarmstat => 4
  | .alarmpol => 4
  | .alarmraise => 4
  | .ksctl _ => 4
  | .lnkstat _ _ _ => 4
  | .lnkctl _ _ _ => 4
  | .lnkcfg _ _ _ => 4
  | .lnkmap _ _ => 4
  | .rtaddr _ => 4
  | .rtdata _ => 4
  | .rtswap _ => 4
  | .rtstat _ => 4
  | .optstat _ => 4
  | .optcfg _ => 4
  | .optroute _ => 4
  | .modid => 4
  | .optlto _ => 4
  | .relctl _ => 4
  | .wdctl _ => 4
  | .qdead _ _ => 4
  | .ageclu _ => 4
  | .pwrcap => 4
  | _ => 8

/-! ## The map -/

/-- The number and the offset in one of `n` blocks of `stride` bytes from `base` on. -/
def blockAt (base stride n off : Nat) : Option (Nat × Nat) :=
  if base ≤ off ∧ off < base + stride * n then some ((off - base) / stride, (off - base) % stride) else none

/-- Among some places, the register that starts at an offset. -/
def place (l : List (Nat × BarReg)) (o : Nat) : Option BarReg := (l.find? (fun e => e.1 == o)).map (fun e => e.2)

/-- The counters of a die's telemetry block (R381). -/
def isCounter (o : Nat) : Bool :=
  decide (o = 8) || (decide (0x100 ≤ o) && decide (o < 0x1100) && decide (o % 8 = 0)) ||
    (decide (0x2000 ≤ o) && decide (o < 0x4000) &&
      (decide (o % 0x800 < 0x20 ∧ o % 8 = 0) || (decide (0x200 ≤ o % 0x800) && decide (o % 8 = 0))))

/-- The register of a link block that starts at an offset (R348). -/
def linkReg (d o : Nat) : Option BarReg :=
  if o < 0x800 then
    let e := o / 0x200
    let m := o % 0x200 / 0x40
    place [(0, .lnkstat d e m), (4, .lnkctl d e m), (8, .lnkcfg d e m), (0x10, .lnkcnt d e m)] (o % 0x40)
  else if 0x1000 ≤ o ∧ o < 0x1010 ∧ o % 4 = 0 then some (.lnkmap d ((o - 0x1000) / 4))
  else none

/-- The register of the security block that starts at an offset (R334, R335). -/
def securityReg (o : Nat) : Option BarReg :=
  if o < 384 then some (.cluown o)
  else if 0x800 ≤ o ∧ o < 0xC00 then (if o % 4 = 0 then some (.attcert (o - 0x800)) else none)
  else if 0x1000 ≤ o ∧ o < 0x1400 then (if o % 16 = 0 then some (.alarmlog ((o - 0x1000) / 16)) else none)
  else if 0x10000 ≤ o then
    let k := (o - 0x10000) / 64
    place [(0, .ksctl k), (0x10, .kskey1 k), (0x20, .kskey2 k)] (o % 64)
  else place [(0x200, .b2ctl), (0x300, .bootgo), (0x308, .bootst), (0x400, .attnonce), (0x420, .attdest), (0x428, .attcmd),
    (0xE00, .alarmstat), (0xE08, .alarmpol), (0xE10, .alarmraise), (0xF00, .alarmcnt)] o

/-- The register of a partition's queue, context or translation block that starts at an offset (R298, R316, R331). -/
def partReg (off : Nat) : Option BarReg :=
  match blockAt 0x100000 0x1000 64 off, blockAt 0x180000 0x1000 64 off, blockAt 0x200000 0x1000 64 off with
  | some (p, o), _, _ => place [(0, .qtbase p), (8, .pendbase p), (0x10, .qcfg p)] o
  | _, some (p, o), _ => place [(0, .csabase p), (8, .csacfg p), (0x10, .errbase p), (0x18, .errwr p)] o
  | _, _, some (p, o) => place [(0, .ptroot p), (8, .shbase p), (0x10, .shsize p), (0x18, .tlbinv p), (0x20, .fltbase p),
      (0x28, .fltwr p)] o
  | _, _, _ => none

/-- The routing or optical register that starts at an offset (R350, R356). -/
def routeReg (off : Nat) : Option BarReg :=
  match blockAt 0x480000 0x1000 24 off, blockAt 0x4C0000 0x100 12 off, blockAt 0x4C2000 4 64 off, blockAt 0x4D0000 0x10 64 off with
  | some (d, o), _, _, _ => place [(0, .rtaddr d), (4, .rtdata d), (8, .rtswap d), (0xC, .rtstat d), (0x10, .rtbank d)] o
  | _, some (k, o), _, _ => place [(0, .optstat k), (4, .optcfg k), (8, .optcnt k)] o
  | _, _, some (m, o), _ => place [(0, .optroute m)] o
  | _, _, _, some (p, o) => place [(0, .optcls p), (8, .optlto p)] o
  | _, _, _, _ => if off = 0x4C2100 then some .modid else none

/-- The reliability register that starts at an offset (R357, R358). -/
def reliabilityReg (off : Nat) : Option BarReg :=
  match blockAt 0x500000 0x1000 64 off, blockAt 0x540000 0x1000 24 off with
  | some (p, o), _ => place [(0, .relctl p), (4, .wdctl p), (8, .wdstat p)] o
  | _, some (d, o) =>
    if o < 0x800 then (if o % 4 = 0 then some (.qdead d (o / 4)) else none) else place [(0x800, .ecccnt d), (0x808, .ecclast d)] o
  | _, _ => none

/-- The fleet register that starts at an offset (R375, R379 to R381). -/
def fleetReg (off : Nat) : Option BarReg :=
  match blockAt 0x600000 0x8000 24 off with
  | some (d, o) =>
    if o = 0 then some (.tmsnap d)
    else if isCounter o then some (.counter d o)
    else if 0x4000 ≤ o ∧ o < 0x4400 ∧ o % 0x40 = 0 then some (.ageclu (16 * d + (o - 0x4000) / 0x40))
    else none
  | none => if off = 0x700000 then some .pwrcap else if off = 0x700008 then some .pwrstat else none

/-- The register that starts at an offset of BAR0. -/
def regStart (off : Nat) : Option BarReg :=
  if off < 0x300000 then partReg off
  else if off < 0x400000 then (if off < 0x350000 then securityReg (off - 0x300000) else none)
  else if off < 0x480000 then (blockAt 0x400000 0x4000 24 off).bind (fun b => linkReg b.1 b.2)
  else if off < 0x500000 then routeReg off
  else if off < 0x600000 then reliabilityReg off
  else fleetReg off

/-- The register that holds a byte of BAR0, and where it starts. -/
def regAt (off : Nat) : Option (BarReg × Nat) :=
  (List.range 32).findSome? (fun k => if off < k then none else (regStart (off - k)).bind (fun r =>
    if k < r.width then some (r, off - k) else none))

/-! ## Reads -/

/-- A telemetry counter as it reads (R380). -/
def State.counterValue (s : State) (d off : Nat) : Nat :=
  let t := (s.die d).tm
  if t.frozen then t.latchedCount off else s.liveCount d off

/-- A record of the alarm log (R382). -/
def Regs.logRecord (r : Regs) (k : Nat) : Nat :=
  let first := r.alarmCnt - r.alarmLog.length
  match (List.range r.alarmLog.length).find? (fun i => decide ((first + i) % 64 = k)) with
  | none => 0
  | some i => match r.alarmLog[i]? with
    | none => 0
    | some a => a.count + a.source * 2 ^ 64 + a.action * 2 ^ 72 + a.die * 2 ^ 80

/-- LNKSTAT (R348). -/
def State.lnkstat (s : State) (d e m : Nat) : Nat :=
  let k := s.link d e m
  let c := s.chan d e m
  k.state * 2 ^ 30 + k.x32.toNat * 2 ^ 29 + k.winerr * 2 ^ 16 + c.tx * 2 ^ 8 + c.rx

/-- What a register reads: RO and RW fields as they stand, WO and reserved fields 0 (R8, R9). -/
def State.regValue (s : State) (r : BarReg) : Nat :=
  match r with
  | .qtbase p => (s.part p).qtbase
  | .pendbase p => (s.part p).pendbase
  | .qcfg p => (s.part p).slotmax * 2 ^ 17 + (s.part p).qcount
  | .csabase p => (s.part p).csabase
  | .csacfg p => (s.part p).slotlog2 * 2 ^ 16 + (s.part p).saveSlots
  | .errbase p => (s.part p).errbase + (s.part p).errlog2n
  | .errwr p => (s.part p).errwr
  | .ptroot p => (s.part p).ptroot + (s.part p).ptrootEn.toNat
  | .shbase p => (s.part p).shbase
  | .shsize p => (s.part p).shsize
  | .tlbinv p => (s.part p).tlbBusy.toNat * 2 ^ 63
  | .fltbase p => (s.part p).fltbase + (s.part p).fltlog2n
  | .fltwr p => (s.part p).fltwr
  | .cluown c => s.owner c
  | .b2ctl => s.regs.b2base * 2 ^ 36 + s.regs.b2key
  | .bootgo => 0
  | .bootst => s.regs.bootst
  | .attnonce => s.regs.attNonce
  | .attdest => s.regs.attDest
  | .attcmd => s.regs.attErr.toNat * 2 + s.regs.attGo.toNat
  | .attcert i =>
    let word := natLE ((List.range 4).map (fun j => Config.attCert (i + j)))
    if i = 0 then min word 1020 else word
  | .alarmstat => s.regs.alarmStat
  | .alarmpol => s.regs.alarmLock.toNat * 2 ^ 31 + s.regs.alarmPol
  | .alarmraise => 0
  | .alarmcnt => s.regs.alarmCnt
  | .alarmlog k => s.regs.logRecord k
  | .ksctl k => s.ksctl k
  | .kskey1 _ => 0
  | .kskey2 _ => 0
  | .lnkstat d e m => if (opposite d e).isNone then 0 else s.lnkstat d e m
  | .lnkctl d e m => if (opposite d e).isNone then 0 else (s.link d e m).off.toNat
  | .lnkcfg d e m => if (opposite d e).isNone then 0 else (s.link d e m).ackto
  | .lnkcnt d e m =>
    let k := s.link d e m
    if (opposite d e).isNone then 0 else k.crcerr * 2 ^ 48 + k.replay * 2 ^ 32 + k.dup * 2 ^ 16 + k.retrain
  | .lnkmap d e => if (opposite d e).isNone then 0 else s.lnkMap d e
  | .rtaddr d => (s.die d).rtaddr
  | .rtdata d =>
    let a := (s.die d).rtaddr
    sget 0 s.routes (routeKey (1 - s.routeBank d (fld a 24 6)) (fld a 24 6) d (fld a 16 5) (a % 128))
  | .rtswap _ => 0
  | .rtstat d => (s.die d).rtbusy.isSome.toNat * 2 ^ 31
  | .rtbank d => (s.die d).rtbank
  | .optstat k => (s.port k).state * 2 ^ 30 + (s.port k).lambda * 2 ^ 23
  | .optcfg k => (s.port k).lweight
  | .optcnt k => (s.port k).sreplay * 2 ^ 48 + (s.port k).lcrc * 2 ^ 32 + (s.port k).lrefuse * 2 ^ 16 + (s.port k).ltimeout
  | .optroute m => sget 0 s.regs.optroute m
  | .modid => s.regs.modid
  | .optcls p => (s.part p).optcls
  | .optlto p => (s.part p).optlto
  | .relctl p => (s.part p).relMirror.toNat * 2 + (s.part p).relProt.toNat
  | .wdctl p => (s.part p).wdTimeout
  | .wdstat p =>
    let x := s.part p
    x.wdBusy.toNat * 2 ^ 63 + x.wdSw.toNat * 2 ^ 32 + x.wdQueue * 2 ^ 16 + x.wdResets
  | .qdead d q => sget 0 (s.die d).qdead q
  | .ecccnt d =>
    let x := s.die d
    x.palcorr * 2 ^ 48 + x.palunc * 2 ^ 32 + x.mirhit * 2 ^ 16 + x.deadCnt
  | .ecclast d => match (s.die d).eccLast with
    | some pa => 2 ^ 63 + pa
    | none => 0
  | .tmsnap d => (s.die d).tm.frozen.toNat * 2 ^ 62 + (s.die d).tm.stamp
  | .counter d off => s.counterValue d off
  | .ageclu c =>
    let x := s.cluster c
    x.retire.toNat * 2 ^ 31 + x.index * 2 ^ 16 + (x.margin.getD (Config.fusedMargin c)) % 256 * 2 ^ 8 + Config.fusedMaxMargin c % 256
  | .pwrcap => s.regs.pwrcap
  | .pwrstat => s.regs.draw * 2 ^ 32 + s.regs.aclkMhz * 2 ^ 20

/-- A read of `n` bytes of BAR0; an offset without a register reads 0. -/
def State.regRead (s : State) (off n : Nat) : Nat :=
  natLE ((List.range n).map (fun i => match regAt (off + i) with
    | some (r, base) => BitVec.ofNat 8 (s.regValue r / 256 ^ (off + i - base))
    | none => 0))

/-! ## Writes -/

/-- The state of an outcome that is a next state. -/
def nextOr (s : State) (o : Host.Outcome State Fault Refusal) : State :=
  match o with
  | .next t => t
  | .fault _ => s
  | .refused _ => s

/-- A write of a die's registers. -/
def State.dieWrite (s : State) (d : Nat) (f : Die → Die) : State := if s.managed then s.putDie d (f (s.die d)) else s

/-- LNKCTL (R348): CLR, WIDEN and OFF. -/
def State.lnkctlWrite (s : State) (d e m v : Nat) : State :=
  let s1 := if nbit v 2 then nextOr s (execClr d e m s) else s
  let s2 := if nbit v 1 then nextOr s1 (execWiden d e m s1) else s1
  nextOr s2 (execLinkOff d e m v s2)

/-- RTDATA (R350): the entry that RTADDR selects, in the bank that its partition does not use. -/
def State.rtdataWrite (s : State) (d v : Nat) : State :=
  let a := (s.die d).rtaddr
  let key := routeKey (1 - s.routeBank d (fld a 24 6)) (fld a 24 6) d (fld a 16 5) (a % 128)
  if s.managed then { s with routes := sset 0 s.routes key (v % 16) } else s

/-- A register written whole: RW fields are set, W1C bits cleared, WO fields take effect, RO and reserved fields ignored
(R8, R9); a register with a row of its own does what the row says. -/
def State.setReg (s : State) (r : BarReg) (v : Nat) : State :=
  match r with
  | .qtbase p => s.partWrite p (fun x => { x with qtbase := fld v 12 45 * 2 ^ 12 })
  | .pendbase p => s.partWrite p (fun x => { x with pendbase := fld v 16 41 * 2 ^ 16 })
  | .qcfg p => nextOr s (execQcfgWrite p v s)
  | .csabase p => s.partWrite p (fun x => { x with csabase := fld v 16 41 * 2 ^ 16 })
  | .csacfg p => s.partWrite p (fun x => { x with slotlog2 := fld v 16 5, saveSlots := v % 2 ^ 16 })
  | .errbase p => s.partWrite p (fun x => { x with errbase := fld v 12 45 * 2 ^ 12, errlog2n := v % 32 })
  | .errwr _ => s
  | .ptroot p => nextOr s (execPtrootWrite p v s)
  | .shbase p => nextOr s (execShbaseWrite p v s)
  | .shsize p => nextOr s (execShsizeWrite p v s)
  | .tlbinv p => nextOr s (execTlbinv p v s)
  | .fltbase p => s.partWrite p (fun x => { x with fltbase := fld v 12 45 * 2 ^ 12, fltlog2n := v % 32 })
  | .fltwr _ => s
  | .cluown c => nextOr s (execCluownWrite c v s)
  | .b2ctl => s.regWrite (fun x => { x with b2base := fld v 36 7, b2key := v % 2 ^ 12 })
  | .bootgo => nextOr s (execBootgo v s)
  | .bootst => s
  | .attnonce => s.regWrite (fun x => { x with attNonce := v % 2 ^ 256 })
  | .attdest => s.regWrite (fun x => { x with attDest := fld v 6 44 * 2 ^ 6 })
  | .attcmd => nextOr s (execAttcmdGo v s)
  | .attcert _ => s
  | .alarmstat => s.regWrite (fun x => { x with alarmStat := bitsOf 7 ((List.range 7).filter (fun i => nbit x.alarmStat i && !nbit v i)) })
  | .alarmpol => nextOr s (execAlarmpolWrite v s)
  | .alarmraise => nextOr s (execAlarmraise v s)
  | .alarmcnt => s
  | .alarmlog _ => s
  | .ksctl k => nextOr s (execKsctlWrite k v s)
  | .kskey1 k => nextOr s (execKskey1Write k v s)
  | .kskey2 k => nextOr s (execKskey2Write k v s)
  | .lnkstat _ _ _ => s
  | .lnkctl d e m => s.lnkctlWrite d e m v
  | .lnkcfg d e m => if s.managed = true ∧ (opposite d e).isSome = true then s.modLink d e m (fun x => { x with ackto := v % 2 ^ 16 }) else s
  | .lnkcnt _ _ _ => s
  | .lnkmap _ _ => s
  | .rtaddr d => s.dieWrite d (fun x => { x with rtaddr := fld v 24 6 * 2 ^ 24 + fld v 16 5 * 2 ^ 16 + v % 128 })
  | .rtdata d => s.rtdataWrite d v
  | .rtswap d => nextOr s (execRtswap d v s)
  | .rtstat _ => s
  | .rtbank _ => s
  | .optstat _ => s
  | .optcfg k => if s.managed then s.modPort k (fun x => { x with lweight := v % 16 }) else s
  | .optcnt _ => s
  | .optroute m => s.regWrite (fun x => { x with optroute := sset 0 x.optroute m (v % 2 ^ 12) })
  | .modid => nextOr s (execModidWrite v s)
  | .optcls p => s.partWrite p (fun x => { x with optcls := v % 2 ^ 64 })
  | .optlto p => nextOr s (execOptltoWrite p v s)
  | .relctl p => s.partWrite p (fun x => { x with relMirror := nbit v 1, relProt := nbit v 0 })
  | .wdctl p => nextOr s (execWdctlReset p v s)
  | .wdstat _ => s
  | .qdead d q => s.dieWrite d (fun x => { x with qdead := sset 0 x.qdead q (v % 2 ^ 32) })
  | .ecccnt _ => s
  | .ecclast _ => s
  | .tmsnap d => if nbit v 63 then nextOr s (execTmsnapGo d v s) else nextOr s (execFrozenWrite d v s)
  | .counter _ _ => s
  | .ageclu _ => s
  | .pwrcap => s.regWrite (fun x => { x with pwrcap := v % 2 ^ 16 })
  | .pwrstat => s

/-- What the bytes of a register that a narrow write does not reach stand for: a W1C register's are zeros, every other's
what it reads. -/
def State.regKeep (s : State) (r : BarReg) : Nat := if r = .alarmstat then 0 else s.regValue r

/-- A register with some of its bytes replaced, from byte `k` on. -/
def mergeBytes (old k n v : Nat) : Nat := old - old / 256 ^ k % 256 ^ n * 256 ^ k + v % 256 ^ n * 256 ^ k

/-- A write of `size` bytes from an offset on, register by register. -/
def State.regWrites : Nat → Nat → Nat → Nat → State → State
  | 0, _, _, _, s => s
  | fuel + 1, off, size, v, s =>
    if size = 0 then s
    else match regAt off with
    | none => State.regWrites fuel (off + 1) (size - 1) (v / 256) s
    | some (r, base) =>
      let k := off - base
      let n := min size (r.width - k)
      State.regWrites fuel (off + n) (size - n) (v / 256 ^ n) (s.setReg r (mergeBytes (s.regKeep r) k n v))

/-- R8, R295: a write of `size` bytes at an offset of BAR0, while management is available. -/
def execRegisterWrite (off size value : Nat) (s : State) : Host.Outcome State Fault Refusal :=
  if s.managed then .next (State.regWrites size off size value s) else .next s

end Sys2Proof.Machine
end

