-- ==== Sys2Proof/Machine/System.lean ====
section
/-! DEFINITION. System registers: `sget` and `sput` (R227 to R230, R17, R32, R37, R62, R191). -/

namespace Sys2Proof.Machine

open Sys2Proof

/-- The value of system register `r` (R180), other than LANEID. -/
def Ctx.sysReg (c : Ctx) (r : Nat) : Nat :=
  match r with
  | 1 => c.sl.headD 0
  | 2 => c.g.quad * 32 + c.g.num
  | 3 => c.t.teamid
  | 4 => c.t.nc * 256 + c.t.hasp.toNat * 2 + c.g.isP.toNat
  | 5 => c.mask
  | 6 => c.g.dead.toNat
  | 7 => c.g.mode
  | 8 => c.g.tick
  | 9 => c.g.tcmp
  | 10 => c.g.trapcode
  | 11 => c.g.trappc
  | 12 => c.g.trapinfo
  | 13 => c.g.vrows * 2 ^ 15 + c.g.srows * 2 ^ 9 + c.t.kernel.trows
  | _ => 0

/-- TICK, TCMP and TRAPINFO are pairs (R180). -/
def sysPair (r : Nat) : Bool := decide (r = 8) || decide (r = 9) || decide (r = 12)

/-- The value that lane `l` reads (R227); in protected mode LANEID is the logical lane in both of its lanes (R368). -/
def Ctx.sysLane (c : Ctx) (r l : Nat) : Nat :=
  match r with
  | 0 => if c.t.prot then l / 2 else l
  | 1 => l / 4
  | k => c.sysReg k

/-- `sget sD`. -/
def execSgetScalar (_c : Bool) (r d : Nat) (s : State) : Host.Outcome State Fault Refusal :=
  if sysPair r then direct s [wrS d, wrS (d + 1)] 1 (fun c s => s.putPair c d (c.sysReg r))
  else direct s [wrS d] 1 (fun c s => s.putScal c d (BitVec.ofNat 32 (c.sysReg r)))

/-- `sget vD`. -/
def execSgetVector (_c : Bool) (r d : Nat) (s : State) : Host.Outcome State Fault Refusal :=
  if sysPair r then
    direct s [wrV d, wrV (d + 1)] 1 (fun c s =>
      (s.putRow c d (fun l => BitVec.ofNat 32 (c.sysLane r l))).putRow c (d + 1)
        (fun l => BitVec.ofNat 32 (c.sysLane r l / 2 ^ 32)))
  else direct s [wrV d] 1 (fun c s => s.putRow c d (fun l => BitVec.ofNat 32 (c.sysLane r l)))

/-- R229: MODE and TCMP may be written, TRAPPC and TRAPINFO while INPROG is 1. -/
def sputAllowed (g : Group) (r : Nat) : Bool :=
  match r with
  | 7 => true
  | 9 => true
  | 11 => g.inprog
  | 12 => g.inprog
  | _ => false

/-- The group with a register written; reserved bits are ignored (R9). -/
def Group.sysPut (g : Group) (r v : Nat) : Group :=
  match r with
  | 7 => { g with mode := v % 16 }
  | 9 => { g with tcmp := v }
  | 11 => { g with trappc := v, pcWritten := true }
  | 12 => { g with trapinfo := v % 2 ^ 48 + v / 2 ^ 56 * 2 ^ 56 }
  | _ => g

/-- `sput`. A register that may not be written raises TRAP_PERM after the checks of the scalar (DESIGN CHOICE, log entry 124). -/
def execSput (_c : Bool) (r d : Nat) (s : State) : Host.Outcome State Fault Refusal :=
  let us := if sysPair r then [rdS d 0, rdS (d + 1) 0] else [rdS d 0]
  word s (fun _ => us) noMore (fun c s => do
    c.check s us
    if sputAllowed c.g r = false then .error (.t 0x0F 0)
    else
      let v := if sysPair r then c.pair d else (c.scal d).toNat
      .ok (((s.modG c (fun g => g.sysPut r v)).adv c 1).dropTimer c.t.id c.g.num))

end Sys2Proof.Machine
end

