-- ==== Sys2Proof/Machine/Traps.lean ====
section
/-! DEFINITION. The events of a group's traps: the entry that other candidates held back (R310), the timer match (R33),
the SOFT event (R364) and the group without a live lane (R362). -/

namespace Sys2Proof.Machine

open Sys2Proof

/-- R310: a raised trap is entered once the group's other candidates have stopped. -/
def execTrapEntry (team group : Nat) (s : State) : Host.Outcome State Fault Refusal := .next (s.tryEnter team group)

/-- R33: a match that is due: it disarms the comparator, and is taken where a user handler is registered. -/
def execTimerMatch (team group : Nat) (s : State) : Host.Outcome State Fault Refusal :=
  .next ((s.dropTimer team group).takeTimer team group)

/-- R364: a pending SOFT event is taken at a boundary outside a handler. -/
def execSoftEvent (team group : Nat) (s : State) : Host.Outcome State Fault Refusal := .next (s.takeSoft team group)

/-- R362: the group whose last live lane has died takes TRAP_DEADLANE. -/
def execTrapDeadlane (team group : Nat) (s : State) : Host.Outcome State Fault Refusal :=
  match (s.group? team group).bind (fun g => g.trapping) with
  | some r => if r.code = 0x14 then .next (s.tryEnter team group) else .next s
  | none => .next s

end Sys2Proof.Machine
end

