-- ==== Sys2Proof/Machine/Dispatch.lean ====
section
/-! DEFINITION. What each instruction does: one arm for each constructor of `Instr`, a direct call of its meaning. -/

namespace Sys2Proof.Machine

open Sys2Proof

/-- The meaning of an instruction in a state. -/
def exec (i : Instr) (s : State) : Host.Outcome State Fault Refusal :=
  match i with
  | .clause w a b l y => Sys2Proof.Machine.execClause w a b l y s
  | .nop => Sys2Proof.Machine.execNop s
  | .sMovB32 c d b => Sys2Proof.Machine.execSMovB32 c d b s
  | .sAddN32 c d b => Sys2Proof.Machine.execSAddN32 c d b s
  | .sSubN32 c d b => Sys2Proof.Machine.execSSubN32 c d b s
  | .sMulN32 c d b => Sys2Proof.Machine.execSMulN32 c d b s
  | .sMulhiN32 c d b => Sys2Proof.Machine.execSMulhiN32 c d b s
  | .sMulhiS32 c d b => Sys2Proof.Machine.execSMulhiS32 c d b s
  | .sAndB32 c d b => Sys2Proof.Machine.execSAndB32 c d b s
  | .sOrB32 c d b => Sys2Proof.Machine.execSOrB32 c d b s
  | .sXorB32 c d b => Sys2Proof.Machine.execSXorB32 c d b s
  | .sNotB32 c d b => Sys2Proof.Machine.execSNotB32 c d b s
  | .sShlB32 c d b => Sys2Proof.Machine.execSShlB32 c d b s
  | .sShrN32 c d b => Sys2Proof.Machine.execSShrN32 c d b s
  | .sShrS32 c d b => Sys2Proof.Machine.execSShrS32 c d b s
  | .sMinN32 c d b => Sys2Proof.Machine.execSMinN32 c d b s
  | .sMinS32 c d b => Sys2Proof.Machine.execSMinS32 c d b s
  | .sMaxN32 c d b => Sys2Proof.Machine.execSMaxN32 c d b s
  | .sMaxS32 c d b => Sys2Proof.Machine.execSMaxS32 c d b s
  | .sMovB64 c d b => Sys2Proof.Machine.execSMovB64 c d b s
  | .sAddN64 c d b => Sys2Proof.Machine.execSAddN64 c d b s
  | .sSubN64 c d b => Sys2Proof.Machine.execSSubN64 c d b s
  | .sMulN64 c d b => Sys2Proof.Machine.execSMulN64 c d b s
  | .sAndB64 c d b => Sys2Proof.Machine.execSAndB64 c d b s
  | .sOrB64 c d b => Sys2Proof.Machine.execSOrB64 c d b s
  | .sXorB64 c d b => Sys2Proof.Machine.execSXorB64 c d b s
  | .sShlB64 c d b => Sys2Proof.Machine.execSShlB64 c d b s
  | .sShrN64 c d b => Sys2Proof.Machine.execSShrN64 c d b s
  | .sShrS64 c d b => Sys2Proof.Machine.execSShrS64 c d b s
  | .siMovB32 c d im => Sys2Proof.Machine.execSiMovB32 c d im s
  | .siAddN32 c d im => Sys2Proof.Machine.execSiAddN32 c d im s
  | .siMulN32 c d im => Sys2Proof.Machine.execSiMulN32 c d im s
  | .siAndB32 c d im => Sys2Proof.Machine.execSiAndB32 c d im s
  | .siOrB32 c d im => Sys2Proof.Machine.execSiOrB32 c d im s
  | .siXorB32 c d im => Sys2Proof.Machine.execSiXorB32 c d im s
  | .siShlB32 c d im => Sys2Proof.Machine.execSiShlB32 c d im s
  | .siShrN32 c d im => Sys2Proof.Machine.execSiShrN32 c d im s
  | .siShrS32 c d im => Sys2Proof.Machine.execSiShrS32 c d im s
  | .siMovB64 c d im => Sys2Proof.Machine.execSiMovB64 c d im s
  | .siAddN64 c d im => Sys2Proof.Machine.execSiAddN64 c d im s
  | .beq c a b o => Sys2Proof.Machine.execBeq c a b o s
  | .bne c a b o => Sys2Proof.Machine.execBne c a b o s
  | .bltS32 c a b o => Sys2Proof.Machine.execBltS32 c a b o s
  | .bgeS32 c a b o => Sys2Proof.Machine.execBgeS32 c a b o s
  | .bltN32 c a b o => Sys2Proof.Machine.execBltN32 c a b o s
  | .bgeN32 c a b o => Sys2Proof.Machine.execBgeN32 c a b o s
  | .vAddN32 c d a sc b => Sys2Proof.Machine.execVAddN32 c d a sc b s
  | .vSubN32 c d a sc b => Sys2Proof.Machine.execVSubN32 c d a sc b s
  | .vMulN32 c d a sc b => Sys2Proof.Machine.execVMulN32 c d a sc b s
  | .vMulhiN32 c d a sc b => Sys2Proof.Machine.execVMulhiN32 c d a sc b s
  | .vMulhiS32 c d a sc b => Sys2Proof.Machine.execVMulhiS32 c d a sc b s
  | .vAndB32 c d a sc b => Sys2Proof.Machine.execVAndB32 c d a sc b s
  | .vOrB32 c d a sc b => Sys2Proof.Machine.execVOrB32 c d a sc b s
  | .vXorB32 c d a sc b => Sys2Proof.Machine.execVXorB32 c d a sc b s
  | .vShlB32 c d a sc b => Sys2Proof.Machine.execVShlB32 c d a sc b s
  | .vShrN32 c d a sc b => Sys2Proof.Machine.execVShrN32 c d a sc b s
  | .vShrS32 c d a sc b => Sys2Proof.Machine.execVShrS32 c d a sc b s
  | .vMinN32 c d a sc b => Sys2Proof.Machine.execVMinN32 c d a sc b s
  | .vMinS32 c d a sc b => Sys2Proof.Machine.execVMinS32 c d a sc b s
  | .vMaxN32 c d a sc b => Sys2Proof.Machine.execVMaxN32 c d a sc b s
  | .vMaxS32 c d a sc b => Sys2Proof.Machine.execVMaxS32 c d a sc b s
  | .vAddsatS32 c d a sc b => Sys2Proof.Machine.execVAddsatS32 c d a sc b s
  | .viAddN32 c d a im => Sys2Proof.Machine.execViAddN32 c d a im s
  | .viSubN32 c d a im => Sys2Proof.Machine.execViSubN32 c d a im s
  | .viMulN32 c d a im => Sys2Proof.Machine.execViMulN32 c d a im s
  | .viMulhiN32 c d a im => Sys2Proof.Machine.execViMulhiN32 c d a im s
  | .viMulhiS32 c d a im => Sys2Proof.Machine.execViMulhiS32 c d a im s
  | .viAndB32 c d a im => Sys2Proof.Machine.execViAndB32 c d a im s
  | .viOrB32 c d a im => Sys2Proof.Machine.execViOrB32 c d a im s
  | .viXorB32 c d a im => Sys2Proof.Machine.execViXorB32 c d a im s
  | .viShlB32 c d a im => Sys2Proof.Machine.execViShlB32 c d a im s
  | .viShrN32 c d a im => Sys2Proof.Machine.execViShrN32 c d a im s
  | .viShrS32 c d a im => Sys2Proof.Machine.execViShrS32 c d a im s
  | .viMinN32 c d a im => Sys2Proof.Machine.execViMinN32 c d a im s
  | .viMinS32 c d a im => Sys2Proof.Machine.execViMinS32 c d a im s
  | .viMaxN32 c d a im => Sys2Proof.Machine.execViMaxN32 c d a im s
  | .viMaxS32 c d a im => Sys2Proof.Machine.execViMaxS32 c d a im s
  | .faddF32 c d a sc b => Sys2Proof.Machine.execFaddF32 c d a sc b s
  | .fsubF32 c d a sc b => Sys2Proof.Machine.execFsubF32 c d a sc b s
  | .fmulF32 c d a sc b => Sys2Proof.Machine.execFmulF32 c d a sc b s
  | .fminF32 c d a sc b => Sys2Proof.Machine.execFminF32 c d a sc b s
  | .fmaxF32 c d a sc b => Sys2Proof.Machine.execFmaxF32 c d a sc b s
  | .fabsF32 c d a => Sys2Proof.Machine.execFabsF32 c d a s
  | .fnegF32 c d a => Sys2Proof.Machine.execFnegF32 c d a s
  | .fcpsgnF32 c d a sc b => Sys2Proof.Machine.execFcpsgnF32 c d a sc b s
  | .fmaF32 c d a sc b => Sys2Proof.Machine.execFmaF32 c d a sc b s
  | .fnmaF32 c d a sc b => Sys2Proof.Machine.execFnmaF32 c d a sc b s
  | .faddF16 c d a sc b => Sys2Proof.Machine.execFaddF16 c d a sc b s
  | .fsubF16 c d a sc b => Sys2Proof.Machine.execFsubF16 c d a sc b s
  | .fmulF16 c d a sc b => Sys2Proof.Machine.execFmulF16 c d a sc b s
  | .fmaF16 c d a sc b => Sys2Proof.Machine.execFmaF16 c d a sc b s
  | .faddBf16 c d a sc b => Sys2Proof.Machine.execFaddBf16 c d a sc b s
  | .fsubBf16 c d a sc b => Sys2Proof.Machine.execFsubBf16 c d a sc b s
  | .fmulBf16 c d a sc b => Sys2Proof.Machine.execFmulBf16 c d a sc b s
  | .fmaBf16 c d a sc b => Sys2Proof.Machine.execFmaBf16 c d a sc b s
  | .fminF16 c d a sc b => Sys2Proof.Machine.execFminF16 c d a sc b s
  | .fmaxF16 c d a sc b => Sys2Proof.Machine.execFmaxF16 c d a sc b s
  | .fminBf16 c d a sc b => Sys2Proof.Machine.execFminBf16 c d a sc b s
  | .fmaxBf16 c d a sc b => Sys2Proof.Machine.execFmaxBf16 c d a sc b s
  | .vcmpEq c t p a sc b => Sys2Proof.Machine.execVcmpEq c t p a sc b s
  | .vcmpNe c t p a sc b => Sys2Proof.Machine.execVcmpNe c t p a sc b s
  | .vcmpLt c t p a sc b => Sys2Proof.Machine.execVcmpLt c t p a sc b s
  | .vcmpLe c t p a sc b => Sys2Proof.Machine.execVcmpLe c t p a sc b s
  | .vcmpGt c t p a sc b => Sys2Proof.Machine.execVcmpGt c t p a sc b s
  | .vcmpGe c t p a sc b => Sys2Proof.Machine.execVcmpGe c t p a sc b s
  | .pand c d a b => Sys2Proof.Machine.execPand c d a b s
  | .por c d a b => Sys2Proof.Machine.execPor c d a b s
  | .pxor c d a b => Sys2Proof.Machine.execPxor c d a b s
  | .pnot c d a => Sys2Proof.Machine.execPnot c d a s
  | .cvt c sc t r x d a => Sys2Proof.Machine.execCvt c sc t r x d a s
  | .rcpF32 c d a => Sys2Proof.Machine.execRcpF32 c d a s
  | .rsqrtF32 c d a => Sys2Proof.Machine.execRsqrtF32 c d a s
  | .sqrtF32 c d a => Sys2Proof.Machine.execSqrtF32 c d a s
  | .exp2F32 c d a => Sys2Proof.Machine.execExp2F32 c d a s
  | .log2F32 c d a => Sys2Proof.Machine.execLog2F32 c d a s
  | .sinpiF32 c d a => Sys2Proof.Machine.execSinpiF32 c d a s
  | .cospiF32 c d a => Sys2Proof.Machine.execCospiF32 c d a s
  | .tanhF32 c d a => Sys2Proof.Machine.execTanhF32 c d a s
  | .sigmF32 c d a => Sys2Proof.Machine.execSigmF32 c d a s
  | .erfF32 c d a => Sys2Proof.Machine.execErfF32 c d a s
  | .vgetB32 c d im w j => Sys2Proof.Machine.execVgetB32 c d im w j s
  | .vputB32 c d im w j => Sys2Proof.Machine.execVputB32 c d im w j s
  | .xreadB32 c d im w j => Sys2Proof.Machine.execXreadB32 c d im w j s
  | .xwriteB32 c d im w j => Sys2Proof.Machine.execXwriteB32 c d im w j s
  | .shflIdxB32 c d im j => Sys2Proof.Machine.execShflIdxB32 c d im j s
  | .shflUpB32 c d im j => Sys2Proof.Machine.execShflUpB32 c d im j s
  | .shflDownB32 c d im j => Sys2Proof.Machine.execShflDownB32 c d im j s
  | .shflXorB32 c d im j => Sys2Proof.Machine.execShflXorB32 c d im j s
  | .ballotB32 c d a => Sys2Proof.Machine.execBallotB32 c d a s
  | .voteAny c d a => Sys2Proof.Machine.execVoteAny c d a s
  | .voteAll c d a => Sys2Proof.Machine.execVoteAll c d a s
  | .pmovB32 c d a => Sys2Proof.Machine.execPmovB32 c d a s
  | .ptestB32 c d im => Sys2Proof.Machine.execPtestB32 c d im s
  | .ldB8 c f d im sc => Sys2Proof.Machine.execLdB8 c f d im sc s
  | .ldB16 c f d im sc => Sys2Proof.Machine.execLdB16 c f d im sc s
  | .ldB32 c f d im sc => Sys2Proof.Machine.execLdB32 c f d im sc s
  | .ldB8Fa c f d im sc => Sys2Proof.Machine.execLdB8Fa c f d im sc s
  | .ldB16Fa c f d im sc => Sys2Proof.Machine.execLdB16Fa c f d im sc s
  | .ldB32Fa c f d im sc => Sys2Proof.Machine.execLdB32Fa c f d im sc s
  | .ldB8Fb c f d im sc => Sys2Proof.Machine.execLdB8Fb c f d im sc s
  | .ldB16Fb c f d im sc => Sys2Proof.Machine.execLdB16Fb c f d im sc s
  | .ldB32Fb c f d im sc => Sys2Proof.Machine.execLdB32Fb c f d im sc s
  | .stB8 c f d im sc => Sys2Proof.Machine.execStB8 c f d im sc s
  | .stB16 c f d im sc => Sys2Proof.Machine.execStB16 c f d im sc s
  | .stB32 c f d im sc => Sys2Proof.Machine.execStB32 c f d im sc s
  | .ldScalarAddress c z f e o k d sc => Sys2Proof.Machine.execLdScalarAddress c z f e o k d sc s
  | .stScalarAddress c z e o k d sc => Sys2Proof.Machine.execStScalarAddress c z e o k d sc s
  | .atomAddN32 c o k f d u a => Sys2Proof.Machine.execAtomAddN32 c o k f d u a s
  | .atomAddN64 c o k f d u a => Sys2Proof.Machine.execAtomAddN64 c o k f d u a s
  | .atomAddF32 c o k f d u a => Sys2Proof.Machine.execAtomAddF32 c o k f d u a s
  | .atomMinS32 c o k f d u a => Sys2Proof.Machine.execAtomMinS32 c o k f d u a s
  | .atomMinN32 c o k f d u a => Sys2Proof.Machine.execAtomMinN32 c o k f d u a s
  | .atomMaxS32 c o k f d u a => Sys2Proof.Machine.execAtomMaxS32 c o k f d u a s
  | .atomMaxN32 c o k f d u a => Sys2Proof.Machine.execAtomMaxN32 c o k f d u a s
  | .atomAndB32 c o k f d u a => Sys2Proof.Machine.execAtomAndB32 c o k f d u a s
  | .atomOrB32 c o k f d u a => Sys2Proof.Machine.execAtomOrB32 c o k f d u a s
  | .atomXorB32 c o k f d u a => Sys2Proof.Machine.execAtomXorB32 c o k f d u a s
  | .atomXchgB32 c o k f d u a => Sys2Proof.Machine.execAtomXchgB32 c o k f d u a s
  | .atomCasB32 c o k f d u a => Sys2Proof.Machine.execAtomCasB32 c o k f d u a s
  | .atomXchgB64 c o k f d u a => Sys2Proof.Machine.execAtomXchgB64 c o k f d u a s
  | .atomCasB64 c o k f d u a => Sys2Proof.Machine.execAtomCasB64 c o k f d u a s
  | .swldB32 c f d h => Sys2Proof.Machine.execSwldB32 c f d h s
  | .swstB32 c d h n => Sys2Proof.Machine.execSwstB32 c d h n s
  | .swatomAddN32 c f d h n => Sys2Proof.Machine.execSwatomAddN32 c f d h n s
  | .swatomCasB32 c f d h n => Sys2Proof.Machine.execSwatomCasB32 c f d h n s
  | .swredAddN32 c d h n => Sys2Proof.Machine.execSwredAddN32 c d h n s
  | .swredOrB32 c d h n => Sys2Proof.Machine.execSwredOrB32 c d h n s
  | .swldB32Far c f d h => Sys2Proof.Machine.execSwldB32Far c f d h s
  | .swstB32Far c d h n => Sys2Proof.Machine.execSwstB32Far c d h n s
  | .swatomAddN32Far c f d h n => Sys2Proof.Machine.execSwatomAddN32Far c f d h n s
  | .swatomCasB32Far c f d h n => Sys2Proof.Machine.execSwatomCasB32Far c f d h n s
  | .swredAddN32Far c d h n => Sys2Proof.Machine.execSwredAddN32Far c d h n s
  | .swredOrB32Far c d h n => Sys2Proof.Machine.execSwredOrB32Far c d h n s
  | .exportSwatch c im => Sys2Proof.Machine.execExportSwatch c im s
  | .copyRows c w d sc n => Sys2Proof.Machine.execCopyRows c w d sc n s
  | .copyCol c d sc n => Sys2Proof.Machine.execCopyCol c d sc n s
  | .copyRowsX24 c w d sc n => Sys2Proof.Machine.execCopyRowsX24 c w d sc n s
  | .copySwatch c w d sc n => Sys2Proof.Machine.execCopySwatch c w d sc n s
  | .copyOutTeam c w d sc n => Sys2Proof.Machine.execCopyOutTeam c w d sc n s
  | .copyOutClu c w d sc n => Sys2Proof.Machine.execCopyOutClu c w d sc n s
  | .copyOutDie c w d sc n => Sys2Proof.Machine.execCopyOutDie c w d sc n s
  | .copyOutMod c w d sc n => Sys2Proof.Machine.execCopyOutMod c w d sc n s
  | .copyOutSys c w d sc n => Sys2Proof.Machine.execCopyOutSys c w d sc n s
  | .copyOutC24Team c w d sc n => Sys2Proof.Machine.execCopyOutC24Team c w d sc n s
  | .copyOutC24Clu c w d sc n => Sys2Proof.Machine.execCopyOutC24Clu c w d sc n s
  | .copyOutC24Die c w d sc n => Sys2Proof.Machine.execCopyOutC24Die c w d sc n s
  | .copyOutC24Mod c w d sc n => Sys2Proof.Machine.execCopyOutC24Mod c w d sc n s
  | .copyOutC24Sys c w d sc n => Sys2Proof.Machine.execCopyOutC24Sys c w d sc n s
  | .walk c w d sc n => Sys2Proof.Machine.execWalk c w d sc n s
  | .gather c im => Sys2Proof.Machine.execGather c im s
  | .scatter c im => Sys2Proof.Machine.execScatter c im s
  | .shbind c im => Sys2Proof.Machine.execShbind c im s
  | .shbindOff c im => Sys2Proof.Machine.execShbindOff c im s
  | .arrive c n => Sys2Proof.Machine.execArrive c n s
  | .binit c n sc => Sys2Proof.Machine.execBinit c n sc s
  | .bread c n sc => Sys2Proof.Machine.execBread c n sc s
  | .twait c p n sc => Sys2Proof.Machine.execTwait c p n sc s
  | .swap c n => Sys2Proof.Machine.execSwap c n s
  | .fence c k => Sys2Proof.Machine.execFence c k s
  | .cbatch c sc => Sys2Proof.Machine.execCbatch c sc s
  | .waitb c sc => Sys2Proof.Machine.execWaitb c sc s
  | .waitbPred c p sc => Sys2Proof.Machine.execWaitbPred c p sc s
  | .bra c p o => Sys2Proof.Machine.execBra c p o s
  | .braU c p o => Sys2Proof.Machine.execBraU c p o s
  | .call c d o => Sys2Proof.Machine.execCall c d o s
  | .ret c d => Sys2Proof.Machine.execRet c d s
  | .exit c => Sys2Proof.Machine.execExit c s
  | .mark c o => Sys2Proof.Machine.execMark c o s
  | .join c => Sys2Proof.Machine.execJoin c s
  | .brk c p n => Sys2Proof.Machine.execBrk c p n s
  | .regang c n => Sys2Proof.Machine.execRegang c n s
  | .sgetScalar c r d => Sys2Proof.Machine.execSgetScalar c r d s
  | .sgetVector c r d => Sys2Proof.Machine.execSgetVector c r d s
  | .sput c r sc => Sys2Proof.Machine.execSput c r sc s
  | .trap c n => Sys2Proof.Machine.execTrap c n s
  | .trapRegisterHandler c => Sys2Proof.Machine.execTrapRegisterHandler c s
  | .trapKillService c => Sys2Proof.Machine.execTrapKillService c s
  | .rte c => Sys2Proof.Machine.execRte c s
  | .inv c im => Sys2Proof.Machine.execInv c im s
  | .vredAddF32 c d a sc => Sys2Proof.Machine.execVredAddF32 c d a sc s
  | .vredAddN32 c d a sc => Sys2Proof.Machine.execVredAddN32 c d a sc s
  | .vredMinF32 c d a sc => Sys2Proof.Machine.execVredMinF32 c d a sc s
  | .vredMaxF32 c d a sc => Sys2Proof.Machine.execVredMaxF32 c d a sc s
  | .vredMinS32 c d a sc => Sys2Proof.Machine.execVredMinS32 c d a sc s
  | .vredMaxS32 c d a sc => Sys2Proof.Machine.execVredMaxS32 c d a sc s
  | .vredAndB32 c d a sc => Sys2Proof.Machine.execVredAndB32 c d a sc s
  | .vredOrB32 c d a sc => Sys2Proof.Machine.execVredOrB32 c d a sc s
  | .vredLmF32 c d a sc m => Sys2Proof.Machine.execVredLmF32 c d a sc m s
  | .vredLmBf16 c d a sc m => Sys2Proof.Machine.execVredLmBf16 c d a sc m s
  | .bump c p d sc => Sys2Proof.Machine.execBump c p d sc s
  | .appendB32 c f p d sc => Sys2Proof.Machine.execAppendB32 c f p d sc s
  | .appendB64 c f p d sc => Sys2Proof.Machine.execAppendB64 c f p d sc s
  | .enq c sc => Sys2Proof.Machine.execEnq c sc s
  | .enqPred c p sc => Sys2Proof.Machine.execEnqPred c p sc s
  | .mnop => Sys2Proof.Machine.execMnop s
  | .qmov d a => Sys2Proof.Machine.execQmov d a s
  | .qadd d a b => Sys2Proof.Machine.execQadd d a b s
  | .qsub d a b => Sys2Proof.Machine.execQsub d a b s
  | .qmul d a b => Sys2Proof.Machine.execQmul d a b s
  | .qand d a b => Sys2Proof.Machine.execQand d a b s
  | .qor d a b => Sys2Proof.Machine.execQor d a b s
  | .qshl d a b => Sys2Proof.Machine.execQshl d a b s
  | .qshr d a b => Sys2Proof.Machine.execQshr d a b s
  | .qli d im => Sys2Proof.Machine.execQli d im s
  | .qlih d im => Sys2Proof.Machine.execQlih d im s
  | .qrd d w l => Sys2Proof.Machine.execQrd d w l s
  | .mwait n k => Sys2Proof.Machine.execMwait n k s
  | .marrive n => Sys2Proof.Machine.execMarrive n s
  | .mloop d o => Sys2Proof.Machine.execMloop d o s
  | .mkeep d o => Sys2Proof.Machine.execMkeep d o s
  | .mjmp o => Sys2Proof.Machine.execMjmp o s
  | .mend => Sys2Proof.Machine.execMend s
  | .mma im => Sys2Proof.Machine.execMma im s
  | .mzero t => Sys2Proof.Machine.execMzero t s
  | .mload t v q n => Sys2Proof.Machine.execMload t v q n s
  | .mstore t v q n => Sys2Proof.Machine.execMstore t v q n s
  | .macq t q => Sys2Proof.Machine.execMacq t q s
  | .mrel t => Sys2Proof.Machine.execMrel t s
  | .mmask q => Sys2Proof.Machine.execMmask q s
  | .cnop => Sys2Proof.Machine.execCnop s
  | .cmov d a => Sys2Proof.Machine.execCmov d a s
  | .cli d im => Sys2Proof.Machine.execCli d im s
  | .cadd d a b => Sys2Proof.Machine.execCadd d a b s
  | .csub d a b => Sys2Proof.Machine.execCsub d a b s
  | .cmul d a b => Sys2Proof.Machine.execCmul d a b s
  | .cand d a b => Sys2Proof.Machine.execCand d a b s
  | .cor d a b => Sys2Proof.Machine.execCor d a b s
  | .caddi d a im => Sys2Proof.Machine.execCaddi d a im s
  | .cshli d a n => Sys2Proof.Machine.execCshli d a n s
  | .cshri d a n => Sys2Proof.Machine.execCshri d a n s
  | .crd8 d a im => Sys2Proof.Machine.execCrd8 d a im s
  | .crd16 d a im => Sys2Proof.Machine.execCrd16 d a im s
  | .crd32 d a im => Sys2Proof.Machine.execCrd32 d a im s
  | .crd64 d a im => Sys2Proof.Machine.execCrd64 d a im s
  | .cemit8 a b => Sys2Proof.Machine.execCemit8 a b s
  | .cemit16 a b => Sys2Proof.Machine.execCemit16 a b s
  | .cemit32 a b => Sys2Proof.Machine.execCemit32 a b s
  | .cbeq a b t => Sys2Proof.Machine.execCbeq a b t s
  | .cbne a b t => Sys2Proof.Machine.execCbne a b t s
  | .cblt a b t => Sys2Proof.Machine.execCblt a b t s
  | .cbge a b t => Sys2Proof.Machine.execCbge a b t s
  | .cjmp t => Sys2Proof.Machine.execCjmp t s
  | .cend => Sys2Proof.Machine.execCend s
  | .carderReadReturn walk rd => Sys2Proof.Machine.execCarderReadReturn walk rd s
  | .walkStepLimit walk => Sys2Proof.Machine.execWalkStepLimit walk s
  | .powerOn => Sys2Proof.Machine.execPowerOn s
  | .coreStart core => Sys2Proof.Machine.execCoreStart core s
  | .teamPlacement die => Sys2Proof.Machine.execTeamPlacement die s
  | .stealRequest die => Sys2Proof.Machine.execStealRequest die s
  | .teamRetirement team => Sys2Proof.Machine.execTeamRetirement team s
  | .trapEntry team group => Sys2Proof.Machine.execTrapEntry team group s
  | .timerMatch team group => Sys2Proof.Machine.execTimerMatch team group s
  | .twaitTimeout team group slice => Sys2Proof.Machine.execTwaitTimeout team group slice s
  | .softEvent team group => Sys2Proof.Machine.execSoftEvent team group s
  | .trapDeadlane team group => Sys2Proof.Machine.execTrapDeadlane team group s
  | .mirrorBuild core row => Sys2Proof.Machine.execMirrorBuild core row s
  | .codeFetchReturn team group slice => Sys2Proof.Machine.execCodeFetchReturn team group slice s
  | .translationWalk team group slice => Sys2Proof.Machine.execTranslationWalk team group slice s
  | .pseudoChannelRead req piece => Sys2Proof.Machine.execPseudoChannelRead req piece s
  | .pseudoChannelWrite req piece => Sys2Proof.Machine.execPseudoChannelWrite req piece s
  | .pseudoChannelAtomic req piece => Sys2Proof.Machine.execPseudoChannelAtomic req piece s
  | .writeAcknowledge req piece => Sys2Proof.Machine.execWriteAcknowledge req piece s
  | .prefetchIssue die sector => Sys2Proof.Machine.execPrefetchIssue die sector s
  | .loadSectorLanding req piece => Sys2Proof.Machine.execLoadSectorLanding req piece s
  | .atomicReplyLanding req piece => Sys2Proof.Machine.execAtomicReplyLanding req piece s
  | .copySectorLanding op unit => Sys2Proof.Machine.execCopySectorLanding op unit s
  | .copySectorFault op unit => Sys2Proof.Machine.execCopySectorFault op unit s
  | .gatherEngineRequest op sector => Sys2Proof.Machine.execGatherEngineRequest op sector s
  | .gatherReplyLanding op => Sys2Proof.Machine.execGatherReplyLanding op s
  | .scatterPositionApply op pos => Sys2Proof.Machine.execScatterPositionApply op pos s
  | .appendApply req => Sys2Proof.Machine.execAppendApply req s
  | .bumpApply req => Sys2Proof.Machine.execBumpApply req s
  | .outlierListRequest req => Sys2Proof.Machine.execOutlierListRequest req s
  | .outlierReply req => Sys2Proof.Machine.execOutlierReply req s
  | .swatchAccessArrival req => Sys2Proof.Machine.execSwatchAccessArrival req s
  | .swatchLanding req => Sys2Proof.Machine.execSwatchLanding req s
  | .swatchReplyLanding req => Sys2Proof.Machine.execSwatchReplyLanding req s
  | .swatchDeliveryArrival op dest => Sys2Proof.Machine.execSwatchDeliveryArrival op dest s
  | .swatchDeliveryLanded op dest => Sys2Proof.Machine.execSwatchDeliveryLanded op dest s
  | .mmaSegment op => Sys2Proof.Machine.execMmaSegment op s
  | .tileWordCompletion op => Sys2Proof.Machine.execTileWordCompletion op s
  | .macqGrant team => Sys2Proof.Machine.execMacqGrant team s
  | .macqDeadlockFail core => Sys2Proof.Machine.execMacqDeadlockFail core s
  | .arrayPowerGate core quad => Sys2Proof.Machine.execArrayPowerGate core quad s
  | .preemptionStop team => Sys2Proof.Machine.execPreemptionStop team s
  | .teamRestore team => Sys2Proof.Machine.execTeamRestore team s
  | .pendingScan part queue => Sys2Proof.Machine.execPendingScan part queue s
  | .headPoll slot => Sys2Proof.Machine.execHeadPoll slot s
  | .kernel slot => Sys2Proof.Machine.execKernel slot s
  | .cond slot => Sys2Proof.Machine.execCond slot s
  | .wait slot => Sys2Proof.Machine.execWait slot s
  | .tokenWaitSatisfied slot => Sys2Proof.Machine.execTokenWaitSatisfied slot s
  | .signal slot => Sys2Proof.Machine.execSignal slot s
  | .compact slot => Sys2Proof.Machine.execCompact slot s
  | .barrier slot => Sys2Proof.Machine.execBarrier slot s
  | .sliceExpiry slot => Sys2Proof.Machine.execSliceExpiry slot s
  | .enqRoomRetry team group slice => Sys2Proof.Machine.execEnqRoomRetry team group slice s
  | .watchdogExpiry slot => Sys2Proof.Machine.execWatchdogExpiry slot s
  | .resetComplete part => Sys2Proof.Machine.execResetComplete part s
  | .wdctlReset part value => Sys2Proof.Machine.execWdctlReset part value s
  | .hostAccess off len data => Sys2Proof.Machine.execHostAccess off len data s
  | .hostAtomicop off op x n wide => Sys2Proof.Machine.execHostAtomicop off op x n wide s
  | .hostCompletionError req piece => Sys2Proof.Machine.execHostCompletionError req piece s
  | .completionTimeout req piece => Sys2Proof.Machine.execCompletionTimeout req piece s
  | .primaryLinkDown => Sys2Proof.Machine.execPrimaryLinkDown s
  | .registerWrite off size value => Sys2Proof.Machine.execRegisterWrite off size value s
  | .qcfgWrite part value => Sys2Proof.Machine.execQcfgWrite part value s
  | .ptrootWrite part value => Sys2Proof.Machine.execPtrootWrite part value s
  | .shbaseWrite part value => Sys2Proof.Machine.execShbaseWrite part value s
  | .shsizeWrite part value => Sys2Proof.Machine.execShsizeWrite part value s
  | .tlbinv part value => Sys2Proof.Machine.execTlbinv part value s
  | .tlbinvComplete part => Sys2Proof.Machine.execTlbinvComplete part s
  | .cluownWrite cluster value => Sys2Proof.Machine.execCluownWrite cluster value s
  | .ksctlWrite slot value => Sys2Proof.Machine.execKsctlWrite slot value s
  | .kskey1Write slot value => Sys2Proof.Machine.execKskey1Write slot value s
  | .kskey2Write slot value => Sys2Proof.Machine.execKskey2Write slot value s
  | .bootgo value => Sys2Proof.Machine.execBootgo value s
  | .bootCheckComplete => Sys2Proof.Machine.execBootCheckComplete s
  | .attcmdGo value => Sys2Proof.Machine.execAttcmdGo value s
  | .attestationReportWritten ok => Sys2Proof.Machine.execAttestationReportWritten ok s
  | .alarmpolWrite value => Sys2Proof.Machine.execAlarmpolWrite value s
  | .alarmraise value => Sys2Proof.Machine.execAlarmraise value s
  | .alarmEvent source die part => Sys2Proof.Machine.execAlarmEvent source die part s
  | .modidWrite value => Sys2Proof.Machine.execModidWrite value s
  | .optltoWrite part value => Sys2Proof.Machine.execOptltoWrite part value s
  | .clr die edge mod => Sys2Proof.Machine.execClr die edge mod s
  | .widen die edge mod => Sys2Proof.Machine.execWiden die edge mod s
  | .linkOff die edge mod value => Sys2Proof.Machine.execLinkOff die edge mod value s
  | .flitSend die edge chan => Sys2Proof.Machine.execFlitSend die edge chan s
  | .dataFlitReceive die edge mod crcOk => Sys2Proof.Machine.execDataFlitReceive die edge mod crcOk s
  | .ackReceive die edge mod crcOk => Sys2Proof.Machine.execAckReceive die edge mod crcOk s
  | .nakReceive die edge mod crcOk => Sys2Proof.Machine.execNakReceive die edge mod crcOk s
  | .replayTimeout die edge chan => Sys2Proof.Machine.execReplayTimeout die edge chan s
  | .ackDelayExpiry die edge chan => Sys2Proof.Machine.execAckDelayExpiry die edge chan s
  | .retrainComplete die edge mod ok laneFail => Sys2Proof.Machine.execRetrainComplete die edge mod ok laneFail s
  | .edgeHoldExpiry die edge => Sys2Proof.Machine.execEdgeHoldExpiry die edge s
  | .rtswap die value => Sys2Proof.Machine.execRtswap die value s
  | .routeSwapComplete die => Sys2Proof.Machine.execRouteSwapComplete die s
  | .classSBlockReceive port seq crcOk => Sys2Proof.Machine.execClassSBlockReceive port seq crcOk s
  | .opticalPortDown port => Sys2Proof.Machine.execOpticalPortDown port s
  | .classLBlockArrival port block crcOk => Sys2Proof.Machine.execClassLBlockArrival port block crcOk s
  | .classLTimeout delivery => Sys2Proof.Machine.execClassLTimeout delivery s
  | .powerThrottle draw => Sys2Proof.Machine.execPowerThrottle draw s
  | .dieTemperature die temp => Sys2Proof.Machine.execDieTemperature die temp s
  | .ageingMeasurement cluster margin index => Sys2Proof.Machine.execAgeingMeasurement cluster margin index s
  | .tmsnapGo die value => Sys2Proof.Machine.execTmsnapGo die value s
  | .frozenWrite die value => Sys2Proof.Machine.execFrozenWrite die value s
  | .primaryLinkReturn => Sys2Proof.Machine.execPrimaryLinkReturn s
  | .powerOff => Sys2Proof.Machine.execPowerOff s
  | .paletteSoftError core row lane fatal => Sys2Proof.Machine.execPaletteSoftError core row lane fatal s
  | .hbmUncorrectableError sector => Sys2Proof.Machine.execHbmUncorrectableError sector s
  | .invRound team group slice => Sys2Proof.Machine.execInvRound team group slice s
  | .flushingReadCompletion req => Sys2Proof.Machine.execFlushingReadCompletion req s
  | .opticalBlockSend port => Sys2Proof.Machine.execOpticalBlockSend port s

end Sys2Proof.Machine
end

