-- ==== Sys2Proof/Machine/Chain.lean ====
section
/-! DEFINITION. The words of a packet that issue together (R181 to R183): decoding a word or a chain, the checks of
TRAP_CHAIN, and what becomes of a chain whose words trap, wait or ask. -/

namespace Sys2Proof.Machine

open Sys2Proof

/-! ## What a word is bound for -/

/-- A row of the group's frame, a team row, a scalar or a predicate that a word writes (R181, subcode 4). -/
inductive Dest4 where
  | v (n : Nat)
  | w (n : Nat)
  | s (n : Nat)
  | p (n : Nat)
  deriving DecidableEq, Repr

/-- `n` rows or scalars from `d` on. -/
def destRun (sc : Bool) (d n : Nat) : List Dest4 := (List.range n).map (fun k => if sc then .s (d + k) else .v (d + k))

/-- What a scalar word writes. -/
def destS (i : Instr) : Option (List Dest4) :=
  match i with
  | .sMovB32 _ d _ | .sAddN32 _ d _ | .sSubN32 _ d _ | .sMulN32 _ d _ | .sMulhiN32 _ d _ | .sMulhiS32 _ d _
  | .sAndB32 _ d _ | .sOrB32 _ d _ | .sXorB32 _ d _ | .sNotB32 _ d _ | .sShlB32 _ d _ | .sShrN32 _ d _
  | .sShrS32 _ d _ | .sMinN32 _ d _ | .sMinS32 _ d _ | .sMaxN32 _ d _ | .sMaxS32 _ d _ | .siMovB32 _ d _
  | .siAddN32 _ d _ | .siMulN32 _ d _ | .siAndB32 _ d _ | .siOrB32 _ d _ | .siXorB32 _ d _ | .siShlB32 _ d _
  | .siShrN32 _ d _ | .siShrS32 _ d _ => some [.s d]
  | .sMovB64 _ d _ | .sAddN64 _ d _ | .sSubN64 _ d _ | .sMulN64 _ d _ | .sAndB64 _ d _ | .sOrB64 _ d _
  | .sXorB64 _ d _ | .sShlB64 _ d _ | .sShrN64 _ d _ | .sShrS64 _ d _ | .siMovB64 _ d _ | .siAddN64 _ d _ =>
    some [.s d, .s (d + 1)]
  | .sgetScalar _ r d => some (destRun true d (if sysPair r then 2 else 1))
  | .sgetVector _ r d => some (destRun false d (if sysPair r then 2 else 1))
  | _ => none

/-- What a vector word writes. -/
def destV (i : Instr) : Option (List Dest4) :=
  match i with
  | .vAddN32 _ d _ _ _ | .vSubN32 _ d _ _ _ | .vMulN32 _ d _ _ _ | .vMulhiN32 _ d _ _ _ | .vMulhiS32 _ d _ _ _
  | .vAndB32 _ d _ _ _ | .vOrB32 _ d _ _ _ | .vXorB32 _ d _ _ _ | .vShlB32 _ d _ _ _ | .vShrN32 _ d _ _ _
  | .vShrS32 _ d _ _ _ | .vMinN32 _ d _ _ _ | .vMinS32 _ d _ _ _ | .vMaxN32 _ d _ _ _ | .vMaxS32 _ d _ _ _
  | .vAddsatS32 _ d _ _ _ | .faddF32 _ d _ _ _ | .fsubF32 _ d _ _ _ | .fmulF32 _ d _ _ _ | .fminF32 _ d _ _ _
  | .fmaxF32 _ d _ _ _ | .fcpsgnF32 _ d _ _ _ | .fmaF32 _ d _ _ _ | .fnmaF32 _ d _ _ _ | .faddF16 _ d _ _ _
  | .fsubF16 _ d _ _ _ | .fmulF16 _ d _ _ _ | .fmaF16 _ d _ _ _ | .faddBf16 _ d _ _ _ | .fsubBf16 _ d _ _ _
  | .fmulBf16 _ d _ _ _ | .fmaBf16 _ d _ _ _ | .fminF16 _ d _ _ _ | .fmaxF16 _ d _ _ _ | .fminBf16 _ d _ _ _
  | .fmaxBf16 _ d _ _ _ => some [.v d]
  | .viAddN32 _ d _ _ | .viSubN32 _ d _ _ | .viMulN32 _ d _ _ | .viMulhiN32 _ d _ _ | .viMulhiS32 _ d _ _
  | .viAndB32 _ d _ _ | .viOrB32 _ d _ _ | .viXorB32 _ d _ _ | .viShlB32 _ d _ _ | .viShrN32 _ d _ _
  | .viShrS32 _ d _ _ | .viMinN32 _ d _ _ | .viMinS32 _ d _ _ | .viMaxN32 _ d _ _ | .viMaxS32 _ d _ _ => some [.v d]
  | .fabsF32 _ d _ | .fnegF32 _ d _ => some [.v d]
  | .vcmpEq _ _ p _ _ _ | .vcmpNe _ _ p _ _ _ | .vcmpLt _ _ p _ _ _ | .vcmpLe _ _ p _ _ _ | .vcmpGt _ _ p _ _ _
  | .vcmpGe _ _ p _ _ _ => some [.p p]
  | .pand _ d _ _ | .por _ d _ _ | .pxor _ d _ _ | .pnot _ d _ => some [.p d]
  | .cvt _ _ _ _ _ d _ => some [.v d]
  | _ => none

/-- What a transcendental, lane-crossing or reducing word writes; `xread` and the shuffles write `p6` too. -/
def destX (i : Instr) : Option (List Dest4) :=
  match i with
  | .rcpF32 _ d _ | .rsqrtF32 _ d _ | .sqrtF32 _ d _ | .exp2F32 _ d _ | .log2F32 _ d _ | .sinpiF32 _ d _
  | .cospiF32 _ d _ | .tanhF32 _ d _ | .sigmF32 _ d _ | .erfF32 _ d _ | .pmovB32 _ d _ => some [.v d]
  | .vgetB32 _ d _ _ _ => some [.v d]
  | .xreadB32 _ d _ _ _ => some [.v d, .p 6]
  | .shflIdxB32 _ d _ _ | .shflUpB32 _ d _ _ | .shflDownB32 _ d _ _ | .shflXorB32 _ d _ _ => some [.v d, .p 6]
  | .ballotB32 _ d _ => some [.s d]
  | .voteAny _ d _ | .voteAll _ d _ | .ptestB32 _ d _ => some [.p d]
  | .vredAddF32 _ d _ s | .vredAddN32 _ d _ s | .vredMinF32 _ d _ s | .vredMaxF32 _ d _ s | .vredMinS32 _ d _ s
  | .vredMaxS32 _ d _ s | .vredAndB32 _ d _ s | .vredOrB32 _ d _ s => some (destRun (decide (s ≠ 1)) d 1)
  | .vredLmF32 _ d _ s _ | .vredLmBf16 _ d _ s _ => some (destRun (decide (s ≠ 1)) d 2)
  | _ => none

/-- What a memory or swatch word writes. -/
def destM (i : Instr) : Option (List Dest4) :=
  match i with
  | .ldB8 _ _ d _ _ | .ldB16 _ _ d _ _ | .ldB32 _ _ d _ _ | .ldB8Fa _ _ d _ _ | .ldB16Fa _ _ d _ _
  | .ldB32Fa _ _ d _ _ | .ldB8Fb _ _ d _ _ | .ldB16Fb _ _ d _ _ | .ldB32Fb _ _ d _ _ => some [.v d]
  | .ldScalarAddress _ z _ e _ _ d _ => some (destRun (decide (e = 1)) d (partCount (2 ^ z)))
  | .atomAddN32 _ _ _ _ d u _ | .atomAddF32 _ _ _ _ d u _ | .atomMinS32 _ _ _ _ d u _ | .atomMinN32 _ _ _ _ d u _
  | .atomMaxS32 _ _ _ _ d u _ | .atomMaxN32 _ _ _ _ d u _ | .atomAndB32 _ _ _ _ d u _ | .atomOrB32 _ _ _ _ d u _
  | .atomXorB32 _ _ _ _ d u _ | .atomXchgB32 _ _ _ _ d u _ | .atomCasB32 _ _ _ _ d u _ =>
    some (destRun (decide (u = 1)) d 1)
  | .atomAddN64 _ _ _ _ d u _ | .atomXchgB64 _ _ _ _ d u _ | .atomCasB64 _ _ _ _ d u _ =>
    some (destRun (decide (u = 1)) d 2)
  | .swldB32 _ _ d _ | .swldB32Far _ _ d _ => some [.v d]
  | .swatomAddN32 _ _ d _ _ | .swatomCasB32 _ _ d _ _ | .swatomAddN32Far _ _ d _ _ | .swatomCasB32Far _ _ d _ _ =>
    some [.v d]
  | .bump _ p d _ => some [.v d, .v (d + 1), .p p]
  | .enqPred _ p _ => some [.p p]
  | _ => none

/-- What a control or barrier word writes. -/
def destB (i : Instr) : List Dest4 :=
  match i with
  | .bread _ _ s => destRun true s 4
  | .twait _ p _ _ => [.p p]
  | .cbatch _ s => [.s s]
  | .waitbPred _ p _ => [.p p]
  | .call _ d _ => [.s d]
  | _ => []

/-- The rows of a range that lie in the issuing group's frame or among the team rows. -/
def Ctx.destRows (c : Ctx) (isTeam : Bool) (tgt d n : Nat) : List Dest4 :=
  let k := min n (c.t.rowLimit isTeam tgt - d)
  if isTeam then (List.range k).map (fun i => .w (d + i)) else if tgt = c.g.num then destRun false d k else []

/-- The scalars of a record, where every one of them can be read. -/
def Ctx.record (c : Ctx) (a n : Nat) : Option (List Nat) :=
  let us := (List.range n).map (fun i => rdS (a + i) 0)
  if us.all (fun u => c.inRange u.loc && (c.uninit u).isNone) then some ((List.range n).map (fun i => (c.scal (a + i)).toNat)) else none

/-- What an engine operation or an `inv` writes, as its record or pool entry names it: a scatter its fault mask (R140), an `inv` x, y,
LO and HI, the rows that its routine writes, and pV and pL (R161). -/
def Ctx.destEngine (c : Ctx) (s : State) (i : Instr) : List Dest4 :=
  let shape := fun (w d a n : Nat) => match c.record a n with
    | some l => c.destRows (decide (w = 1)) (shapeOf l).tgt d (shapeOf l).count
    | none => []
  match i with
  | .copyRows _ w d a _ => shape w d a 4
  | .copyCol _ d a _ => shape 0 d a 4
  | .copyRowsX24 _ w d a _ => shape w d a 6
  | .walk _ w d a _ => match c.record a 19 with
    | some l => c.destRows (decide (w = 1)) (walkForm l).tgt d (walkForm l).nrows
    | none => []
  | .gather _ ix => match c.poolEntry s ix with
    | .error _ => []
    | .ok v =>
      let f := gatherForm false v
      .v f.f :: (match c.record f.n 1 with
        | some l => c.destRows f.w c.g.num f.d (cdiv (l.headD 0 * f.esz) 128)
        | none => [])
  | .scatter _ ix => match c.poolEntry s ix with
    | .error _ => []
    | .ok v => [.v (gatherForm true v).f]
  | .inv k ix => match c.poolEntry s ix, c.invRoutine s k ix with
    | .ok v, .ok r => ((invForm v).writes r.2.2.2).map Dest4.v ++ [.p (invForm v).pv, .p (invForm v).pl]
    | _, _ => []
  | _ => []

/-- The rows that an indexed write reaches in the candidate's lanes. -/
def Ctx.destIndexed (c : Ctx) (w i : Nat) (off : Int) : List Dest4 :=
  ((c.named i).filterMap (fun l =>
    if 0 ≤ c.idxRow i off l ∧ c.idxRow i off l < (c.idxLim w : Int) then
      some (if w = 1 then Dest4.w (c.idxRow i off l).toNat else Dest4.v (c.idxRow i off l).toNat)
    else none)).dedup

/-- What a word writes, as its fields, its pool entry, its record or its index row names it. -/
def Ctx.dests (c : Ctx) (s : State) (i : Instr) : List Dest4 :=
  match i with
  | .copyRows .. | .copyCol .. | .copyRowsX24 .. | .walk .. | .gather .. | .scatter .. | .inv .. => c.destEngine s i
  | .vputB32 _ _ x w j => c.destIndexed w x (sext 7 j)
  | .xwriteB32 _ _ x w _ => c.destIndexed w x 0
  | .exportSwatch _ ix => match c.poolEntry s ix with
    | .ok v => destRun true (exportForm v).d 2
    | .error _ => []
  | _ => ((destS i).orElse (fun _ => (destV i).orElse (fun _ => (destX i).orElse (fun _ => destM i)))).getD (destB i)

/-! ## Decoding what issues -/

/-- The instruction of slot `slot` of a packet, or its TRAP_ILLEGAL (R183). -/
def decodeSlot (i : CodeItem) (slot : Nat) : Except Stop Instr :=
  match decodeMain slot (i.word slot) (i.word (slot + 1)) with
  | .illegal sub => .error (.t 0x01 (infoSub sub))
  | .ok x => .ok x

/-- R181: the words of the chain that begins in a slot, with whether it has a chain bit in slot 2. The chain bit of an
`inv` joins it to no successor (R162, check 3). -/
def Ctx.chainFrom (c : Ctx) (s : State) (i : CodeItem) : Nat → Nat → Except Stop (List ChainWord × Bool)
  | 0, _ => .ok ([], true)
  | fuel + 1, slot => do
    let x ← decodeSlot i slot
    Ctx.chkChained { c with pc := ⟨c.pc.packet, slot⟩ } s x
    let w : ChainWord := ⟨slot, fld (i.word slot) 26 5, x⟩
    if nbit (i.word slot) 31 = false ∨ w.major = 20 then .ok ([w], false)
    else if slot = 2 then .ok ([w], true)
    else do
      let (l, b) ← c.chainFrom s i fuel (slot + 1)
      .ok (w :: l, b)

/-- R181: the lowest subcode of TRAP_CHAIN that a chain meets; 0 for none. -/
def Ctx.chainSub (c : Ctx) (s : State) (l : List ChainWord) (slot2 : Bool) : Nat :=
  if shapeSub l slot2 ≠ 0 then shapeSub l slot2
  else if ¬ (l.flatMap (fun w => (Ctx.dests { c with pc := ⟨c.pc.packet, w.slot⟩ } s w.instr).dedup)).Nodup then 4
  else 0

/-! ## Running a chain, R182 -/

/-- What a word of the chain met, and whether it waits after it has issued: a barrier word, which stands last. -/
structure Met where
  soft : Bool
  stop : ChainStop
  deriving DecidableEq, Repr

/-- One word of the chain: the slices stand at it, and it runs. -/
def chainStep (c : Ctx) (acc : State × List Met) (w : ChainWord) : State × List Met :=
  let s := acc.1.modG c (fun g => g.setPc c.sl ⟨c.pc.packet, w.slot⟩)
  match exec w.instr s with
  | .next s1 => (s1, acc.2 ++ (s1.cur.stops.drop s.cur.stops.length).map (fun x => ⟨decide (w.major = 16), x⟩))
  | _ => (s, acc.2)

/-- Outside a chain again. -/
def State.unchain (s : State) : State := { s with cur := { s.cur with chain := false, pre := none, stops := [], first := 0, own := [] } }

/-- A word that decides before any other what becomes of the chain: the first that traps or waits before it issues. -/
def Met.hard (m : Met) : Bool :=
  match m.stop with
  | .trap _ _ => true
  | .wait _ => !m.soft
  | _ => false

def Met.asks (m : Met) : Bool :=
  match m.stop with
  | .ask _ => true
  | .askSwatch _ => true
  | _ => false

/-- A candidate that has used what its wait held. -/
def Cand.spent (d : Cand) : Cand :=
  match d.wait with
  | .answered _ => { d with wait := .ready, kept := [] }
  | .offer _ => { d with wait := .ready, kept := [] }
  | _ => { d with kept := [] }

/-- A request of the chain leaves, and the chain waits for its answer (R182). -/
def State.askFirst (s : State) (c : Ctx) (m : Met) (p : Probe) : State :=
  let wait := fun (t : State) => t.hold c (.reply s.nextId (some c.answers))
  match m.stop with
  | .ask r => wait (s.request { r with probe := p })
  | .askSwatch r => wait { s with nextId := s.nextId + 1, swreqs := s.swreqs ++ [{ r with id := s.nextId, probe := p }] }
  | _ => s

/-- R182: the trap of a word of a chain is taken at the chain's first word, with its fault record; what the chain has asked for
leaves. -/
def State.chainTrap (s : State) (c : Ctx) (r : TrapRec) (f : Option FaultRec) : State :=
  let s0 := s.leave c.answers
  let s1 := match f with
    | some x => s0.writeFault c.t.part c.t.core c.t.queue c.g.tick x
    | none => s0
  (s1.raise c.t.id c.g.num { r with pc := c.pc }).tryEnter c.t.id c.g.num

/-- R384: the `enq` of a chain that finds no room has read its queue's entry, and a failed read leaves its record. -/
def State.offered (s : State) (c : Ctx) (w : Wait) : State :=
  match w with
  | .enqRoom l => (s.qentry c.t.part (l.headD 0)).1
  | _ => s

/-- A chain waits before it issues, and keeps what has been answered. -/
def State.chainHold (s : State) (c : Ctx) (w : Wait) : State :=
  let l := c.answers
  s.modG c (fun g => g.modCand c.sl (fun d => { d with wait := w, kept := l }))

/-- R182: what becomes of a chain whose words have run from `s0` to `s1`. The first that traps or waits decides, once an earlier word
that asks is known not to trap; else the chain asks. Of two words that ask the earlier first only asks whether it would trap, and the
later's request takes effect for both at once. Else the chain is complete; a word that waits after it has issued does so behind an
access that must be performed first (R79). -/
def State.endChain (s0 : State) (c : Ctx) (s1 : State) (met : List Met) : State :=
  let complete :=
    let s := s1.unchain.modG c (fun g => g.modCand c.sl Cand.spent)
    match met.findSome? (fun (m : Met) => match m.stop with
      | ChainStop.after r => some r
      | _ => none), met.getLast?.map (fun (m : Met) => m.stop) with
    | some r, _ => (s.raise c.t.id c.g.num r).tryEnter c.t.id c.g.num
    | none, some (ChainStop.wait w) => (s.modG c (fun g => g.modCand c.sl (fun d => d.holdAfter w))).tryEnter c.t.id c.g.num
    | none, _ => s.tryEnter c.t.id c.g.num
  match met.find? Met.hard with
  | some ⟨_, .trap r f⟩ =>
    match (met.takeWhile (fun m => !m.hard)).find? Met.asks with
    | some m => (s0.askFirst c m (.later { r with pc := c.pc } f)).tryEnter c.t.id c.g.num
    | none => s0.chainTrap c r f
  | some ⟨_, .wait w⟩ => ((s0.offered c w).chainHold c w).tryEnter c.t.id c.g.num
  | _ => match met.filter Met.asks with
    | [] => complete
    | [m] => (s0.askFirst c m .none).tryEnter c.t.id c.g.num
    | m :: _ => (s0.askFirst c m .park).tryEnter c.t.id c.g.num

/-- R181, R182: a chain issues as one step. -/
def State.runChain (s : State) (c : Ctx) (l : List ChainWord) : State :=
  let start : State :=
    { s with cur := { s.cur with chain := true, pre := some (c.pal, c.g), stops := [], first := s.nextId, own := c.answers } }
  let (s1, met) := l.foldl (chainStep c) (start, [])
  s.endChain c s1 met

end Sys2Proof.Machine
end

