-- ==== Sys2Proof/Machine/Run.lean ====
section
/-! DEFINITION. The words of the two other instruction sets run by the meanings that `exec` gives them: a matrix
stream's (R275) and the Carder's (R289). -/

namespace Sys2Proof.Machine

open Sys2Proof

/-- Runs a matrix stream word by the meaning that `exec` gives its instruction. -/
def runStream (o : StreamOp) (s : State) : Host.Outcome State Fault Refusal :=
  match o with
  | .mnop => execMnop s
  | .qmov d a => execQmov d a s
  | .qadd d a b => execQadd d a b s
  | .qsub d a b => execQsub d a b s
  | .qmul d a b => execQmul d a b s
  | .qand d a b => execQand d a b s
  | .qor d a b => execQor d a b s
  | .qshl d a b => execQshl d a b s
  | .qshr d a b => execQshr d a b s
  | .qli d i => execQli d i s
  | .qlih d i => execQlih d i s
  | .qrd d w l => execQrd d w l s
  | .mwait n k => execMwait n k s
  | .marrive n => execMarrive n s
  | .mloop d o => execMloop d o s
  | .mkeep d o => execMkeep d o s
  | .mjmp o => execMjmp o s
  | .mend => execMend s
  | .mma i => execMma i s
  | .mzero t => execMzero t s
  | .mload t v q n => execMload t v q n s
  | .mstore t v q n => execMstore t v q n s
  | .macq t q => execMacq t q s
  | .mrel t => execMrel t s
  | .mmask q => execMmask q s

/-- Runs a Carder word by the meaning that `exec` gives its instruction. -/
def runCarder (o : CarderOp) (s : State) : Host.Outcome State Fault Refusal :=
  match o with
  | .cnop => execCnop s
  | .cmov d a => execCmov d a s
  | .cli d i => execCli d i s
  | .cadd d a b => execCadd d a b s
  | .csub d a b => execCsub d a b s
  | .cmul d a b => execCmul d a b s
  | .cand d a b => execCand d a b s
  | .cor d a b => execCor d a b s
  | .caddi d a i => execCaddi d a i s
  | .cshli d a n => execCshli d a n s
  | .cshri d a n => execCshri d a n s
  | .crd8 d a i => execCrd8 d a i s
  | .crd16 d a i => execCrd16 d a i s
  | .crd32 d a i => execCrd32 d a i s
  | .crd64 d a i => execCrd64 d a i s
  | .cemit8 a b => execCemit8 a b s
  | .cemit16 a b => execCemit16 a b s
  | .cemit32 a b => execCemit32 a b s
  | .cbeq a b t => execCbeq a b t s
  | .cbne a b t => execCbne a b t s
  | .cblt a b t => execCblt a b t s
  | .cbge a b t => execCbge a b t s
  | .cjmp t => execCjmp t s
  | .cend => execCend s

end Sys2Proof.Machine
end

