-- ==== Sys2Proof/Machine/Pick.lean ====
section
/-! DEFINITION. Who issues: the choice of a quadrant's group scheduler (R25, R31), of a core's team sequencer (R277) and
of a cluster's Carder (R147), the fetch of the word, and what the turn then does. -/

namespace Sys2Proof.Machine

open Sys2Proof

/-! ## Candidates that may issue, R25 -/

/-- A resident candidate of a quadrant. -/
structure Seat where
  t : Team
  g : Group
  c : Cand
  deriving DecidableEq, Repr

/-- Which candidate it is. -/
def Seat.key (x : Seat) : Nat × Nat × Nat := (x.t.id, x.g.num, x.c.slices.headD 0)

/-- Where the candidate stands. -/
def Seat.pc (x : Seat) : Pc := (x.g.slice (x.c.slices.headD 0)).pc

/-- The candidates of a quadrant whose teams run, or stop (R317). -/
def State.seats (s : State) (core quad : Nat) : List Seat :=
  (s.teams.filter (fun t => t.engaged && decide (t.core = core))).flatMap (fun t =>
    (t.groups.filter (fun g => decide (g.quad = quad))).flatMap (fun g => g.cands.map (fun c => ⟨t, g, c⟩)))

/-- There is the room that a candidate waits for. -/
def State.roomFor (s : State) (x : Seat) (r : Room) : Bool :=
  match r with
  | .copies => decide (s.opCount x.t.core < 64)
  | .locks n => s.lockRoom x.t.core n
  | .swatchTable => s.swRoom (homeOfKey x.t.tkey)
  | .contexts => (s.freeContext (clusterOf x.t.core)).isSome
  | .route => decide ((s.die (dieOf x.t.core)).rtbusy ≠ some x.t.part)
  | .tags => decide (s.tagsTaken x.t.core < Config.requestTags)

/-- R168: the issue cycles that the round of a running `inv` still takes. -/
def Group.invLeft (g : Group) (w : Wait) : Nat :=
  match w with
  | .inv k => ((g.invOf k).map (fun v => v.left)).getD 0
  | _ => 0

/-- R169, R317: a round of the candidate's `inv` has begun, and ends before a stop. -/
def Seat.midRound (x : Seat) : Bool :=
  match x.c.wait with
  | .inv k => match x.g.invOf k with
    | some v => decide (0 < v.left) && decide (v.left < v.words.length + 2)
    | none => false
  | _ => false

/-- R310: what still issues while a trap of the group awaits its entry: a word that finishes its checks, and a running `inv`. -/
def Seat.finishes (x : Seat) : Bool :=
  match x.c.wait with
  | .xlate [] => true
  | .answered _ => true
  | .inv _ => decide (0 < x.g.invLeft x.c.wait)
  | _ => false

/-- What a wait keeps for the word that issues again. -/
def Wait.kept (w : Wait) : Wait :=
  match w with
  | .answered l => .answered l
  | .offer l => .offer l
  | .twait since p n k => .twait since p n k
  | _ => .ready

/-- The candidate about to run its word. -/
def State.seated (s : State) (x : Seat) : State :=
  let s1 := s.modGroup x.t.id x.g.num (fun g => g.modCand x.c.slices (fun c => { c with wait := c.wait.kept }))
  { s1 with cur := { s1.cur with who := .main x.t.id x.g.num x.c.slices } }

/-- R173: a word where only a header may stand. -/
def Ctx.chkClause (c : Ctx) (i : CodeItem) : Except Stop Unit :=
  if c.pc.slot = 0 ∧ (c.g.slice (c.sl.headD 0)).hdrEnd ≤ c.pc.packet ∧ fld (i.word 0) 26 5 ≠ 31 then
    .error (.t 0x03 (infoSub 2))
  else .ok ()

/-- R172, R173: a header word elsewhere than at a clause start, whose fields are not looked at. -/
def Ctx.strayHeader (c : Ctx) (i : CodeItem) : Bool :=
  let w := i.word c.pc.slot
  decide (fld w 26 5 = 31) && !nbit w 31 &&
    (decide (c.pc.slot ≠ 0) || decide (c.pc.packet < (c.g.slice (c.sl.headD 0)).hdrEnd))

/-- The packet at which the candidate stands; past the last of the kernel's code it is as a branch there (R217). -/
def Ctx.packet (c : Ctx) (s : State) : Except Stop CodeItem :=
  if 2 ^ 30 ≤ c.pc.packet then
    .error (.trap 0x0D 0 (some ⟨c.t.packetVa c.pc.packet, 7, 4, 6, false⟩))
  else c.fetch s (c.t.packetVa c.pc.packet) 12

/-- R183, R174: what keeps a word from issuing: it is no instruction as its header or its pool entry stands, or its flag is full. -/
def Ctx.chkIssue (c : Ctx) (s : State) (i : Instr) : Except Stop Unit := do
  c.chkChained s i
  match i with
  | .inv k ix => match c.invRoutine s k ix with
    | .error e => .error e
    | .ok _ => .ok ()
  | _ => .ok ()
  c.chkFull s (flagSel i)

/-- What stands at the candidate's place: a clause header, another word, or the words of a chain. -/
inductive Due where
  | header (i : Instr)
  | word (i : Instr)
  | chain (l : List ChainWord)

/-- What the candidate issues of a fetched packet, or why it does not: the checks that come before anything is read or counted. -/
def Ctx.due (c : Ctx) (s : State) (i : CodeItem) : Except Stop Due := do
  let w := i.word c.pc.slot
  if c.strayHeader i = true then .error (.t 0x03 (infoSub 3)) else .ok ()
  c.chkClause i
  if nbit w 31 = false ∨ fld w 26 5 = 20 then do
    let y ← decodeSlot i c.pc.slot
    if fld w 26 5 = 31 then .ok (.header y)
    else do
      c.chkIssue s y
      .ok (.word y)
  else do
    let (l, slot2) ← c.chainFrom s i 3 c.pc.slot
    let sub := c.chainSub s l slot2
    if sub ≠ 0 then .error (.t 0x02 (infoSub sub)) else .ok ()
    match l.findSome? (fun w => match c.chkFull s (flagSel w.instr) with
      | .error e => some e
      | .ok _ => none) with
    | some e => .error e
    | none => .ok (.chain l)

/-- R25, R174: a full flag keeps the candidate's next word, or a word of its chain, from issuing; a word that traps before that it
does not keep. -/
def State.flagHolds (s : State) (x : Seat) : Bool :=
  (s.fullFlag x.t x.g x.c).isSome && (match (s.seated x).ctx? with
    | none => true
    | some c => match c.packet s with
      | .error _ => false
      | .ok i => match c.due (s.seated x) i with
        | .error (.wait (.flagFull _)) => true
        | _ => false)

/-- R25: the candidate's wait is over. -/
def State.waitOver (s : State) (x : Seat) : Bool :=
  match x.c.wait with
  | .ready => !s.atClause x.t x.g x.c && !s.flagHolds x
  | .answered _ => true
  | .offer _ => true
  | .clause => !s.atClause x.t x.g x.c
  | .flagFull f => decide (x.g.flags.getD f 0 < 63)
  | .fetch va n => (s.codeItem (dieOf x.t.core) x.t.part x.t.kernel.desc va n).isSome ||
      x.c.failed.any (fun f => f.need.va == va && f.need.rights == 4)
  | .xlate l => l.isEmpty
  | .fence l => !s.outstanding l
  | .room r => s.roomFor x r
  | .twait _ _ _ _ => x.t.phaseReached x.c.wait
  | .waitb n => x.g.batchDone n
  | .acquire _ => false
  | .reply _ _ => false
  | .enqRoom _ => false
  | .regang _ => false
  | .inv _ => decide (0 < x.g.invLeft x.c.wait)

/-- R25, R310, R317, R325: the candidate may issue. While a trap of its group awaits its entry, only what finishes first; of a team that
stops, only that, a round that has begun, and a word whose answers have come (R318). -/
def State.mayIssue (s : State) (x : Seat) : Bool :=
  if x.t.runs = false then
    x.midRound || (match x.c.wait with
      | .answered _ => true
      | _ => (x.g.trapping.isSome && x.finishes) || (!x.c.kept.isEmpty && s.waitOver x))
  else if x.g.trapping.isSome then x.finishes
  else s.waitOver x

/-! ## The choice, R31 -/

/-- The numbers by which candidates are ordered, the lower first: starved, age, placement, TEAMID, GROUP, slice. -/
def Seat.rank (x : Seat) : List Nat :=
  [if 32 ≤ x.c.starve then 0 else 1, x.c.stamp, x.t.placed, x.t.teamid, x.g.num, x.c.slices.headD 0]

/-- The first of the lowest rank. -/
def bestSeat (l : List Seat) : Option Seat :=
  l.foldl (fun a x => match a with
    | none => some x
    | some b => if lexLt x.rank b.rank then some x else some b) none

/-- R31, R377: the candidate that a quadrant's scheduler picks; while a ramp holds the quadrant it does not run. -/
def State.pick (s : State) (core quad : Nat) : Option Seat :=
  if s.clk (dieOf core) < (s.core core).ramp.getD quad 0 then none else bestSeat ((s.seats core quad).filter s.mayIssue)

/-! ## What is counted at issue -/

/-- R31: the candidate issues: its age and starvation counter restart, and the counter of every other candidate of the
quadrant that was ready rises. -/
def State.countIssue (s : State) (x : Seat) (core quad : Nat) : State :=
  let others := (s.seats core quad).filter (fun y => s.mayIssue y && decide (y.key ≠ x.key))
  let s1 := others.foldl (fun (s : State) y => s.modGroup y.t.id y.g.num (fun g =>
    g.modCand y.c.slices (fun c => { c with starve := c.starve + 1 }))) s
  let s2 := s1.modGroup x.t.id x.g.num (fun g => g.modCand x.c.slices (fun c => { c with stamp := s.clk (dieOf core), starve := 0 }))
  ((s2.tookUnit core quad).tmAdd (dieOf core) (0x100 + 0x20 * (core % 128)) 1).firstIssue x.t.id

/-! ## What a turn does -/

/-- A turn has done its work, or runs one instruction, or the words of a chain. -/
inductive Plan where
  | done (s : State)
  | word (s : State) (i : Instr)
  | chain (s : State) (c : Ctx) (l : List ChainWord)

/-- The state a meaning leaves. -/
def after (s : State) (r : Host.Outcome State Fault Refusal) : State :=
  match r with
  | .next t => t
  | _ => s

/-- R33, R364: an event that is taken before the candidate's next word. -/
def State.boundaryEvent (s : State) (x : Seat) : Option State :=
  let g := x.g
  if g.soft.sub ≠ 0 ∧ g.inprog = false ∧ g.trapping.isNone = true ∧ s.atBoundary x.t g x.c = true ∧ g.noLane = false then
    some (s.softAt x.t g x.c)
  else if g.timerDue = true ∧ s.timerCand x.t g = some x.c ∧ (s.handler x.t.core g 0x15).isSome = true then
    some (s.takeTimer x.t.id g.num)
  else none

/-- What the candidate does with a fetched packet. Nothing is counted for a word that does not issue. -/
def State.planWord (s : State) (x : Seat) (c : Ctx) (i : CodeItem) : Plan :=
  match c.due s i with
  | .error e => .done (after s (s.finish c (.error e)))
  | .ok (.header y) => .word s y
  | .ok (.word y) => .word (s.countIssue x x.t.core x.g.quad) y
  | .ok (.chain l) => .chain (s.countIssue x x.t.core x.g.quad) c l

/-- R168: a cycle of the round of a candidate's `inv`, which is an issue of it. -/
def State.invCycle (s : State) (x : Seat) (k : Nat) : State :=
  (s.countIssue x x.t.core x.g.quad).modGroup x.t.id x.g.num (fun g =>
    { g with inv := g.inv.map (fun v => if v.lock = k then { v with left := v.left - 1 } else v) })

/-- What a candidate does: an event at its boundary, a cycle of its `inv`, or its word. -/
def State.planSeat (s : State) (x : Seat) : Plan :=
  match s.boundaryEvent x with
  | some t => .done t
  | none => match x.c.wait with
    | .inv k => .done (s.invCycle x k)
    | _ =>
      let s1 := s.seated x
      match s1.ctx? with
      | none => .done s
      | some c => match c.packet s1 with
        | .error e => .done (after s1 (s1.finish c (.error e)))
        | .ok i => s1.planWord x c i

/-- A unit that is to issue may still do so in this cycle: it comes after those of its core that have issued, and no event has
happened (log entry 118). -/
def State.inTurn (s : State) (a : Act) : Bool :=
  let unit := fun (core u : Nat) =>
    decide (s.eventPs = 0 ∨ (s.die (dieOf core)).cycles (s.eventPs - 1) ≠ s.clk (dieOf core)) &&
      decide ((s.core core).issuedAt ≠ s.clk (dieOf core) + 1 ∨ (s.core core).unit ≤ u)
  match a with
  | .issue core quad => unit core quad
  | .seq core => unit core 4
  | .carder cluster => decide ((s.cluster cluster).issuedAt ≠ s.clk (cluster / 16) + 1)
  | _ => true

/-- The die of a unit that issues. -/
def Act.die (a : Act) : Nat :=
  match a with
  | .issue core _ => dieOf core
  | .seq core => dieOf core
  | .carder cluster => cluster / 16
  | _ => 0

/-- A quadrant's turn. -/
def State.planIssue (s : State) (core quad : Nat) : Plan :=
  match s.pick core quad with
  | none => .done s
  | some x => s.planSeat x

/-! ## The team sequencer, R277 -/

/-- What a stream's word is: a stream trap or a wait for code, which the state shows, or the word. -/
def State.streamWord (s : State) (t : Team) (st : Stream) : State × Option StreamOp :=
  if 2 ^ 30 ≤ st.pc.packet then (s.streamTrap t.id st.pc 0x01 (infoSub 7), none)
  else match s.codeItem (dieOf t.core) t.part t.kernel.desc (t.packetVa st.pc.packet) 12 with
  | none => (s.modStream t.id (fun x => { x with wait := .fetch (t.packetVa st.pc.packet) 12 }), none)
  | some i => match decodeStreamOp (i.word st.pc.slot) with
    | .error sub => (s.streamTrap t.id st.pc 0x01 (infoSub sub), none)
    | .ok o => ({ s with cur := { s.cur with who := .stream t.id } }, some o)

/-- Whether a stream stands waiting after its turn, so that the next one has it. -/
def State.streamWaits (s : State) (team : Nat) : Bool :=
  match (s.team? team).bind (fun t => if t.runs then t.stream else none) with
  | some st => decide (st.wait ≠ .ready)
  | none => false

/-- The streams in their order, until one does not wait. -/
def State.runStreams (s : State) : List (Team × Stream) → State
  | [] => s
  | (t, st) :: rest =>
    let s1 := match s.streamWord t st with
      | (s1, none) => s1
      | (s1, some o) => { after s1 (runStream o s1) with cur := Cur.none }
    if s1.streamWaits t.id then s1.runStreams rest else (s1.tookUnit t.core 4).firstIssue t.id

/-! ## The Carder, R147 -/

/-- The walks of a cluster whose teams run or stop, the oldest first, then the lowest context (R147). -/
def State.walksInOrder (s : State) (cluster : Nat) : List Walk :=
  sortBy (fun a b => lexLt [a.stamp, a.ctx] [b.stamp, b.ctx])
    ((s.walksOn cluster).filter (fun w => ((s.team? w.team).map (fun t => t.engaged)).getD false))

/-- A walk before its first word, whose region is filled (R149). -/
def State.walkReady (s : State) (t : Team) (w : Walk) : State :=
  match s.op? w.op with
  | some o => if w.steps = 0 then s.walkFill t o else s
  | none => s

/-- What a walk does in its turn: nothing while an access that happens before its issue is outstanding (R96, R99) or while it waits
for reads; it ends; or it runs its word. -/
def State.walkTurn (s : State) (w : Walk) : Option State :=
  match s.team? w.team with
  | none => none
  | some t =>
    if s.outstanding (((s.op? w.op).map (fun o => o.after)).getD []) then none
    else match s.walkStop t w with
    | some e => if w.reads.isEmpty then some ((s.walkReady t w).walkEnds w (some e)) else none
    | none => match s.sectionWord t w.pc with
      | .word v => match decodeCarderOp v with
        | some o =>
          if s.walkWaits w o then none
          else
            let s0 := s.walkReady t w
            let s1 : State := { s0 with cur := { s0.cur with who := .carder w.id } }
            some { after s1 (runCarder o s1) with cur := Cur.none }
        | none => none
      | _ => none

/-- A Carder's turn: one word in a cycle, after the instructions of that cycle (R109, log entry 118). -/
def State.runCarders (s : State) (cluster : Nat) : State :=
  match (s.walksInOrder cluster).findSome? s.walkTurn with
  | some t => State.putCluster { t with eventPs := s.ps + 1 } cluster { t.cluster cluster with issuedAt := s.clk (cluster / 16) + 1 }
  | none => s

end Sys2Proof.Machine
end

