-- ==== Sys2Proof/Machine/Load.lean ====
section
/-! DEFINITION. A word laid where the next step fetches it: the least team, group, stream or walk that the fetch needs,
standing for what a launch from outside loads (log entry 6). -/

namespace Sys2Proof.Machine

open Sys2Proof

/-- A header of one packet that selects f0 with `.fa` and f1 with `.fb`. -/
def fetchHeader : Nat := headerWord 0 0 1 1 0

/-- A kernel whose code begins at address 0, with a section of one Carder word. -/
def fetchKernel : Kernel := ⟨0, 0, some 0, some 0, some 0, 0, 0, 0, 1, 0, 0, 0, 0, 0, 0, 0⟩

/-- A group in quadrant 0 that stands at a word, as the longest-waiting candidate. -/
def fetchGroup (pc : Pc) (hdr hdrEnd : Nat) : Group :=
  let xs := List.replicate 8 (⟨pc, 15#4, [], hdr, hdrEnd, false⟩ : Slice)
  ⟨0, true, 0, 4, 128, 0, xs, [⟨List.range 8, .ready, 0, 32, [], []⟩], List.replicate 7 0, List.replicate 12 0, 0, 0, 0, 0, 0, 0, 0,
    false, none, none, 0, ⟨0, 0, 0, 0⟩, 0, [], false, [], [], []⟩

/-- A team on core 0 of partition 0. -/
def fetchTeam (id : Nat) (groups : List Group) (st : Option Stream) : Team :=
  ⟨id, 0, 0, 0, 3, 0, 0, 0, .resident, fetchKernel, 0, true, false, false, false, 0, none, 0, 0, groups, [], List.replicate 8 none,
    st⟩

/-- The team joins core 0 before its other teams, its packet in the code store, and the next turn is its unit's. -/
def State.loads (s : State) (t : Team) (packet : List Nat) (a : Act) : State :=
  let val := packet.foldr (fun w n => w + 2 ^ 32 * n) 0
  let s1 := s.putCode 0 ⟨0, 0, 0, 12, val⟩
  let s2 := s1.putCore 0 { s1.core 0 with ramp := [0, 0, 0, 0], issuedAt := 0 }
  let s3 := s2.putCluster 0 { s2.cluster 0 with issuedAt := 0 }
  let s4 := s3.putDie 0 { s3.die 0 with old := s.pal }
  { s4 with powered := true, eventPs := 0, nextId := s.nextId + 1, teams := t :: s4.teams, agenda := ⟨0, a⟩ :: s.agenda }

/-- A main-stream word: a header stands in slot 0, any other word in slot 1 under a header. -/
def State.loadMain (s : State) (w : Nat) : State :=
  if fld w 26 5 = 31 then s.loads (fetchTeam s.nextId [fetchGroup ⟨0, 0⟩ 0 0] none) [w, 0, 0] (.issue 0 0)
  else s.loads (fetchTeam s.nextId [fetchGroup ⟨0, 1⟩ fetchHeader 1] none) [fetchHeader, w, 0] (.issue 0 0)

/-- A word of the matrix stream, in slot 1. -/
def State.loadStream (s : State) (w : Nat) : State :=
  s.loads (fetchTeam s.nextId [] (some ⟨⟨0, 1⟩, [], 0, .ready, 0, [], 0, false⟩)) [0, w, 0] (.seq 0)

/-- A word of the Carder, the one word of its kernel's section. -/
def State.loadCarder (s : State) (w : Nat) : State :=
  let id := s.nextId
  let o : Op := ⟨id + 1, .walk, id, 0, none, 0, 0, 1, [0, 1], [], [], 0, 4, 0, 0, [], [], false, 0, []⟩
  let k : Walk := ⟨id + 2, id + 1, 0, 0, id, 0, List.replicate 16 0, [], 0, 0⟩
  let s1 := s.loads (fetchTeam id [fetchGroup ⟨0, 1⟩ fetchHeader 1] none) [fetchHeader, 0, 0] (.carder 0)
  let c := s1.cluster 0
  let s2 := s1.putCluster 0 { c with sections := ⟨0, 0, 0, [some w], [], 1⟩ :: c.sections }
  { s2 with nextId := id + 3, ops := o :: s2.ops, walks := k :: s2.walks }

end Sys2Proof.Machine
end

