-- ==== Sys2Proof/Machine/Time.lean ====
section
/-! DEFINITION. The passing of time: TICK (R32) and the timer match it brings (R33), the counters of waiting and of the
arrays (R381), and the timers of the hardware slots (R371). -/

namespace Sys2Proof.Machine

open Sys2Proof

/-- R32, R317: TICK counts while the team is resident, and stops once a stop has aborted its operations. -/
def Team.ticking (t : Team) : Bool := !t.out

/-- R32: so many cycles of the team's die. -/
def Team.ticks (t : Team) (cycles : Nat) : Team :=
  if t.ticking then { t with groups := t.groups.map (fun g => { g with tick := (g.tick + cycles) % 2 ^ 64 }) } else t

/-- R371: a slot's timer counts while its queue has a started packet that has not completed; not at a WAIT, and not while
every team of the queue is pre-empted. -/
def State.timed (s : State) (h : HwSlot) : Bool :=
  let mine := s.teams.filter (fun t => decide (t.part = h.part) && decide (t.queue = h.queue))
  !h.started && s.running h.part h.queue && (mine.isEmpty || mine.any (fun t => t.onCore))

/-- A slot after some nanoseconds. -/
def State.slotAfter (s : State) (ns : Nat) (h : HwSlot) : HwSlot := if s.timed h then { h with timer := h.timer + ns } else h

/-- Candidates of a core that wait in fault check (R25). -/
def State.fcWaiting (s : State) (core : Nat) : Nat :=
  ((s.teams.filter (fun t => t.runs && decide (t.core = core))).flatMap (fun t => t.groups.flatMap (fun g =>
    g.cands.filter (fun c => decide (c.wait.code = 2))))).length

/-- The cores that hold teams. -/
def State.busyCores (s : State) : List Nat := ((s.teams.filter (fun t => t.onCore)).map (fun t => t.core)).dedup

/-- The Palette banks of a core that are not power-gated: those that hold a row, allocated, with a valid element (log entry 94). -/
def State.awake (s : State) (core : Nat) : Nat :=
  let tiles := (s.teamsOn core).flatMap (fun t => t.tiles.filterMap (fun x => x.map (fun k => (tileBase k, 512))))
  let runs := s.allocated core ++ tiles
  let rows := (s.pal.filter (fun e => decide (e.1 / 2 ^ 19 = core) && e.2.valid)).map (fun e => e.1 / 32 % 16384)
  ((List.range 64).filter (fun b => rows.any (fun n => decide (n % 64 = b) && runs.any (fun r =>
    decide (r.1 ≤ n) && decide (n < r.1 + r.2))))).length

/-- R381: FCWAIT, MMABUSY and PALGATE of a core after some cycles. -/
def State.countCore (s : State) (cycles core : Nat) : State :=
  let at_ := 0x100 + 0x20 * (core % 128)
  let s1 := (s.tmAdd (dieOf core) (at_ + 0x10) (cycles * s.fcWaiting core)).tmAdd (dieOf core) (at_ + 0x18) (cycles * s.awake core)
  if (s.runningMma core).isSome then s1.tmAdd (dieOf core) (at_ + 8) cycles else s1

/-- What a die shows after its time has passed: in a new cycle its threads see the Palettes as they stand (R86). -/
def State.dieAfter (s : State) (ps d : Nat) : State :=
  let x := s.die d
  if x.cycles ps = x.cycles s.ps then s else s.putDie d { x with old := s.pal }

/-- The cycles that a core's die counts up to a time. -/
def State.cyclesTo (s : State) (ps core : Nat) : Nat := (s.die (dieOf core)).cycles ps - s.clk (dieOf core)

/-- Time passes, so many picoseconds: every die counts its own cycles (R7, R375). -/
def State.passes (s : State) (dps : Nat) : State :=
  if dps = 0 then s
  else
  let ps := s.ps + dps
  let s1 := s.busyCores.foldl (fun t core => t.countCore (s.cyclesTo ps core) core) s
  let s2 := (List.range Config.dies).foldl (fun t d => t.dieAfter ps d) s1
  let s3 : State := { s2 with
    ps := ps
    teams := s2.teams.map (fun t => t.ticks (s.cyclesTo ps t.core))
    slots := s2.slots.map (fun o => o.map (s2.slotAfter ((s.die 0).nsAt ps - s.ns 0))) }
  s3.dropTimers.endTwaits.lapseTwaits

end Sys2Proof.Machine
end

