-- ==== Sys2Proof/Machine/Rotate.lean ====
section
/-! DEFINITION. The rotating orders by which what meets in one cycle is applied: the sources of atomics at a line (R100),
and the engine and remote contributions at a barrier (R109). -/

namespace Sys2Proof.Machine

open Sys2Proof

/-- One meeting: the place, the die whose cycles count there, the lines met, the source, and how many sources there are. -/
structure Meeting where
  place : Nat
  die : Nat
  lines : List Nat
  source : Nat
  sources : Nat
  deriving DecidableEq, Repr

/-! ## Places and sources (log entry 141) -/

/-- A pseudo-channel, a core whose rows are accessed, and a barrier of a team, as places. -/
def channelPlace (c : Nat) : Nat := 3 * c
def ownerPlace (core : Nat) : Nat := 3 * core + 1
def barrierPlace (team n : Nat) : Nat := 3 * (64 * team + n) + 2

/-- The sources of a pseudo-channel's atomics: 0 to 127 the request ports of the die's cores, 128 its gather engine, 129 to 132 its
link ports by their edges, and 133 what comes from outside the module. -/
def atomicSources : Nat := 134

/-- The source of what a core sends to a die: its own request port there, or the edge by which its way comes in. -/
def State.portSource (s : State) (part core die : Nat) (way : List Nat) : Nat :=
  if dieOf core = die then core % 128
  else
    let l := if way.isEmpty then s.wayTo part core die else way
    129 + ((edgeTo die ((l.dropLast.getLast?).getD die)).getD 0)

/-- An atomic at the line of an address, from a source. -/
def atLine (pa source : Nat) : List Meeting :=
  if inHbm pa then [⟨channelPlace (channelOf pa), homeDie pa, [pa / 64], source, atomicSources⟩] else []

/-- A request's atomic at its line. -/
def State.reqMeets (s : State) (r : Req) (p : Piece) (engine : Bool) : List Meeting :=
  match p.accs with
  | a :: _ => atLine a.pa (if engine then 128 else s.portSource r.part r.core (homeDie a.pa) p.way)
  | [] => []

/-- The same, once it can be performed. -/
def State.lineMeets (s : State) (r : Req) (p : Piece) (engine : Bool) : List Meeting :=
  if s.ripe r p then s.reqMeets r p engine else []

/-- A swatch access at the owner's elements. -/
def State.elementMeets (s : State) (r : SwReq) : List Meeting :=
  match s.swFind r.handle with
  | none => []
  | some e => match s.swRow e r.row true with
    | none => []
    | some (core, row) =>
      let part := ((s.team? r.team).map (fun t => t.part)).getD 0
      [⟨ownerPlace core, dieOf core, r.lanes.map (fun ln => 32 * row + ln.1), s.portSource part r.core (dieOf core) [],
        atomicSources⟩]

/-- What the request applies that takes effect together with this one (R182). -/
def State.partnerMeets (s : State) (team n id : Nat) : List Meeting :=
  match s.partner team n id with
  | .go _ => match s.parkedReq team n id with
    | some q => q.pieces.head?.elim [] (fun p => s.reqMeets q p false)
    | none => match s.parkedSwreq team n id with
      | some q => if q.op.isAtom = true ∧ q.module = s.regs.modid ∧ s.swWay q = .go then s.elementMeets q else []
      | none => []
  | _ => []

/-- What the request of a word that asks applies, and its partner with it; nothing while the partner must wait, and the partner's
nothing where its own word traps. -/
def State.askMeets (s : State) (r : Req) (p : Piece) : List Meeting :=
  if r.probe ≠ .none ∨ s.ripe r p = false then []
  else match s.partner r.team r.group r.id with
    | .wait => []
    | .trap _ _ => []
    | _ => s.reqMeets r p false ++ (if (s.askedTrap r p).isSome then [] else s.partnerMeets r.team r.group r.id)

/-- R145: the update of the status word by a piece of a window, where one of its positions faults. -/
def State.statMeets (s : State) (r : Req) (w : Window) (p : Piece) : List Meeting :=
  if (p.accs.flatMap w.positions).any (fun k => (s.windowElem r w k).1.isNone) then
    match s.place r.core r.part w.stat 3 with
    | .ok (pa, _) => atLine pa 128
    | .error _ => []
  else []

/-- R100: what an event applies at a line or at an element. -/
def State.atomicMeets (s : State) (i : Instr) : List Meeting :=
  match i with
  | .pseudoChannelAtomic req k => match s.piece? req k with
    | some (r, p) => match r.kind with
      | .atom _ _ => s.lineMeets r p false
      | _ => []
    | none => []
  | .bumpApply req => match s.piece? req 0 with
    | some (r, p) => if r.kind = .bump then s.askMeets r p else []
    | none => []
  | .outlierListRequest req => match s.piece? req 0 with
    | some (r, p) => if r.kind = .olist then s.askMeets r p else []
    | none => []
  | .pseudoChannelRead req k => match s.piece? req k with
    | some (r, p) => match p.window with
      | some w => if r.kind = .load ∧ s.ripe r p = true then s.statMeets r w p else []
      | none => []
    | none => []
  | .tileWordCompletion op => match s.op? op with
    | some o => match s.team? o.team with
      | some t =>
        if s.tileReady o t = true ∧ o.kind = .mstore ∧ ovfOf (o.snap.getD 0 0) = 2 ∧ s.storesOutlier t o = true then
          match s.engineAt t (olistVa o.snap) 3 with
          | .ok (pa, _) => atLine pa (s.portSource t.part t.core (homeDie pa) [])
          | .error _ => []
        else []
      | none => []
    | none => []
  | .signal slot => match s.headOf slot 4 with
    | some (h, _, w) =>
      if tokenOk w then
        match s.tokenAt h.part (plong w 8) 3 with
        | .ok (pa, _) => atLine pa (s.portSource h.part schedCore (homeDie pa) [])
        | .error _ => []
      else []
    | none => []
  | .appendApply req => match s.piece? req 0 with
    | some (r, p) => match r.kind with
      | .append _ => s.lineMeets r p true
      | _ => []
    | none => []
  | .scatterPositionApply op k => match s.op? op with
    | some o => match s.team? o.team with
      | some t => match s.engineAt t (o.posVa k) o.form.rights with
        | .ok (pa, _) =>
          if o.form.op.isSome = true ∧ o.posInTable k = true ∧ s.posReady o t k = true then atLine pa 128 else []
        | .error _ => []
      | none => []
    | none => []
  | .hostAtomicop off _ _ _ _ =>
    atLine (s.aperture off) 133
  | .swatchLanding req => match s.swreq? req with
    | some r => match s.swFind r.handle with
      | some e =>
        if r.stage = 1 ∧ r.op.reads = false ∧ r.module = s.regs.modid ∧ s.swBehind r = false ∧ s.swReleased r e.scope = true then
          s.elementMeets r
        else []
      | none => []
    | none => []
  | .swatchAccessArrival req => match s.swreq? req with
    | some r =>
      if r.stage = 0 ∧ r.op.isAtom = true ∧ r.probe = .none ∧ r.module = s.regs.modid ∧ s.flagRoom r = true ∧ s.swWay r = .go ∧
          s.swCode r = 0 ∧ s.swReady r = true then
        match s.partner r.team r.group r.id with
        | .wait => []
        | .trap _ _ => []
        | _ => s.elementMeets r ++ s.partnerMeets r.team r.group r.id
      else []
    | none => []
  | _ => []

/-- R109: the engine or remote source of what a turn contributes to barriers: 0 the copies, 1 the gathers, 2 the Carder, 3 the array,
4 swatch accesses and deliveries, 5 what the optical ports bring. -/
def Act.contributes (a : Act) : Option Nat :=
  match a with
  | .carder _ => some 2
  | .event i => match i with
    | .copySectorLanding _ _ => some 0
    | .copySectorFault _ _ => some 0
    | .gatherEngineRequest _ _ => some 1
    | .gatherReplyLanding _ => some 1
    | .scatterPositionApply _ _ => some 1
    | .carderReadReturn _ _ => some 2
    | .walkStepLimit _ => some 2
    | .mmaSegment _ => some 3
    | .tileWordCompletion _ => some 3
    | .swatchAccessArrival _ => some 4
    | .swatchLanding _ => some 4
    | .swatchReplyLanding _ => some 4
    | .swatchDeliveryArrival _ _ => some 4
    | .swatchDeliveryLanded _ _ => some 4
    | .classLBlockArrival _ _ _ => some 5
    | .classLTimeout _ => some 5
    | .opticalPortDown _ => some 5
    | _ => none
  | _ => none

/-- The barriers of a team that a turn has changed. -/
def barsMet (u v : Team) (source : Nat) : List Meeting :=
  if u.barriers = v.barriers then []
  else ((List.range u.barriers.length).filter (fun n => decide (u.barrier n ≠ v.barrier n))).map (fun n =>
    ⟨barrierPlace u.id n, dieOf u.core, [0], source, 6⟩)

/-- What a turn meets, from the state before it to the state after. -/
def State.meetings (s t : State) (a : Act) : List Meeting :=
  (match a with
    | .event i => s.atomicMeets i
    | _ => []) ++
  (match a.contributes with
    | some src => s.teams.flatMap (fun u => match t.team? u.id with
      | some v => barsMet u v src
      | none => [])
    | none => [])

/-! ## The rotation -/

/-- How many lines more than one source has met. -/
def Meet.ties (m : Meet) : Nat :=
  ((m.seen.map (fun e => e.1)).dedup.filter (fun l =>
    m.seen.any (fun a => decide (a.1 = l) && m.seen.any (fun b => decide (b.1 = l) && decide (b.2 ≠ a.2))))).length

/-- A place in a cycle: it has moved on by one for every tie of the cycle in which it was last met. -/
def Meet.inCycle (m : Meet) (cycle sources : Nat) : Meet :=
  if m.cycle = cycle + 1 then m else ⟨(m.rot + m.ties) % sources, cycle + 1, []⟩

/-- Where a source stands in the order of a place. -/
def Meet.rank (m : Meet) (source sources : Nat) : Nat := (source + sources - m.rot) % sources

/-- A place as a meeting finds it. -/
def State.meetAt (s : State) (x : Meeting) : Meet := (sget Meet.fresh s.meets x.place).inCycle (s.clk x.die) x.sources

/-- Nothing that comes after it in the order has met at its lines in this cycle. -/
def State.meetsInOrder (s : State) (x : Meeting) : Bool :=
  let m := s.meetAt x
  m.seen.all (fun e => !x.lines.contains e.1 || decide (m.rank e.2 x.sources ≤ m.rank x.source x.sources))

/-- The meeting is remembered for the cycle. -/
def State.meet (s : State) (x : Meeting) : State :=
  let m := s.meetAt x
  { s with meets := sset Meet.fresh s.meets x.place { m with seen := m.seen ++ x.lines.map (fun l => (l, x.source)) } }

/-- R100, R109: what a turn does, in the rotating orders: one that comes after its place in an order waits for the next cycle. -/
def State.rotating (s : State) (a : Act) (f : State → Host.Outcome State Fault Refusal) : Host.Outcome State Fault Refusal :=
  match f s with
  | .next t =>
    let l := s.meetings t a
    if l.all s.meetsInOrder then .next (l.foldl State.meet t)
    else
      let s1 := s.passes ((l.map (fun x => s.nextCycle x.die)).foldl max 0 - s.ps)
      match f s1 with
      | .next u => .next ((s1.meetings u a).foldl State.meet u)
      | .fault e => .fault e
      | .refused e => .refused e
  | .fault e => .fault e
  | .refused e => .refused e

end Sys2Proof.Machine
end

