-- ==== Sys2Proof/Machine/Step.lean ====
section
/-! DEFINITION. One step: the agenda's next turn. Time passes, and then a scheduler, a sequencer or a Carder issues, or an
event happens; and how a word is laid where the next step fetches it. -/

namespace Sys2Proof.Machine

open Sys2Proof

/-- A unit whose turn in this cycle has gone by waits for the next. -/
def State.awaits (s : State) (a : Act) : State := if s.inTurn a then s else s.passes (s.nextCycle a.die - s.ps)

/-- The next turn, and the agenda after it; with nothing on the agenda a cycle passes (log entry 7). -/
def State.turn (s : State) : State :=
  match s.agenda with
  | [] => s.passes 625
  | e :: rest => (State.passes { s with agenda := rest } e.ps).awaits e.act

/-- What the turn does. -/
def State.act (s : State) : Option Act := s.agenda.head?.map (fun e => e.act)

/-- The issuing unit has done. -/
def closed (r : Host.Outcome State Fault Refusal) : Host.Outcome State Fault Refusal :=
  match r with
  | .next t => .next { t with cur := Cur.none, held := false }
  | .fault f => .fault f
  | .refused x => .refused x

/-- A quadrant's scheduler issues: one instruction, the words of a chain, or nothing. -/
def runPlan (p : Plan) : Host.Outcome State Fault Refusal :=
  match p with
  | .done s => closed (.next s)
  | .word s i => closed (exec i s)
  | .chain s c l => closed (.next (s.runChain c l))

/-- An event happens. -/
def State.happens (s : State) : State := { s with eventPs := s.ps + 1 }

/-- What an event does, in the state before it; one that is held on its way at an edge, at a port or where routes are swapped (R346,
R350, R351) does nothing yet, and comes back in a later cycle (log entry 134). -/
def heldBack (s : State) (i : Instr) (r : Host.Outcome State Fault Refusal) : Host.Outcome State Fault Refusal :=
  match r with
  | .next t => closed (.next (if t.held then { s with agenda := s.agenda ++ [⟨625, .event i⟩] } else t))
  | .fault f => .fault f
  | .refused x => .refused x

/-- What happens when it is a unit's or an event's turn; without power only the power can come on (R374). -/
def perform (a : Act) (s : State) : Host.Outcome State Fault Refusal :=
  if s.powered = false ∧ a ≠ .event .powerOn then .next s
  else match a with
  | .issue core quad => runPlan (s.planIssue core quad)
  | .seq core => closed (.next (s.runStreams (s.streams core)))
  | .carder cluster => closed (s.rotating (.carder cluster) (fun s => .next (s.runCarders cluster)))
  | .event i => heldBack s i (s.rotating (.event i) (fun s => exec i s.happens))
  | .alarm source die part => closed (.next (s.alarm source die part))

/-- What the turn leaves: the sets of `regang` that it has completed are evaluated (R73, R221), and a `twait` that it leaves waiting
at a due timer match ends (R33). -/
def settled (r : Host.Outcome State Fault Refusal) : Host.Outcome State Fault Refusal :=
  match r with
  | .next t => .next t.regangs.endTwaits
  | .fault f => .fault f
  | .refused x => .refused x

/-- One step of the machine. -/
def step (s : State) : Host.Outcome State Fault Refusal :=
  match s.act with
  | none => .next s.turn
  | some a => settled (perform a s.turn)

/-- The state with a word of the opcode table laid where the next step fetches it, in the instruction set that
`decodeTableWord` reads it in (log entries 5 and 6). -/
def State.withFetchWord (s : State) (nbits w : Nat) : State :=
  let v := wordOfBytes (bytesOfWord w)
  if nbits ≠ 32 then s
  else match wordSet v with
    | .main => s.loadMain v
    | .stream => s.loadStream v
    | .carder => s.loadCarder v

end Sys2Proof.Machine
end

