-- ==== Sys2Proof/Safety.lean ====
section
/-! DEFINITION. What counts as a safe run: the forms that every reachable state keeps, and what it is for a run to go on. -/

namespace Sys2Proof.Machine

open Sys2Proof

/-- The tables of the state stand in their canonical form: equal memories, Palettes and registers are equal data. -/
def State.canonical (s : State) : Bool :=
  Memory.wf s.mem && swf Elem.blank s.pal && swf false s.poison && swf 0 s.tags

/-- No unit is issuing: the form in which a step begins. -/
def State.atRest (s : State) : Bool := decide (s.cur = Cur.none)

/-- A step of a safe run answers a next state, in which the tables stand in their canonical form. -/
def SafeStep (s : State) : Prop := ∃ t, step s = .next t ∧ t.canonical = true

/-- A run of `n` steps that neither faults nor refuses. -/
def SafeRun : Nat → State → Prop
  | 0, s => s.canonical = true
  | n + 1, s => s.canonical = true ∧ ∃ t, step s = .next t ∧ SafeRun n t

/-! ## The integer functions in the words of R213 -/

namespace Spec

def add (x y : Word) : Word := BitVec.ofNat 32 (x.toNat + y.toNat)
def sub (x y : Word) : Word := BitVec.ofInt 32 ((x.toNat : Int) - y.toNat)
def mul (x y : Word) : Word := BitVec.ofNat 32 (x.toNat * y.toNat)
def mulhiN (x y : Word) : Word := BitVec.ofNat 32 (x.toNat * y.toNat / 2 ^ 32)
def mulhiS (x y : Word) : Word := BitVec.ofInt 32 (x.toInt * y.toInt / 2 ^ 32)
def shl (x y : Word) : Word := BitVec.ofNat 32 (x.toNat * 2 ^ (y.toNat % 32))
def shrN (x y : Word) : Word := BitVec.ofNat 32 (x.toNat / 2 ^ (y.toNat % 32))
def shrS (x y : Word) : Word := BitVec.ofInt 32 (x.toInt / 2 ^ (y.toNat % 32))
def minN (x y : Word) : Word := BitVec.ofNat 32 (min x.toNat y.toNat)
def minS (x y : Word) : Word := BitVec.ofInt 32 (min x.toInt y.toInt)
def maxN (x y : Word) : Word := BitVec.ofNat 32 (max x.toNat y.toNat)
def maxS (x y : Word) : Word := BitVec.ofInt 32 (max x.toInt y.toInt)
/-- R238: the exact signed sum, clamped. -/
def addsat (x y : Word) : Word :=
  if 2 ^ 31 ≤ x.toInt + y.toInt then 0x7FFFFFFF#32
  else if x.toInt + y.toInt < -(2 ^ 31) then 0x80000000#32
  else BitVec.ofInt 32 (x.toInt + y.toInt)

/-- The 64-bit forms, on the values of pairs. -/
def add64 (x y : Nat) : Nat := (x + y) % 2 ^ 64
def sub64 (x y : Nat) : Nat := (x + (2 ^ 64 - y % 2 ^ 64)) % 2 ^ 64
def mul64 (x y : Nat) : Nat := x * y % 2 ^ 64
def shl64 (x y : Nat) : Nat := x * 2 ^ (y % 64) % 2 ^ 64
def shrN64 (x y : Nat) : Nat := x / 2 ^ (y % 64)
def shrS64 (x y : Nat) : Nat := wrap 64 (sext 64 x / 2 ^ (y % 64))

/-- An immediate: a literal as it stands, or a field of `n` bits, sign-extended or zero-extended (R214, R239). -/
def imm (n : Nat) (signed : Bool) (i : Imm) : Word :=
  match i with
  | .lit w => BitVec.ofNat 32 w
  | .short v => if signed then BitVec.ofInt 32 (sext n v) else BitVec.ofNat 32 v

/-- An immediate of a 64-bit form: its 32 bits sign-extended (R214). -/
def imm64 (i : Imm) : Nat := wrap 64 (imm 11 true i).toInt

end Spec

/-! ## When a word may have its effect -/

/-- `c` is what the issuing main-stream word reads from, outside a chain, and no trap of its group awaits its entry. -/
def State.issues (s : State) (c : Ctx) : Prop :=
  s.ctx? = some c ∧ s.cur.chain = false ∧ s.cur.pre = none ∧ c.g.trapping = none

/-- An element that reads as it was written: its check bits are sound (R365) and it is valid (R42). -/
def Elem.good (e : Elem) : Bool := decide (e.ecc = .sound) && e.valid

/-- The place may be read: its scalar, or its element in every live active lane, is good. -/
def Ctx.readable (c : Ctx) (p : Loc) : Bool :=
  match p with
  | .s n => (c.elem (.s n) 0).good
  | q => c.lanes.all (fun l => (c.elem q l).good)

/-- Nothing on its way fills the place (R54). -/
def Ctx.settled (c : Ctx) (s : State) (p : Loc) : Bool :=
  match p with
  | .v n => c.lanes.isEmpty || !s.rowPending c.t.id c.g.num n
  | .s n => !s.scalPending c.t.id c.g.num n
  | .w _ => true

/-- No lock stands in the way of the use: a destination lock of a read, either lock of a write (R56). -/
def Ctx.unlocked (c : Ctx) (s : State) (u : Use) : Bool :=
  match u.loc with
  | .s _ => true
  | q => c.lanes.isEmpty || ((!(u.rd || u.wr) || !s.destLocked c.t.core (c.rowOf q)) && (!u.wr || !s.srcLocked c.t.core (c.rowOf q)))

/-- Every operand lies inside the allocation, is readable where it is read, settled and unlocked. -/
def Ctx.ready (c : Ctx) (s : State) (us : List Use) : Bool :=
  us.all (fun u => c.inRange u.loc && (!u.rd || c.readable u.loc) && c.settled s u.loc && c.unlocked s u)

/-- An element that a lane reaches by an index may be read, or with `wr` written: R42, R54, R56. -/
def Ctx.reachable (c : Ctx) (s : State) (wr : Bool) (t : Touch) : Bool :=
  (wr || (c.touched t).good) && (match t.loc with
    | .v n => !s.rowPending c.t.id c.g.num n
    | _ => true) && !s.destLocked c.t.core (c.rowOf t.loc) && (!wr || !s.srcLocked c.t.core (c.rowOf t.loc))

/-- The address of `i` packets is that of code that has been fetched and begins with a clause header (R217). -/
def Ctx.canEnter (c : Ctx) (s : State) (p : Int) : Bool :=
  decide (0 ≤ p) && decide (p < 2 ^ 30) && (match s.codeItem (dieOf c.t.core) c.t.part c.t.kernel.desc (c.t.packetVa p.toNat) 12 with
    | some i => decide (fld (i.word 0) 26 5 = 31)
    | none => false)

/-- In protected mode both lanes of every live active pair hold the same (R369). -/
def Ctx.agrees {α : Type} [DecidableEq α] (c : Ctx) (f : Nat → α) : Bool :=
  !c.t.prot || c.lanes.all (fun l => !c.lanes.contains (l ^^^ 1) || decide (f l = f (l ^^^ 1)))

/-- The flag that FS selects exists and its counter can rise (R59, R174). -/
def Ctx.flagFree (c : Ctx) (fs : Nat) : Bool :=
  match c.flagOf fs with
  | none => true
  | some f => decide (f < 12) && decide (c.g.flags.getD f 0 < 63)

/-- A translation at hand, or a bound window, serves `z` bytes at an address for some rights (R144, R330), in host memory only
with `host` (R296). -/
def Ctx.served (c : Ctx) (s : State) (host : Bool) (z rights va : Nat) : Bool :=
  match c.locate s va z rights with
  | .at_ pa _ => host || !isHost pa
  | .window _ => true
  | _ => false

/-- Every access is aligned, meets no lock of its team, and is served; and no route is being swapped (R78, R56, R350). -/
def Ctx.reaches (c : Ctx) (s : State) (wr host : Bool) (z rights : Nat) (l : List Access) : Bool :=
  l.all (fun a => decide (a.va % z = 0) && decide (s.memLockSub c.t.id a.va z wr = 0) && c.served s host z rights a.va) &&
    decide ((s.die (dieOf c.t.core)).rtbusy ≠ some c.t.part)

/-- The core has the tags for some pieces, one for each 64-byte sector (R2). -/
def Ctx.tagged (c : Ctx) (s : State) (ps : List Piece) : Bool :=
  decide (s.tagsTaken c.t.core + (sectorsOf ps).length ≤ Config.requestTags)

/-- Each access with the place that serves it. -/
def Ctx.places (c : Ctx) (s : State) (z rights : Nat) (l : List Access) : List (Access × Where) :=
  l.map (fun a => (a, c.locate s a.va z rights))

/-- The four elements of a barrier are sound (R361, R365). -/
def Ctx.soundBarrier (c : Ctx) (s : State) (n : Nat) : Bool :=
  (List.range 4).all (fun j => decide ((palGet s.pal c.t.core (c.t.barRow n) (4 * (n % 8) + j)).ecc = .sound))

/-- What a change of a sound barrier leaves: the barrier changed, and with a new phase the locks that were held for it released
(R55, R109). -/
def State.barrierTo (s : State) (t : Team) (n : Nat) (f : Barrier → Barrier) : State :=
  let u := s.modTeam t.id (fun t => { t with barriers := t.barriers.modify n f })
  if (f (t.barrier n)).phase = (t.barrier n).phase then u
  else { u with locks := u.locks.filter (fun l => !(decide (l.team = t.id) && decide (l.held = some n))) }

/-- A range of rows lies inside its rows, holds no pending row, and meets no lock (R104, R136, R150). -/
def RowRange.clear (r : RowRange) (s : State) (t : Team) : Bool :=
  (r.chkBound t).isNone && (r.chkPend s t).isNone && (r.chkLock s t).isNone

/-- `c` is the issuing matrix stream and its team. -/
def State.runsStream (s : State) (c : SCtx) : Prop := s.sctx? = some c

/-- Barrier `n` of the stream's team is declared and its four elements are sound. -/
def SCtx.soundBarrier (c : SCtx) (s : State) (n : Nat) : Bool :=
  decide (n < c.t.kernel.bars) &&
    (List.range 4).all (fun j => decide ((palGet s.pal c.t.core (c.t.barRow n) (4 * (n % 8) + j)).ecc = .sound))

/-- The scalars of the stream are valid. -/
def SCtx.holds (c : SCtx) (l : List Nat) : Bool := l.all (fun n => c.st.valid n)

/-- No lock meets those of a new long word, no row of its is pending, and there is room for it (R117, R276). -/
def SCtx.passes (c : SCtx) (s : State) (rows : List CRange) (locks : List Lock) : Bool :=
  !s.locks.any (fun l => locks.any (fun m => m.conflicts l)) && !locks.any (fun l => s.shadowLock l) &&
    decide (s.longCount c.t.id < 4) && s.lockRoom c.t.core locks.length &&
    rows.all (fun r => (List.range r.n).all (fun i => (List.range 4).all (fun q => match c.t.cgroup q with
      | some g => !s.rowPending c.t.id g.num (r.lo + i)
      | none => true)))

/-- Every range of rows lies inside the frame of each of the four C groups (R276). -/
def SCtx.covers (c : SCtx) (l : List CRange) : Bool :=
  l.all (fun r => (List.range 4).all (fun q => decide (r.lo + r.n ≤ ((c.t.cgroup q).map (fun g => g.vrows)).getD 0)))

/-- `k` is the issuing Carder walk, its operation and its team, and the walk does not wait before the word (R291, R147). -/
def State.runsCarder (s : State) (k : KCtx) (o : CarderOp) : Prop := s.kctx? = some k ∧ s.walkWaits k.w o = false

/-! ## What a word leaves alone -/

/-! ## Operands that trap -/

/-- The lanes that lack a place a word reads: every live active lane for a scalar that is not valid, for a row those whose element
is not valid (R42). -/
def Ctx.lacks (c : Ctx) (p : Loc) : List Nat :=
  match p with
  | .s n => if (c.elem (.s n) 0).valid then [] else [32]
  | q => c.invalid q

def Ctx.lackMask (c : Ctx) (p : Loc) : Nat :=
  match p with
  | .s _ => c.mask
  | q => lanesMask (c.invalid q)

/-- R56: the subcode of the lock that a use of a row meets, 0 for none: 1 a read under a destination lock, 2 a write under one, 3 a
write under a source lock. -/
def Ctx.lockSub (c : Ctx) (s : State) (u : Use) : Nat :=
  match u.loc with
  | .s _ => 0
  | q =>
    if c.lanes.isEmpty then 0
    else if s.destLocked c.t.core (c.rowOf q) then (if u.rd then 1 else if u.wr then 2 else 0)
    else if u.wr && s.srcLocked c.t.core (c.rowOf q) then 3 else 0

/-- R235, R256: of a word that uses the places `us`, the first reason to trap: BOUND before UNINIT before PEND before LOCK, and of one
kind the place that stands first in `us` (the lowest operand position: the model's choice, log entry 121). TRAPINFO is R43's. -/
def Ctx.offends (c : Ctx) (s : State) (us : List Use) (code info : Nat) : Prop :=
  ∃ l u r sub lanes, us = l ++ u :: r ∧ info = info43 u.loc.space u.opnd sub u.loc.num lanes ∧
    ((code = 7 ∧ sub = 3 ∧ lanes = c.mask ∧ (∀ v ∈ l, c.inRange v.loc = true) ∧ c.inRange u.loc = false) ∨
     ((∀ v ∈ us, c.inRange v.loc = true) ∧
      ((code = 4 ∧ sub = 0 ∧ lanes = c.lackMask u.loc ∧ (∀ v ∈ l, v.rd = true → c.lacks v.loc = []) ∧ u.rd = true ∧
          c.lacks u.loc ≠ []) ∨
       ((∀ v ∈ us, v.rd = true → c.lacks v.loc = []) ∧
        ((code = 5 ∧ sub = 1 ∧ lanes = c.mask ∧ (∀ v ∈ l, c.settled s v.loc = true) ∧ c.settled s u.loc = false) ∨
         ((∀ v ∈ us, c.settled s v.loc = true) ∧ code = 6 ∧ sub = c.lockSub s u ∧ lanes = c.mask ∧
          (∀ v ∈ l, c.lockSub s v = 0) ∧ c.lockSub s u ≠ 0))))))

/-- The key of an element in the Palette's table, or of the element that mirrors it (R366). -/
def State.ownKey (s : State) (core row lane k : Nat) : Prop :=
  k = palKey core row lane ∨ ∃ m, (s.core core).mirrorOf row = some m ∧ k = palKey core m lane

/-- The keys of a scalar, and of a row's elements in the live active lanes. -/
def Ctx.scalKey (c : Ctx) (s : State) (d k : Nat) : Prop := s.ownKey c.t.core (c.g.scalRow d) (d % 32) k
def Ctx.rowKey (c : Ctx) (s : State) (d k : Nat) : Prop := ∃ l ∈ c.lanes, s.ownKey c.t.core (c.g.vecRow d) l k

/-- The keys of a pair of scalars, of the destination of a reduction, and of the elements that a `vput` or an `xwrite` reaches. -/
def Ctx.pairKey (c : Ctx) (s : State) (d k : Nat) : Prop := c.scalKey s d k ∨ c.scalKey s (d + 1) k
def Ctx.redKey (c : Ctx) (s : State) (bs d k : Nat) : Prop := if bs = 1 then c.rowKey s d k else c.scalKey s d k
def Ctx.touchKey (c : Ctx) (s : State) (ts : List Touch) (k : Nat) : Prop := ∃ x ∈ ts, s.ownKey c.t.core (c.rowOf x.loc) x.el k

/-- From `s` to `t` the word of `c` changes only the elements under `keys`, the predicates `preds` of its group, the program
counters of its slices and its candidate: no other element, group, team or field of the state, and no byte of memory. -/
def WordFrame (s t : State) (c : Ctx) (keys : Nat → Prop) (preds : Nat → Nat → Prop) : Prop :=
  t = { s with pal := t.pal, teams := t.teams } ∧ (∀ tag a, t.readByte tag a = s.readByte tag a) ∧
  (∀ k, keys k ∨ sget Elem.blank t.pal k = sget Elem.blank s.pal k) ∧ (∀ n, n ≠ c.t.id → t.team? n = s.team? n) ∧
  ∃ u h, t.team? c.t.id = some u ∧ u = { c.t with groups := u.groups } ∧
    (∀ m, m ≠ c.g.num → u.group? m = c.t.group? m) ∧ u.group? c.g.num = some h ∧
    h = { c.g with preds := h.preds, slices := h.slices, cands := h.cands } ∧
    (∀ p l, preds p l ∨ h.pred p l = c.g.pred p l) ∧ (∀ i, i ∉ c.sl → h.slice i = c.g.slice i) ∧
    ∀ i, h.slice i = { c.g.slice i with pc := (h.slice i).pc }

/-- From `s` to `u` the word of `c` only sends requests: they are added to those in flight, flags of its group rise, its slices and
candidate move on, and nothing else changes: no element of a Palette, and no byte of memory. -/
def SendFrame (s u : State) (c : Ctx) : Prop :=
  u = { s with teams := u.teams, reqs := u.reqs, nextId := u.nextId } ∧ (∀ tag a, u.readByte tag a = s.readByte tag a) ∧
  (∀ r ∈ s.reqs, r ∈ u.reqs) ∧ (∀ n, n ≠ c.t.id → u.team? n = s.team? n) ∧
  ∃ v h, u.team? c.t.id = some v ∧ v = { c.t with groups := v.groups } ∧
    (∀ m, m ≠ c.g.num → v.group? m = c.t.group? m) ∧ v.group? c.g.num = some h ∧
    h = { c.g with slices := h.slices, cands := h.cands, flags := h.flags }

/-! ## Traps of operands -/

/-- What a word leaves that traps: the trap is raised at the word, and entered if nothing holds it back (R310). -/
def State.trapped (s : State) (c : Ctx) (code info : Nat) : State :=
  (s.raise c.t.id c.g.num ⟨code, info, c.pc, c.sl⟩).tryEnter c.t.id c.g.num

/-- The check bits of a place are sound wherever a word of `c` reads it (R365). -/
def Ctx.sound (c : Ctx) (p : Loc) : Bool :=
  !c.inRange p || (match p with
    | .s n => decide ((c.elem (.s n) 0).ecc = .sound)
    | q => c.lanes.all (fun l => decide ((c.elem q l).ecc = .sound)))

/-- R78, R56, R256, R258, R259: the traps of the addresses `va` of a word whose operands are ready: ALIGN at the lowest live active
lane that is not aligned; else the lock of the lowest lane that meets one, with all the lanes that do; else, with every translation
at hand, XLATE at the lowest lane whose translation fails otherwise than for a right, else PERM at the lowest that lacks it; a
failure that no walk has recorded yet is recorded. -/
def AddressTraps (s : State) (c : Ctx) (e : Instr) (wr : Bool) (z rights : Nat) (va : Nat → Nat) : Prop :=
  (∀ l, c.lanes.find? (fun l => decide (va l % z ≠ 0)) = some l →
    exec e s = .next (s.trapped c 14 (info258 wr l (va l)))) ∧
  ((∀ l ∈ c.lanes, va l % z = 0) →
    (∀ l m, c.lanes.filter (fun l => decide (s.memLockSub c.t.id (va l) z wr ≠ 0)) = l :: m →
      exec e s = .next (s.trapped c 6 (info43 0 0 (s.memLockSub c.t.id (va l) z wr) 0 (lanesMask (l :: m))))) ∧
    ((∀ l ∈ c.lanes, s.memLockSub c.t.id (va l) z wr = 0 ∧ ∀ n, c.locate s (va l) z rights ≠ .miss n) →
      ∀ l cause level fresh code, c.locate s (va l) z rights = .fail cause level fresh → code = (if cause = 3 then 15 else 13) →
      (∃ a b, c.lanes = a ++ l :: b ∧ ∀ m ∈ a, ∀ x y w, c.locate s (va m) z rights = .fail x y w → cause ≠ 3 ∧ x = 3) →
      (cause = 3 → ∀ m ∈ c.lanes, ∀ x y w, c.locate s (va m) z rights = .fail x y w → x = 3) →
      exec e s = .next (State.trapped (if fresh then s.writeFault c.t.part c.t.core c.t.queue c.g.tick ⟨va l, cause, level, 0, wr⟩
        else s) c code (info258 wr l (va l)))))

end Sys2Proof.Machine
end

