-- ==== Sys2Proof/Certificates/Slice0/Obligations.lean ====
section
/-! DEFINITION. The statements for the provers. The hypotheses on a main-stream word are those of `Sys2Proof.Machine.State.issues`
and `Ctx.ready`: it is being issued outside a chain, and its operands lie in the allocation and are valid, sound, settled and
unlocked. -/

open Sys2Proof Sys2Proof.Machine

/-! ## Scalar words -/

/-- R213: the register forms write the function of the table to D (or the pair), and the next word follows. -/
def Obligations.ScalarResults : Prop :=
  ∀ (s : State) (c : Ctx) (k : Bool) (d b : Nat), s.issues c →
    (c.ready s [rdS b 1, rwS d] = true →
      ∀ e ∈ ([(Instr.sAddN32 k d b, Spec.add), (Instr.sSubN32 k d b, Spec.sub), (Instr.sMulN32 k d b, Spec.mul),
        (Instr.sMulhiN32 k d b, Spec.mulhiN), (Instr.sMulhiS32 k d b, Spec.mulhiS), (Instr.sAndB32 k d b, fun x y => x &&& y),
        (Instr.sOrB32 k d b, fun x y => x ||| y), (Instr.sXorB32 k d b, fun x y => x ^^^ y), (Instr.sShlB32 k d b, Spec.shl),
        (Instr.sShrN32 k d b, Spec.shrN), (Instr.sShrS32 k d b, Spec.shrS), (Instr.sMinN32 k d b, Spec.minN),
        (Instr.sMinS32 k d b, Spec.minS), (Instr.sMaxN32 k d b, Spec.maxN), (Instr.sMaxS32 k d b, Spec.maxS)] :
          List (Instr × (Word → Word → Word))),
        exec e.1 s = .next ((s.putScal c d (e.2 (c.scal d) (c.scal b))).adv c 1)) ∧
    (c.ready s [rdS b 1, wrS d] = true →
      exec (.sMovB32 k d b) s = .next ((s.putScal c d (c.scal b)).adv c 1) ∧
      exec (.sNotB32 k d b) s = .next ((s.putScal c d (~~~ c.scal b)).adv c 1)) ∧
    (c.ready s [rdS b 1, rdS (b + 1) 1, wrS d, wrS (d + 1)] = true →
      exec (.sMovB64 k d b) s = .next ((s.putPair c d (c.pair b)).adv c 1)) ∧
    (c.ready s [rdS b 1, rdS (b + 1) 1, rwS d, rwS (d + 1)] = true →
      ∀ e ∈ ([(Instr.sAddN64 k d b, Spec.add64), (Instr.sSubN64 k d b, Spec.sub64), (Instr.sMulN64 k d b, Spec.mul64),
        (Instr.sAndB64 k d b, fun x y => x &&& y), (Instr.sOrB64 k d b, fun x y => x ||| y),
        (Instr.sXorB64 k d b, fun x y => x ^^^ y)] : List (Instr × (Nat → Nat → Nat))),
        exec e.1 s = .next ((s.putPair c d (e.2 (c.pair d) (c.pair b))).adv c 1)) ∧
    (c.ready s [rdS b 1, rwS d, rwS (d + 1)] = true →
      ∀ e ∈ ([(Instr.sShlB64 k d b, Spec.shl64), (Instr.sShrN64 k d b, Spec.shrN64), (Instr.sShrS64 k d b, Spec.shrS64)] :
          List (Instr × (Nat → Nat → Nat))),
        exec e.1 s = .next ((s.putPair c d (e.2 (c.pair d) (c.scal b).toNat)).adv c 1))

/-- R214: the immediate forms act as the register forms with the immediate in place of y; a literal takes the next slot. -/
def Obligations.ScalarImmediateResults : Prop :=
  ∀ (s : State) (c : Ctx) (k : Bool) (d : Nat) (i : Imm), s.issues c →
    (c.ready s [rwS d] = true →
      ∀ e ∈ ([(Instr.siAddN32 k d i, true, Spec.add), (Instr.siMulN32 k d i, true, Spec.mul),
        (Instr.siAndB32 k d i, false, fun x y => x &&& y), (Instr.siOrB32 k d i, false, fun x y => x ||| y),
        (Instr.siXorB32 k d i, false, fun x y => x ^^^ y), (Instr.siShlB32 k d i, false, Spec.shl),
        (Instr.siShrN32 k d i, false, Spec.shrN), (Instr.siShrS32 k d i, false, Spec.shrS)] :
          List (Instr × Bool × (Word → Word → Word))),
        exec e.1 s = .next ((s.putScal c d (e.2.2 (c.scal d) (Spec.imm 11 e.2.1 i))).adv c (immSlots i))) ∧
    (c.ready s [wrS d] = true →
      exec (.siMovB32 k d i) s = .next ((s.putScal c d (Spec.imm 11 true i)).adv c (immSlots i))) ∧
    (c.ready s [wrS d, wrS (d + 1)] = true →
      exec (.siMovB64 k d i) s = .next ((s.putPair c d (Spec.imm64 i)).adv c (immSlots i))) ∧
    (c.ready s [rwS d, rwS (d + 1)] = true →
      exec (.siAddN64 k d i) s = .next ((s.putPair c d (Spec.add64 (c.pair d) (Spec.imm64 i))).adv c (immSlots i)))

/-! ## Vector words -/

/-- R238, R239: in every live active lane, the function of R213 of A and B, of A and a scalar, or of A and an immediate. -/
def Obligations.VectorIntegerResults : Prop :=
  ∀ (s : State) (c : Ctx) (k : Bool) (d a bs b : Nat) (i : Imm), s.issues c →
    (c.ready s [rdV a 0, rdB bs b, wrV d] = true →
      ∀ e ∈ ([(Instr.vAddN32 k d a bs b, Spec.add), (Instr.vSubN32 k d a bs b, Spec.sub), (Instr.vMulN32 k d a bs b, Spec.mul),
        (Instr.vMulhiN32 k d a bs b, Spec.mulhiN), (Instr.vMulhiS32 k d a bs b, Spec.mulhiS),
        (Instr.vAndB32 k d a bs b, fun x y => x &&& y), (Instr.vOrB32 k d a bs b, fun x y => x ||| y),
        (Instr.vXorB32 k d a bs b, fun x y => x ^^^ y), (Instr.vShlB32 k d a bs b, Spec.shl), (Instr.vShrN32 k d a bs b, Spec.shrN),
        (Instr.vShrS32 k d a bs b, Spec.shrS), (Instr.vMinN32 k d a bs b, Spec.minN), (Instr.vMinS32 k d a bs b, Spec.minS),
        (Instr.vMaxN32 k d a bs b, Spec.maxN), (Instr.vMaxS32 k d a bs b, Spec.maxS), (Instr.vAddsatS32 k d a bs b, Spec.addsat)] :
          List (Instr × (Word → Word → Word))),
        exec e.1 s = .next ((s.putRow c d (fun l => e.2 (c.vec a l) (if bs = 1 then c.scal b else c.vec b l))).adv c 1)) ∧
    (c.ready s [rdV a 0, wrV d] = true →
      ∀ e ∈ ([(Instr.viAddN32 k d a i, true, Spec.add), (Instr.viSubN32 k d a i, true, Spec.sub),
        (Instr.viMulN32 k d a i, true, Spec.mul), (Instr.viMulhiN32 k d a i, false, Spec.mulhiN),
        (Instr.viMulhiS32 k d a i, true, Spec.mulhiS), (Instr.viAndB32 k d a i, false, fun x y => x &&& y),
        (Instr.viOrB32 k d a i, false, fun x y => x ||| y), (Instr.viXorB32 k d a i, false, fun x y => x ^^^ y),
        (Instr.viShlB32 k d a i, false, Spec.shl), (Instr.viShrN32 k d a i, false, Spec.shrN),
        (Instr.viShrS32 k d a i, false, Spec.shrS), (Instr.viMinN32 k d a i, false, Spec.minN),
        (Instr.viMinS32 k d a i, true, Spec.minS), (Instr.viMaxN32 k d a i, false, Spec.maxN),
        (Instr.viMaxS32 k d a i, true, Spec.maxS)] : List (Instr × Bool × (Word → Word → Word))),
        exec e.1 s = .next ((s.putRow c d (fun l => e.2.2 (c.vec a l) (Spec.imm 7 e.2.1 i))).adv c (immSlots i)))

/-- R240 to R242: the floating words compute each lane (or each half of it) exactly, round it once under MODE and write D. R247: a transcendental word writes its function of A, under MODE's FLUSH only, to every live active lane of D. -/
def Obligations.FloatResults : Prop :=
  (∀ (s : State) (c : Ctx) (k : Bool) (d a bs b : Nat), s.issues c →
     (c.ready s [rdV a 0, rdB bs b, wrV d] = true →
       ∀ e ∈ ([(Instr.faddF32 k d a bs b, word2 (fp32.fadd c.g.mode)), (Instr.fsubF32 k d a bs b, word2 (fp32.fsub c.g.mode)),
         (Instr.fmulF32 k d a bs b, word2 (fp32.fmul c.g.mode)), (Instr.fminF32 k d a bs b, word2 (fp32.minmax false c.g.mode)),
         (Instr.fmaxF32 k d a bs b, word2 (fp32.minmax true c.g.mode)),
         (Instr.fcpsgnF32 k d a bs b, fun x y => (x &&& 0x7FFFFFFF#32) ||| (y &&& 0x80000000#32)),
         (Instr.faddF16 k d a bs b, halves2 (fp16.fadd c.g.mode)), (Instr.fsubF16 k d a bs b, halves2 (fp16.fsub c.g.mode)),
         (Instr.fmulF16 k d a bs b, halves2 (fp16.fmul c.g.mode)), (Instr.fminF16 k d a bs b, halves2 (fp16.minmax false c.g.mode)),
         (Instr.fmaxF16 k d a bs b, halves2 (fp16.minmax true c.g.mode)), (Instr.faddBf16 k d a bs b, halves2 (bf16.fadd c.g.mode)),
         (Instr.fsubBf16 k d a bs b, halves2 (bf16.fsub c.g.mode)), (Instr.fmulBf16 k d a bs b, halves2 (bf16.fmul c.g.mode)),
         (Instr.fminBf16 k d a bs b, halves2 (bf16.minmax false c.g.mode)),
         (Instr.fmaxBf16 k d a bs b, halves2 (bf16.minmax true c.g.mode))] : List (Instr × (Word → Word → Word))),
         exec e.1 s = .next ((s.putRow c d (fun l => e.2 (c.vec a l) (if bs = 1 then c.scal b else c.vec b l))).adv c 1)) ∧
     (c.ready s [rdV a 0, rdB bs b, ⟨.v d, 2, true, true⟩] = true →
       ∀ e ∈ ([(Instr.fmaF32 k d a bs b, word3 (fp32.fma false c.g.mode)), (Instr.fnmaF32 k d a bs b, word3 (fp32.fma true c.g.mode)),
         (Instr.fmaF16 k d a bs b, halves3 (fp16.fma false c.g.mode)), (Instr.fmaBf16 k d a bs b, halves3 (bf16.fma false c.g.mode))] :
           List (Instr × (Word → Word → Word → Word))),
         exec e.1 s = .next ((s.putRow c d (fun l => e.2 (c.vec a l) (if bs = 1 then c.scal b else c.vec b l) (c.vec d l))).adv c 1)) ∧
     (c.ready s [rdV a 0, wrV d] = true →
       exec (.fabsF32 k d a) s = .next ((s.putRow c d (fun l => c.vec a l &&& 0x7FFFFFFF#32)).adv c 1) ∧
       exec (.fnegF32 k d a) s = .next ((s.putRow c d (fun l => c.vec a l ^^^ 0x80000000#32)).adv c 1))) ∧
  (∀ (s : State) (c : Ctx) (k : Bool) (d a : Nat), s.issues c → c.ready s [rdV a 0, wrV d] = true →
     ∀ e ∈ ([(Instr.rcpF32 k d a, 0), (Instr.rsqrtF32 k d a, 1), (Instr.sqrtF32 k d a, 2), (Instr.exp2F32 k d a, 3),
       (Instr.log2F32 k d a, 4), (Instr.sinpiF32 k d a, 5), (Instr.cospiF32 k d a, 6), (Instr.tanhF32 k d a, 7),
       (Instr.sigmF32 k d a, 8), (Instr.erfF32 k d a, 9)] : List (Instr × Nat)),
       exec e.1 s = .next ((s.putRow c d (fun l => trans e.2 c.g.mode (c.vec a l))).adv c 1))

/-- R243, R244, R251: comparisons, predicate words and votes write one predicate (or D) in the live active lanes only. -/
def Obligations.PredicateResults : Prop :=
  ∀ (s : State) (c : Ctx) (k : Bool) (t p a bs b d : Nat), s.issues c →
    (c.ready s [rdV a 0, rdB bs b] = true →
      ∀ e ∈ ([(Instr.vcmpEq k t p a bs b, 0), (Instr.vcmpNe k t p a bs b, 1), (Instr.vcmpLt k t p a bs b, 2),
        (Instr.vcmpLe k t p a bs b, 3), (Instr.vcmpGt k t p a bs b, 4), (Instr.vcmpGe k t p a bs b, 5)] : List (Instr × Nat)),
        exec e.1 s =
          .next ((s.putPred c p (fun l => cmpTy t e.2 (c.vec a l) (if bs = 1 then c.scal b else c.vec b l))).adv c 1)) ∧
    (∀ e ∈ ([(Instr.pand k d a b, fun x y => x && y), (Instr.por k d a b, fun x y => x || y), (Instr.pxor k d a b, fun x y => x != y),
        (Instr.pnot k d a, fun x _ => !x)] : List (Instr × (Bool → Bool → Bool))),
        exec e.1 s = .next ((s.putPred c d (fun l => e.2 (c.g.pred a l) (c.g.pred b l))).adv c 1)) ∧
    exec (.voteAny k d a) s = .next ((s.putPred c d (fun _ => c.primaries.any (fun l => c.g.pred a l))).adv c 1) ∧
    exec (.voteAll k d a) s = .next ((s.putPred c d (fun _ => c.primaries.all (fun l => c.g.pred a l))).adv c 1) ∧
    (c.ready s [wrS d] = true →
      exec (.ballotB32 k d a) s =
        .next ((s.putScal c d (BitVec.ofNat 32 (lanesMask (c.lanes.filter (fun l => c.g.pred a l))))).adv c 1)) ∧
    (c.ready s [wrV d] = true →
      exec (.pmovB32 k d a) s = .next ((s.putRow c d (fun l => if c.g.pred a l then 1 else 0)).adv c 1)) ∧
    (c.ready s [rdV a 0] = true →
      exec (.ptestB32 k d a) s = .next ((s.putPred c d (fun l => decide (c.vec a l ≠ 0))).adv c 1))

/-! ## Lane exchange and reductions -/

/-- R44, R45, R248: `vget` and `vput`: each lane reaches its own element of the row that its index names. -/
def Obligations.IndexedRowResults : Prop :=
  ∀ (s : State) (c : Ctx) (k : Bool) (d i w j : Nat), s.issues c →
    (∀ l ∈ c.lanes, 0 ≤ c.idxRow i (sext 7 j) l ∧ c.idxRow i (sext 7 j) l < (c.idxLim w : Int)) →
    (c.ready s [rdV i 0, wrV d] = true →
      (∀ l ∈ c.lanes, c.reachable s false ⟨l, idxLoc w (c.idxRow i (sext 7 j) l).toNat, l⟩ = true) →
      exec (.vgetB32 k d i w j) s =
        .next ((s.putRow c d (fun l => (c.elem (idxLoc w (c.idxRow i (sext 7 j) l).toNat) l).val)).adv c 1)) ∧
    (c.ready s [rdV i 0, rdV d 2] = true →
      (∀ l ∈ c.lanes, c.reachable s true ⟨l, idxLoc w (c.idxRow i (sext 7 j) l).toNat, l⟩ = true) →
      exec (.vputB32 k d i w j) s =
        .next ((s.putTouches c (c.lanes.map (fun l => ⟨l, idxLoc w (c.idxRow i (sext 7 j) l).toNat, l⟩)) (c.vec d)).adv c 1))

/-- R249, R363: `xread` and `xwrite` reach lane J[L] of row I[L]; a dead source lane reads 0 and `p6` tells it. -/
def Obligations.CrossLaneResults : Prop :=
  ∀ (s : State) (c : Ctx) (k : Bool) (d i w j : Nat), s.issues c →
    (∀ l ∈ c.lanes, (c.vec i l).toNat < c.idxLim w ∧ (c.vec j l).toNat < (if c.t.prot then 16 else 32)) →
    (c.ready s [rdV i 0, rdV j 1, wrV d] = true →
      (∀ l ∈ c.lanes, c.g.live (c.laneOf j l) = true →
        c.reachable s false ⟨l, idxLoc w (c.vec i l).toNat, c.laneOf j l⟩ = true) →
      exec (.xreadB32 k d i w j) s =
        .next (((s.putRow c d (fun l => if c.g.live (c.laneOf j l) then (c.elem (idxLoc w (c.vec i l).toNat) (c.laneOf j l)).val
          else 0)).putPred c 6 (fun l => !c.g.live (c.laneOf j l))).adv c 1)) ∧
    (c.ready s [rdV i 0, rdV j 1, rdV d 2] = true →
      (∀ l ∈ c.lanes, c.reachable s true ⟨l, idxLoc w (c.vec i l).toNat, c.laneOf j l⟩ = true) →
      c.agrees (fun l => (c.vec i l, c.vec j l)) = true → c.agrees (c.vec d) = true →
      exec (.xwriteB32 k d i w j) s =
        .next ((s.putTouches c (c.lanes.map (fun l => ⟨l, idxLoc w (c.vec i l).toNat, c.laneOf j l⟩)) (c.vec d)).adv c 1))

/-- R250, R363: a shuffle reads lane `src L` of I: the own element beyond the edges, and of a dead lane 0 with `p6` set. -/
def Obligations.ShuffleResults : Prop :=
  ∀ (s : State) (c : Ctx) (k : Bool) (d i j : Nat), s.issues c → c.ready s [⟨.v i, 0, false, false⟩, wrV d] = true →
    ∀ e ∈ ([(Instr.shflIdxB32 k d i j, true, fun l => ((if c.t.prot then 2 * ((c.vec j l).toNat % 16) + l % 2
          else (c.vec j l).toNat % 32 : Nat) : Int)),
        (Instr.shflUpB32 k d i j, false, fun l => (l : Int) - (if c.t.prot then 2 * j else j : Nat)),
        (Instr.shflDownB32 k d i j, false, fun l => (l : Int) + (if c.t.prot then 2 * j else j : Nat)),
        (Instr.shflXorB32 k d i j, false, fun l => ((l ^^^ (if c.t.prot then 2 * j else j) : Nat) : Int))] :
          List (Instr × Bool × (Nat → Int))),
      (e.2.1 = true → c.ready s [rdV j 1] = true ∧ ∀ l ∈ c.lanes, (c.vec j l).toNat < (if c.t.prot then 16 else 32)) →
      (e.2.1 = false → c.t.prot = true → j < 16) →
      (∀ l ∈ c.lanes, (e.2.2 l < 0 ∨ 31 < e.2.2 l) → c.reachable s false ⟨l, .v i, l⟩ = true) →
      (∀ l ∈ c.lanes, ¬ (e.2.2 l < 0 ∨ 31 < e.2.2 l) → c.g.live (e.2.2 l).toNat = true →
        c.reachable s false ⟨l, .v i, (e.2.2 l).toNat⟩ = true) →
      exec e.1 s = .next (((s.putRow c d (fun l => if e.2.2 l < 0 ∨ 31 < e.2.2 l then c.vec i l
        else if c.g.live (e.2.2 l).toNat then c.vec i (e.2.2 l).toNat else 0)).putPred c 6
        (fun l => !decide (e.2.2 l < 0 ∨ 31 < e.2.2 l) && !c.g.live (e.2.2 l).toNat)).adv c 1)

/-- R252: a reduction takes the live active lanes (in protected mode the primaries) through the fixed tree of R200, with the
identity of its operation in every other lane, and writes one scalar, or with BS = 1 every live active lane of D. R253: the loss-masked sums take the lanes whose bit in sM is 1, scale by the lanes over the count, and write the count next
to the result; A is read only in those lanes. -/
def Obligations.ReductionResults : Prop :=
  (∀ (s : State) (c : Ctx) (k : Bool) (d a bs : Nat), s.issues c →
     c.ready s [rdV a 0, if bs = 1 then wrV d else wrS d] = true →
     ∀ e ∈ ([(Instr.vredAddF32 k d a bs, 0x80000000, fp32.fadd c.g.mode), (Instr.vredAddN32 k d a bs, 0, fun x y => (x + y) % 2 ^ 32),
         (Instr.vredMinF32 k d a bs, 0x7F800000, fp32.minmax false c.g.mode),
         (Instr.vredMaxF32 k d a bs, 0xFF800000, fp32.minmax true c.g.mode),
         (Instr.vredMinS32 k d a bs, 0x7FFFFFFF, fun x y => if (BitVec.ofNat 32 x).toInt ≤ (BitVec.ofNat 32 y).toInt then x % 2 ^ 32 else y % 2 ^ 32),
         (Instr.vredMaxS32 k d a bs, 0x80000000, fun x y => if (BitVec.ofNat 32 x).toInt ≤ (BitVec.ofNat 32 y).toInt then y % 2 ^ 32 else x % 2 ^ 32),
         (Instr.vredAndB32 k d a bs, 0xFFFFFFFF, fun x y => (x &&& y) % 2 ^ 32),
         (Instr.vredOrB32 k d a bs, 0, fun x y => (x ||| y) % 2 ^ 32)] : List (Instr × Nat × (Nat → Nat → Nat))),
       exec e.1 s = .next ((if bs = 1 then s.putRow c d (fun _ => BitVec.ofNat 32 (tree e.2.2
           (allLanes.map (fun l => if c.primaries.contains l then (c.vec a l).toNat else e.2.1))))
         else s.putScal c d (BitVec.ofNat 32 (tree e.2.2
           (allLanes.map (fun l => if c.primaries.contains l then (c.vec a l).toNat else e.2.1))))).adv c 1)) ∧
  (∀ (s : State) (c : Ctx) (k : Bool) (d a bs m : Nat), s.issues c →
     c.ready s [⟨.v a, 0, false, false⟩, rdS m 1, redDst bs d, redDst bs (d + 1)] = true → (bs = 0 → d ≠ 127) →
     (∀ l ∈ c.lanes, (c.scal m).getLsbD l = true → (c.elem (.v a) l).good = true) → c.unlocked s (rdV a 0) = true →
     exec (.vredLmF32 k d a bs m) s = .next (((s.putRed c bs d (BitVec.ofNat 32
       (c.lmScale m (c.lmTree m (fun l => (c.vec a l).toNat))))).putRed c bs (d + 1)
         (BitVec.ofNat 32 (c.lmParts m).length)).adv c 1) ∧
     exec (.vredLmBf16 k d a bs m) s = .next (((s.putRed c bs d (BitVec.ofNat 32
       (bf16.result c.g.mode (fp32.operand c.g.mode (c.lmScale m (c.lmTree m (fun l => (c.vec a l).toNat % 2 ^ 16 * 2 ^ 16)))) +
        2 ^ 16 * bf16.result c.g.mode (fp32.operand c.g.mode
         (c.lmScale m (c.lmTree m (fun l => (c.vec a l).toNat / 2 ^ 16 % 2 ^ 16 * 2 ^ 16))))))).putRed c bs (d + 1)
         (BitVec.ofNat 32 (c.lmParts m).length)).adv c 1))

/-- R246: a conversion without an outlier writes each live active lane's code at POS and leaves the other bits of its element. -/
def Obligations.ConversionResults : Prop :=
  ∀ (s : State) (c : Ctx) (k : Bool) (src dst rnd d a : Nat) (x : Option Nat), s.issues c →
    c.ready s ((cvtForm src dst rnd x).uses d a) = true → s.answerOf c (fun q => decide (q = .olist)) = none →
    (∀ l ∈ c.lanes, c.cvtLane (cvtForm src dst rnd x) a l ≠ .outlier) →
    exec (.cvt k src dst rnd x d a) s = .next ((c.lanes.foldl (fun t l => t.putCvt c.t.core (c.g.vecRow d) dst
      (cvtForm src dst rnd x).pos l (c.cvtLane (cvtForm src dst rnd x) a l).written) s).adv c (if x.isSome then 2 else 1))

/-! ## Control flow -/

/-- R172: a header at a clause start whose flags are zero opens its clause: the header is in force, the packet after its LEN
packets ends it, and YIELD restarts the candidate's age; a set-flag field of 12 to 14 raises TRAP_ILLEGAL there. `nop` only
advances. -/
def Obligations.ClauseResults : Prop :=
  ∀ (s : State) (c : Ctx) (w a b l y : Nat), s.issues c →
    exec .nop s = .next (s.adv c 1) ∧
    (c.pc.slot = 0 → (c.g.slice (c.sl.headD 0)).hdrEnd ≤ c.pc.packet →
      (∀ i < 12, nbit w i = true → c.g.flags.getD i 0 = 0) →
      ((a < 12 ∨ a = 15) → (b < 12 ∨ b = 15) → exec (.clause w a b l y) s = .next (s.modG c (fun g =>
        (g.mapSlices c.sl (fun _ x => { x with hdr := headerWord w a b l y, hdrEnd := c.pc.packet + (if l = 0 then 32 else l), pc := c.pc.add 1 })).modCand
          c.sl (fun d => { d with wait := .ready, failed := [], stamp := if y = 1 then s.clk (dieOf c.t.core) else d.stamp })))) ∧
      ((12 ≤ a ∧ a < 15) ∨ (12 ≤ b ∧ b < 15) → exec (.clause w a b l y) s = .next (s.trapped c 1 (infoSub 4))))

/-- R63, R215: a scalar branch whose condition holds sends every slice of the candidate to the target, and else passes on; `bra.u` goes
when its predicate is 1 in every live active lane, and passes on when it is 0 in every one (R219). With no live active lane, of which
both hold, it passes on: the model's choice, log entry 122. -/
def Obligations.BranchResults : Prop :=
  ∀ (s : State) (c : Ctx) (k : Bool) (a b p : Nat) (o : Tgt), s.issues c →
    (c.ready s [rdS a 0, rdS b 1] = true → c.canEnter s (c.target 6 o) = true →
      ∀ e ∈ ([(Instr.beq k a b o, decide (c.scal a = c.scal b)), (Instr.bne k a b o, decide (c.scal a ≠ c.scal b)),
        (Instr.bltS32 k a b o, decide ((c.scal a).toInt < (c.scal b).toInt)),
        (Instr.bgeS32 k a b o, decide ((c.scal b).toInt ≤ (c.scal a).toInt)),
        (Instr.bltN32 k a b o, decide ((c.scal a).toNat < (c.scal b).toNat)),
        (Instr.bgeN32 k a b o, decide ((c.scal b).toNat ≤ (c.scal a).toNat))] : List (Instr × Bool)),
        exec e.1 s = .next (if e.2 = true then s.gotoAll c (c.target 6 o).toNat else s.adv c (tgtSlots o))) ∧
    (c.canEnter s (c.target 14 o) = true → ((∀ l ∈ c.lanes, c.g.pred p l = true) ∨ ∀ l ∈ c.lanes, c.g.pred p l = false) →
      exec (.braU k p o) s = .next (if c.lanes.any (fun l => c.g.pred p l) then s.gotoAll c (c.target 14 o).toNat
        else s.adv c (tgtSlots o)))

/-- R64, R219: `bra` in each slice: no taker passes on; all takers go; else the takers wait in a token and the rest runs. Slices that
meet at one packet from two clauses go on under the clause of the lowest: the model's choice, log entry 145. -/
def Obligations.DivergentBranchResults : Prop :=
  ∀ (s : State) (c : Ctx) (k : Bool) (p : Nat) (o : Tgt), s.issues c → c.canEnter s (c.target 14 o) = true →
    c.agrees (fun l => c.g.pred p l) = true → c.sl.all (fun i => decide ((c.g.slice i).stack.length < 16)) = true →
    exec (.bra k p o) s = .next ((s.parted c (fun i x =>
      if x.mask &&& c.g.predNibble p i = 0 then { x with pc := x.pc.add (tgtSlots o) }
      else if x.mask &&& ~~~c.g.predNibble p i = 0 then { x with pc := ⟨(c.target 14 o).toNat, 0⟩, hdrEnd := (c.target 14 o).toNat }
      else { x with
        stack := ⟨false, (c.target 14 o).toNat, x.mask &&& c.g.predNibble p i⟩ :: x.stack
        mask := x.mask &&& ~~~c.g.predNibble p i
        pc := x.pc.add (tgtSlots o) })).tryEnter c.t.id c.g.num)

/-- R66 to R69, R73, R220, R221: `mark` pushes a MARK with the slice's mask; `join` gives up the mask and unwinds; `brk` takes the
lanes out; `exit` ends the slices; `regang` makes the candidate wait, and the waiting set is looked at. That `exit` marks its slices as
ended and leaves MASK and stack as they stood is the model's choice, log entry 116; that a mixed set goes on at the word after the
`regang` of its lowest slice, and under that slice's clause, is log entries 120 and 145. -/
def Obligations.TokenResults : Prop :=
  ∀ (s : State) (c : Ctx) (k : Bool) (p n : Nat) (o : Tgt), s.issues c →
    (c.canEnter s (c.target 14 o) = true → c.sl.all (fun i => decide ((c.g.slice i).stack.length < 16)) = true →
      exec (.mark k o) s = .next ((s.modG c (fun g => g.mapSlices c.sl (fun _ x =>
        { x with stack := ⟨true, (c.target 14 o).toNat, x.mask⟩ :: x.stack }))).adv c (tgtSlots o))) ∧
    (c.sl.all (fun i => decide (0 < (c.g.slice i).stack.length)) = true →
      exec (.join k) s = .next ((s.parted c (fun _ x => ({ x with mask := 0 } : Slice).unwind)).tryEnter c.t.id c.g.num)) ∧
    (c.agrees (fun l => c.g.pred p l) = true →
      c.sl.all (fun i => decide (n < ((c.g.slice i).stack.filter (fun t => t.isMark)).length)) = true →
      exec (.brk k p n) s = .next ((s.parted c (fun i x => x.leave (c.g.predNibble p i) n)).tryEnter c.t.id c.g.num)) ∧
    exec (.exit k) s = .next ((s.parted c (fun _ x => { x with ended := true })).tryEnter c.t.id c.g.num) ∧
    exec (.regang k n) s = .next (((s.modG c (fun g => g.modCand c.sl (fun d =>
      { d with wait := .regang n }))).regangCheck c.t.id c.g.num).tryEnter c.t.id c.g.num)

/-- R223, R224: `call` writes the number of the next packet to D and goes to its target; `ret` goes to the packet D names. -/
def Obligations.CallResults : Prop :=
  ∀ (s : State) (c : Ctx) (k : Bool) (d : Nat) (o : Tgt), s.issues c →
    (c.ready s [wrS d] = true → c.canEnter s (c.target 12 o) = true → c.canEnter s ((c.pc.packet : Int) + 1) = true →
      exec (.call k d o) s =
        .next ((s.putScal c d (BitVec.ofNat 32 (c.pc.packet + 1))).gotoAll c (c.target 12 o).toNat)) ∧
    (c.ready s [rdS d 0] = true → c.canEnter s ((c.scal d).toNat : Int) = true →
      exec (.ret k d) s = .next (s.gotoAll c (c.scal d).toNat))

/-! ## System registers and traps -/

/-- R227, R180, R368: `sget` of every register and `sput` of the writable ones; a pair's low word stands first. -/
def Obligations.SystemRegisterResults : Prop :=
  ∀ (s : State) (c : Ctx) (k : Bool) (r d : Nat), s.issues c →
    (r ≠ 8 → r ≠ 9 → r ≠ 12 → c.ready s [wrS d] = true →
      exec (.sgetScalar k r d) s = .next ((s.putScal c d (BitVec.ofNat 32 (c.sysReg r))).adv c 1)) ∧
    (r = 8 ∨ r = 9 ∨ r = 12 → c.ready s [wrS d, wrS (d + 1)] = true →
      exec (.sgetScalar k r d) s = .next ((s.putPair c d (c.sysReg r)).adv c 1)) ∧
    (r ≠ 8 → r ≠ 9 → r ≠ 12 → c.ready s [wrV d] = true →
      exec (.sgetVector k r d) s = .next ((s.putRow c d (fun l => BitVec.ofNat 32 (c.sysLane r l))).adv c 1)) ∧
    (r = 8 ∨ r = 9 ∨ r = 12 → c.ready s [wrV d, wrV (d + 1)] = true →
      exec (.sgetVector k r d) s = .next (((s.putRow c d (fun l => BitVec.ofNat 32 (c.sysLane r l))).putRow c (d + 1)
        (fun l => BitVec.ofNat 32 (c.sysLane r l / 2 ^ 32))).adv c 1)) ∧
    (c.ready s [rdS d 0] = true →
      exec (.sput k 7 d) s = .next (((s.modG c (fun g => { g with mode := (c.scal d).toNat % 16 })).adv c 1).dropTimer c.t.id c.g.num) ∧
      (c.g.inprog = true → exec (.sput k 11 d) s =
        .next (((s.modG c (fun g => { g with trappc := (c.scal d).toNat, pcWritten := true })).adv c 1).dropTimer c.t.id c.g.num))) ∧
    (c.ready s [rdS d 0, rdS (d + 1) 0] = true →
      exec (.sput k 9 d) s = .next (((s.modG c (fun g => { g with tcmp := c.pair d })).adv c 1).dropTimer c.t.id c.g.num) ∧
      (c.g.inprog = true → exec (.sput k 12 d) s = .next (((s.modG c (fun g =>
        { g with trapinfo := c.pair d % 2 ^ 48 + c.pair d / 2 ^ 56 * 2 ^ 56 })).adv c 1).dropTimer c.t.id c.g.num)))

/-- R232: `trap n` raises the trap of code n with the live active lanes in TRAPINFO, and TRAPPC is to name the next word. -/
def Obligations.TrapWordResults : Prop :=
  ∀ (s : State) (c : Ctx) (k : Bool) (n : Nat), s.issues c →
    ∀ e ∈ ([(Instr.trap k n, n), (Instr.trapRegisterHandler k, 0x20), (Instr.trapKillService k, 0x21)] : List (Instr × Nat)),
      exec e.1 s = .next ((s.raise c.t.id c.g.num ⟨e.2, lanesMask c.lanes, c.pc.add 1, c.sl⟩).tryEnter c.t.id c.g.num)

/-- R233, R234: `rte` of the only candidate, inside a handler, puts the group back as it stood when its trap was taken. -/
def Obligations.ReturnFromTrap : Prop :=
  ∀ (s : State) (c : Ctx) (k : Bool), s.issues c → c.g.inprog = true →
    c.g.liveSlices.all (fun i => c.sl.contains i) = true → c.g.trappc % 4 ≠ 3 →
    (c.g.pcWritten = true → c.g.trappc % 4 = 0 ∧ c.canEnter s ((c.g.trappc / 4 : Nat) : Int) = true) →
    c.t.status ≠ .killed → (∀ x ∈ frameCells, (palGet s.pal c.t.core (c.g.trapRow + x.1) x.2).ecc = .sound) →
    exec (.rte k) s = .next (s.modG c (fun g => g.restoreTrap g.pcWritten (s.clk (dieOf c.t.core))))

/-! ## Barriers, batches and fences -/

/-- R109, R111, R112, R53, R265: the words of a declared barrier whose elements are sound. -/
def Obligations.BarrierResults : Prop :=
  ∀ (s : State) (c : Ctx) (k : Bool) (n a p : Nat), s.issues c → n < c.t.kernel.bars → c.soundBarrier s n = true →
    (s.outstanding (s.ownEarlier c.t.id c.g.num c.sl 1) = false →
      exec (.arrive k n) s =
        .next ((s.barrierTo c.t n Barrier.arrive).adv c 1)) ∧
    (c.ready s [rdS a 0] = true → (c.scal a).toNat % 2 ^ 16 ≠ 0 → (c.t.barrier n).sectors = 0 →
      (c.t.barrier n).arrivals = (c.t.barrier n).reload →
      exec (.binit k n a) s = .next ((s.barrierTo c.t n (fun b =>
        { b with reload := (c.scal a).toNat % 2 ^ 16, arrivals := (c.scal a).toNat % 2 ^ 16, error := false, code := 0, finfo := 0 })).adv c 1)) ∧
    (c.ready s [wrS a, wrS (a + 1), wrS (a + 2), wrS (a + 3)] = true →
      exec (.bread k n a) s = .next (((s.putPair c a (c.t.barrier n).bits).putPair c (a + 2)
        ((c.t.barrier n).bits / 2 ^ 64)).adv c 1)) ∧
    (c.ready s [rdS a 0] = true → (c.t.barrier n).reached ((c.scal a).toNat % 16) = true →
      exec (.twait k p n a) s = .next (((s.putPred c p (fun _ => true)).adv c 1).hold c .ready)) ∧
    ((s.swappable c.t.id n).all (fun e => (s.swLockedRow e).isNone) = true →
      exec (.swap k n) s = .next (((s.swappable c.t.id n).foldl (fun t e => t.swapBanks e) s).adv c 1))

/-- R79, R266, R106, R107: a fence ends once its slices' earlier accesses are performed at its scope (which accesses a fence at clu or
wider waits for is the model's reading, log entry 127); `cbatch` gives the number of the batch it closes; `waitb` ends when the batches
up to its number are complete and tells whether they are clean. Of a group before its first `cbatch` the newest batch is taken as
65,535, and a batch 32,768 or more behind as one ahead: the model's choices, log entries 123 and 150. -/
def Obligations.BatchResults : Prop :=
  ∀ (s : State) (c : Ctx) (k : Bool) (n p : Nat), s.issues c →
    (s.outstanding (s.ownEarlier c.t.id c.g.num c.sl n) = false → exec (.fence k n) s = .next ((s.fences c n).adv c 1)) ∧
    (c.ready s [wrS n] = true → c.g.openBatches.length < 16 →
      exec (.cbatch k n) s = .next (((s.putScal c n (BitVec.ofNat 32 c.g.nextBatch)).modG c Group.closeBatch).adv c 1)) ∧
    (c.ready s [rdS n 0] = true → batchAge ((c.g.nextBatch + 65535) % 65536) ((c.scal n).toNat % 65536) < 32768 →
      c.g.batchDone ((c.scal n).toNat % 65536) = true →
      exec (.waitb k n) s = .next (s.adv c 1) ∧
      exec (.waitbPred k p n) s =
        .next ((s.putPred c p (fun _ => c.g.batchClean ((c.scal n).toNat % 65536))).adv c 1))

/-! ## Memory words -/

/-- R256, R260, R84: with each lane's address at base + index·size + 128·OFF served, a load asks for it, and a store sends the low
bits of D; the word is then complete. -/
def Obligations.LoadStoreResults : Prop :=
  ∀ (s : State) (c : Ctx) (k : Bool) (f d i b : Nat), s.issues c →
    (c.ready s [rdS b 0, rdS (b + 1) 0, rdV i 0, wrV d] = true →
      ∀ e ∈ ([(Instr.ldB8 k f d i b, 0, 1), (Instr.ldB16 k f d i b, 0, 2), (Instr.ldB32 k f d i b, 0, 4),
        (Instr.ldB8Fa k f d i b, 1, 1), (Instr.ldB16Fa k f d i b, 1, 2), (Instr.ldB32Fa k f d i b, 1, 4),
        (Instr.ldB8Fb k f d i b, 2, 1), (Instr.ldB16Fb k f d i b, 2, 2), (Instr.ldB32Fb k f d i b, 2, 4)] :
          List (Instr × Nat × Nat)),
        c.flagFree e.2.1 = true → c.agrees (c.idxVa b i e.2.2 f) = true →
        ∀ accs, accs = c.lanes.map (fun l => (⟨l, c.idxVa b i e.2.2 f l, 0, 0, [l]⟩ : Access)) →
        c.reaches s false true e.2.2 rightsR accs = true →
        ∀ ps, ps = pieces c.t.core 5 e.2.2 (c.places s e.2.2 rightsR accs) → c.tagged s ps = true →
        exec e.1 s = .next (s.sent c .load (.rows d 1) e.2.1 0 false false 1 ps)) ∧
    (c.ready s [rdS b 0, rdS (b + 1) 0, rdV i 0, rdV d 1] = true →
      ∀ e ∈ ([(Instr.stB8 k f d i b, 1), (Instr.stB16 k f d i b, 2), (Instr.stB32 k f d i b, 4)] : List (Instr × Nat)),
        c.agrees (c.idxVa b i e.2 f) = true → c.agrees (fun l => (c.vec d l).toNat % 2 ^ (8 * e.2)) = true →
        ∀ accs, accs = c.lanes.map (fun l =>
          (⟨l, c.idxVa b i e.2 f l, (c.vec d l).toNat % 2 ^ (8 * e.2), 0, []⟩ : Access)) →
        c.reaches s true true e.2 rightsW accs = true →
        ∀ ps, ps = pieces c.t.core 5 e.2 (c.places s e.2 rightsW accs) → c.tagged s ps = true →
        exec e.1 s = .next (s.sent c .store .none 0 0 false false 1 ps))

/-- R261, R79: the scalar-address forms: one access, whose value goes to D's scalars or to every live active lane of D; the
store takes the value of the highest live active lane; `.acq` and `.rel` order it at its scope. That `.acq` holds its candidate until
the access has landed, and what `.rel` at clu or wider waits for, are the model's choices, log entries 14 and 127. -/
def Obligations.ScalarAddressResults : Prop :=
  ∀ (s : State) (c : Ctx) (k : Bool) (z f ds o sc d a : Nat), s.issues c →
    (c.ready s ([rdS a 0, rdS (a + 1) 0] ++ partsOf (decide (ds = 1)) d (partCount (2 ^ z)) false true 3) = true →
      c.flagFree f = true →
      ∀ accs, accs = (if c.lanes = [] then [] else [(⟨0, c.pair a, 0, 0, if ds = 1 then [] else c.lanes⟩ : Access)]) →
      c.reaches s false true (2 ^ z) rightsR accs = true →
      ∀ ps, ps = pieces c.t.core 5 (2 ^ z) (c.places s (2 ^ z) rightsR accs) → c.tagged s ps = true →
      exec (.ldScalarAddress k z f ds o sc d a) s =
        .next (s.sent c .load (dstOf (decide (ds = 1)) d (partCount (2 ^ z))) f sc false (decide (o = 1)) 1 ps)) ∧
    (c.ready s ([rdS a 0, rdS (a + 1) 0] ++ partsOf (decide (ds = 1)) d (partCount (2 ^ z)) true false 1) = true →
      c.agrees (fun l => c.partsVal (decide (ds = 1)) d (partCount (2 ^ z)) l % 2 ^ (8 * 2 ^ z)) = true →
      ∀ accs, accs = (match c.lanes.getLast? with
        | none => []
        | some l => [(⟨0, c.pair a, c.partsVal (decide (ds = 1)) d (partCount (2 ^ z)) l % 2 ^ (8 * 2 ^ z), 0, []⟩ : Access)]) →
      c.reaches s true true (2 ^ z) rightsW accs = true →
      ∀ ps, ps = pieces c.t.core 5 (2 ^ z) (c.places s (2 ^ z) rightsW accs) → c.tagged s ps = true →
      exec (.stScalarAddress k z ds o sc d a) s = .next (s.sent c .store .none 0 sc (decide (o = 1)) false 1 ps))

/-- R263, R264: an atomic of each lane (in protected mode of each primary), or with a scalar address one, is sent with its operands;
`cas` takes its compare value from the words after D's first. That ORD acquire holds the candidate until the access has landed, and
what ORD release waits for, are the model's choices, log entries 14 and 127. -/
def Obligations.AtomicResults : Prop :=
  ∀ (s : State) (c : Ctx) (k : Bool) (o sc f d u a : Nat), s.issues c → c.flagFree f = true →
    ∀ e ∈ ([(Instr.atomAddN32 k o sc f d u a, AtomOp.addN, false), (Instr.atomAddN64 k o sc f d u a, AtomOp.addN, true),
        (Instr.atomAddF32 k o sc f d u a, AtomOp.addF32, false), (Instr.atomMinS32 k o sc f d u a, AtomOp.minS, false),
        (Instr.atomMinN32 k o sc f d u a, AtomOp.minN, false), (Instr.atomMaxS32 k o sc f d u a, AtomOp.maxS, false),
        (Instr.atomMaxN32 k o sc f d u a, AtomOp.maxN, false), (Instr.atomAndB32 k o sc f d u a, AtomOp.and, false),
        (Instr.atomOrB32 k o sc f d u a, AtomOp.or, false), (Instr.atomXorB32 k o sc f d u a, AtomOp.xor, false),
        (Instr.atomXchgB32 k o sc f d u a, AtomOp.xchg, false), (Instr.atomCasB32 k o sc f d u a, AtomOp.cas, false),
        (Instr.atomXchgB64 k o sc f d u a, AtomOp.xchg, true), (Instr.atomCasB64 k o sc f d u a, AtomOp.cas, true)] :
          List (Instr × AtomOp × Bool)),
      c.ready s (partsOf (decide (u = 1)) d ((if e.2.1 = .cas then 2 else 1) * (if e.2.2 then 2 else 1)) true false 2 ++
        (if u = 1 then [rdS a 0, rdS (a + 1) 0] else [rdV a 0, rdV (a + 1) 0]) ++
        partsOf (decide (u = 1)) d (if e.2.2 then 2 else 1) false true 3) = true →
      ∀ va x y, va = (fun l => (c.vec a l).toNat + (c.vec (a + 1) l).toNat * 2 ^ 32) →
      x = (fun l => c.partsVal (decide (u = 1)) d (if e.2.2 then 2 else 1) l) →
      y = (fun l => if e.2.1 = .cas then c.partsVal (decide (u = 1)) (d + if e.2.2 then 2 else 1) (if e.2.2 then 2 else 1) l else 0) →
      (u = 1 ∨ c.agrees va = true ∧ c.agrees (fun l => (x l, y l)) = true) →
      ∀ accs, accs = (if u = 1 then [(⟨0, c.pair a, x 0, y 0, []⟩ : Access)]
        else c.primaries.map (fun l => ⟨l, va l, x l, y l, if c.t.prot then c.lanes.filter (fun m => m / 2 == l / 2) else [l]⟩)) →
      c.reaches s true ((decide (e.2.1 = .addN) || decide (e.2.1 = .xchg) || decide (e.2.1 = .cas)) && Config.hostAtomics s.ps)
        (if e.2.2 then 8 else 4) rightsRW accs = true →
      ∀ ps, ps = pieces c.t.core 6 (if e.2.2 then 8 else 4) (c.places s (if e.2.2 then 8 else 4) rightsRW accs) →
      c.tagged s ps = true →
      exec e.1 s = .next (s.sent c (.atom e.2.1 e.2.2) (dstOf (decide (u = 1)) d (if e.2.2 then 2 else 1)) f sc
        (decide (2 ≤ o)) (decide (o % 2 = 1)) 1 ps)

/-! ## Swatches -/

/-- R267, R268: a swatch word asks the owner for its row: a read or atomic holds its candidate until the owner answers; a write or
reduction counts its arrival and 4 sectors on its barrier, and the word is complete. -/
def Obligations.SwatchWordResults : Prop :=
  ∀ (s : State) (c : Ctx) (k : Bool) (f d h n : Nat), s.issues c → c.lanes ≠ [] →
    ∀ e ∈ ([(Instr.swldB32 k f d h, SwOp.ld, false, f), (Instr.swldB32Far k f d h, SwOp.ld, true, f),
        (Instr.swatomAddN32 k f d h n, SwOp.atomAdd, false, f), (Instr.swatomAddN32Far k f d h n, SwOp.atomAdd, true, f),
        (Instr.swatomCasB32 k f d h n, SwOp.atomCas, false, f), (Instr.swatomCasB32Far k f d h n, SwOp.atomCas, true, f),
        (Instr.swstB32 k d h n, SwOp.st, false, 0), (Instr.swstB32Far k d h n, SwOp.st, true, 0),
        (Instr.swredAddN32 k d h n, SwOp.redAdd, false, 0), (Instr.swredAddN32Far k d h n, SwOp.redAdd, true, 0),
        (Instr.swredOrB32 k d h n, SwOp.redOr, false, 0), (Instr.swredOrB32Far k d h n, SwOp.redOr, true, 0)] :
          List (Instr × SwOp × Bool × Nat)),
      c.ready s ([rdS h 0, rdS (h + 1) 0, rdS (h + 2) 0] ++ (if e.2.2.1 then [rdS (h + 3) 0] else []) ++
        (List.range e.2.1.sends).map (fun i => rdV (d + i) 2) ++ (if e.2.1.reads then [wrV d] else [])) = true →
      c.flagFree e.2.2.2 = true →
      (e.2.1 ≠ .ld → n < c.t.kernel.bars ∧ c.agrees (fun l => (c.vec d l, if e.2.1.sends = 2 then c.vec (d + 1) l else 0)) = true) →
      (e.2.1.reads = true → s.swAnswer c = none) → (s.die (dieOf c.t.core)).rtbusy ≠ some c.t.part →
      c.chkSwRoute s e.2.1 e.2.2.1 h = .ok () →
      ∀ r, r = (⟨s.nextId, e.2.1, c.t.id, c.g.num, c.sl, c.t.core, c.pair h, (c.scal (h + 2)).toNat,
        if e.2.2.1 then (c.scal (h + 3)).toNat % 2 ^ 16 else s.regs.modid, d, if e.2.1 = .ld then none else some n,
        c.flagOf e.2.2.2, c.lanes.map (fun l => (l, c.vec d l, c.vec (d + 1) l)), [], 0, 0,
        (s.earlier c.t.id c.g.num c.sl 5 ++ s.fencedOf c.t.id c.g.num).dedup, none, .none⟩ : SwReq) →
      (e.2.1.reads = true → exec e.1 s = .next (State.hold { s with nextId := s.nextId + 1, swreqs := s.swreqs ++ [r] } c
        (.reply s.nextId none))) ∧
      (e.2.1.reads = false → c.soundBarrier s n = true → exec e.1 s = .next { ((s.barrierTo c.t n (fun b => b.begin_ 4)).adv c 1) with
          nextId := s.nextId + 1, swreqs := s.swreqs ++ [r] })

/-- R48, R49, R269: `export` enters the rows of its pool entry in the home die's table and writes the 64-bit handle to D, D + 1. -/
def Obligations.ExportResults : Prop :=
  ∀ (s : State) (c : Ctx) (k : Bool) (ix v : Nat) (f : ExportForm), s.issues c → c.poolEntry s ix = .ok v → f = exportForm v →
    f.ok = true → (f.hasb = true → f.bn < c.t.kernel.bars) → c.ready s [wrS f.d, wrS (f.d + 1)] = true →
    f.base + f.rows ≤ (if f.team then c.t.kernel.trows else c.g.vrows) → (s.swOf c.t.id).length < 64 → s.swOverlap c f = false →
    s.swRoom (homeOfKey c.t.tkey) = true → (f.dbl = true → s.lockRoom c.t.core 1 = true) →
    ∀ e, e = (⟨c.t.part, c.t.tkey, (s.swOf c.t.id).length, s.swGen c.t.part c.t.tkey (s.swOf c.t.id).length, true, c.t.id,
      c.g.num, f.team, f.base, f.len, f.rights, f.scope, f.dbl, false, if f.hasb then some f.bn else none⟩ : SwEntry) →
    exec (.exportSwatch k ix) s = .next ((State.putPair { s with
      swatches := s.swatches.filter (fun x => !(decide (x.part = e.part) && decide (x.tkey = e.tkey) && decide (x.swx = e.swx))) ++ [e] }
      c f.d (e.gen * 2 ^ 52 + e.swx * 2 ^ 46 + e.part * 2 ^ 40 + e.tkey * 2 ^ 16 + 1)).adv c 1)

/-! ## Copies, walks, gathers -/

/-- R102 to R105, R115, R116: a copy whose shape record, rows and memory pass the checks of R104 starts: its operation, its locks and
its sectors on the barrier. R113: `copy.swatch` sends its source rows to one to eight swatches; its barrier counts 4 sectors for each row and destination. -/
def Obligations.CopyResults : Prop :=
  (∀ (s : State) (c : Ctx) (k : Bool) (w d a n : Nat), s.issues c → c.g.isP = true → n < c.t.kernel.bars →
     c.soundBarrier s n = true → s.opCount c.t.core < 64 →
     ∀ e ∈ ([(Instr.copyRows k w d a n, OpKind.copyRows, 0, 1, w), (Instr.copyCol k d a n, OpKind.copyCol, 1, 1, 0),
         (Instr.copyRowsX24 k w d a n, OpKind.copyX24, 2, 1, w), (Instr.copyOutTeam k w d a n, OpKind.copyOut, 4, 1, w),
         (Instr.copyOutClu k w d a n, OpKind.copyOut, 5, 2, w), (Instr.copyOutDie k w d a n, OpKind.copyOut, 6, 3, w),
         (Instr.copyOutMod k w d a n, OpKind.copyOut, 7, 4, w), (Instr.copyOutSys k w d a n, OpKind.copyOut, 8, 5, w),
         (Instr.copyOutC24Team k w d a n, OpKind.copyC24, 9, 1, w), (Instr.copyOutC24Clu k w d a n, OpKind.copyC24, 10, 2, w),
         (Instr.copyOutC24Die k w d a n, OpKind.copyC24, 11, 3, w), (Instr.copyOutC24Mod k w d a n, OpKind.copyC24, 12, 4, w),
         (Instr.copyOutC24Sys k w d a n, OpKind.copyC24, 13, 5, w)] : List (Instr × OpKind × Nat × Nat × Nat)),
       (c.t.prot = true → e.2.1.hasMeta = false ∧ e.2.1 ≠ .copyCol) →
       c.ready s ((List.range (if e.2.1.hasMeta then 6 else 4)).map (fun i => rdS (a + i) 0)) = true →
       ∀ snap, snap = (List.range (if e.2.1.hasMeta then 6 else 4)).map (fun i => (c.scal (a + i)).toNat) →
       (shapeOf snap).sub e.2.1 c.t.prot (decide (e.2.2.2.2 = 1)) (c.t.group? (shapeOf snap).tgt).isSome = 0 →
       ∀ r, r = (⟨decide (e.2.2.2.2 = 1), (shapeOf snap).tgt, d, (shapeOf snap).count, !e.2.1.outward, 0⟩ : RowRange) →
       r.clear s c.t = true →
       (e.2.1.outward = true → r.chkValid s c.t (fun _ => readLanes c.t.prot) = none ∧
         (c.t.prot = true → shadowPairs s c r = [])) →
       ∀ mems, mems = memLockOf c.t (shapeOf snap).base
           (((shapeOf snap).count - 1) * (shapeOf snap).stride + copyBytes e.2.1 c.t.prot) e.2.1.outward ::
         (if e.2.1.hasMeta then [memLockOf c.t (shapeOf snap).metaVa ((shapeOf snap).count * (shapeOf snap).metaBytes)
           e.2.1.outward] else []) →
       (∀ l ∈ mems, l.chkMem s = none) → s.lockRoom c.t.core (1 + mems.length) = true →
       exec e.1 s = .next ((s.launch c (c.newOp s e.2.1 (some n) (cpWord k e.2.2.1 e.2.2.2.2 d a n) 0 e.2.2.2.1
         ((shapeOf snap).units e.2.1 c.t.prot) snap) (r.lock c.t :: mems) ((shapeOf snap).sectors e.2.1 c.t.prot)).adv c 1)) ∧
  (∀ (s : State) (c : Ctx) (k : Bool) (w d a n nd : Nat), s.issues c → c.g.isP = true → c.t.prot = false →
     n < c.t.kernel.bars → c.soundBarrier s n = true → s.opCount c.t.core < 64 → s.lockRoom c.t.core 1 = true →
     nd = (c.scal (a + 1)).toNat % 16 → 1 ≤ nd → nd ≤ 8 →
     c.ready s ((List.range (4 + 2 * nd)).map (fun i => rdS (a + i) 0)) = true →
     ∀ snap, snap = (List.range (4 + 2 * nd)).map (fun i => (c.scal (a + i)).toNat) →
     (shapeOf snap).swSub snap (decide (w = 1)) (c.t.group? (shapeOf snap).tgt).isSome = 0 →
     ∀ r, r = (⟨decide (w = 1), (shapeOf snap).tgt, d, (shapeOf snap).count, false, 0⟩ : RowRange) →
     r.clear s c.t = true → r.chkValid s c.t (fun _ => allLanes) = none →
     exec (.copySwatch k w d a n) s = .next ((s.launch c { c.newOp s .copySwatch (some n) (cpWord k 3 w d a n) 0 1 nd snap with
       dests := s.destsOf c.t.part nd snap } [r.lock c.t] (4 * (shapeOf snap).count * nd)).adv c 1))

/-- R149, R150, R153: `walk` locks its region, counts its sectors, and starts in a free context of its cluster; that it is the lowest is
the model's choice, log entry 159. -/
def Obligations.WalkResults : Prop :=
  ∀ (s : State) (c : Ctx) (k : Bool) (w d a n x : Nat), s.issues c → c.g.isP = true → c.t.prot = false →
    n < c.t.kernel.bars → c.soundBarrier s n = true → s.opCount c.t.core < 64 → s.lockRoom c.t.core 1 = true →
    s.freeContext (clusterOf c.t.core) = some x →
    c.ready s ((List.range 19).map (fun i => rdS (a + i) 1)) = true →
    ∀ snap, snap = (List.range 19).map (fun i => (c.scal (a + i)).toNat) →
    (walkForm snap).sub (decide (w = 1)) (c.t.group? (walkForm snap).tgt).isSome c.t.kernel.cardlen = 0 →
    ∀ r, r = (⟨decide (w = 1), (walkForm snap).tgt, d, (walkForm snap).nrows, true, 0⟩ : RowRange) → r.clear s c.t = true →
    ∀ o, o = c.newOp s .walk (some n) (0x3F800000 + k.toNat * 2 ^ 31 + w * 2 ^ 21 + d * 2 ^ 14 + a * 2 ^ 7 + n * 2) 0 1
      (4 * (walkForm snap).nrows) snap →
    exec (.walk k w d a n) s = .next (((s.launch c o [r.lock c.t] (4 * (walkForm snap).nrows)).startWalk c.t
      { o with id := s.nextId } x).adv c 1)

/-- R133 to R136, R140, R271: a gather or scatter whose pool entry and scalars pass the checks starts with its index values (and a
scatter with its source values) read, its four locks, and its sectors and the mask row's 4 on the barrier. R143: `shbind` writes its status word zero and binds the window; `shbind.off` takes the windows of its base away. -/
def Obligations.GatherResults : Prop :=
  (∀ (s : State) (c : Ctx) (k : Bool) (ix v : Nat), s.issues c → c.g.isP = true → c.t.prot = false →
     s.opCount c.t.core < 64 → s.lockRoom c.t.core 4 = true → c.poolEntry s ix = .ok v →
     ∀ e ∈ ([(Instr.gather k ix, false), (Instr.scatter k ix, true)] : List (Instr × Bool)),
       ∀ f, f = gatherForm e.2 v → f.ok = true → f.bn < c.t.kernel.bars → c.soundBarrier s f.bn = true →
       c.ready s [rdS f.t 1, rdS (f.t + 1) 1, rdS (f.t + 2) 1, rdS f.n 1] = true →
       ∀ snap, snap = [f.t, f.t + 1, f.t + 2, f.n].map (fun i => (c.scal i).toNat) → f.sub snap = 0 →
       ∀ m, m = (c.scal f.n).toNat →
       ∀ data index mask : RowRange, data = ⟨f.w, c.g.num, f.d, cdiv (m * f.esz) 128, !e.2, 1⟩ →
       index = ⟨false, c.g.num, f.i, cdiv m 32, false, 2⟩ → mask = ⟨false, c.g.num, f.f, 1, true, 3⟩ →
       data.clear s c.t = true → index.clear s c.t = true → mask.clear s c.t = true →
       index.chkValid s c.t (usedLanes m) = none →
       (e.2 = true → data.chkValid s c.t (usedLanes (cdiv (m * f.esz) 4)) = none) →
       (∀ i < m, (palGet s.pal c.t.core (c.t.rowAt false c.g.num (f.i + i / 32)) (i % 32)).ecc = .sound) →
       (e.2 = true → ∀ i < cdiv (m * f.esz) 4,
         (palGet s.pal c.t.core (c.t.rowAt f.w c.g.num (f.d + i / 32)) (i % 32)).ecc = .sound) →
       ∀ mem, mem = memLockOf c.t (tableBase snap) ((c.scal (f.t + 2)).toNat * f.esz) e.2 → mem.chkMem s = none →
       ∀ o, o = c.newOp s (if e.2 then .scatter else .gather) (some f.bn)
         (0x3FC00000 + k.toNat * 2 ^ 31 + (if e.2 then 1 else 0) * 2 ^ 18 + ix) v f.scope m snap →
       exec e.1 s = .next ((s.launch c { o with
         idx := (List.range m).map (fun i => (palGet s.pal c.t.core (c.t.rowAt false c.g.num (f.i + i / 32)) (i % 32)).val.toNat)
         src := if e.2 then (s.readSource o c.t f m).2 else [] } [data.lock c.t, mask.lock c.t, index.lock c.t, mem]
         (cdiv (m * f.esz) 32 + 4)).adv c 1)) ∧
  (∀ (s : State) (c : Ctx) (k : Bool) (ix v : Nat), s.issues c → c.poolEntry s ix = .ok v →
     (∀ f w pa tag, f = bindForm v → f.ok = true → c.ready s f.uses = true →
       w = (⟨c.pair f.w, c.pair f.x, (c.scal (f.x + 2)).toNat, c.pair (f.x + 3),
         (c.scal f.t).toNat + (c.scal (f.t + 1)).toNat % 2 ^ 25 * 2 ^ 32, (c.scal (f.t + 2)).toNat, f.e⟩ : Window) →
       w.sub (s.part c.t.part) (c.scal (f.t + 1)).toNat = 0 → s.memLockSub c.t.id w.stat 8 true = 0 →
       c.locate s w.stat 8 rightsW = .at_ pa tag → (s.die (dieOf c.t.core)).rtbusy ≠ some c.t.part →
       s.outstanding (s.ownEarlier c.t.id c.g.num c.sl 5) = false →
       ∀ t, t = (s.writeSector tag ((bytesLE 8 0).zipIdx.map (fun (b : Byte × Nat) => (pa + b.2, b.1)))).access c.t.part c.t.core pa 32 true →
       exec (.shbind k ix) s =
         .next ((t.putPart c.t.part { t.part c.t.part with windows := (t.part c.t.part).windows ++ [w] }).adv c 1)) ∧
     (v / 2 ^ 7 = 0 → c.ready s [rdS (v % 2 ^ 7) 0, rdS (v % 2 ^ 7 + 1) 0] = true →
       (s.part c.t.part).windows.any (fun w => w.wbase == c.pair (v % 2 ^ 7)) = true →
       exec (.shbindOff k ix) s = .next ((s.putPart c.t.part { s.part c.t.part with
         windows := (s.part c.t.part).windows.filter (fun w => w.wbase != c.pair (v % 2 ^ 7)) }).adv c 1)))

/-- R162, R163: an `inv` whose routine is legal and whose rows are in order locks them, and its candidate waits for its rounds, with
each live active lane at its start. -/
def Obligations.InversionResults : Prop :=
  ∀ (s : State) (c : Ctx) (k : Bool) (ix v : Nat) (f : InvForm) (ws : List Nat) (rs : List Rout), s.issues c →
    c.invRoutine s k ix = .ok (f, v, ws, rs) →
    c.ready s ((routScals rs).map (fun n => rdS n 1) ++ (f.reads rs).map (fun n => rdV n 0) ++ (f.writes rs).map wrV) = true →
    (∀ n ∈ f.writes rs ++ f.t :: rs.flatMap (fun r => r.rows), c.inRange (.v n) = true) →
    s.lockRoom c.t.core (f.locks c rs).length = true →
    ∀ lane, lane = (fun l => startLane l (c.vec f.t l).toNat (c.vec f.lo l).toNat (c.vec (f.lo + 1) l).toNat) →
    exec (.inv k ix) s = .next (State.modG { s with nextId := s.nextId + 1, locks := s.locks ++ (f.locks c rs).map (fun l =>
      { l with op := s.nextId }) } c (fun g => Group.modCand { g with inv := g.inv ++ [⟨c.sl, s.nextId, v, ws, c.g.mode, (routScals rs).map (fun n => (n, c.scal n)),
        (f.inputs rs).map (fun n => (n, allLanes.map (fun l => c.vec n l))), 0,
        if (c.lanes.map lane).all (fun x => x.fin) then 0 else ws.length + 2, c.lanes.map lane⟩] }
        c.sl (fun d => { d with wait := .inv s.nextId, failed := [] })))

/-! ## Lists and queues -/

/-- R155, R156, R158, R273: `bump` asks the descriptor's home for a chunk for each lane; `append` sends the values of its lanes to
the list's home and is complete. R274, R300: `enq` of a well-formed packet to a queue with room submits it; the form with a predicate
says that it was accepted, or with a full ring that it was not. That a packet is read at issue, and submitted as its bytes stand
whatever sector holds them, is the model's choice, log entry 39. -/
def Obligations.ListResults : Prop :=
  (∀ (s : State) (c : Ctx) (k : Bool) (f p d a pa tag : Nat), s.issues c →
     (c.ready s [rdS a 0, rdS (a + 1) 0, wrV d, wrV (d + 1)] = true → c.lanes ≠ [] →
       s.answerOf c (fun q => decide (q = .bump)) = none → c.pair a % 32 = 0 → c.chkDescriptor s 32 (c.pair a) = .ok (pa, tag) →
       c.tagged s (c.bumpAsk p d (c.pair a) pa tag).pieces = true →
       exec (.bump k p d a) s = .next ((s.request (c.bumpAsk p d (c.pair a) pa tag)).hold c (.reply s.nextId none))) ∧
     (∀ e ∈ ([(Instr.appendB32 k f p d a, false), (Instr.appendB64 k f p d a, true)] : List (Instr × Bool)),
       c.ready s [rdS a 0, rdS (a + 1) 0] = true → c.appendLanes p ≠ [] → c.flagFree f = true →
       (∀ q ∈ (List.range (if e.2 then 2 else 1)), ({ c with lanes := c.lanes.filter (fun l => c.g.pred p l) } : Ctx).ready s
         [rdV (d + q) 1] = true) →
       c.agrees (fun l => (c.g.pred p l, if c.g.pred p l then c.partsVal false d (if e.2 then 2 else 1) l else 0)) = true →
       c.pair a % 64 = 0 → c.chkDescriptor s 64 (c.pair a) = .ok (pa, tag) →
       ∀ ps : List Piece, ps = [⟨tag, none, (c.appendLanes p).map (fun l => ⟨(c.replyLanes l).filter (c.g.pred p), c.pair a, pa, 64,
         c.partsVal false d (if e.2 then 2 else 1) l, 0, 0⟩), dieOf c.t.core, placeHome c.t.core pa, [], false, false, false, false⟩] →
       c.tagged s ps = true → exec e.1 s = .next ((s.adv c 1).send c (.append e.2) .none 0 [] f [] ps))) ∧
  (∀ (s v w : State) (c : Ctx) (k : Bool) (p a pa tag : Nat) (x : QEntry), s.issues c → c.offering = none → p ≠ 7 →
     c.ready s [rdS a 0, rdS (a + 1) 0, rdS (a + 2) 0] = true →
     (c.scal (a + 2)).toNat < 2 ^ 16 → (c.scal (a + 2)).toNat < (s.part c.t.part).qcount →
     c.pair a % 64 = 0 → s.memLockSub c.t.id (c.pair a) 64 false = 0 → c.locate s (c.pair a) 64 rightsR = .at_ pa tag →
     (s.die (dieOf c.t.core)).rtbusy ≠ some c.t.part → s.outstanding (s.earlier c.t.id c.g.num c.sl 4) = false →
     v = s.packetRead c.t pa → v.qentry c.t.part (c.scal (a + 2)).toNat = (w, some x) → w.held = false →
     ∀ t, t = w.submit c.t.part (c.scal (a + 2)).toNat x ((List.range 16).map (fun i => s.readMem tag (pa + 4 * i) 4)) →
     (x.room = true → t.held = false → exec (.enq k a) s = .next ((t.adv c 1).hold c .ready) ∧
       exec (.enqPred k p a) s = .next (((t.putPred c p (fun _ => true)).adv c 1).hold c .ready)) ∧
     (x.room = false → exec (.enqPred k p a) s = .next (((w.putPred c p (fun _ => false)).adv c 1).hold c .ready)))

/-! ## The matrix stream -/

/-- R278 to R282: the scalar words, the moves and the jumps of a stream. -/
def Obligations.StreamScalarResults : Prop :=
  ∀ (s : State) (c : SCtx) (d a b i o : Nat), s.runsStream c →
    exec .mnop s = .next (s.snext c) ∧ exec (.mjmp o) s = .next (s.sgoto c o) ∧
    exec .mend s = .next ((s.snext c).modStream c.t.id (fun st => { st with ended := true })) ∧
    exec (.qli d i) s = .next ((s.putQ c d i).snext c) ∧
    exec (.qlih d i) s =
      .next ((s.putQ c d (i * 2 ^ 16 + if c.st.valid d then c.st.val d % 2 ^ 16 else 0)).snext c) ∧
    (c.holds [a] = true → exec (.qmov d a) s = .next ((s.putQ c d (c.st.val a)).snext c)) ∧
    (c.holds [a, b] = true →
      ∀ e ∈ ([(Instr.qadd d a b, fun x y => (x + y) % 2 ^ 32), (Instr.qsub d a b, fun x y => (x + 2 ^ 32 - y) % 2 ^ 32),
        (Instr.qmul d a b, fun x y => x * y % 2 ^ 32), (Instr.qand d a b, fun x y => x &&& y), (Instr.qor d a b, fun x y => x ||| y),
        (Instr.qshl d a b, fun x y => x * 2 ^ (y % 32) % 2 ^ 32), (Instr.qshr d a b, fun x y => x / 2 ^ (y % 32))] :
          List (Instr × (Nat → Nat → Nat))),
        exec e.1 s = .next ((s.putQ c d (e.2 (c.st.val a) (c.st.val b))).snext c)) ∧
    (c.holds [d] = true → exec (.mloop d o) s =
      .next (if (c.st.val d + 2 ^ 32 - 1) % 2 ^ 32 = 0 then (s.putQ c d 0).snext c
        else (s.putQ c d ((c.st.val d + 2 ^ 32 - 1) % 2 ^ 32)).sgoto c o))

/-- R130, R131, R132, R280, R281: `qrd`, `mwait`, `marrive`, `mmask`, `mkeep`. -/
def Obligations.StreamControlResults : Prop :=
  ∀ (s : State) (c : SCtx) (d w l n k q o : Nat), s.runsStream c →
    (w < c.t.kernel.trows → s.destLocked c.t.core (c.t.teamBase + w) = false →
      (palGet s.pal c.t.core (c.t.teamBase + w) l).ecc = .sound → ∀ e, e = palGet (s.seen c.t.core) c.t.core (c.t.teamBase + w) l →
      exec (.qrd d w l) s = .next ((s.modStream c.t.id (fun st =>
        if e.valid then st.put d e.val.toNat else st.lose d e.val.toNat)).snext c)) ∧
    (c.soundBarrier s n = true → c.holds [k] = true → (c.t.barrier n).reached (c.st.val k % 16) = true →
      exec (.mwait n k) s = .next (s.snext c)) ∧
    (c.soundBarrier s n = true → s.longCount c.t.id = 0 →
      exec (.marrive n) s = .next ((s.barrierTo c.t n Barrier.arrive).snext c)) ∧
    (c.st.maskOk q = true → q + 1 + cdiv (c.st.val (q + 1) % 32) 2 ≤ 63 →
      exec (.mmask q) s = .next ((s.modStream c.t.id (fun st => { st with
        mblk := (List.range (2 + cdiv (c.st.val (q + 1) % 32) 2)).map (fun i => c.st.val (q + i)), iter := 0 })).snext c)) ∧
    (d ≠ 63 → c.st.keep = [] → exec (.mkeep d o) s = .next (s.sgoto c o)) ∧
    (d ≠ 63 → ∀ b r, c.st.keep = b :: r →
      exec (.mkeep d o) s = .next ((((s.putQ c d b).putQ c (d + 1) (if b = c.st.qblk then 1 else 0)).modStream c.t.id
        (fun st => { st with iter := st.iter + 1 })).snext c))

/-- R117, R121 to R123, R127, R129, R283, R285 to R287: the tile words and `mma`: a long word that meets no lock starts with its locks;
`macq` takes a free tile and clears its rows' valid bits; `mrel` gives the tile back. That `macq` takes the lowest free tile, and the
bits that `mma` ignores, are the model's choices, log entries 63 and 132. -/
def Obligations.TileResults : Prop :=
  ∀ (s : State) (c : SCtx) (t v q n i : Nat), s.runsStream c →
    ((c.t.tile t).isSome = true → c.passes s [] (c.locksOf [] t true []) = true →
      exec (.mzero t) s = .next ((s.startLong c .mzero none (tileWord 0 t 0 0 0) 0 1 [] t false (c.locksOf [] t true [])).snext c)) ∧
    (c.holds [q] = true → c.st.val q ≤ 2 → (c.t.tile t).isSome = true → n < c.t.kernel.bars →
      ∀ rows, rows = [(⟨v, 128 / perWord (c.st.val q), false⟩ : CRange)] → c.covers rows = true →
      c.passes s rows (c.locksOf rows t true []) = true →
      exec (.mload t v q n) s = .next ((s.startLong c .mload (some n) (tileWord 1 t v q n) 0 1 [c.st.val q, v] t false
        (c.locksOf rows t true [])).snext c)) ∧
    (q ≤ 60 → c.holds (q :: (List.range (if ovfOf (c.st.val q) = 2 then 3 else 1)).map (fun j => q + 1 + j)) = true →
      ∀ snap, snap = [c.st.val q, c.st.val (q + 1)] ++
        (if ovfOf (c.st.val q) = 2 then [c.st.val (q + 2), c.st.val (q + 3)] else [0, 0]) ++ [v] →
      storeLegal snap = true → (c.t.tile t).isSome = true → n < c.t.kernel.bars →
      ∀ rows, rows = [(⟨v, 128 / perWord (c.st.val q % 16), true⟩ : CRange)] → c.covers rows = true →
      c.passes s rows (c.locksOf rows t false []) = true →
      exec (.mstore t v q n) s = .next ((s.startLong c .mstore (some n) (tileWord 2 t v q n) 0 1 snap t
        (decide (ovfOf (c.st.val q) = 2)) (c.locksOf rows t false [])).snext c)) ∧
    ((c.t.tile t).isNone = true → (s.tileWaiters c.t.core).all (fun w => decide (w.1.id = c.t.id)) = true →
      ∀ x, s.freeTile c.t.core = some x → exec (.macq t q) s = .next (((s.mapTile c.t t x).putQ c q 1).snext c)) ∧
    ((c.t.tile t).isSome = true → s.rowsLocked c.t.core (c.t.tileRow t) 512 = false →
      exec (.mrel t) s = .next ((s.modTeam c.t.id (fun u => { u with tiles := u.tiles.set t none })).snext c)) ∧
    (∀ e f m a b, c.poolEntry s i = .ok e → e / 2 ^ 45 = 0 → f = mmaForm e → f.qf ≤ 60 → m = c.st.mmaSnap f →
      a = m.side f false → b = m.side f true → m.legal a b = true →
      c.holds ([f.qf, f.qf + 1, f.qf + 2, f.qf + 3, f.qs] ++ (a.pair ++ b.pair).flatMap (fun x => [x, x + 1])) = true →
      (∀ x ∈ a.pair ++ b.pair, x ≤ 62) → (c.t.tile f.t).isSome = true → f.bn < c.t.kernel.bars →
      ∀ rows locks, rows = a.ranges m.klen ++ b.ranges m.klen → c.covers rows = true →
      locks = c.locksOf rows f.t true (a.mems m.klen ++ b.mems m.klen) → c.passes s rows locks = true →
      exec (.mma i) s = .next (((s.putCore c.t.core { s.core c.t.core with lastMma := s.clk (dieOf c.t.core) }).startLong c .mma (some f.bn)
        (0x10000000 + i) e (m.klen / segLen a b) m.list f.t (!(a.mems m.klen ++ b.mems m.klen).isEmpty) locks).snext c))

/-! ## The Carder -/

/-- R289, R290, R293: every word counts one step and stands at the next; the register words write their function modulo 2^64. R291, R292,
R289, R152: reads leave outstanding; emissions write their bits; branches go to their word; `cend` ends the walk. That an untaken branch
out of the section passes on, and that a read leaves untranslated, are the model's choices, log entry 64; a narrow emission into an
element that is not sound is log entry 157 and has no clause. -/
def Obligations.CarderResults : Prop :=
  (∀ (s : State) (k : KCtx) (d a b i n : Nat),
     ∀ e ∈ ([(Instr.cnop, CarderOp.cnop, none), (Instr.cmov d a, CarderOp.cmov d a, some (k.reg a)),
         (Instr.cli d i, CarderOp.cli d i, some (wrap 64 (sext 15 i))),
         (Instr.cadd d a b, CarderOp.cadd d a b, some (k.reg a + k.reg b)),
         (Instr.csub d a b, CarderOp.csub d a b, some (k.reg a + 2 ^ 64 - k.reg b)),
         (Instr.cmul d a b, CarderOp.cmul d a b, some (k.reg a * k.reg b)),
         (Instr.cand d a b, CarderOp.cand d a b, some (k.reg a &&& k.reg b)),
         (Instr.cor d a b, CarderOp.cor d a b, some (k.reg a ||| k.reg b)),
         (Instr.caddi d a i, CarderOp.caddi d a i, some (k.reg a + wrap 64 (sext 15 i))),
         (Instr.cshli d a n, CarderOp.cshli d a n, some (k.reg a * 2 ^ (n % 64))),
         (Instr.cshri d a n, CarderOp.cshri d a n, some (k.reg a / 2 ^ (n % 64)))] :
           List (Instr × CarderOp × Option Nat)),
       s.runsCarder k e.2.1 →
       exec e.1 s = .next (s.putWalk { k.w with
         steps := k.w.steps + 1, stamp := s.clk (dieOf k.t.core), pc := k.w.pc + 1
         regs := match e.2.2 with
           | some v => k.w.regs.set d (v % 2 ^ 64)
           | none => k.w.regs })) ∧
  (∀ (s : State) (k : KCtx) (d a b i : Nat) (w : Walk),
     w = { k.w with steps := k.w.steps + 1, stamp := s.clk (dieOf k.t.core), pc := k.w.pc + 1 } →
     (∀ e ∈ ([(Instr.crd8 d a i, CarderOp.crd8 d a i, 1), (Instr.crd16 d a i, CarderOp.crd16 d a i, 2),
         (Instr.crd32 d a i, CarderOp.crd32 d a i, 4), (Instr.crd64 d a i, CarderOp.crd64 d a i, 8)] :
           List (Instr × CarderOp × Nat)),
       s.runsCarder k e.2.1 → 0 ≤ (k.reg a : Int) + sext 15 i → (k.reg a : Int) + sext 15 i < 2 ^ 57 →
       ((k.reg a : Int) + sext 15 i).toNat % e.2.2 = 0 →
       exec e.1 s = .next (s.putWalk { w with reads := w.reads ++ [⟨k.w.steps, d, ((k.reg a : Int) + sext 15 i).toNat, e.2.2⟩] })) ∧
     (∀ e ∈ ([(Instr.cemit8 a b, CarderOp.cemit8 a b, 1), (Instr.cemit16 a b, CarderOp.cemit16 a b, 2),
         (Instr.cemit32 a b, CarderOp.cemit32 a b, 4)] : List (Instr × CarderOp × Nat)),
       s.runsCarder k e.2.1 → (k.reg a + 1) * e.2.2 ≤ 128 * k.o.walkForm.nrows →
       ∀ row lane, row = k.o.regionRow k.t (k.reg a * e.2.2 / 128) → lane = k.reg a * e.2.2 % 128 / 4 →
       e.2.2 = 4 ∨ (palGet s.pal k.t.core row lane).ecc = .sound →
       exec e.1 s = .next ((s.putElem k.t.core row lane (putBits (palGet s.pal k.t.core row lane) (8 * e.2.2)
         (8 * (k.reg a * e.2.2 % 4)) (k.reg b))).putWalk w)) ∧
     (∀ e ∈ ([(Instr.cbeq a b i, CarderOp.cbeq a b i, decide (k.reg a = k.reg b)),
         (Instr.cbne a b i, CarderOp.cbne a b i, decide (k.reg a ≠ k.reg b)),
         (Instr.cblt a b i, CarderOp.cblt a b i, decide (k.reg a < k.reg b)),
         (Instr.cbge a b i, CarderOp.cbge a b i, decide (k.reg b ≤ k.reg a)), (Instr.cjmp i, CarderOp.cjmp i, true)] :
           List (Instr × CarderOp × Bool)),
       s.runsCarder k e.2.1 → (e.2.2 = true → i < k.t.kernel.cardlen) →
       exec e.1 s = .next (s.putWalk (if e.2.2 then { w with pc := i } else w))) ∧
     (s.runsCarder k .cend → exec .cend s = .next (s.walkEnds k.w none)))

/-! ## Events: requests to memory -/

/-- R77, R79, R85, R100, R101, R385: a piece of a request whose turn has come is performed at its home: a read takes its bytes,
a write stores its sector, an atomic applies its lanes; an acknowledgement and the flushing read complete plain writes; a
performed load or atomic lands. The order at one pseudo-channel is the model's choice, log entry 13, and so are the 32 bytes that a
piece counts in RDBYTES or WRBYTES, log entry 44. -/
def Obligations.RequestEvents : Prop :=
  ∀ (s : State) (q i : Nat) (r : Req) (p : Piece), s.piece? q i = some (r, p) →
    (r.kind = .load → s.ripe r p = true → exec (.pseudoChannelRead q i) s = .next (match p.window with
      | some w => (s.serveWindow r w none p).1.performed r i (s.serveWindow r w none p).2
      | none => (s.readPiece p).1.performed r i (s.readPiece p).2)) ∧
    (r.kind = .store → s.ripe r p = true → ∀ a, p.accs.head? = some a → exec (.pseudoChannelWrite q i) s =
      .next (((s.writeSector p.tag p.bytes).noteBytes a.pa 32 true).performed r i { p with performed := true })) ∧
    (∀ op w, r.kind = .atom op w → s.ripe r p = true → ∀ x, x = s.applyAtoms op p.tag p.accs →
      exec (.pseudoChannelAtomic q i) s =
        .next (x.1.performed r i { p with accs := x.2.1, performed := true, poisoned := x.2.2 })) ∧
    (r.kind.plainWrite = true → p.performed = true → p.acked = false → p.toHost = false → p.at_ = dieOf r.core →
      exec (.writeAcknowledge q i) s = .next (s.acknowledge r i p)) ∧
    (r.kind = .load → r.canLand p = true → exec (.loadSectorLanding q i) s = .next (s.landed r i p)) ∧
    (∀ op w, r.kind = .atom op w → r.canLand p = true → exec (.atomicReplyLanding q i) s = .next (s.landed r i p)) ∧
    (r.kind = .bump → r.canLand p = true → exec (.atomicReplyLanding q i) s = .next (s.bumpReply r p)) ∧
    (∀ f t, f = (fun (p : Piece) => p.toHost && p.performed && !p.acked) → s.req? q = some t → t.kind.plainWrite = true →
      t.pieces.any f = true → ∀ u, u = { t with pieces := t.pieces.map (fun p => if f p then { p with acked := true } else p) } →
      exec (.flushingReadCompletion q) s = .next (if u.done then (s.putReq u).completeReq u else s.putReq u))

/-- R146, R217, R327: a sector is read ahead; a waiting translation takes its next step; a fetched packet is installed. R155, R158, R199: an append, a bump or a request for a list's room whose turn has come is applied at its home, and the reply
completes a conversion or traps it. -/
def Obligations.FetchEvents : Prop :=
  (∀ (s : State) (n m i d x : Nat) (t : Team) (g : Group) (c : Cand), s.team? n = some t → t.group? m = some g → g.cand? i = some c →
     (∀ a l, c.wait = .xlate (a :: l) → exec (.translationWalk n m i) s = .next (s.walkNeed t g c a l)) ∧
     (∀ va k, m ≠ 32 → c.wait = .fetch va k → s.codeHeld t.core t.part va k = false →
       exec (.codeFetchReturn n m i) s = .next (s.fetchMain t g i va k)) ∧
     (∀ st va k, t.stream = some st → st.wait = .fetch va k → s.codeHeld t.core t.part va k = false → exec (.codeFetchReturn n 32 i) s = .next (s.fetchStream t st va k)) ∧
     (∀ l, c.wait = .enqRoom l → s.queueRoom t.part (l.headD 0) = true → exec (.enqRoomRetry n m i) s =
       .next (s.modGroup n m (fun g => g.modCand [i] (fun d => { d with wait := .offer l })))) ∧
     (∀ v p b k, c.wait = .twait v p b k → v + 2048 ≤ s.clk (dieOf t.core) → (t.barrier b).reached k = false →
       t.runs = true → g.trapping = none → (∀ j < 4, (palGet s.pal t.core (t.barRow b) (4 * (b % 8) + j)).ecc = .sound) →
       exec (.twaitTimeout n m i) s =
       .next (s.modGroup n m (fun g => ((g.setPred p (g.active c.slices) (fun _ => false)).complete c.slices
         ((g.slice (c.slices.headD 0)).pc.add 1)).modCand c.slices (fun d => { d with wait := .ready })))) ∧
     (inHbm (x * 32) = true → homeDie (x * 32) = d → (s.die d).ahead.contains x = false → exec (.prefetchIssue d x) s =
       .next ((s.putDie d { s.die d with ahead := (s.die d).ahead ++ [x] }).tmAdd d (prefetchCounter (x * 32)) 1))) ∧
  (∀ (s : State) (q : Nat) (r : Req) (p : Piece), s.piece? q 0 = some (r, p) →
     (∀ w a, r.kind = .append w → p.accs.head? = some a → s.ripe r p = true → exec (.appendApply q) s =
       .next ((s.appendList r p w p.tag a.pa).putReq (r.putPiece 0 { p with performed := true }))) ∧
     (r.probe ≠ .none ∨ s.partner r.team r.group r.id = .none →
       (r.kind = .bump → s.ripe r p = true → exec (.bumpApply q) s =
         .next ((s.bumpAtomic r p).1.putReq (r.putPiece 0 (s.bumpAtomic r p).2))) ∧
       (r.kind = .olist → s.ripe r p = true → exec (.outlierListRequest q) s =
         .next ((s.listAtomic r p).1.putReq (r.putPiece 0 (s.listAtomic r p).2)))) ∧
     (r.kind = .olist → r.canLand p = true → r.probe = .none → ∀ u, u = r.putPiece 0 { p with landed := true } →
       ∀ a, p.accs.head? = some a → exec (.outlierReply q) s =
         .next (if p.poisoned = true then State.reply ((s.putReq u).lanesDie r.team r.group (p.accs.flatMap (fun a => a.outs)))
             r.team r.group r.id 2 (fun s => s.cvtEffect u)
           else if a.reply = 1 then (s.putReq u).reply r.team r.group r.id 2 (fun s => s.cvtEffect u)
           else (s.putReq u).replyTrap r.team r.group r.id 0x12
             (info43 0 0 1 0 (lanesMask (p.accs.flatMap (fun a => a.outs)))))))

/-! ## Events: engines, swatches, arrays -/

/-- R105, R109, R137, R138, R141: the sectors of a copy land or fault one by one; a gather engine reads a sector once for every
position that names it, and its replies land (the lowest returned first: the model's choice, log entry 54); a scatter applies a
position after those below it of the same element. That a sector which lands with META or DENSE marks its operation as faulted, so
that its batch is not clean, is the model's choice, log entry 52. -/
def Obligations.EngineEvents : Prop :=
  ∀ (s : State) (n u : Nat) (o : Op) (t : Team),
    (s.copyTurn n u = some (o, t) →
      (∀ s1, s.copyUnit o t u = .ok (s1, none) →
        exec (.copySectorLanding n u) s = .next (s1.unitsEnd o (o.unitGroup u) 1)) ∧
      (∀ s1 f, s.copyUnit o t u = .ok (s1, some f) → exec (.copySectorLanding n u) s =
        .next ((s1.noteOp o f.code (xfinfo f.va 0)).unitsEnd { o with faulted := true } (o.unitGroup u) 1)) ∧
      (∀ s1 f, s.copyUnit o t u = .error (s1, f) → exec (.copySectorFault n u) s =
        .next (((match f.rec_ with
          | some r => s1.opFault o r
          | none => if o.kind.outward = true then s1 else s1.noteSector t f.va).noteOp o f.code (xfinfo f.va 0)).unitsEnd
            { o with faulted := true, fault := (o.unitGroup u).foldl setBit o.fault } (o.unitGroup u) 1))) ∧
    (s.op? n = some o → s.team? o.team = some t → o.kind = .gather →
      (s.opReady o = true → ∀ l, o.waitingAt u = l → l ≠ [] →
        (u ≠ 2 ^ 51 → s.engineRoom t (64 * u) l.length = true ∧ s.engineHeld t (64 * u) 1 = false) →
        ∀ a, a = l.foldl (fun (a : State × Op) k => a.1.gatherPos a.2 t k)
            (if u = 2 ^ 51 then s else (s.noteSector t (64 * u)).noteSector t (64 * u + 32), o) →
        exec (.gatherEngineRequest n u) s = .next (a.1.putOp a.2)) ∧
      (o.got ≠ [] → 0 < 64 / o.form.esz → exec (.gatherReplyLanding n) s =
        .next (s.landReplies o t ((o.got.map (fun e => e.1)).take (64 / o.form.esz))))) ∧
    (s.op? n = some o → s.team? o.team = some t → o.kind = .scatter → u < o.total → nbit o.unitsDone u = false →
      s.opReady o = true → (∀ q < u, nbit o.unitsDone q = true ∨ o.idx.getD q 0 ≠ o.idx.getD u 0) →
      (o.posInTable u = true → s.engineHeld t (o.posVa u) o.form.rights = false) →
      exec (.scatterPositionApply n u) s = .next ((s.scatterPos o t u).1.positionsEnd (s.scatterPos o t u).2 t [u]))

/-- R51, R88, R89, R113, R268: the arrivals and landings of swatch accesses and of the deliveries of `copy.swatch`. The order of one
source's accesses to one row is the model's, log entry 48; that FINFO of a refused delivery names its first destination row is log entry
131, and what it sends over links and ports log entry 154. -/
def Obligations.SwatchEvents : Prop :=
  ∀ (s : State) (q i : Nat) (r : SwReq) (o : Op) (d : Dest) (t : Team),
    (s.swreq? q = some r → r.stage = 0 → s.flagRoom r = true → r.module = s.regs.modid → s.swWay r = .go → r.probe = .none →
      ∀ u, u = s.swCarry r → u.partner r.team r.group r.id = .none →
      ∀ k, k = s.swDecide r.handle r.row 1 r.team r.core (r.op = .st) r.op.isAtom →
      (s.swFind r.handle = none → exec (.swatchAccessArrival q) s = .next (u.swRefuse r k)) ∧
      (∀ e, s.swFind r.handle = some e →
        (r.op.reads = true → k = 0 → s.swBehind r = false ∧ (r.op.isAtom = true → s.swReleased r e.scope = true)) →
        exec (.swatchAccessArrival q) s = .next (if k ≠ 0 then u.swRefuse r k
          else u.swAccept r (if r.op.reads then u.swPerform r e else (u, []))))) ∧
    (s.swreq? q = some r → r.stage = 1 → r.op.reads = false → s.swBehind r = false → r.module = s.regs.modid →
      ∀ e, s.swFind r.handle = some e → s.swReleased r e.scope = true → exec (.swatchLanding q) s =
        .next (((s.swPerform r e).1.dropSwreq r.id).modBar r.team r.bar (fun b => b.leave 4))) ∧
    (s.swreq? q = some r → r.stage = 2 → r.op.reads = true → ∀ g, s.group? r.team r.group = some g →
      ∀ u, u = ((r.replies.filter (fun (e : Nat × Elem) => e.2.valid)).foldl
          (fun (s : State) (e : Nat × Elem) => s.putElem r.core (g.vecRow r.dst) e.1 (Elem.of e.2.val)) s) →
      ∀ v, v = (u.lanesDie r.team r.group ((r.replies.filter (fun e => decide (e.2.ecc = .uncorrectable))).map
          (fun e => e.1))).lowerFlag r.team r.group r.flag →
      exec (.swatchReplyLanding q) s =
        .next ((if r.op.isAtom then v.modBar r.team r.bar (fun b => b.leave 4) else v).dropSwreq r.id)) ∧
    (s.dest? q i = some (o, d, t) → d.stage = 0 → d.classL.isSome = false → s.opReady o = true → d.module = s.regs.modid →
      s.destLost t d = false → s.destDead t d = false → s.destHeld t d = false → ∀ u, u = s.destCarry o t d →
      ∀ k, k = u.swDecide d.handle o.swRow0 o.shape.count t.id t.core true false →
      exec (.swatchDeliveryArrival q i) s = .next (if k = 0 then u.putOp { o with dests := o.dests.set i { d with stage := 1 } }
        else (u.noteOp o k (swFinfo d.handle o.swRow0)).destEnds { o with faulted := true, fault := setBit o.fault i } i d)) ∧
    (s.dest? q i = some (o, d, t) → d.stage = 1 → d.module = s.regs.modid → ∀ e, s.swFind d.handle = some e →
      exec (.swatchDeliveryLanded q i) s = .next (((s.deliver o t e).1.modBar e.team e.bar Barrier.arrive).destEnds
        { o with faulted := o.faulted || (s.deliver o t e).2 } i d))

/-- R124, R125, R127, R128, R277, R377: the segments of an `mma`, the end of a tile word, the grants of tiles and the gating of an
array. Which tile MACQ_GRANT gives, in which cycle and to which stream, is the model's choice, log entry 63; the order of the faults of
a segment is log entry 133, and the segment of a MUNINIT of a tile word log entry 156. -/
def Obligations.MatrixEvents : Prop :=
  ∀ (s : State) (n q : Nat) (o : Op) (t : Team),
    (s.op? n = some o → s.team? o.team = some t → (s.runningMma t.core).map (fun p => p.id) = some n →
      (o.readsMemory = true → s.opReady o = true ∧ s.segmentHeld t o = false) →
      ∀ now, now = s.clk (dieOf t.core) →
      (s.core t.core).ramp.any (fun r => decide (now < r)) = false → (s.core t.core).gated.any id = false →
      ∀ s0, s0 = s.putCore t.core { s.core t.core with lastMma := now } →
      (∀ s1 e f, s0.segmentFault t o o.unitsDone = (s1, some (e, f, none)) →
        exec (.mmaSegment n) s = .next ((s1.noteOp o e f).longEnds { o with faulted := true })) ∧
      (∀ s1 e f r, s0.segmentFault t o o.unitsDone = (s1, some (e, f, some r)) →
        exec (.mmaSegment n) s = .next (((s1.opFault o r).noteOp o e f).longEnds { o with faulted := true })) ∧
      (∀ s1, s0.segmentFault t o o.unitsDone = (s1, none) → exec (.mmaSegment n) s =
        .next (if o.unitsDone + 1 < o.total then (s1.applySegment t o o.unitsDone).putOp { o with unitsDone := o.unitsDone + 1 }
          else (s1.applySegment t o o.unitsDone).longEnds { o with unitsDone := o.unitsDone + 1 }))) ∧
    (s.op? n = some o → s.team? o.team = some t → o.kind.onPath = true → o.since + 136 ≤ s.clk (dieOf t.core) → t.onCore = true →
      (∀ p ∈ s.ops, p.kind.onPath = true → p.team = o.team → p.tile = o.tile → o.id ≤ p.id) →
      s.outstanding o.after = false → (o.kind = .mstore → ovfOf (o.snap.getD 0 0) = 2 → s.engineHeld t (olistVa o.snap) 3 = false) →
      ∀ u v, u = s.tileEffect t o → v = u.longEnds ((u.op? n).getD o) → exec (.tileWordCompletion n) s =
        .next { v with ops := v.ops.map (fun p => if p.kind.onPath = true ∧ p.team = o.team ∧ p.tile = o.tile ∧ p.id ≠ o.id
          then { p with since := s.clk (dieOf t.core) } else p) }) ∧
    (s.team? n = some t → ∀ st, (s.streams t.core).find? (fun w => !s.streamHeld w.1 w.2) = some (t, st) → st.wait = .tile →
      ((s.core t.core).issuedAt ≠ s.clk (dieOf t.core) + 1 ∨ (s.core t.core).unit ≤ 4) → ∀ k, s.freeTile t.core = some k →
      ∀ m z, s.macqAt t st = some (m, z) → exec (.macqGrant n) s =
        .next ((((s.mapTile t m k).macqEnds t z 1).tookUnit t.core 4).firstIssue n)) ∧
    (s.tileDeadlock n = true → ∀ w, (s.tileWaiters n).foldl (fun (a : Option (Team × Stream)) w => match a with
        | none => some w
        | some b => if b.1.placed ≤ w.1.placed then some w else some b) none = some w →
      ∀ m z, s.macqAt w.1 w.2 = some (m, z) → exec (.macqDeadlockFail n) s = .next (s.macqEnds w.1 z 0)) ∧
    ((s.core n).lastMma + 4096 ≤ s.clk (dieOf n) → s.runningMma n = none → exec (.arrayPowerGate n q) s =
      .next (s.putCore n { s.core n with gated := (s.core n).gated.set q true }))

/-- R168, R291, R293: a round of `inv`, a Carder read's return, and the end of a walk at its step limit. -/
def Obligations.WalkEvents : Prop :=
  ∀ (s : State) (n i : Nat),
    (∀ w, s.walk? n = some w → ∀ t, s.team? w.team = some t →
      (s.atLimit w = true → w.reads = [] → exec (.walkStepLimit n) s = .next (s.walkEnds w (s.walkStop t w))) ∧
      (∀ r o, w.reads.find? (fun r => decide (r.id = i)) = some r → s.op? w.op = some o →
        s.opReady o = true → s.engineHeld t r.va 1 = false →
        (∀ v, s.engineRead t 3 r.va r.size = .ok v → exec (.carderReadReturn n i) s = .next ((s.noteSector t r.va).putWalk
          { w with regs := w.regs.set r.reg v, reads := w.reads.filter (fun q => q.id != i) })) ∧
        (∀ f, s.engineRead t 3 r.va r.size = .error f → exec (.carderReadReturn n i) s =
          .next ((match f.rec_ with
            | some e => s.opFault o e
            | none => s.noteSector t f.va).walkEnds w (some (f.code, xfinfo f.va 2)))))) ∧
    (∀ t g iv j, s.team? n = some t → t.engaged = true → t.group? i = some g →
      (g.cand? j).map (fun (c : Cand) => c.wait) = some (.inv iv.lock) → g.invOf iv.lock = some iv → iv.left = 0 →
      ∀ f rs, f = invForm iv.entry → rs = routines iv.words →
      s.settle n i t.core (f.roundRefs g rs ((iv.lanes.filter (fun x => !x.fin)).map (fun x => x.lane))) = s →
      ∀ a v, a = iv.lanes.foldl (fun (a : State × List InvLane) x => if x.fin then (a.1, a.2 ++ [x])
        else ((a.1.laneRound t.core g f iv rs x).1, a.2 ++ [(a.1.laneRound t.core g f iv rs x).2])) (s, []) →
      v = { iv with lanes := a.2, round := iv.round + 1, left := iv.words.length + 2 } →
      exec (.invRound n i j) s = .next (if a.2.all (fun x => x.fin) then a.1.invEnds n i (g.putInv iv.lock (some v)) f v
        else a.1.putGroup n (g.putInv iv.lock (some v))))

/-! ## Events: traps -/

/-- R310, R311: entry of a raised trap for which a user handler is registered: TRAPCODE, TRAPPC and TRAPINFO take the trap's,
INPROG and USER are set, the frame is written, every slice that has not ended stands at the handler's packet with its live lanes
active and an empty stack, and they form one gang. Its age from the entry and its starvation counter 0 are the model's choice, log entry
146; the values of the frame and the ended slices are log entries 26 and 27. -/
def Obligations.TrapEntry : Prop :=
  ∀ (s : State) (n m p : Nat) (t : Team) (g : Group) (r : TrapRec), s.team? n = some t → t.group? m = some g →
    g.trapping = some r → r.code < 256 → g.entryWaits r.slices = false → g.inprog = false →
    s.handler t.core g r.code = some p → t.status ≠ .killed →
    (∀ i, handlerPlace r.code = some i → (palGet s.pal t.core (g.trapRow + 9) i).ecc = .sound) →
    ∃ u h, exec (.trapEntry n m) s = .next u ∧ u.group? n m = some h ∧
      h.trapcode = r.code + 2 ^ 8 + 2 ^ 9 ∧ h.trappc = r.pc.word ∧ h.trapinfo = r.info ∧ h.trapping = none ∧
      h.saved = some ⟨(g.setPc r.slices r.pc).slices, (s.inClauses t g).cands, r.slices⟩ ∧
      h.cands = [⟨(List.range 8).filter (fun i => !(h.slices.getD i noSlice).ended), .ready, s.clk (dieOf t.core), 0, [], []⟩] ∧
      h.slices = (g.setPc r.slices r.pc).slices.mapIdx (fun i x => if x.ended then x else
        { x with mask := liveNibble g.dead i, stack := [], pc := ⟨p, 0⟩, hdrEnd := p }) ∧
      h.preds = g.preds ∧ h.flags = g.flags ∧ h.mode = g.mode ∧ h.tcmp = g.tcmp ∧ h.dead = g.dead ∧
      u = (s.writeFrame t.core ((s.inClauses t g).save r true)).putGroup n h

/-- R33, R310, R313, R315, R362, R364: the other events of traps: a trap without a user handler goes to the system handler; inside a
handler it is TRAP_DOUBLE, and the team is killed; a due timer match disarms the comparator, and with a handler traps at the next
word; a pending SOFT event is taken at a boundary. -/
def Obligations.TrapEvents : Prop :=
  ∀ (s : State) (n m : Nat) (t : Team) (g : Group), s.team? n = some t → t.group? m = some g → s.cur.chain = false →
    (∀ r, g.trapping = some r → g.entryWaits r.slices = false →
      (g.inprog = false → s.handler t.core g r.code = none → t.status ≠ .killed →
        (∀ i, handlerPlace r.code = some i → (palGet s.pal t.core (g.trapRow + 9) i).ecc = .sound) →
        ∀ h, h = (s.inClauses t g).save r false →
        exec (.trapEntry n m) s = .next (((s.writeFrame t.core h).putGroup n h).systemHandler t h r)) ∧
      (g.inprog = true → exec (.trapEntry n m) s =
        .next (s.kill n m 0x17 r.pc.word (g.trapcode % 256) r.info g.tick)) ∧
      (r.code = 0x14 → exec (.trapDeadlane n m) s = .next (s.enter t g r))) ∧
    (g.timerDue = true → s.handler t.core g 0x15 = none → exec (.timerMatch n m) s = .next (s.putGroup n { g with tcmp := 0 })) ∧
    (∀ c h, g.timerDue = true → (s.handler t.core g 0x15).isSome = true → t.runs = true → s.timerCand t g = some c →
      h = Group.endTwait { g with tcmp := 0 } c (t.phaseReached c.wait) →
      exec (.timerMatch n m) s = .next ((s.putGroup n h).raise n m ⟨0x15, 0, (h.slice (c.slices.headD 0)).pc, c.slices⟩)) ∧
    (∀ c, s.softCand t g = some c → g.soft.sub ≠ 0 → g.noLane = false → t.runs = true → exec (.softEvent n m) s =
      .next ((s.putGroup n { g with soft := ⟨0, 0, 0, 0⟩ }).raise n m
        ⟨0x16, info43 g.soft.space 0 g.soft.sub g.soft.row g.soft.lanes.toNat, (g.slice (c.slices.headD 0)).pc, c.slices⟩))

/-! ## Events: queues, launch, placement -/

/-- R300 to R304: the scan of a queue, the poll of a slot, and the packets at a slot's head. That the scan takes up a parked queue whose
pending byte is 0 is the model's choice, log entry 68; that the scheduler's accesses translate by the TLB of core 0, log entry 129; that a
KERNEL leaves the queue at its launch, log entry 20. -/
def Obligations.PacketEvents : Prop :=
  ∀ (s : State) (i : Nat) (h : HwSlot) (e : QEntry) (w : List Nat) (x : HwSlot), x = { h with compact := none, timer := 0 } →
    (s.slot? i = some h → h.started = false → (s.part h.part).wdBusy = false → exec (.headPoll i) s = .next (s.poll i h)) ∧
    (s.slot? i = some h → s.sliceOver h = true → exec (.sliceExpiry i) s =
      .next (if s.waiterFor h = true then s.unmap i else s.putSlot i (some { h with sliceAt := s.ns 0 }))) ∧
    (s.headOf i 1 = some (h, e, w) →
      ((kernelPacket w).ok = false → exec (.kernel i) s = .next (s.refuse i h statusType)) ∧
      (∀ s1 s2 v m k args, (kernelPacket w).ok = true →
        (match s.resident h.part (kernelPacket w).desc with
          | some c => s1 = s ∧ v = c.val
          | none => s.qread h.part h.queue (kernelPacket w).desc 64 = (s1, .ok v)) →
        (if (kernelPacket w).narg ≤ 8 then s2 = s1 ∧ m = 0
          else s1.qread h.part h.queue (kernelPacket w).args (4 * ((kernelPacket w).narg - 8)) = (s2, .ok m)) →
        k = kernelOf (kernelPacket w).desc v →
        args = (List.range (kernelPacket w).narg).map (fun i => if i < 8 then w.getD (8 + i) 0 else fld m (32 * (i - 8)) 32) →
        s2.kernelStatus h.part (kernelPacket w) k (decide (fld v 432 80 = 0)) (h.compact.map (fun c => c.1)) = 0 →
        exec (.kernel i) s = .next ((s2.launchKernel h e.cls (kernelPacket w) k args v).consume i { h with
          compact := none
          timer := if (h.compact.map (fun c => c.1)).getD (kernelPacket w).grid = 0 then 0 else h.timer } e))) ∧
    (∀ n, n = (if nbit (pbyte w 4) 3 then 8 else 4) → s.headOf i 2 = some (h, e, w) → pbyte w 4 / 16 = 0 → pbyte w 4 % 8 ≤ 5 →
      pzero w 7 8 = true → pzero w 32 64 = true → plong w 8 % n = 0 →
      (n = 4 → plong w 16 < 2 ^ 32 ∧ plong w 24 < 2 ^ 32) → ∀ s1 v, s.qread h.part h.queue (plong w 8) n = (s1, .ok v) →
      ∀ k, k = (if condTest (pbyte w 4 % 8) (8 * n) (v &&& plong w 16) (plong w 24) = true then pbyte w 5 else pbyte w 6) →
      exec (.cond i) s = .next (s1.consume i { x with skip := k } e)) ∧
    (∀ s1 v, s.headOf i 3 = some (h, e, w) → tokenOk w = true → s.qread h.part h.queue (plong w 8) 8 = (s1, .ok v) →
      exec (.wait i) s = .next (if plong w 16 ≤ v then s1.consume i x e else s1.putSlot i (some { h with started := true })) ∧
      (h.started = true → plong w 16 ≤ v → exec (.tokenWaitSatisfied i) s = .next (s1.consume i x e))) ∧
    (∀ pa tag, s.headOf i 4 = some (h, e, w) → tokenOk w = true → s.tokenAt h.part (plong w 8) 3 = .ok (pa, tag) →
      ∀ u, u = s.writeMem tag pa (bytesLE 8 (s.readMem tag pa 8 + plong w 16)) →
      ∀ v, v = ((u.learn schedCore h.part (plong w 8) 3).access h.part schedCore pa 32 false).noteBytes pa 32 true →
      exec (.signal i) s = .next (v.consume i x e)) ∧
    (s.headOf i 5 = some (h, e, w) → pzero w 4 8 = true → pzero w 25 64 = true → fld (pbyte w 24) 4 3 = 0 → plong w 8 % 4 = 0 →
      0 < w.getD 4 0 → w.getD 4 0 ≤ 2 ^ 31 → 0 < w.getD 5 0 → w.getD 5 0 ≤ 2 ^ 31 →
      ∀ s1 s2 next c, s.qread h.part h.queue (e.packetVa (e.rdidx + 1)) 64 = (s1, .ok next) →
      s1.qread h.part h.queue (plong w 8) 4 = (s2, .ok c) → pbyte (packetWords next) 0 = 1 →
      (nbit (pbyte w 24) 7 = true → pbyte w 24 % 16 < pbyte (packetWords next) 24 % 32) →
      exec (.compact i) s = .next (s2.consume i { x with compact := some (min (cdiv c (w.getD 4 0)) (w.getD 5 0),
        if nbit (pbyte w 24) 7 then some (pbyte w 24 % 16, c) else none) } e)) ∧
    (s.headOf i 6 = some (h, e, w) → exec (.barrier i) s =
      .next (if pzero w 4 64 = true then s.consume i x e else s.refuse i h statusType)) ∧
    (∀ p q b k s1, q < (s.part p).qcount → s.slotOf p q = none → s.regs.bootst = 1 → (s.part p).wdBusy = false →
      s.qread p q ((s.part p).pendbase + q) 1 = (s1, .ok b) → (b ≠ 0 ∨ (s.parked? p q).isSome = true) → s1.claim p q = some k →
      exec (.pendingScan p q) s = .next (s1.takeUp p q k (decide (b ≠ 0))))

/-- R27, R306, R307, R317, R324, R376: a core starts at its time; a distributor places the next team of the first launch that may be
placed; a chunk is stolen; a team that may retire does; a stop and its save; a restore. -/
def Obligations.PlacementEvents : Prop :=
  ∀ (s : State) (n : Nat),
    (n < Config.cores → s.regs.bootst = 1 → s.regs.bootNs + startNs n ≤ s.ns 0 →
      exec (.coreStart n) s = .next (s.putCore n { s.core n with started := true })) ∧
    (∀ p l, p < 64 → (∀ q < p, s.placeFor n q = none) → s.nextLaunch p n = some l → s.itsTurn l n = true →
      (l.coop = false → ∀ u v, s.placeNext l n = some (u, v) → exec (.teamPlacement n) s = .next u) ∧
      (l.coop = true → (∀ d ∈ l.openDies, s.itsTurn l d = true) → ∀ u, s.placeGrid l = some u →
        exec (.teamPlacement n) s = .next u)) ∧
    (∀ p d l c, p < 64 → (∀ q < p, s.steal n q = none) → (s.diesOf p).contains n = true → s.nextLaunch p n = none →
      (∃ b ∈ s.roundFrom p n, ∃ x ∈ s.untouched p b, (s.bestCore (coresOf n) x.1.need).isSome = true) →
      (s.roundFrom p n).find? (fun d => decide (2 ≤ (s.untouched p d).length)) = some d →
      lastChunk (s.untouched p d) = some (l, c) → exec (.stealRequest n) s = .next (s.putLaunch { l with
        chunks := l.chunks.map (fun x => if x.k = c.k then { x with die := n } else x) })) ∧
    (∀ t, s.team? n = some t →
      (s.mayRetire t = true → exec (.teamRetirement n) s = .next ((s.retire t).startWalks (clusterOf t.core))) ∧
      (t.status ≠ .stopping → t.status ≠ .stopped → t.status ≠ .saving → s.mayStop t = true →
        exec (.preemptionStop n) s = .next (s.stopUnit t)) ∧
      (t.status = .stopping → s.drained t = true → exec (.preemptionStop n) s = .next (s.abortTeam t)) ∧
      (t.status = .stopped → exec (.preemptionStop n) s = .next (s.beginSave t)) ∧
      (∀ k, t.status = .saving → t.saveSlot = some k → exec (.preemptionStop n) s = .next (s.saveTeam t k)) ∧
      (s.wantsBack t = true → (t.coop = true → ∀ u ∈ s.teams, u.launch = t.launch → u.leaving = false) → (s.restoreUnit t).all (fun v => !s.restoreBehind v) = true → ∀ u,
        s.restoreGrid (s.restoreUnit t) = some u → exec (.teamRestore n) s = .next u))

/-! ## Events: reliability -/

/-- R357, R365, R366, R371 to R373, R385: bits of an element flip; a sector of HBM becomes uncorrectable; a run is mirrored; the
watchdog and WDCTL start a reset, which ends once the partition's teams are quiet. -/
def Obligations.ReliabilityEvents : Prop :=
  ∀ (s : State) (n m l v : Nat) (f : Bool),
    (n < Config.cores → m < Config.rows → l < 32 → (palGet s.pal n m l).ecc ≠ .uncorrectable →
      ∃ u, exec (.paletteSoftError n m l f) s = .next u ∧
        palGet u.pal n m l = { palGet s.pal n m l with ecc := if f then .uncorrectable else .correctable } ∧
        u = { s with pal := u.pal }) ∧
    (inHbm (32 * n) = true → ∃ u, exec (.hbmUncorrectableError n) s = .next u ∧ u.poisoned (32 * n) = true ∧
      u = { s with poison := u.poison }) ∧
    (∀ r x, s.allocatedRows n ≤ Config.mirrorRows → s.runToMirror n m = some r → s.mirrorRoom n r.2 = some x →
      ∀ u, u = (List.range r.2).foldl (fun (s : State) i => s.copyRow n (r.1 + i) (x + i)) s →
      exec (.mirrorBuild n m) s = .next (u.putCore n { u.core n with mirrors := (u.core n).mirrors ++ [⟨r.1, r.2, x⟩] })) ∧
    (∀ h, s.slot? n = some h → h.limit ≠ 0 → h.limit * 1000000 ≤ h.timer → (s.part h.part).wdBusy = false →
      exec (.watchdogExpiry n) s = .next (s.beginReset h.part false (some h.queue))) ∧
    (s.managed = true → n < 64 → ∀ u, u = s.putPart n { s.part n with wdTimeout := v % 2 ^ 16 } →
      exec (.wdctlReset n v) s =
        .next (if nbit v 31 = true ∧ (s.part n).wdBusy = false then u.beginReset n true none else u)) ∧
    ((s.part n).wdBusy = true → (∀ t ∈ s.teams, t.part = n → s.teamQuiet t = true) →
      ∀ u, u = (s.teams.filter (fun t => decide (t.part = n))).foldl (fun (s : State) t => s.sweepTeam t) s →
      exec (.resetComplete n) s = .next ((List.range 384).foldl (fun (s : State) k => s.startWalks k)
        (u.putPart n { u.part n with windows := [], wdBusy := false, wdResets := satAdd 16 (u.part n).wdResets 1 })))

/-! ## Events: registers -/

/-- R298, R326, R330, R331, R333, R335, R340, R356, R380: while management is available, each register write takes the fields that
its rule gives and leaves everything else as it was. -/
def Obligations.RegisterEvents : Prop :=
  ∀ (s : State) (p v : Nat), s.managed = true →
    (p < 64 →
      (fld v 17 9 ≤ 256 → fld v 0 17 ≤ 65536 → fld v 0 17 + s.otherQueues p ≤ 65536 → exec (.qcfgWrite p v) s =
        .next (s.putPart p { s.part p with slotmax := fld v 17 9, qcount := fld v 0 17 })) ∧
      (∀ u, u = s.onRead p → u.managed = true → u.partIdle p = true →
        exec (.ptrootWrite p v) s = .next ((u.putPart p { u.part p with ptroot := fld v 21 31 * 2 ^ 21, ptrootEn := nbit v 0 }).tlbDrop
          p 0 (2 ^ 57)) ∧
        exec (.shbaseWrite p v) s = .next (u.putPart p { u.part p with shbase := fld v 30 27 * 2 ^ 30 }) ∧
        exec (.shsizeWrite p v) s = .next (u.putPart p { u.part p with shsize := v % 2 ^ 32 })) ∧
      (v % 2 ^ 16 ≠ 0 → exec (.optltoWrite p v) s = .next (s.putPart p { s.part p with optlto := v % 2 ^ 16 })) ∧
      (∀ z a, z = fld v 57 6 → a = fld v 16 41 * 2 ^ 16 → (s.part p).tlbBusy = false → z ≤ 41 → a % 2 ^ (z + 16) = 0 →
        ∀ u, u = s.tlbDrop p a (2 ^ (z + 16)) → exec (.tlbinv p v) s = .next (u.putPart p { u.part p with
          tlbBusy := true, tlbLog2 := z, tlbVa := a
          tlbWait := (s.reqs.filter (fun r => decide (r.part = p) && r.under a (2 ^ (z + 16)))).map (fun r => r.id) }))) ∧
    ((s.part p).tlbBusy = true →
      s.reqs.any (fun r => (s.part p).tlbWait.contains r.id && r.under (s.part p).tlbVa (2 ^ ((s.part p).tlbLog2 + 16))) = false →
      ∀ u, u = s.tlbDrop p (s.part p).tlbVa (2 ^ ((s.part p).tlbLog2 + 16)) →
      exec (.tlbinvComplete p) s = .next (u.putPart p { u.part p with tlbBusy := false, tlbWait := [] })) ∧
    (p < 384 → (v % 256 < 64 ∨ v % 256 = 0xFF) → s.clusterUsed p = false →
      exec (.cluownWrite p v) s = .next { s with regs := { s.regs with cluOwn := sset 0xFF s.regs.cluOwn p (v % 256) } }) ∧
    (0 < p → p < 4096 →
      exec (.ksctlWrite p v) s = .next (s.putKey p { s.key p with en := nbit v 7, owner := v % 64 }) ∧
      ((s.key p).en = false →
        exec (.kskey1Write p v) s = .next (s.putKey p { s.key p with key1 := v % 2 ^ 128 }) ∧
        exec (.kskey2Write p v) s = .next (s.putKey p { s.key p with key2 := v % 2 ^ 128 }))) ∧
    (s.regs.alarmLock = false → exec (.alarmpolWrite v) s =
      .next { s with regs := { s.regs with alarmPol := fld v 0 14, alarmLock := nbit v 31 } }) ∧
    (s.teams = [] → exec (.modidWrite v) s = .next { s with regs := { s.regs with modid := v % 64 } }) ∧
    (p < Config.dies →
      (nbit v 63 = true → exec (.tmsnapGo p v) s = .next (s.putDie p
        { s.die p with tm := { (s.die p).tm with
          latched := freeCounters.foldl (fun m off => sset 0 m off (s.liveCount p off)) (s.die p).tm.live
          frozen := true, stamp := s.clk p % 2 ^ 62 } })) ∧
      exec (.frozenWrite p v) s = .next (s.putDie p { s.die p with tm := { (s.die p).tm with frozen := nbit v 62 } })) ∧
    (∀ off z, exec (.registerWrite off z v) s = .next (State.regWrites z off z v s))

/-! ## Events: boot, attestation, alarms, power, the host -/

/-- R334, R338 to R340, R374, R375, R378: boot, reports, alarms, power, clocks and ageing. That setting GO clears ATTCMD.ERR is the
model's choice, log entry 104; the clock policy is log entry 95, and what far memory keeps without power log entry 102. -/
def Obligations.SecurityAndPowerEvents : Prop :=
  ∀ (s : State) (v n m : Nat),
    (s.managed = true →
      (s.regs.bootst = 0 ∨ s.regs.bootst = 2 → v % 2 ^ 32 % 256 = 0 → 256 ≤ v % 2 ^ 32 → v % 2 ^ 32 ≤ 2 ^ 28 →
        exec (.bootgo v) s = .next { s with regs := { s.regs with bootst := 3, bootLen := v % 2 ^ 32 } }) ∧
      (nbit v 0 = true → s.regs.attGo = false → exec (.attcmdGo v) s =
        .next { s with regs := { s.regs with attGo := true, attErr := false } }) ∧
      (nbit v 0 = true → exec (.alarmraise v) s = .next (s.raiseAlarm sourceSoftware dieModule 0))) ∧
    (s.regs.bootst = 3 →
      ∀ u, u = s.imageRead →
      (Config.signatureOk s.imageBytes = true → exec .bootCheckComplete s =
        .next { u with regs := { u.regs with bootst := 1, image := s.imageBytes, bootNs := u.ns 0 } }) ∧
      (Config.signatureOk s.imageBytes = false → exec .bootCheckComplete s =
        .next (State.raiseAlarm { u with regs := { u.regs with bootst := 2 } } sourceFwsig dieModule 0))) ∧
    (s.regs.attGo = true →
      (s.regs.primaryUp = true → ∀ u, u = s.writeMem 0 (2 ^ 50 + s.regs.attDest) s.report →
        exec (.attestationReportWritten true) s = .next { u with regs := { u.regs with attGo := false, attErr := false } }) ∧
      exec (.attestationReportWritten false) s = .next { s with regs := { s.regs with attGo := false, attErr := true } }) ∧
    (s.powered = true → v < 7 → exec (.alarmEvent v n m) s = .next (s.alarm v n m)) ∧
    (∃ u, exec .powerOff s = .next u ∧ u.powered = false ∧ u.teams = [] ∧ u.regs = Regs.fresh ∧ u.keys = [] ∧
      (∀ a, 2 ^ 50 ≤ a → sget memDefault u.mem a = sget memDefault s.mem a)) ∧
    (s.powered = false → exec .powerOn s = .next { State.reset with
      agenda := s.agenda, nextId := s.nextId, free := s.free, mem := s.mem, poison := s.poison }) ∧
    (s.powered = true → s.regs.bootst = 1 → ∀ u, u = { s with regs := { s.regs with draw := v % 2 ^ 32 } } →
      (s.regs.cap < v → exec (.powerThrottle v) s = .next (State.clocks { u with regs := { u.regs with
        aclkMhz := slower s.regs.aclkMhz } } (fun d => slower d.aclk))) ∧
      (v ≤ s.regs.cap → s.regs.cap * 95 ≤ v * 100 → exec (.powerThrottle v) s = .next u)) ∧
    (s.powered = true → s.regs.bootst = 1 → n < Config.dies →
      (95 ≤ v → v < 110 → exec (.dieTemperature n v) s =
        .next (s.putDie n { (s.die n).setClock s.ps (slower (s.die n).aclk) with temp := v })) ∧
      (v < 95 → exec (.dieTemperature n v) s =
        .next (s.putDie n { (s.die n).setClock s.ps (faster s.regs.aclkMhz (s.die n).aclk) with temp := v }))) ∧
    (s.powered = true → s.regs.bootst = 1 → n < 384 → (∀ t ∈ s.teams, clusterOf t.core = n → t.onCore = false) →
      (Config.fusedMaxMargin n % 256 < v → exec (.ageingMeasurement n v m) s =
        .next (s.putCluster n { s.cluster n with retire := true })) ∧
      (v ≤ Config.fusedMaxMargin n % 256 → exec (.ageingMeasurement n v m) s =
        .next (s.putCluster n { s.cluster n with margin := some v, index := if v = Config.fusedMaxMargin n % 256 then 255 else m % 256 })))

/-- R100, R295 to R297, R337, R385: the host's accesses through BAR2, its AtomicOps, failed completions and the primary link. That an
AtomicOp counts 32 bytes read and 32 written is the model's choice, log entry 44, and what a read that cannot be served gives is log
entry 97. -/
def Obligations.HostEvents : Prop :=
  ∀ (s : State) (off n x y : Nat) (data : List Nat) (op : HostAtomic) (w : Bool),
    exec (.hostCompletionError n x) s = .next (s.hostFails n x) ∧ exec (.completionTimeout n x) s = .next (s.hostFails n x) ∧
    exec .primaryLinkDown s = .next { s with regs := { s.regs with primaryUp := false } } ∧
    exec .primaryLinkReturn s = .next { s with regs := { s.regs with primaryUp := true } } ∧
    (s.powered = true →
      exec (.hostAccess off n []) s = .next (s.hostRead off n) ∧
      (data ≠ [] → exec (.hostAccess off n data) s = .next (s.hostWrite off data)) ∧
      (∀ z pa tag m, z = (if w then 8 else 4) → pa = s.aperture off → tag = s.keyTag s.regs.b2key → m = s.readMem tag pa z →
        off % z = 0 → s.apertureOk off z = true → s.poisoned pa = false →
        ∀ u, u = ((s.writeMem tag pa (bytesLE z ((hostOp op).apply (8 * z) m (x % 2 ^ (8 * z)) (y % 2 ^ (8 * z))))).noteBytes pa 32
          false).noteBytes pa 32 true →
        exec (.hostAtomicop off op x y w) s = .next { u with hostReply := [m] }))

/-! ## Events: links -/

/-- R342 to R348, R350: flits are sent, received, acknowledged and replayed; modules are widened, cleared, taken down and trained;
a partition's route is swapped once its requests are done. That LNKCTL.OFF 0 sends the module to training is the model's choice, log
entry 79; that an edge's expiry poisons both directions, log entry 87; what a flit carries, log entry 83. -/
def Obligations.LinkEvents : Prop :=
  ∀ (s : State) (d e m v : Nat) (ok lf : Bool),
    (s.managed = true → (opposite d e).isSome = true → m < 8 →
      ((s.link d e m).state = 2 → exec (.widen d e m) s =
        .next ((s.startRetrain d e m false).modEnds d e m (fun k => { k with x32 := false }))) ∧
      exec (.clr d e m) s = .next (s.modLink d e m (fun k => { k with crcerr := 0, replay := 0, dup := 0, retrain := 0 })) ∧
      (nbit v 0 = true → exec (.linkOff d e m v) s = .next ((s.modLink d e m (fun k => { k with off := true })).linkDown d e m)) ∧
      (nbit v 0 = false → (s.link d e m).off = true → ∀ u, u = s.modLink d e m (fun k => { k with off := false }) →
        exec (.linkOff d e m v) s = .next (if u.moduleOff d e m then u
          else u.modEnds d e m (fun k => { k with state := 1, fails := 0 })))) ∧
    ((s.link d e (s.moduleOf d e m)).state = 2 → ∀ c, c = s.chan d e m →
      (m < 8 → c.held.length < 64 → ∀ l, l = s.packed 0 (s.readyPieces d e m) → l ≠ [] → (l.map s.bytesOf).sum ≤ 248 →
        exec (.flitSend d e m) s = .next (((s.placePieces l inFlight).putChan d e m { c with
          tx := (c.tx + 1) % 256, held := c.held ++ [⟨m, 1, c.tx, 0, l⟩]
          heldSince := if c.held.isEmpty then s.ns d else c.heldSince }).fly d e [⟨m, 1, c.tx, 0, l⟩])) ∧
      (m < 8 → ∀ l k, l = s.packed 0 (s.readyPieces d e m) → 248 < (l.map s.bytesOf).sum → k = cdiv ((l.map s.bytesOf).sum) 248 →
        c.held.length + k ≤ 64 → exec (.flitSend d e m) s = .next (((List.range (k - 1)).foldl (fun (s : State) _ =>
          s.flit d e m []) (s.placePieces l inFlight)).flit d e m l)) ∧
      (e ≠ 4 → c.held ≠ [] → c.heldSince + max 16 (s.link d e (s.moduleOf d e m)).ackto ≤ s.ns d →
        exec (.replayTimeout d e m) s = .next (s.replay d e m)) ∧
      (e ≠ 4 → c.unacked ≠ 0 → c.lastRx + 8 ≤ s.ns d → exec (.ackDelayExpiry d e m) s = .next (s.sendAck d e m))) ∧
    (∀ f u, s.takeFlit d e m = some (f, u) →
      (f.type = 1 → ∀ k, k = (f.seq + 256 - (u.chan d e f.chan).rx) % 256 →
        exec (.dataFlitReceive d e m false) s = .next (u.badCrc d e m (some f.chan)) ∧
        exec (.dataFlitReceive d e m true) s = .next (if k = 0 then u.accept d e f
          else if 192 ≤ k then (u.modLink d e m (fun k => { k with dup := satAdd 16 k.dup 1 })).sendAck d e f.chan
          else if k ≤ 63 then u.sendNak d e f.chan else u.startRetrain d e m false)) ∧
      (4 ≤ f.type → exec (.dataFlitReceive d e m ok) s =
        .next (if ok then u.startRetrain d e m false else u.badCrc d e m none)) ∧
      (f.type = 2 → e ≠ 4 → exec (.ackReceive d e m ok) s =
        .next (if ok then u.freeBefore d e f.chan ((f.aseq + 1) % 256) else u.badCrc d e m none)) ∧
      (f.type = 3 → e ≠ 4 → exec (.nakReceive d e m ok) s =
        .next (if ok = false then u.badCrc d e m none
          else if (u.chan d e f.chan).knows f.aseq = true then (u.freeBefore d e f.chan f.aseq).replay d e f.chan else u))) ∧
    (e ≠ 4 → exec (.retrainComplete d e m ok lf) s = .next (s.linkTrained d e m ok lf) ∧
      exec (.edgeHoldExpiry d e) s = .next (s.edgeExpires d e)) ∧
    (s.managed = true → nbit v 31 = true → (s.die d).rtbusy = none → exec (.rtswap d v) s =
      .next (s.putDie d { s.die d with rtbusy := some (v % 64) })) ∧
    (∀ p, (s.die d).rtbusy = some p → s.admitted d p = false → exec (.routeSwapComplete d) s =
      .next (s.putDie d { s.die d with
        rtbusy := none
        rtbank := if nbit (s.die d).rtbank p then (s.die d).rtbank - 2 ^ p else (s.die d).rtbank + 2 ^ p }))

/-- R346, R351 to R354: optical ports send, receive, train and go down; class L blocks land, and a delivery times out. That edge 4 names
the optical port, and that a failed laser leaves a wavelength out, is the model's choice, log entry 84; that an accepted class S block
answers the oldest far access, log entry 85; how blocks are matched and how long a replay waits, log entries 86 and 135. -/
def Obligations.OpticalEvents : Prop :=
  ∀ (s : State) (k d x : Nat) (b : LBlock) (ok lf : Bool),
    (portOf d = some k → exec (.retrainComplete d 4 x ok lf) s = .next (s.portTrained k ok (if lf then max 1 x else 0)) ∧
      exec (.edgeHoldExpiry d 4) s = .next (s.portExpires k)) ∧
    ((s.port k).state ≠ 0 → exec (.opticalPortDown k) s = .next (s.portDown k)) ∧
    ((s.port k).state = 2 →
      (∀ u, u = s.putPort k { s.port k with turn := ((s.port k).turn + 1) % 16 } →
        (∀ t, u.sendS k = some t → u.classLToSend k = none → exec (.opticalBlockSend k) s = .next t) ∧
        (∀ o d i, u.sendS k = none → u.classLToSend k = some (o, d, i) → exec (.opticalBlockSend k) s = .next (u.sendL o d i)) ∧
        (∀ t o d i, u.sendS k = some t → u.classLToSend k = some (o, d, i) → exec (.opticalBlockSend k) s =
          .next (if (s.port k).turn < (s.port k).lweight then u.sendL o d i else t))) ∧
      (∀ p a, p = { s.port k with seen := (s.port k).seen + 1 } → a = (x % 65536 + 65536 - (s.port k).rx) % 65536 →
        exec (.classSBlockReceive k x false) s = .next (s.putPort k (if p.badCrc.state = 2 then p.badCrc.sayNak else p.badCrc)) ∧
        exec (.classSBlockReceive k x true) s = .next (if a = 0 then (s.putPort k p).acceptS k
          else if 65536 - 8192 ≤ a then s.putPort k p.sayAck
          else if a < 8192 then s.putPort k p.sayNak else s.putPort k p.retrains) ∧
        (portOf d = some k →
          exec (.ackReceive d 4 x ok) s = .next (s.putPort k (if ok then p.freeBefore (s.ns (portDie k)) ((x + 1) % 65536) else p.badCrc)) ∧
          exec (.nakReceive d 4 x ok) s = .next (s.putPort k (if ok = false then p.badCrc
            else if (p.held.any (fun f => f.seq == x) || p.tx == x) = true then (p.freeBefore (s.ns (portDie k)) x).replays (s.ns (portDie k)) else p)) ∧
          ((s.port k).held ≠ [] → (s.port k).heldSince + portAckto ≤ s.ns (portDie k) →
            exec (.replayTimeout d 4 x) s = .next (s.putPort k ((s.port k).replays (s.ns (portDie k))))) ∧
          ((s.port k).unacked ≠ 0 → (s.port k).lastRx + 8 ≤ s.ns (portDie k) →
            exec (.ackDelayExpiry d 4 x) s = .next (s.putPort k (s.port k).sayAck)))) ∧
      exec (.classLBlockArrival k b false) s = .next (s.modPort k (fun p => { p with lcrc := satAdd 16 p.lcrc 1 })) ∧
      (b.count ≠ 0 → b.count ≤ 4096 → b.b < blocksOf b.count →
        (∀ y, s.ldels.find? (fun y => decide (y.sender = b.sender) && decide (y.handle = b.handle) && decide (y.baselo = b.baselo) &&
            decide (y.count = b.count) && !y.landed.contains b.b) = some y → exec (.classLBlockArrival k b true) s =
          .next (if y.ended then s.lateBlock y b.b else s.landBlock y b)) ∧
        (s.ldels.find? (fun y => decide (y.sender = b.sender) && decide (y.handle = b.handle) && decide (y.baselo = b.baselo) &&
            decide (y.count = b.count) && !y.landed.contains b.b) = none →
          exec (.classLBlockArrival k b true) s = .next (s.newLDel k b)))) ∧
    (∀ y t, s.ldels.find? (fun y => y.id == x) = some y → y.ended = false → s.team? y.team = some t →
      y.since + 1000 * (s.part t.part).optlto ≤ s.ns (portDie y.port) → exec (.classLTimeout x) s =
        .next ((s.endLDel y).modPort y.port (fun p => { p with ltimeout := satAdd 16 p.ltimeout 1 })))

/-! ## What words leave alone, and how operands trap -/

/-- R40, R235, R236: the frame of the words that write only registers and predicates (scalar and vector arithmetic, floating words,
comparisons and predicate words, indexed rows, lane exchanges, reductions, conversions without an outlier): of the Palette only the
destination (a scalar, a pair, the live active lanes of a row, the elements a `vput` or `xwrite` reaches) and its mirror may change,
of the group's predicates only the named one in the live active lanes, and the slices' program counters; memory, every other group,
team and field stay. -/
def Obligations.RegisterFrames : Prop :=
  ∀ (s : State) (c : Ctx) (k : Bool) (t p d a bs b w x j : Nat) (i : Imm) (none_ : Nat → Nat → Prop), s.issues c →
    none_ = (fun _ _ => False) →
    (c.ready s [rdS b 1, rwS d] = true →
      ∀ e ∈ [Instr.sAddN32 k d b, .sSubN32 k d b, .sMulN32 k d b, .sMulhiN32 k d b, .sMulhiS32 k d b, .sAndB32 k d b, .sOrB32 k d b,
        .sXorB32 k d b, .sShlB32 k d b, .sShrN32 k d b, .sShrS32 k d b, .sMinN32 k d b, .sMinS32 k d b, .sMaxN32 k d b,
        .sMaxS32 k d b], ∃ u, exec e s = .next u ∧ WordFrame s u c (c.scalKey s d) none_) ∧
    (c.ready s [rdS b 1, wrS d] = true → ∀ e ∈ [Instr.sMovB32 k d b, .sNotB32 k d b],
      ∃ u, exec e s = .next u ∧ WordFrame s u c (c.scalKey s d) none_) ∧
    (c.ready s [rdS b 1, rdS (b + 1) 1, wrS d, wrS (d + 1)] = true →
      ∃ u, exec (.sMovB64 k d b) s = .next u ∧ WordFrame s u c (c.pairKey s d) none_) ∧
    (c.ready s [rdS b 1, rdS (b + 1) 1, rwS d, rwS (d + 1)] = true →
      ∀ e ∈ [Instr.sAddN64 k d b, .sSubN64 k d b, .sMulN64 k d b, .sAndB64 k d b, .sOrB64 k d b, .sXorB64 k d b],
      ∃ u, exec e s = .next u ∧ WordFrame s u c (c.pairKey s d) none_) ∧
    (c.ready s [rdS b 1, rwS d, rwS (d + 1)] = true → ∀ e ∈ [Instr.sShlB64 k d b, .sShrN64 k d b, .sShrS64 k d b],
      ∃ u, exec e s = .next u ∧ WordFrame s u c (c.pairKey s d) none_) ∧
    (c.ready s [rwS d] = true →
      ∀ e ∈ [Instr.siAddN32 k d i, .siMulN32 k d i, .siAndB32 k d i, .siOrB32 k d i, .siXorB32 k d i, .siShlB32 k d i,
        .siShrN32 k d i, .siShrS32 k d i], ∃ u, exec e s = .next u ∧ WordFrame s u c (c.scalKey s d) none_) ∧
    (c.ready s [wrS d] = true → ∀ e ∈ [Instr.siMovB32 k d i, .ballotB32 k d a],
      ∃ u, exec e s = .next u ∧ WordFrame s u c (c.scalKey s d) none_) ∧
    (c.ready s [wrS d, wrS (d + 1)] = true → ∃ u, exec (.siMovB64 k d i) s = .next u ∧ WordFrame s u c (c.pairKey s d) none_) ∧
    (c.ready s [rwS d, rwS (d + 1)] = true → ∃ u, exec (.siAddN64 k d i) s = .next u ∧ WordFrame s u c (c.pairKey s d) none_) ∧
    (c.ready s [rdV a 0, rdB bs b, wrV d] = true →
      ∀ e ∈ [Instr.vAddN32 k d a bs b, .vSubN32 k d a bs b, .vMulN32 k d a bs b, .vMulhiN32 k d a bs b, .vMulhiS32 k d a bs b,
        .vAndB32 k d a bs b, .vOrB32 k d a bs b, .vXorB32 k d a bs b, .vShlB32 k d a bs b, .vShrN32 k d a bs b, .vShrS32 k d a bs b,
        .vMinN32 k d a bs b, .vMinS32 k d a bs b, .vMaxN32 k d a bs b, .vMaxS32 k d a bs b, .vAddsatS32 k d a bs b,
        .faddF32 k d a bs b, .fsubF32 k d a bs b, .fmulF32 k d a bs b, .fminF32 k d a bs b, .fmaxF32 k d a bs b,
        .fcpsgnF32 k d a bs b, .faddF16 k d a bs b, .fsubF16 k d a bs b, .fmulF16 k d a bs b, .fminF16 k d a bs b,
        .fmaxF16 k d a bs b, .faddBf16 k d a bs b, .fsubBf16 k d a bs b, .fmulBf16 k d a bs b, .fminBf16 k d a bs b,
        .fmaxBf16 k d a bs b], ∃ u, exec e s = .next u ∧ WordFrame s u c (c.rowKey s d) none_) ∧
    (c.ready s [rdV a 0, rdB bs b, ⟨.v d, 2, true, true⟩] = true →
      ∀ e ∈ [Instr.fmaF32 k d a bs b, .fnmaF32 k d a bs b, .fmaF16 k d a bs b, .fmaBf16 k d a bs b],
        ∃ u, exec e s = .next u ∧ WordFrame s u c (c.rowKey s d) none_) ∧
    (c.ready s [rdV a 0, wrV d] = true →
      ∀ e ∈ [Instr.viAddN32 k d a i, .viSubN32 k d a i, .viMulN32 k d a i, .viMulhiN32 k d a i, .viMulhiS32 k d a i,
        .viAndB32 k d a i, .viOrB32 k d a i, .viXorB32 k d a i, .viShlB32 k d a i, .viShrN32 k d a i, .viShrS32 k d a i,
        .viMinN32 k d a i, .viMinS32 k d a i, .viMaxN32 k d a i, .viMaxS32 k d a i, .fabsF32 k d a, .fnegF32 k d a, .rcpF32 k d a,
        .rsqrtF32 k d a, .sqrtF32 k d a, .exp2F32 k d a, .log2F32 k d a, .sinpiF32 k d a, .cospiF32 k d a, .tanhF32 k d a,
        .sigmF32 k d a, .erfF32 k d a], ∃ u, exec e s = .next u ∧ WordFrame s u c (c.rowKey s d) none_) ∧
    (c.ready s [rdV a 0, rdB bs b] = true →
      ∀ e ∈ [Instr.vcmpEq k t p a bs b, .vcmpNe k t p a bs b, .vcmpLt k t p a bs b, .vcmpLe k t p a bs b, .vcmpGt k t p a bs b,
        .vcmpGe k t p a bs b],
        ∃ u, exec e s = .next u ∧ WordFrame s u c (fun _ => False) (fun q l => q = p ∧ l ∈ c.lanes)) ∧
    (∀ e ∈ [Instr.pand k d a b, .por k d a b, .pxor k d a b, .pnot k d a, .voteAny k d a, .voteAll k d a],
      ∃ u, exec e s = .next u ∧ WordFrame s u c (fun _ => False) (fun q l => q = d ∧ l ∈ c.lanes)) ∧
    (c.ready s [wrV d] = true → ∃ u, exec (.pmovB32 k d a) s = .next u ∧ WordFrame s u c (c.rowKey s d) none_) ∧
    (c.ready s [rdV a 0] = true →
      ∃ u, exec (.ptestB32 k d a) s = .next u ∧ WordFrame s u c (fun _ => False) (fun q l => q = d ∧ l ∈ c.lanes)) ∧
    ((∀ l ∈ c.lanes, 0 ≤ c.idxRow x (sext 7 j) l ∧ c.idxRow x (sext 7 j) l < (c.idxLim w : Int)) →
      (c.ready s [rdV x 0, wrV d] = true →
        (∀ l ∈ c.lanes, c.reachable s false ⟨l, idxLoc w (c.idxRow x (sext 7 j) l).toNat, l⟩ = true) →
        ∃ u, exec (.vgetB32 k d x w j) s = .next u ∧ WordFrame s u c (c.rowKey s d) none_) ∧
      (c.ready s [rdV x 0, rdV d 2] = true →
        ∀ ts, ts = c.lanes.map (fun l => ⟨l, idxLoc w (c.idxRow x (sext 7 j) l).toNat, l⟩) →
        ts.all (fun e => c.reachable s true e) = true →
        ∃ u, exec (.vputB32 k d x w j) s = .next u ∧ WordFrame s u c (c.touchKey s ts) none_)) ∧
    ((∀ l ∈ c.lanes, (c.vec x l).toNat < c.idxLim w ∧ (c.vec j l).toNat < (if c.t.prot then 16 else 32)) →
      (c.ready s [rdV x 0, rdV j 1, wrV d] = true →
        (∀ l ∈ c.lanes, c.g.live (c.laneOf j l) = true → c.reachable s false ⟨l, idxLoc w (c.vec x l).toNat, c.laneOf j l⟩ = true) →
        ∃ u, exec (.xreadB32 k d x w j) s = .next u ∧ WordFrame s u c (c.rowKey s d) (fun q l => q = 6 ∧ l ∈ c.lanes)) ∧
      (c.ready s [rdV x 0, rdV j 1, rdV d 2] = true → c.agrees (fun l => (c.vec x l, c.vec j l)) = true →
        c.agrees (c.vec d) = true → ∀ ts, ts = c.lanes.map (fun l => ⟨l, idxLoc w (c.vec x l).toNat, c.laneOf j l⟩) →
        ts.all (fun e => c.reachable s true e) = true →
        ∃ u, exec (.xwriteB32 k d x w j) s = .next u ∧ WordFrame s u c (c.touchKey s ts) none_)) ∧
    (c.ready s [⟨.v x, 0, false, false⟩, wrV d] = true →
      ∀ e ∈ ([(Instr.shflIdxB32 k d x j, true, fun l => ((if c.t.prot then 2 * ((c.vec j l).toNat % 16) + l % 2
            else (c.vec j l).toNat % 32 : Nat) : Int)),
          (Instr.shflUpB32 k d x j, false, fun l => (l : Int) - (if c.t.prot then 2 * j else j : Nat)),
          (Instr.shflDownB32 k d x j, false, fun l => (l : Int) + (if c.t.prot then 2 * j else j : Nat)),
          (Instr.shflXorB32 k d x j, false, fun l => ((l ^^^ (if c.t.prot then 2 * j else j) : Nat) : Int))] :
            List (Instr × Bool × (Nat → Int))),
        (e.2.1 = true → c.ready s [rdV j 1] = true ∧ ∀ l ∈ c.lanes, (c.vec j l).toNat < (if c.t.prot then 16 else 32)) →
        (e.2.1 = false → c.t.prot = true → j < 16) →
        (∀ l ∈ c.lanes, (e.2.2 l < 0 ∨ 31 < e.2.2 l) → c.reachable s false ⟨l, .v x, l⟩ = true) →
        (∀ l ∈ c.lanes, ¬ (e.2.2 l < 0 ∨ 31 < e.2.2 l) → c.g.live (e.2.2 l).toNat = true →
          c.reachable s false ⟨l, .v x, (e.2.2 l).toNat⟩ = true) →
        ∃ u, exec e.1 s = .next u ∧ WordFrame s u c (c.rowKey s d) (fun q l => q = 6 ∧ l ∈ c.lanes)) ∧
    (c.ready s [rdV a 0, redDst bs d] = true →
      ∀ e ∈ [Instr.vredAddF32 k d a bs, .vredAddN32 k d a bs, .vredMinF32 k d a bs, .vredMaxF32 k d a bs, .vredMinS32 k d a bs,
        .vredMaxS32 k d a bs, .vredAndB32 k d a bs, .vredOrB32 k d a bs],
        ∃ u, exec e s = .next u ∧ WordFrame s u c (c.redKey s bs d) none_) ∧
    (c.ready s [⟨.v a, 0, false, false⟩, rdS b 1, redDst bs d, redDst bs (d + 1)] = true → (bs = 0 → d ≠ 127) →
      (∀ l ∈ c.lanes, (c.scal b).getLsbD l = true → (c.elem (.v a) l).good = true) → c.unlocked s (rdV a 0) = true →
      ∀ e ∈ [Instr.vredLmF32 k d a bs b, .vredLmBf16 k d a bs b],
        ∃ u, exec e s = .next u ∧ WordFrame s u c (fun y => c.redKey s bs d y ∨ c.redKey s bs (d + 1) y) none_) ∧
    (∀ src dst rnd y, c.ready s ((cvtForm src dst rnd y).uses d a) = true → s.answerOf c (fun q => decide (q = .olist)) = none →
      (∀ l ∈ c.lanes, c.cvtLane (cvtForm src dst rnd y) a l ≠ .outlier) →
      ∃ u, exec (.cvt k src dst rnd y d a) s = .next u ∧ WordFrame s u c (c.rowKey s d) none_)

/-- R84, R85, R256, R385: the frame of the words that send requests: issuing one changes no element and no byte; and of the event
that performs a store whose group has no trap waiting for its entry: no element changes, no byte of another line, and in the lines written no byte but those stored, read under
the key pair of the write (R336). -/
def Obligations.MemoryFrames : Prop :=
  (∀ (s : State) (c : Ctx) (k : Bool) (f d i b : Nat), s.issues c →
    (c.ready s [rdS b 0, rdS (b + 1) 0, rdV i 0, wrV d] = true →
      ∀ e ∈ ([(Instr.ldB8 k f d i b, 0, 1), (Instr.ldB16 k f d i b, 0, 2), (Instr.ldB32 k f d i b, 0, 4),
        (Instr.ldB8Fa k f d i b, 1, 1), (Instr.ldB16Fa k f d i b, 1, 2), (Instr.ldB32Fa k f d i b, 1, 4),
        (Instr.ldB8Fb k f d i b, 2, 1), (Instr.ldB16Fb k f d i b, 2, 2), (Instr.ldB32Fb k f d i b, 2, 4)] :
          List (Instr × Nat × Nat)),
        c.flagFree e.2.1 = true → c.agrees (c.idxVa b i e.2.2 f) = true →
        ∀ accs, accs = c.lanes.map (fun l => (⟨l, c.idxVa b i e.2.2 f l, 0, 0, [l]⟩ : Access)) →
        c.reaches s false true e.2.2 rightsR accs = true →
        c.tagged s (pieces c.t.core 5 e.2.2 (c.places s e.2.2 rightsR accs)) = true →
        ∃ u, exec e.1 s = .next u ∧ SendFrame s u c) ∧
    (c.ready s [rdS b 0, rdS (b + 1) 0, rdV i 0, rdV d 1] = true →
      ∀ e ∈ ([(Instr.stB8 k f d i b, 1), (Instr.stB16 k f d i b, 2), (Instr.stB32 k f d i b, 4)] : List (Instr × Nat)),
        c.agrees (c.idxVa b i e.2 f) = true → c.agrees (fun l => (c.vec d l).toNat % 2 ^ (8 * e.2)) = true →
        ∀ accs, accs = c.lanes.map (fun l =>
          (⟨l, c.idxVa b i e.2 f l, (c.vec d l).toNat % 2 ^ (8 * e.2), 0, []⟩ : Access)) →
        c.reaches s true true e.2 rightsW accs = true →
        c.tagged s (pieces c.t.core 5 e.2 (c.places s e.2 rightsW accs)) = true →
        ∃ u, exec e.1 s = .next u ∧ SendFrame s u c)) ∧
  (∀ (s : State) (q i : Nat) (r : Req) (p : Piece), s.piece? q i = some (r, p) → r.kind = .store → s.ripe r p = true →
    (∀ g, s.group? r.team r.group = some g → g.trapping = none) → ∃ u, exec (.pseudoChannelWrite q i) s = .next u ∧ u.pal = s.pal ∧
      (∀ b, (∀ e ∈ p.bytes, e.1 / 64 ≠ b / 64) → ∀ tag, u.readByte tag b = s.readByte tag b) ∧
      ∀ b, (∀ e ∈ p.bytes, e.1 ≠ b) → u.readByte p.tag b = s.readByte p.tag b)

/-- R38, R42, R43, R54, R56, R228, R229, R233, R235: where an operand of a scalar, vector, floating, comparison, predicate or
reduction word may not be used as it stands, the word traps with the SPACE, OPND, SUB, ROW and LANES of its first offending operand
(of one kind the lowest position: the model's choice, log entry 121; LANES of BOUND and PEND, log entries 29 and 117). R256 to R259,
R78: so do the operands of an indexed load or store, and then its addresses: ALIGN, the memory locks, XLATE and PERM, each at its
lowest offending lane. R63, R66 to R68, R73, R217: UNIFORM, TOKEN, REGANG and CLAUSE of the control words, and a target outside the
code. `rte` outside a handler and `sput` of a protected register raise TRAP_PERM. Where `sput` gives way to a trap of its operand is
log entry 124, and the SUB of CLAUSE log entry 30, the model's readings. -/
def Obligations.OperandTraps : Prop :=
  ∀ (s : State) (c : Ctx) (k : Bool) (t p d a bs b n r f : Nat) (i : Imm) (o : Tgt), s.issues c →
    (∀ us ws, (us, ws) ∈ ([
        ([rdS b 1, rwS d], [Instr.sAddN32 k d b, .sSubN32 k d b, .sMulN32 k d b, .sMulhiN32 k d b, .sMulhiS32 k d b, .sAndB32 k d b,
          .sOrB32 k d b, .sXorB32 k d b, .sShlB32 k d b, .sShrN32 k d b, .sShrS32 k d b, .sMinN32 k d b, .sMinS32 k d b,
          .sMaxN32 k d b, .sMaxS32 k d b]),
        ([rdS b 1, wrS d], [.sMovB32 k d b, .sNotB32 k d b]),
        ([rdS b 1, rdS (b + 1) 1, wrS d, wrS (d + 1)], [.sMovB64 k d b]),
        ([rdS b 1, rdS (b + 1) 1, rwS d, rwS (d + 1)], [.sAddN64 k d b, .sSubN64 k d b, .sMulN64 k d b, .sAndB64 k d b,
          .sOrB64 k d b, .sXorB64 k d b]),
        ([rdS b 1, rwS d, rwS (d + 1)], [.sShlB64 k d b, .sShrN64 k d b, .sShrS64 k d b]),
        ([rwS d], [.siAddN32 k d i, .siMulN32 k d i, .siAndB32 k d i, .siOrB32 k d i, .siXorB32 k d i, .siShlB32 k d i,
          .siShrN32 k d i, .siShrS32 k d i]),
        ([wrS d], [.siMovB32 k d i, .ballotB32 k d a]),
        ([wrS d, wrS (d + 1)], [.siMovB64 k d i]),
        ([rwS d, rwS (d + 1)], [.siAddN64 k d i]),
        ([rdV a 0, rdB bs b, wrV d], [.vAddN32 k d a bs b, .vSubN32 k d a bs b, .vMulN32 k d a bs b, .vMulhiN32 k d a bs b,
          .vMulhiS32 k d a bs b, .vAndB32 k d a bs b, .vOrB32 k d a bs b, .vXorB32 k d a bs b, .vShlB32 k d a bs b,
          .vShrN32 k d a bs b, .vShrS32 k d a bs b, .vMinN32 k d a bs b, .vMinS32 k d a bs b, .vMaxN32 k d a bs b,
          .vMaxS32 k d a bs b, .vAddsatS32 k d a bs b, .faddF32 k d a bs b, .fsubF32 k d a bs b, .fmulF32 k d a bs b,
          .fminF32 k d a bs b, .fmaxF32 k d a bs b, .fcpsgnF32 k d a bs b, .faddF16 k d a bs b, .fsubF16 k d a bs b,
          .fmulF16 k d a bs b, .fminF16 k d a bs b, .fmaxF16 k d a bs b, .faddBf16 k d a bs b, .fsubBf16 k d a bs b,
          .fmulBf16 k d a bs b, .fminBf16 k d a bs b, .fmaxBf16 k d a bs b]),
        ([rdV a 0, rdB bs b, ⟨.v d, 2, true, true⟩], [.fmaF32 k d a bs b, .fnmaF32 k d a bs b, .fmaF16 k d a bs b,
          .fmaBf16 k d a bs b]),
        ([rdV a 0, wrV d], [.viAddN32 k d a i, .viSubN32 k d a i, .viMulN32 k d a i, .viMulhiN32 k d a i, .viMulhiS32 k d a i,
          .viAndB32 k d a i, .viOrB32 k d a i, .viXorB32 k d a i, .viShlB32 k d a i, .viShrN32 k d a i, .viShrS32 k d a i,
          .viMinN32 k d a i, .viMinS32 k d a i, .viMaxN32 k d a i, .viMaxS32 k d a i, .fabsF32 k d a, .fnegF32 k d a,
          .rcpF32 k d a, .rsqrtF32 k d a, .sqrtF32 k d a, .exp2F32 k d a, .log2F32 k d a, .sinpiF32 k d a, .cospiF32 k d a,
          .tanhF32 k d a, .sigmF32 k d a, .erfF32 k d a]),
        ([rdV a 0, rdB bs b], [.vcmpEq k t p a bs b, .vcmpNe k t p a bs b, .vcmpLt k t p a bs b, .vcmpLe k t p a bs b,
          .vcmpGt k t p a bs b, .vcmpGe k t p a bs b]),
        ([wrV d], [.pmovB32 k d a]), ([rdV a 0], [.ptestB32 k d a]),
        ([rdV a 0, redDst bs d], [.vredAddF32 k d a bs, .vredAddN32 k d a bs, .vredMinF32 k d a bs, .vredMaxF32 k d a bs,
          .vredMinS32 k d a bs, .vredMaxS32 k d a bs, .vredAndB32 k d a bs, .vredOrB32 k d a bs])] :
          List (List Use × List Instr)) →
      (∀ u ∈ us, u.rd = true → c.sound u.loc = true) → ∀ code info, c.offends s us code info →
      ∀ e ∈ ws, exec e s = .next (s.trapped c code info)) ∧
    (∀ us, us = [rdS b 0, rdS (b + 1) 0, rdV a 0, wrV d] →
      ∀ e ∈ ([(Instr.ldB8 k f d a b, 0, 1), (Instr.ldB16 k f d a b, 0, 2), (Instr.ldB32 k f d a b, 0, 4),
        (Instr.ldB8Fa k f d a b, 1, 1), (Instr.ldB16Fa k f d a b, 1, 2), (Instr.ldB32Fa k f d a b, 1, 4),
        (Instr.ldB8Fb k f d a b, 2, 1), (Instr.ldB16Fb k f d a b, 2, 2), (Instr.ldB32Fb k f d a b, 2, 4)] :
          List (Instr × Nat × Nat)), c.flagFree e.2.1 = true →
        ((∀ u ∈ us, u.rd = true → c.sound u.loc = true) → ∀ code info, code ≠ 6 → c.offends s us code info →
          exec e.1 s = .next (s.trapped c code info)) ∧
        (c.ready s us = true → ∀ va, va = c.idxVa b a e.2.2 f → AddressTraps s c e.1 false e.2.2 rightsR va)) ∧
    (∀ us, us = [rdS b 0, rdS (b + 1) 0, rdV a 0, rdV d 1] →
      ∀ e ∈ ([(Instr.stB8 k f d a b, 1), (Instr.stB16 k f d a b, 2), (Instr.stB32 k f d a b, 4)] : List (Instr × Nat)),
        ((∀ u ∈ us, u.rd = true → c.sound u.loc = true) → ∀ code info, code ≠ 6 → c.offends s us code info →
          exec e.1 s = .next (s.trapped c code info)) ∧
        (c.ready s us = true → c.agrees (c.idxVa b a e.2 f) = true →
          c.agrees (fun l => (c.vec d l).toNat % 2 ^ (8 * e.2)) = true →
          ∀ va, va = c.idxVa b a e.2 f → AddressTraps s c e.1 true e.2 rightsW va)) ∧
    (c.canEnter s (c.target 14 o) = true →
      (c.lanes.any (fun l => c.g.pred p l) = true → c.lanes.all (fun l => c.g.pred p l) = false →
        exec (.braU k p o) s = .next (s.trapped c 8 (info43 0 0 0 0 (lanesMask (c.lanes.filter (fun l => c.g.pred p l)))))) ∧
      ((∃ x ∈ c.sl, 16 ≤ (c.g.slice x).stack.length) → exec (.mark k o) s = .next (s.trapped c 9 (infoSub 1))) ∧
      (c.agrees (fun l => c.g.pred p l) = true →
        (∃ x ∈ c.sl, 16 ≤ (c.g.slice x).stack.length ∧ (c.g.slice x).mask &&& c.g.predNibble p x ≠ 0 ∧
          (c.g.slice x).mask &&& ~~~c.g.predNibble p x ≠ 0) → exec (.bra k p o) s = .next (s.trapped c 9 (infoSub 1)))) ∧
    ((∃ x ∈ c.sl, (c.g.slice x).stack = []) → exec (.join k) s = .next (s.trapped c 9 (infoSub 2))) ∧
    (c.agrees (fun l => c.g.pred p l) = true →
      (∃ x ∈ c.sl, ((c.g.slice x).stack.filter (fun y => y.isMark)).length ≤ n) →
      exec (.brk k p n) s = .next (s.trapped c 9 (infoSub 3))) ∧
    (∀ u g i0 n0 d0 rest, u = s.modG c (fun g => g.modCand c.sl (fun d => { d with wait := .regang n })) →
      u.group? c.t.id c.g.num = some g → g.regangs = (i0, n0, d0) :: rest → rest.length + 1 = g.liveSlices.length →
      ∀ bad, bad = rest.filter (fun e => e.2.1 != n0 || e.2.2 != d0) → bad ≠ [] →
      exec (.regang k n) s = .next (State.tryEnter (u.raise c.t.id c.g.num ⟨10, info43 0 0
        (if rest.any (fun e => e.2.1 != n0) then 1 else 2) 0 (lanesMask (bad.flatMap (fun e => List.range' (4 * e.1) 4))),
        (g.slice i0).pc, ((g.cand? i0).map (fun c => c.slices)).getD [i0]⟩) c.t.id c.g.num)) ∧
    (c.ready s [rdS a 0, rdS b 1] = true → ∀ e ∈ ([(Instr.beq k a b o, 6), (.bne k a b o, 6), (.bltS32 k a b o, 6),
      (.bgeS32 k a b o, 6), (.bltN32 k a b o, 6), (.bgeN32 k a b o, 6), (.bra k p o, 14), (.braU k p o, 14), (.mark k o, 14)] :
        List (Instr × Nat)),
      ((c.target e.2 o < 0 ∨ 2 ^ 30 ≤ c.target e.2 o) → exec e.1 s = .next (State.trapped (s.writeFault c.t.part c.t.core c.t.queue
        c.g.tick ⟨wrap 64 ((c.t.kernel.code : Int) + 12 * c.target e.2 o), 7, 4, 6, false⟩) c 13 0)) ∧
      (0 ≤ c.target e.2 o → c.target e.2 o < 2 ^ 30 → ∀ x,
        s.codeItem (dieOf c.t.core) c.t.part c.t.kernel.desc (c.t.packetVa (c.target e.2 o).toNat) 12 = some x →
        fld (x.word 0) 26 5 ≠ 31 → exec e.1 s = .next (s.trapped c 3 (infoSub 1)))) ∧
    (c.g.inprog = false → exec (.rte k) s = .next (s.trapped c 15 0)) ∧
    (c.ready s [rdS d 0] = true → r ≠ 8 → r ≠ 9 → r ≠ 12 → r ≠ 7 → (r = 11 → c.g.inprog = false) →
      exec (.sput k r d) s = .next (s.trapped c 15 0))

/-! ## Encoding -/

/-- R170 to R185: in the main stream decoding and encoding agree: a word (with the next slot as its literal) decodes to an
instruction exactly when the instruction is well-formed and that word, or that word and the literal, is its encoding. The other
two instruction sets decode by themselves. A literal cannot stand after slot 2 (R177). -/
def Obligations.MainRoundTrip : Prop :=
  ∀ (i : Instr) (slot w lit : Nat), w < 2 ^ 32 → lit < 2 ^ 32 → (∀ o : StreamOp, o.instr ≠ i) → (∀ o : CarderOp, o.instr ≠ i) →
    (decodeMain slot w lit = .ok i ↔ i.wf = true ∧ (encode i = [w] ∨ slot ≠ 2 ∧ encode i = [w, lit]))

/-- R184, R185, R275, R289: the same for the words of the matrix stream and of the Carder. -/
def Obligations.StreamAndCarderRoundTrip : Prop :=
  (∀ (o : StreamOp) (w : Nat), w < 2 ^ 32 → (decodeStreamOp w = .ok o ↔ o.instr.wf = true ∧ encode o.instr = [w])) ∧
  (∀ (o : CarderOp) (w : Nat), w < 2 ^ 32 → (decodeCarderOp w = some o ↔ o.instr.wf = true ∧ encode o.instr = [w]))

/-- The worked encodings of the spec decode to the instructions they stand for, in each of the three instruction sets. -/
def Obligations.WordsDecode : Prop :=
  decodeMain 0 0x7C0003C2 0 = .ok (.clause 0 0 15 1 0) ∧ decodeMain 1 0x31408088 0 = .ok (.ldB32Fa false 0 4 2 8) ∧
  decodeMain 1 0x98030405 0 = .ok (.faddF32 true 6 4 0 5) ∧ decodeMain 2 0x08403001 0 = .ok (.siAddN32 false 3 (.short 1)) ∧
  decodeMain 0 0x08403800 100000 = .ok (.siAddN32 false 3 (.lit 100000)) ∧ decodeMain 1 0x05214052 0 = .ok (.sAddN64 false 80 82) ∧
  decodeMain 1 0x443C3FFC 0 = .ok (.braU false 7 (.off 0x3FFC)) ∧ decodeMain 1 0x36F60C06 0 = .ok (.atomCasB32 false 3 3 0 12 0 6) ∧
  decodeMain 1 0x40C86015 0 = .ok (.twait false 1 3 21) ∧ decodeMain 1 0x58CE0230 0 = .ok (.enq false 70) ∧
  decodeStreamOp 0x04410430 = .ok (.qadd 1 1 3) ∧ decodeStreamOp 0x14848303 = .ok (.mstore 0 72 12 3) ∧
  decodeCarderOp 0x9007800E = some (.cbeq 0 15 14) ∧ decodeCarderOp 0x6C800008 = some (.crd32 9 0 8)

/-! ## The machine as a whole -/

/-- R25, R31, R172, R181 to R183, R277, R147: a step runs the decoded instruction, and then evaluates the sets of `regang` that it has
completed. When a quadrant's scheduler picks a candidate that no event holds, its packet is fetched, its word decodes to `i` and
nothing keeps it from issuing, the step is `exec` of `i` on the state in which the candidate is seated and, for any word but a
header, counted as issued; a chain runs its words. The first stream of a core that decodes a word runs it, and the next one has its
turn if that one then waits; the first walk of a cluster that can move runs its word; and an event whose turn it is happens. What a
turn of the Carder or an event does stands when it meets nothing out of the rotating orders (R100, R109). -/
def Obligations.StepRunsDecoded : Prop :=
  ∀ (s u : State), u = s.turn →
    (∀ (core quad : Nat) (x : Seat) (c : Ctx) (p : CodeItem), s.act = some (.issue core quad) → u.powered = true →
      u.pick core quad = some x → u.boundaryEvent x = none → (∀ k, x.c.wait ≠ .inv k) → (u.seated x).ctx? = some c →
      c.packet (u.seated x) = .ok p → c.strayHeader p = false → c.chkClause p = .ok () → ∀ w v, w = p.word c.pc.slot → v = u.seated x →
      (∀ i, nbit w 31 = false ∨ fld w 26 5 = 20 → decodeMain c.pc.slot w (p.word (c.pc.slot + 1)) = .ok i →
        (fld w 26 5 = 31 → step s = settled (closed (exec i v))) ∧
        (fld w 26 5 ≠ 31 → c.chkIssue v i = .ok () → step s = settled (closed (exec i (v.countIssue x x.t.core x.g.quad))))) ∧
      (∀ l, nbit w 31 = true → fld w 26 5 ≠ 20 → c.chainFrom v p 3 c.pc.slot = .ok (l, false) → c.chainSub v l false = 0 →
        (∀ y ∈ l, c.chkFull v (flagSel y.instr) = .ok ()) →
        step s = settled (closed (.next ((v.countIssue x x.t.core x.g.quad).runChain c l))))) ∧
    (∀ (core : Nat) (t : Team) (st : Stream) (rest : List (Team × Stream)) (p : CodeItem) (o : StreamOp) (v : State),
      s.act = some (.seq core) → u.powered = true → u.streams core = (t, st) :: rest → st.pc.packet < 2 ^ 30 →
      u.codeItem (dieOf t.core) t.part t.kernel.desc (t.packetVa st.pc.packet) 12 = some p →
      decodeStreamOp (p.word st.pc.slot) = .ok o → exec o.instr { u with cur := { u.cur with who := .stream t.id } } = .next v →
      ∀ z, z = { v with cur := Cur.none } → step s =
        settled (closed (.next (if z.streamWaits t.id then z.runStreams rest else (z.tookUnit t.core 4).firstIssue t.id)))) ∧
    (∀ (cl : Nat) (w : Walk) (t : Team) (n : Nat) (o : CarderOp) (v : State), s.act = some (.carder cl) → u.powered = true →
      (u.walksInOrder cl).find? (fun w => (u.walkTurn w).isSome) = some w → u.team? w.team = some t → u.walkStop t w = none →
      u.sectionWord t w.pc = .word n → decodeCarderOp n = some o →
      ∀ r z y, r = u.walkReady t w → exec o.instr { r with cur := { r.cur with who := .carder w.id } } = .next v →
        z = { v with cur := Cur.none } →
        y = State.putCluster { z with eventPs := u.ps + 1 } cl { z.cluster cl with issuedAt := u.clk (cl / 16) + 1 } →
        (u.meetings y (.carder cl)).all u.meetsInOrder = true →
        step s = settled (closed (.next ((u.meetings y (.carder cl)).foldl State.meet y)))) ∧
    (∀ i v, s.act = some (.event i) → u.powered = true ∨ i = .powerOn → exec i u.happens = .next v →
      (u.meetings v (.event i)).all u.meetsInOrder = true →
      ∀ w, w = (u.meetings v (.event i)).foldl State.meet v →
      (w.held = false → step s = settled (.next { w with cur := Cur.none })) ∧
      (w.held = true → step s = settled (closed (.next { u with agenda := u.agenda ++ [⟨625, .event i⟩] }))))

/-- R326, R331, R334, R335, R348, R356, R357, R374, R375: the values that the spec gives for power-on. -/
def Obligations.ResetValues : Prop :=
  ∀ r p d e m n, r = State.reset.regs → p < 64 → d < Config.dies → e < 4 → m < 8 → n < 12 →
    (State.reset.powered = true ∧ State.reset.ps = 0 ∧ State.reset.clk d = 0 ∧ State.reset.teams = [] ∧ State.reset.launches = [] ∧
      (∀ c, State.reset.owner c = 0xFF) ∧ r.bootst = 0 ∧ r.attGo = false ∧ r.attErr = false ∧ r.alarmStat = 0 ∧ r.alarmPol = 0 ∧
      r.alarmLock = false ∧ r.alarmCnt = 0 ∧ r.modid = 0 ∧ r.pwrcap = 0 ∧ r.draw = 0 ∧ r.aclkMhz = 1600 ∧ r.b2base = 0 ∧
      r.b2key = 0) ∧
    (∀ q, q = State.reset.part p → q.qtbase = 0 ∧ q.pendbase = 0 ∧ q.slotmax = 0 ∧ q.qcount = 0 ∧ q.csabase = 0 ∧ q.errbase = 0 ∧
      q.errwr = 0 ∧ q.ptroot = 0 ∧ q.ptrootEn = false ∧ q.shbase = 0 ∧ q.shsize = 0 ∧ q.tlbBusy = false ∧ q.fltbase = 0 ∧
      q.fltwr = 0 ∧ q.optcls = 0 ∧ q.optlto = 20 ∧ q.relMirror = false ∧ q.relProt = false ∧ q.wdTimeout = 0 ∧ q.wdBusy = false) ∧
    (∀ x, x = State.reset.die d → x.palcorr = 0 ∧ x.palunc = 0 ∧ x.mirhit = 0 ∧ x.deadCnt = 0 ∧ x.eccLast = none ∧ x.rtaddr = 0 ∧
      x.rtbank = 0 ∧ x.rtbusy = none ∧ x.aclk = 1600 ∧ (∀ n, sget 0 x.qdead n = 0)) ∧
    (State.reset.link d e m).state = 0 ∧ (State.reset.link d e m).ackto = 128 ∧ (State.reset.chan d e m).tx = 0 ∧
    (State.reset.chan d e m).rx = 0 ∧ State.reset.lnkMap d e = 0xFAC688 ∧ (State.reset.port n).lweight = 4 ∧
    (State.reset.port n).state = 0 ∧ (∀ k, 0 < k → State.reset.keyEn k = false) ∧ State.reset.keyEn 0 = true

/-- At power-on no unit is issuing, and memory, the Palettes, the error sectors and the key tags list nothing: their canonical form.
What an unlisted element or byte reads as is the model's choice (log entries 2 and 3). -/
def Obligations.ResetIsCanonical : Prop :=
  State.reset.atRest = true ∧ State.reset.canonical = true ∧ (∀ a, State.reset.byte a = memDefault) ∧
    (∀ n r l, palGet State.reset.pal n r l = Elem.blank) ∧ ∀ a, State.reset.poisoned a = false

/-- Every step keeps the canonical form of memory, of the Palettes, of the error sectors and of the key tags (keys strictly rising,
no default listed), whatever unit issues and whatever event happens: equal contents stay equal data. -/
def Obligations.StepKeepsCanonical : Prop :=
  ∀ s t : State, s.canonical = true → step s = .next t → t.canonical = true
end

