-- ==== Sys2Proof/Laws/Arith.lean ====
section
/-! SUPPORT. The integer functions of the meanings are those of R213 and R238 in the words of `Spec`. -/

namespace Sys2Proof.Machine

open Sys2Proof

theorem addW_eq (x y : Word) : addW x y = Spec.add x y := by
  apply BitVec.eq_of_toNat_eq; simp [addW, Spec.add]

theorem subW_eq (x y : Word) : subW x y = Spec.sub x y := by
  apply BitVec.eq_of_toNat_eq; simp only [subW, Spec.sub, BitVec.toNat_sub, BitVec.toNat_ofInt]; have := x.isLt; have := y.isLt; omega

theorem mulW_eq (x y : Word) : mulW x y = Spec.mul x y := by
  apply BitVec.eq_of_toNat_eq; simp [mulW, Spec.mul]

theorem shlW_eq (x y : Word) : shlW x y = Spec.shl x y := by
  apply BitVec.eq_of_toNat_eq; simp [shlW, Spec.shl, Nat.shiftLeft_eq]

theorem shrN_eq (x y : Word) : shrN x y = Spec.shrN x y := by
  apply BitVec.eq_of_toNat_eq; simp only [shrN, Spec.shrN, BitVec.toNat_ushiftRight, Nat.shiftRight_eq_div_pow, BitVec.toNat_ofNat]
  exact (Nat.mod_eq_of_lt (Nat.lt_of_le_of_lt (Nat.div_le_self _ _) x.isLt)).symm

theorem shrS_eq (x y : Word) : shrS x y = Spec.shrS x y := by
  simp only [shrS, Spec.shrS, BitVec.sshiftRight, Int.shiftRight_eq_div_pow]; push_cast; rfl

theorem minN_eq (x y : Word) : minN x y = Spec.minN x y := by
  simp only [minN, Spec.minN, min_def]; split <;> simp

theorem maxN_eq (x y : Word) : maxN x y = Spec.maxN x y := by
  simp only [maxN, Spec.maxN, max_def]; split <;> simp

theorem minS_eq (x y : Word) : minS x y = Spec.minS x y := by
  simp only [minS, Spec.minS, min_def]; split <;> simp

theorem maxS_eq (x y : Word) : maxS x y = Spec.maxS x y := by
  simp only [maxS, Spec.maxS, max_def]; split <;> simp

theorem addsat_eq (x y : Word) : addsatS x y = Spec.addsat x y := by
  simp only [addsatS, Spec.addsat]
  have := x.toInt_lt; have := x.le_toInt; have := y.toInt_lt; have := y.le_toInt
  split
  · rw [min_eq_left (by omega), max_eq_right (by omega)]; rfl
  · split
    · rw [max_eq_left (by omega)]; rfl
    · rw [min_eq_right (by omega), max_eq_right (by omega)]

theorem long_toNat (c : Ctx) (d : Nat) : (c.long d).toNat = c.pair d := by
  simp only [Ctx.long, BitVec.toNat_ofNat]
  rw [Nat.mod_eq_of_lt]; have := (c.scal d).isLt; have := (c.scal (d+1)).isLt; unfold Ctx.pair; omega

theorem add64_eq (x y : Long) : (x + y).toNat = Spec.add64 x.toNat y.toNat := by
  rw [BitVec.toNat_add, Spec.add64]

theorem sub64_eq (x y : Long) : (x - y).toNat = Spec.sub64 x.toNat y.toNat := by
  have := x.isLt; have := y.isLt
  rw [BitVec.toNat_sub, Spec.sub64]; omega

theorem mul64_eq (x y : Long) : (mulL x y).toNat = Spec.mul64 x.toNat y.toNat := by
  rw [mulL, BitVec.toNat_mul, Spec.mul64]

theorem shl64_eq (x : Long) (n : Nat) : (shlL x n).toNat = Spec.shl64 x.toNat n := by
  rw [shlL, BitVec.toNat_shiftLeft, Nat.shiftLeft_eq, Spec.shl64]

theorem shrN64_eq (x : Long) (n : Nat) : (shrNL x n).toNat = Spec.shrN64 x.toNat n := by
  rw [shrNL, BitVec.toNat_ushiftRight, Nat.shiftRight_eq_div_pow, Spec.shrN64]

theorem imm11 (i : Imm) : immS11 i = Spec.imm 11 true i := by cases i <;> rfl

theorem imm7 (i : Imm) : immS7 i = Spec.imm 7 true i := by cases i <;> rfl

theorem immz (n) (i : Imm) : immZ i = Spec.imm n false i := by cases i <;> rfl

theorem wrap_toInt (z : BitVec 64) : wrap 64 z.toInt = z.toNat := by
  have := z.isLt; simp only [wrap, BitVec.toInt_eq_toNat_cond]; split <;> omega

theorem immL (i : Imm) : (immLong i).toNat = Spec.imm64 i := by
  rw [immLong, Spec.imm64, ← imm11, ← wrap_toInt, BitVec.toInt_signExtend_of_le (by decide)]

theorem pair_lt (c : Ctx) (d) : c.pair d < 2^64 := by
  have := (c.scal d).isLt; have := (c.scal (d+1)).isLt; unfold Ctx.pair; omega

end Sys2Proof.Machine
end

