-- ==== Sys2Proof/Laws/Sparse.lean ====
section
/-! SUPPORT. What the sparse tables do: a read after a write, a write leaves every other key alone, and every
write keeps the canonical form. -/

namespace Sys2Proof.Machine

variable {α : Type}

@[simp] theorem sget_nil (d : α) (k : Nat) : sget d [] k = d := rfl

theorem sget_sdel_self (d : α) (m : Sparse α) (k : Nat) : sget d (sdel m k) k = d := by
  induction m with
  | nil => rfl
  | cons e r ih =>
    obtain ⟨j, v⟩ := e
    by_cases h : j = k
    · simp [sdel, h, ih]
    · simp [sdel, sget, h, ih]

theorem sget_sdel_other (d : α) (m : Sparse α) {k l : Nat} (hkl : l ≠ k) : sget d (sdel m k) l = sget d m l := by
  induction m with
  | nil => rfl
  | cons e r ih =>
    obtain ⟨j, v⟩ := e
    by_cases h : j = k
    · have : j ≠ l := fun h' => hkl (h' ▸ h)
      simp [sdel, sget, h, ih, h ▸ this]
    · by_cases h2 : j = l <;> simp [sdel, sget, h, h2, ih]
      subst h2; simp [h, sget]

theorem sget_sins_other (d : α) (m : Sparse α) {k l : Nat} (v : α) (hkl : l ≠ k) :
    sget d (sins m k v) l = sget d m l := by
  induction m with
  | nil => simp [sins, sget, Ne.symm hkl]
  | cons e r ih =>
    obtain ⟨j, w⟩ := e
    by_cases h : k < j
    · simp [sins, h, sget, Ne.symm hkl]
    · simp [sins, h, sget, ih]

theorem sget_sins_sdel (d : α) (m : Sparse α) (k : Nat) (v : α) : sget d (sins (sdel m k) k v) k = v := by
  induction m with
  | nil => simp [sdel, sins, sget]
  | cons e r ih =>
    obtain ⟨j, w⟩ := e
    by_cases h : j = k
    · simp [sdel, h, ih]
    · by_cases h2 : k < j
      · simp [sdel, h, sins, h2, sget]
      · simp [sdel, h, sins, h2, sget, ih]

variable [DecidableEq α]

/-- A read after a write to the same key gives what was written. -/
@[simp] theorem sget_sset_self (d : α) (m : Sparse α) (k : Nat) (v : α) : sget d (sset d m k v) k = v := by
  unfold sset
  split
  · next h => simp [sget_sdel_self, h]
  · exact sget_sins_sdel d m k v

/-- A write leaves every other key as it was. -/
theorem sget_sset_other (d : α) (m : Sparse α) {k l : Nat} (v : α) (hkl : l ≠ k) :
    sget d (sset d m k v) l = sget d m l := by
  unfold sset
  split
  · exact sget_sdel_other d m hkl
  · rw [sget_sins_other d _ v hkl, sget_sdel_other d m hkl]

omit [DecidableEq α] in
theorem mem_sdel {m : Sparse α} {k : Nat} {e : Nat × α} (h : e ∈ sdel m k) : e ∈ m ∧ e.1 ≠ k := by
  induction m with
  | nil => simp [sdel] at h
  | cons f r ih =>
    obtain ⟨j, v⟩ := f
    by_cases hj : j = k
    · simp only [sdel, hj, if_true] at h
      exact ⟨List.mem_cons_of_mem _ (ih h).1, (ih h).2⟩
    · simp only [sdel, hj, if_false, List.mem_cons] at h
      rcases h with h | h
      · subst h; exact ⟨List.mem_cons_self, hj⟩
      · exact ⟨List.mem_cons_of_mem _ (ih h).1, (ih h).2⟩

omit [DecidableEq α] in
theorem mem_sins {m : Sparse α} {k : Nat} {v : α} {e : Nat × α} (h : e ∈ sins m k v) : e = (k, v) ∨ e ∈ m := by
  induction m with
  | nil => simp [sins] at h; exact .inl h
  | cons f r ih =>
    obtain ⟨j, w⟩ := f
    by_cases hj : k < j
    · simpa [sins, hj] using h
    · simp only [sins, hj, if_false, List.mem_cons] at h
      rcases h with h | h
      · exact .inr (by simp [h])
      · exact (ih h).imp id (List.mem_cons_of_mem _)

omit [DecidableEq α] in
theorem srising_sdel {m : Sparse α} (k : Nat) (h : srising m = true) : srising (sdel m k) = true := by
  induction m with
  | nil => rfl
  | cons f r ih =>
    obtain ⟨j, v⟩ := f
    simp only [srising, Bool.and_eq_true, List.all_eq_true, decide_eq_true_eq] at h
    by_cases hj : j = k
    · simp [sdel, hj, ih h.2]
    · simp only [sdel, hj, if_false, srising, Bool.and_eq_true, List.all_eq_true, decide_eq_true_eq]
      exact ⟨fun e he => h.1 e (mem_sdel he).1, ih h.2⟩

omit [DecidableEq α] in
theorem srising_sins {m : Sparse α} {k : Nat} (v : α) (h : srising m = true) (hk : ∀ e ∈ m, e.1 ≠ k) :
    srising (sins m k v) = true := by
  induction m with
  | nil => rfl
  | cons f r ih =>
    obtain ⟨j, w⟩ := f
    simp only [srising, Bool.and_eq_true, List.all_eq_true, decide_eq_true_eq] at h
    by_cases hj : k < j
    · simp only [sins, hj, if_true, srising, Bool.and_eq_true, List.all_eq_true, decide_eq_true_eq, List.mem_cons]
      refine ⟨fun e he => ?_, fun e he => h.1 e he, h.2⟩
      rcases he with he | he
      · subst he; exact hj
      · exact lt_trans hj (h.1 e he)
    · have hjk : j < k := lt_of_le_of_ne (not_lt.mp hj) (hk (j, w) List.mem_cons_self)
      simp only [sins, hj, if_false, srising, Bool.and_eq_true, List.all_eq_true, decide_eq_true_eq]
      refine ⟨fun e he => ?_, ih h.2 (fun e he => hk e (List.mem_cons_of_mem _ he))⟩
      rcases mem_sins he with he | he
      · subst he; exact hjk
      · exact h.1 e he

/-- Every write keeps the canonical form. -/
theorem swf_sset (d : α) {m : Sparse α} (k : Nat) (v : α) (h : swf d m = true) : swf d (sset d m k v) = true := by
  simp only [swf, Bool.and_eq_true, List.all_eq_true, decide_eq_true_eq] at h ⊢
  unfold sset
  split
  · exact ⟨srising_sdel k h.1, fun e he => h.2 e (mem_sdel he).1⟩
  · next hv =>
    refine ⟨srising_sins v (srising_sdel k h.1) (fun e he => (mem_sdel he).2), fun e he => ?_⟩
    rcases mem_sins he with he | he
    · subst he; exact hv
    · exact h.2 e (mem_sdel he).1

omit [DecidableEq α] in
/-- Entries left out by a condition on the keys leave every key that meets it as it was. -/
theorem sget_filter (d : α) (m : Sparse α) (f : Nat → Bool) {a : Nat} (h : f a = true) :
    sget d (m.filter (fun e => f e.1)) a = sget d m a := by
  induction m with
  | nil => rfl
  | cons e r ih =>
    obtain ⟨j, v⟩ := e
    by_cases hj : j = a
    · subst hj; simp [h, sget]
    · by_cases h2 : f j = true
      · simp [h2, sget, hj, ih]
      · simp [h2, sget, hj, ih]

omit [DecidableEq α] in
theorem srising_filter {m : Sparse α} (f : Nat × α → Bool) (h : srising m = true) : srising (m.filter f) = true := by
  induction m with
  | nil => rfl
  | cons e r ih =>
    simp only [srising, Bool.and_eq_true, List.all_eq_true, decide_eq_true_eq] at h
    by_cases hf : f e = true
    · rw [List.filter_cons_of_pos hf]
      simp only [srising, Bool.and_eq_true, List.all_eq_true, decide_eq_true_eq]
      exact ⟨fun x hx => h.1 x (List.mem_of_mem_filter hx), ih h.2⟩
    · rw [List.filter_cons_of_neg hf]; exact ih h.2

/-- Leaving entries out keeps the canonical form. -/
theorem swf_filter (d : α) {m : Sparse α} (f : Nat × α → Bool) (h : swf d m = true) : swf d (m.filter f) = true := by
  simp only [swf, Bool.and_eq_true, List.all_eq_true] at h ⊢
  exact ⟨srising_filter f h.1, fun x hx => h.2 x (List.mem_of_mem_filter hx)⟩

end Sys2Proof.Machine
end

