-- ==== Sys2Proof/Laws/State.lean ====
section
/-! SUPPORT. What each update of a table of the state leaves of every field, and what it makes a read answer. -/

namespace Sys2Proof.Machine

open Sys2Proof

/-! ## `putCore` -/

@[simp] theorem State.putCore_agenda (s : State) (c : Nat) (v : Core) : (s.putCore c v).agenda = s.agenda := rfl
@[simp] theorem State.putCore_cur (s : State) (c : Nat) (v : Core) : (s.putCore c v).cur = s.cur := rfl
@[simp] theorem State.putCore_ps (s : State) (c : Nat) (v : Core) : (s.putCore c v).ps = s.ps := rfl
@[simp] theorem State.putCore_eventPs (s : State) (c : Nat) (v : Core) : (s.putCore c v).eventPs = s.eventPs := rfl
@[simp] theorem State.putCore_held (s : State) (c : Nat) (v : Core) : (s.putCore c v).held = s.held := rfl
@[simp] theorem State.putCore_nextId (s : State) (c : Nat) (v : Core) : (s.putCore c v).nextId = s.nextId := rfl
@[simp] theorem State.putCore_free (s : State) (c : Nat) (v : Core) : (s.putCore c v).free = s.free := rfl
@[simp] theorem State.putCore_meets (s : State) (c : Nat) (v : Core) : (s.putCore c v).meets = s.meets := rfl
@[simp] theorem State.putCore_powered (s : State) (c : Nat) (v : Core) : (s.putCore c v).powered = s.powered := rfl
@[simp] theorem State.putCore_regs (s : State) (c : Nat) (v : Core) : (s.putCore c v).regs = s.regs := rfl
@[simp] theorem State.putCore_parts (s : State) (c : Nat) (v : Core) : (s.putCore c v).parts = s.parts := rfl
@[simp] theorem State.putCore_keys (s : State) (c : Nat) (v : Core) : (s.putCore c v).keys = s.keys := rfl
@[simp] theorem State.putCore_dies (s : State) (c : Nat) (v : Core) : (s.putCore c v).dies = s.dies := rfl
@[simp] theorem State.putCore_clusters (s : State) (c : Nat) (v : Core) : (s.putCore c v).clusters = s.clusters := rfl
@[simp] theorem State.putCore_links (s : State) (c : Nat) (v : Core) : (s.putCore c v).links = s.links := rfl
@[simp] theorem State.putCore_chans (s : State) (c : Nat) (v : Core) : (s.putCore c v).chans = s.chans := rfl
@[simp] theorem State.putCore_lnkmap (s : State) (c : Nat) (v : Core) : (s.putCore c v).lnkmap = s.lnkmap := rfl
@[simp] theorem State.putCore_routes (s : State) (c : Nat) (v : Core) : (s.putCore c v).routes = s.routes := rfl
@[simp] theorem State.putCore_ports (s : State) (c : Nat) (v : Core) : (s.putCore c v).ports = s.ports := rfl
@[simp] theorem State.putCore_pal (s : State) (c : Nat) (v : Core) : (s.putCore c v).pal = s.pal := rfl
@[simp] theorem State.putCore_mem (s : State) (c : Nat) (v : Core) : (s.putCore c v).mem = s.mem := rfl
@[simp] theorem State.putCore_poison (s : State) (c : Nat) (v : Core) : (s.putCore c v).poison = s.poison := rfl
@[simp] theorem State.putCore_tags (s : State) (c : Nat) (v : Core) : (s.putCore c v).tags = s.tags := rfl
@[simp] theorem State.putCore_swatches (s : State) (c : Nat) (v : Core) : (s.putCore c v).swatches = s.swatches := rfl
@[simp] theorem State.putCore_slots (s : State) (c : Nat) (v : Core) : (s.putCore c v).slots = s.slots := rfl
@[simp] theorem State.putCore_parked (s : State) (c : Nat) (v : Core) : (s.putCore c v).parked = s.parked := rfl
@[simp] theorem State.putCore_launches (s : State) (c : Nat) (v : Core) : (s.putCore c v).launches = s.launches := rfl
@[simp] theorem State.putCore_teams (s : State) (c : Nat) (v : Core) : (s.putCore c v).teams = s.teams := rfl
@[simp] theorem State.putCore_reqs (s : State) (c : Nat) (v : Core) : (s.putCore c v).reqs = s.reqs := rfl
@[simp] theorem State.putCore_swreqs (s : State) (c : Nat) (v : Core) : (s.putCore c v).swreqs = s.swreqs := rfl
@[simp] theorem State.putCore_ops (s : State) (c : Nat) (v : Core) : (s.putCore c v).ops = s.ops := rfl
@[simp] theorem State.putCore_locks (s : State) (c : Nat) (v : Core) : (s.putCore c v).locks = s.locks := rfl
@[simp] theorem State.putCore_walks (s : State) (c : Nat) (v : Core) : (s.putCore c v).walks = s.walks := rfl
@[simp] theorem State.putCore_ldels (s : State) (c : Nat) (v : Core) : (s.putCore c v).ldels = s.ldels := rfl
@[simp] theorem State.putCore_hostReply (s : State) (c : Nat) (v : Core) : (s.putCore c v).hostReply = s.hostReply := rfl

/-! ## `putCluster` -/

@[simp] theorem State.putCluster_agenda (s : State) (c : Nat) (v : Cluster) : (s.putCluster c v).agenda = s.agenda := rfl
@[simp] theorem State.putCluster_cur (s : State) (c : Nat) (v : Cluster) : (s.putCluster c v).cur = s.cur := rfl
@[simp] theorem State.putCluster_ps (s : State) (c : Nat) (v : Cluster) : (s.putCluster c v).ps = s.ps := rfl
@[simp] theorem State.putCluster_eventPs (s : State) (c : Nat) (v : Cluster) : (s.putCluster c v).eventPs = s.eventPs := rfl
@[simp] theorem State.putCluster_held (s : State) (c : Nat) (v : Cluster) : (s.putCluster c v).held = s.held := rfl
@[simp] theorem State.putCluster_nextId (s : State) (c : Nat) (v : Cluster) : (s.putCluster c v).nextId = s.nextId := rfl
@[simp] theorem State.putCluster_free (s : State) (c : Nat) (v : Cluster) : (s.putCluster c v).free = s.free := rfl
@[simp] theorem State.putCluster_meets (s : State) (c : Nat) (v : Cluster) : (s.putCluster c v).meets = s.meets := rfl
@[simp] theorem State.putCluster_powered (s : State) (c : Nat) (v : Cluster) : (s.putCluster c v).powered = s.powered := rfl
@[simp] theorem State.putCluster_regs (s : State) (c : Nat) (v : Cluster) : (s.putCluster c v).regs = s.regs := rfl
@[simp] theorem State.putCluster_parts (s : State) (c : Nat) (v : Cluster) : (s.putCluster c v).parts = s.parts := rfl
@[simp] theorem State.putCluster_keys (s : State) (c : Nat) (v : Cluster) : (s.putCluster c v).keys = s.keys := rfl
@[simp] theorem State.putCluster_dies (s : State) (c : Nat) (v : Cluster) : (s.putCluster c v).dies = s.dies := rfl
@[simp] theorem State.putCluster_cores (s : State) (c : Nat) (v : Cluster) : (s.putCluster c v).cores = s.cores := rfl
@[simp] theorem State.putCluster_links (s : State) (c : Nat) (v : Cluster) : (s.putCluster c v).links = s.links := rfl
@[simp] theorem State.putCluster_chans (s : State) (c : Nat) (v : Cluster) : (s.putCluster c v).chans = s.chans := rfl
@[simp] theorem State.putCluster_lnkmap (s : State) (c : Nat) (v : Cluster) : (s.putCluster c v).lnkmap = s.lnkmap := rfl
@[simp] theorem State.putCluster_routes (s : State) (c : Nat) (v : Cluster) : (s.putCluster c v).routes = s.routes := rfl
@[simp] theorem State.putCluster_ports (s : State) (c : Nat) (v : Cluster) : (s.putCluster c v).ports = s.ports := rfl
@[simp] theorem State.putCluster_pal (s : State) (c : Nat) (v : Cluster) : (s.putCluster c v).pal = s.pal := rfl
@[simp] theorem State.putCluster_mem (s : State) (c : Nat) (v : Cluster) : (s.putCluster c v).mem = s.mem := rfl
@[simp] theorem State.putCluster_poison (s : State) (c : Nat) (v : Cluster) : (s.putCluster c v).poison = s.poison := rfl
@[simp] theorem State.putCluster_tags (s : State) (c : Nat) (v : Cluster) : (s.putCluster c v).tags = s.tags := rfl
@[simp] theorem State.putCluster_swatches (s : State) (c : Nat) (v : Cluster) : (s.putCluster c v).swatches = s.swatches := rfl
@[simp] theorem State.putCluster_slots (s : State) (c : Nat) (v : Cluster) : (s.putCluster c v).slots = s.slots := rfl
@[simp] theorem State.putCluster_parked (s : State) (c : Nat) (v : Cluster) : (s.putCluster c v).parked = s.parked := rfl
@[simp] theorem State.putCluster_launches (s : State) (c : Nat) (v : Cluster) : (s.putCluster c v).launches = s.launches := rfl
@[simp] theorem State.putCluster_teams (s : State) (c : Nat) (v : Cluster) : (s.putCluster c v).teams = s.teams := rfl
@[simp] theorem State.putCluster_reqs (s : State) (c : Nat) (v : Cluster) : (s.putCluster c v).reqs = s.reqs := rfl
@[simp] theorem State.putCluster_swreqs (s : State) (c : Nat) (v : Cluster) : (s.putCluster c v).swreqs = s.swreqs := rfl
@[simp] theorem State.putCluster_ops (s : State) (c : Nat) (v : Cluster) : (s.putCluster c v).ops = s.ops := rfl
@[simp] theorem State.putCluster_locks (s : State) (c : Nat) (v : Cluster) : (s.putCluster c v).locks = s.locks := rfl
@[simp] theorem State.putCluster_walks (s : State) (c : Nat) (v : Cluster) : (s.putCluster c v).walks = s.walks := rfl
@[simp] theorem State.putCluster_ldels (s : State) (c : Nat) (v : Cluster) : (s.putCluster c v).ldels = s.ldels := rfl
@[simp] theorem State.putCluster_hostReply (s : State) (c : Nat) (v : Cluster) : (s.putCluster c v).hostReply = s.hostReply := rfl

/-! ## `putDie` -/

@[simp] theorem State.putDie_agenda (s : State) (d : Nat) (v : Die) : (s.putDie d v).agenda = s.agenda := rfl
@[simp] theorem State.putDie_cur (s : State) (d : Nat) (v : Die) : (s.putDie d v).cur = s.cur := rfl
@[simp] theorem State.putDie_ps (s : State) (d : Nat) (v : Die) : (s.putDie d v).ps = s.ps := rfl
@[simp] theorem State.putDie_eventPs (s : State) (d : Nat) (v : Die) : (s.putDie d v).eventPs = s.eventPs := rfl
@[simp] theorem State.putDie_held (s : State) (d : Nat) (v : Die) : (s.putDie d v).held = s.held := rfl
@[simp] theorem State.putDie_nextId (s : State) (d : Nat) (v : Die) : (s.putDie d v).nextId = s.nextId := rfl
@[simp] theorem State.putDie_free (s : State) (d : Nat) (v : Die) : (s.putDie d v).free = s.free := rfl
@[simp] theorem State.putDie_meets (s : State) (d : Nat) (v : Die) : (s.putDie d v).meets = s.meets := rfl
@[simp] theorem State.putDie_powered (s : State) (d : Nat) (v : Die) : (s.putDie d v).powered = s.powered := rfl
@[simp] theorem State.putDie_regs (s : State) (d : Nat) (v : Die) : (s.putDie d v).regs = s.regs := rfl
@[simp] theorem State.putDie_parts (s : State) (d : Nat) (v : Die) : (s.putDie d v).parts = s.parts := rfl
@[simp] theorem State.putDie_keys (s : State) (d : Nat) (v : Die) : (s.putDie d v).keys = s.keys := rfl
@[simp] theorem State.putDie_cores (s : State) (d : Nat) (v : Die) : (s.putDie d v).cores = s.cores := rfl
@[simp] theorem State.putDie_clusters (s : State) (d : Nat) (v : Die) : (s.putDie d v).clusters = s.clusters := rfl
@[simp] theorem State.putDie_links (s : State) (d : Nat) (v : Die) : (s.putDie d v).links = s.links := rfl
@[simp] theorem State.putDie_chans (s : State) (d : Nat) (v : Die) : (s.putDie d v).chans = s.chans := rfl
@[simp] theorem State.putDie_lnkmap (s : State) (d : Nat) (v : Die) : (s.putDie d v).lnkmap = s.lnkmap := rfl
@[simp] theorem State.putDie_routes (s : State) (d : Nat) (v : Die) : (s.putDie d v).routes = s.routes := rfl
@[simp] theorem State.putDie_ports (s : State) (d : Nat) (v : Die) : (s.putDie d v).ports = s.ports := rfl
@[simp] theorem State.putDie_pal (s : State) (d : Nat) (v : Die) : (s.putDie d v).pal = s.pal := rfl
@[simp] theorem State.putDie_mem (s : State) (d : Nat) (v : Die) : (s.putDie d v).mem = s.mem := rfl
@[simp] theorem State.putDie_poison (s : State) (d : Nat) (v : Die) : (s.putDie d v).poison = s.poison := rfl
@[simp] theorem State.putDie_tags (s : State) (d : Nat) (v : Die) : (s.putDie d v).tags = s.tags := rfl
@[simp] theorem State.putDie_swatches (s : State) (d : Nat) (v : Die) : (s.putDie d v).swatches = s.swatches := rfl
@[simp] theorem State.putDie_slots (s : State) (d : Nat) (v : Die) : (s.putDie d v).slots = s.slots := rfl
@[simp] theorem State.putDie_parked (s : State) (d : Nat) (v : Die) : (s.putDie d v).parked = s.parked := rfl
@[simp] theorem State.putDie_launches (s : State) (d : Nat) (v : Die) : (s.putDie d v).launches = s.launches := rfl
@[simp] theorem State.putDie_teams (s : State) (d : Nat) (v : Die) : (s.putDie d v).teams = s.teams := rfl
@[simp] theorem State.putDie_reqs (s : State) (d : Nat) (v : Die) : (s.putDie d v).reqs = s.reqs := rfl
@[simp] theorem State.putDie_swreqs (s : State) (d : Nat) (v : Die) : (s.putDie d v).swreqs = s.swreqs := rfl
@[simp] theorem State.putDie_ops (s : State) (d : Nat) (v : Die) : (s.putDie d v).ops = s.ops := rfl
@[simp] theorem State.putDie_locks (s : State) (d : Nat) (v : Die) : (s.putDie d v).locks = s.locks := rfl
@[simp] theorem State.putDie_walks (s : State) (d : Nat) (v : Die) : (s.putDie d v).walks = s.walks := rfl
@[simp] theorem State.putDie_ldels (s : State) (d : Nat) (v : Die) : (s.putDie d v).ldels = s.ldels := rfl
@[simp] theorem State.putDie_hostReply (s : State) (d : Nat) (v : Die) : (s.putDie d v).hostReply = s.hostReply := rfl

/-! ## `putPart` -/

@[simp] theorem State.putPart_agenda (s : State) (p : Nat) (v : Part) : (s.putPart p v).agenda = s.agenda := rfl
@[simp] theorem State.putPart_cur (s : State) (p : Nat) (v : Part) : (s.putPart p v).cur = s.cur := rfl
@[simp] theorem State.putPart_ps (s : State) (p : Nat) (v : Part) : (s.putPart p v).ps = s.ps := rfl
@[simp] theorem State.putPart_eventPs (s : State) (p : Nat) (v : Part) : (s.putPart p v).eventPs = s.eventPs := rfl
@[simp] theorem State.putPart_held (s : State) (p : Nat) (v : Part) : (s.putPart p v).held = s.held := rfl
@[simp] theorem State.putPart_nextId (s : State) (p : Nat) (v : Part) : (s.putPart p v).nextId = s.nextId := rfl
@[simp] theorem State.putPart_free (s : State) (p : Nat) (v : Part) : (s.putPart p v).free = s.free := rfl
@[simp] theorem State.putPart_meets (s : State) (p : Nat) (v : Part) : (s.putPart p v).meets = s.meets := rfl
@[simp] theorem State.putPart_powered (s : State) (p : Nat) (v : Part) : (s.putPart p v).powered = s.powered := rfl
@[simp] theorem State.putPart_regs (s : State) (p : Nat) (v : Part) : (s.putPart p v).regs = s.regs := rfl
@[simp] theorem State.putPart_keys (s : State) (p : Nat) (v : Part) : (s.putPart p v).keys = s.keys := rfl
@[simp] theorem State.putPart_dies (s : State) (p : Nat) (v : Part) : (s.putPart p v).dies = s.dies := rfl
@[simp] theorem State.putPart_cores (s : State) (p : Nat) (v : Part) : (s.putPart p v).cores = s.cores := rfl
@[simp] theorem State.putPart_clusters (s : State) (p : Nat) (v : Part) : (s.putPart p v).clusters = s.clusters := rfl
@[simp] theorem State.putPart_links (s : State) (p : Nat) (v : Part) : (s.putPart p v).links = s.links := rfl
@[simp] theorem State.putPart_chans (s : State) (p : Nat) (v : Part) : (s.putPart p v).chans = s.chans := rfl
@[simp] theorem State.putPart_lnkmap (s : State) (p : Nat) (v : Part) : (s.putPart p v).lnkmap = s.lnkmap := rfl
@[simp] theorem State.putPart_routes (s : State) (p : Nat) (v : Part) : (s.putPart p v).routes = s.routes := rfl
@[simp] theorem State.putPart_ports (s : State) (p : Nat) (v : Part) : (s.putPart p v).ports = s.ports := rfl
@[simp] theorem State.putPart_pal (s : State) (p : Nat) (v : Part) : (s.putPart p v).pal = s.pal := rfl
@[simp] theorem State.putPart_mem (s : State) (p : Nat) (v : Part) : (s.putPart p v).mem = s.mem := rfl
@[simp] theorem State.putPart_poison (s : State) (p : Nat) (v : Part) : (s.putPart p v).poison = s.poison := rfl
@[simp] theorem State.putPart_tags (s : State) (p : Nat) (v : Part) : (s.putPart p v).tags = s.tags := rfl
@[simp] theorem State.putPart_swatches (s : State) (p : Nat) (v : Part) : (s.putPart p v).swatches = s.swatches := rfl
@[simp] theorem State.putPart_slots (s : State) (p : Nat) (v : Part) : (s.putPart p v).slots = s.slots := rfl
@[simp] theorem State.putPart_parked (s : State) (p : Nat) (v : Part) : (s.putPart p v).parked = s.parked := rfl
@[simp] theorem State.putPart_launches (s : State) (p : Nat) (v : Part) : (s.putPart p v).launches = s.launches := rfl
@[simp] theorem State.putPart_teams (s : State) (p : Nat) (v : Part) : (s.putPart p v).teams = s.teams := rfl
@[simp] theorem State.putPart_reqs (s : State) (p : Nat) (v : Part) : (s.putPart p v).reqs = s.reqs := rfl
@[simp] theorem State.putPart_swreqs (s : State) (p : Nat) (v : Part) : (s.putPart p v).swreqs = s.swreqs := rfl
@[simp] theorem State.putPart_ops (s : State) (p : Nat) (v : Part) : (s.putPart p v).ops = s.ops := rfl
@[simp] theorem State.putPart_locks (s : State) (p : Nat) (v : Part) : (s.putPart p v).locks = s.locks := rfl
@[simp] theorem State.putPart_walks (s : State) (p : Nat) (v : Part) : (s.putPart p v).walks = s.walks := rfl
@[simp] theorem State.putPart_ldels (s : State) (p : Nat) (v : Part) : (s.putPart p v).ldels = s.ldels := rfl
@[simp] theorem State.putPart_hostReply (s : State) (p : Nat) (v : Part) : (s.putPart p v).hostReply = s.hostReply := rfl

/-! ## `putKey` -/

@[simp] theorem State.putKey_agenda (s : State) (k : Nat) (v : KeySlot) : (s.putKey k v).agenda = s.agenda := rfl
@[simp] theorem State.putKey_cur (s : State) (k : Nat) (v : KeySlot) : (s.putKey k v).cur = s.cur := rfl
@[simp] theorem State.putKey_ps (s : State) (k : Nat) (v : KeySlot) : (s.putKey k v).ps = s.ps := rfl
@[simp] theorem State.putKey_eventPs (s : State) (k : Nat) (v : KeySlot) : (s.putKey k v).eventPs = s.eventPs := rfl
@[simp] theorem State.putKey_held (s : State) (k : Nat) (v : KeySlot) : (s.putKey k v).held = s.held := rfl
@[simp] theorem State.putKey_nextId (s : State) (k : Nat) (v : KeySlot) : (s.putKey k v).nextId = s.nextId := rfl
@[simp] theorem State.putKey_free (s : State) (k : Nat) (v : KeySlot) : (s.putKey k v).free = s.free := rfl
@[simp] theorem State.putKey_meets (s : State) (k : Nat) (v : KeySlot) : (s.putKey k v).meets = s.meets := rfl
@[simp] theorem State.putKey_powered (s : State) (k : Nat) (v : KeySlot) : (s.putKey k v).powered = s.powered := rfl
@[simp] theorem State.putKey_regs (s : State) (k : Nat) (v : KeySlot) : (s.putKey k v).regs = s.regs := rfl
@[simp] theorem State.putKey_parts (s : State) (k : Nat) (v : KeySlot) : (s.putKey k v).parts = s.parts := rfl
@[simp] theorem State.putKey_dies (s : State) (k : Nat) (v : KeySlot) : (s.putKey k v).dies = s.dies := rfl
@[simp] theorem State.putKey_cores (s : State) (k : Nat) (v : KeySlot) : (s.putKey k v).cores = s.cores := rfl
@[simp] theorem State.putKey_clusters (s : State) (k : Nat) (v : KeySlot) : (s.putKey k v).clusters = s.clusters := rfl
@[simp] theorem State.putKey_links (s : State) (k : Nat) (v : KeySlot) : (s.putKey k v).links = s.links := rfl
@[simp] theorem State.putKey_chans (s : State) (k : Nat) (v : KeySlot) : (s.putKey k v).chans = s.chans := rfl
@[simp] theorem State.putKey_lnkmap (s : State) (k : Nat) (v : KeySlot) : (s.putKey k v).lnkmap = s.lnkmap := rfl
@[simp] theorem State.putKey_routes (s : State) (k : Nat) (v : KeySlot) : (s.putKey k v).routes = s.routes := rfl
@[simp] theorem State.putKey_ports (s : State) (k : Nat) (v : KeySlot) : (s.putKey k v).ports = s.ports := rfl
@[simp] theorem State.putKey_pal (s : State) (k : Nat) (v : KeySlot) : (s.putKey k v).pal = s.pal := rfl
@[simp] theorem State.putKey_mem (s : State) (k : Nat) (v : KeySlot) : (s.putKey k v).mem = s.mem := rfl
@[simp] theorem State.putKey_poison (s : State) (k : Nat) (v : KeySlot) : (s.putKey k v).poison = s.poison := rfl
@[simp] theorem State.putKey_tags (s : State) (k : Nat) (v : KeySlot) : (s.putKey k v).tags = s.tags := rfl
@[simp] theorem State.putKey_swatches (s : State) (k : Nat) (v : KeySlot) : (s.putKey k v).swatches = s.swatches := rfl
@[simp] theorem State.putKey_slots (s : State) (k : Nat) (v : KeySlot) : (s.putKey k v).slots = s.slots := rfl
@[simp] theorem State.putKey_parked (s : State) (k : Nat) (v : KeySlot) : (s.putKey k v).parked = s.parked := rfl
@[simp] theorem State.putKey_launches (s : State) (k : Nat) (v : KeySlot) : (s.putKey k v).launches = s.launches := rfl
@[simp] theorem State.putKey_teams (s : State) (k : Nat) (v : KeySlot) : (s.putKey k v).teams = s.teams := rfl
@[simp] theorem State.putKey_reqs (s : State) (k : Nat) (v : KeySlot) : (s.putKey k v).reqs = s.reqs := rfl
@[simp] theorem State.putKey_swreqs (s : State) (k : Nat) (v : KeySlot) : (s.putKey k v).swreqs = s.swreqs := rfl
@[simp] theorem State.putKey_ops (s : State) (k : Nat) (v : KeySlot) : (s.putKey k v).ops = s.ops := rfl
@[simp] theorem State.putKey_locks (s : State) (k : Nat) (v : KeySlot) : (s.putKey k v).locks = s.locks := rfl
@[simp] theorem State.putKey_walks (s : State) (k : Nat) (v : KeySlot) : (s.putKey k v).walks = s.walks := rfl
@[simp] theorem State.putKey_ldels (s : State) (k : Nat) (v : KeySlot) : (s.putKey k v).ldels = s.ldels := rfl
@[simp] theorem State.putKey_hostReply (s : State) (k : Nat) (v : KeySlot) : (s.putKey k v).hostReply = s.hostReply := rfl

/-! ## `putPort` -/

@[simp] theorem State.putPort_agenda (s : State) (k : Nat) (v : Port) : (s.putPort k v).agenda = s.agenda := rfl
@[simp] theorem State.putPort_cur (s : State) (k : Nat) (v : Port) : (s.putPort k v).cur = s.cur := rfl
@[simp] theorem State.putPort_ps (s : State) (k : Nat) (v : Port) : (s.putPort k v).ps = s.ps := rfl
@[simp] theorem State.putPort_eventPs (s : State) (k : Nat) (v : Port) : (s.putPort k v).eventPs = s.eventPs := rfl
@[simp] theorem State.putPort_held (s : State) (k : Nat) (v : Port) : (s.putPort k v).held = s.held := rfl
@[simp] theorem State.putPort_nextId (s : State) (k : Nat) (v : Port) : (s.putPort k v).nextId = s.nextId := rfl
@[simp] theorem State.putPort_free (s : State) (k : Nat) (v : Port) : (s.putPort k v).free = s.free := rfl
@[simp] theorem State.putPort_meets (s : State) (k : Nat) (v : Port) : (s.putPort k v).meets = s.meets := rfl
@[simp] theorem State.putPort_powered (s : State) (k : Nat) (v : Port) : (s.putPort k v).powered = s.powered := rfl
@[simp] theorem State.putPort_regs (s : State) (k : Nat) (v : Port) : (s.putPort k v).regs = s.regs := rfl
@[simp] theorem State.putPort_parts (s : State) (k : Nat) (v : Port) : (s.putPort k v).parts = s.parts := rfl
@[simp] theorem State.putPort_keys (s : State) (k : Nat) (v : Port) : (s.putPort k v).keys = s.keys := rfl
@[simp] theorem State.putPort_dies (s : State) (k : Nat) (v : Port) : (s.putPort k v).dies = s.dies := rfl
@[simp] theorem State.putPort_cores (s : State) (k : Nat) (v : Port) : (s.putPort k v).cores = s.cores := rfl
@[simp] theorem State.putPort_clusters (s : State) (k : Nat) (v : Port) : (s.putPort k v).clusters = s.clusters := rfl
@[simp] theorem State.putPort_links (s : State) (k : Nat) (v : Port) : (s.putPort k v).links = s.links := rfl
@[simp] theorem State.putPort_chans (s : State) (k : Nat) (v : Port) : (s.putPort k v).chans = s.chans := rfl
@[simp] theorem State.putPort_lnkmap (s : State) (k : Nat) (v : Port) : (s.putPort k v).lnkmap = s.lnkmap := rfl
@[simp] theorem State.putPort_routes (s : State) (k : Nat) (v : Port) : (s.putPort k v).routes = s.routes := rfl
@[simp] theorem State.putPort_pal (s : State) (k : Nat) (v : Port) : (s.putPort k v).pal = s.pal := rfl
@[simp] theorem State.putPort_mem (s : State) (k : Nat) (v : Port) : (s.putPort k v).mem = s.mem := rfl
@[simp] theorem State.putPort_poison (s : State) (k : Nat) (v : Port) : (s.putPort k v).poison = s.poison := rfl
@[simp] theorem State.putPort_tags (s : State) (k : Nat) (v : Port) : (s.putPort k v).tags = s.tags := rfl
@[simp] theorem State.putPort_swatches (s : State) (k : Nat) (v : Port) : (s.putPort k v).swatches = s.swatches := rfl
@[simp] theorem State.putPort_slots (s : State) (k : Nat) (v : Port) : (s.putPort k v).slots = s.slots := rfl
@[simp] theorem State.putPort_parked (s : State) (k : Nat) (v : Port) : (s.putPort k v).parked = s.parked := rfl
@[simp] theorem State.putPort_launches (s : State) (k : Nat) (v : Port) : (s.putPort k v).launches = s.launches := rfl
@[simp] theorem State.putPort_teams (s : State) (k : Nat) (v : Port) : (s.putPort k v).teams = s.teams := rfl
@[simp] theorem State.putPort_reqs (s : State) (k : Nat) (v : Port) : (s.putPort k v).reqs = s.reqs := rfl
@[simp] theorem State.putPort_swreqs (s : State) (k : Nat) (v : Port) : (s.putPort k v).swreqs = s.swreqs := rfl
@[simp] theorem State.putPort_ops (s : State) (k : Nat) (v : Port) : (s.putPort k v).ops = s.ops := rfl
@[simp] theorem State.putPort_locks (s : State) (k : Nat) (v : Port) : (s.putPort k v).locks = s.locks := rfl
@[simp] theorem State.putPort_walks (s : State) (k : Nat) (v : Port) : (s.putPort k v).walks = s.walks := rfl
@[simp] theorem State.putPort_ldels (s : State) (k : Nat) (v : Port) : (s.putPort k v).ldels = s.ldels := rfl
@[simp] theorem State.putPort_hostReply (s : State) (k : Nat) (v : Port) : (s.putPort k v).hostReply = s.hostReply := rfl

/-! ## `putLink` -/

@[simp] theorem State.putLink_agenda (s : State) (d e m : Nat) (v : Link) : (s.putLink d e m v).agenda = s.agenda := rfl
@[simp] theorem State.putLink_cur (s : State) (d e m : Nat) (v : Link) : (s.putLink d e m v).cur = s.cur := rfl
@[simp] theorem State.putLink_ps (s : State) (d e m : Nat) (v : Link) : (s.putLink d e m v).ps = s.ps := rfl
@[simp] theorem State.putLink_eventPs (s : State) (d e m : Nat) (v : Link) : (s.putLink d e m v).eventPs = s.eventPs := rfl
@[simp] theorem State.putLink_held (s : State) (d e m : Nat) (v : Link) : (s.putLink d e m v).held = s.held := rfl
@[simp] theorem State.putLink_nextId (s : State) (d e m : Nat) (v : Link) : (s.putLink d e m v).nextId = s.nextId := rfl
@[simp] theorem State.putLink_free (s : State) (d e m : Nat) (v : Link) : (s.putLink d e m v).free = s.free := rfl
@[simp] theorem State.putLink_meets (s : State) (d e m : Nat) (v : Link) : (s.putLink d e m v).meets = s.meets := rfl
@[simp] theorem State.putLink_powered (s : State) (d e m : Nat) (v : Link) : (s.putLink d e m v).powered = s.powered := rfl
@[simp] theorem State.putLink_regs (s : State) (d e m : Nat) (v : Link) : (s.putLink d e m v).regs = s.regs := rfl
@[simp] theorem State.putLink_parts (s : State) (d e m : Nat) (v : Link) : (s.putLink d e m v).parts = s.parts := rfl
@[simp] theorem State.putLink_keys (s : State) (d e m : Nat) (v : Link) : (s.putLink d e m v).keys = s.keys := rfl
@[simp] theorem State.putLink_dies (s : State) (d e m : Nat) (v : Link) : (s.putLink d e m v).dies = s.dies := rfl
@[simp] theorem State.putLink_cores (s : State) (d e m : Nat) (v : Link) : (s.putLink d e m v).cores = s.cores := rfl
@[simp] theorem State.putLink_clusters (s : State) (d e m : Nat) (v : Link) : (s.putLink d e m v).clusters = s.clusters := rfl
@[simp] theorem State.putLink_chans (s : State) (d e m : Nat) (v : Link) : (s.putLink d e m v).chans = s.chans := rfl
@[simp] theorem State.putLink_lnkmap (s : State) (d e m : Nat) (v : Link) : (s.putLink d e m v).lnkmap = s.lnkmap := rfl
@[simp] theorem State.putLink_routes (s : State) (d e m : Nat) (v : Link) : (s.putLink d e m v).routes = s.routes := rfl
@[simp] theorem State.putLink_ports (s : State) (d e m : Nat) (v : Link) : (s.putLink d e m v).ports = s.ports := rfl
@[simp] theorem State.putLink_pal (s : State) (d e m : Nat) (v : Link) : (s.putLink d e m v).pal = s.pal := rfl
@[simp] theorem State.putLink_mem (s : State) (d e m : Nat) (v : Link) : (s.putLink d e m v).mem = s.mem := rfl
@[simp] theorem State.putLink_poison (s : State) (d e m : Nat) (v : Link) : (s.putLink d e m v).poison = s.poison := rfl
@[simp] theorem State.putLink_tags (s : State) (d e m : Nat) (v : Link) : (s.putLink d e m v).tags = s.tags := rfl
@[simp] theorem State.putLink_swatches (s : State) (d e m : Nat) (v : Link) : (s.putLink d e m v).swatches = s.swatches := rfl
@[simp] theorem State.putLink_slots (s : State) (d e m : Nat) (v : Link) : (s.putLink d e m v).slots = s.slots := rfl
@[simp] theorem State.putLink_parked (s : State) (d e m : Nat) (v : Link) : (s.putLink d e m v).parked = s.parked := rfl
@[simp] theorem State.putLink_launches (s : State) (d e m : Nat) (v : Link) : (s.putLink d e m v).launches = s.launches := rfl
@[simp] theorem State.putLink_teams (s : State) (d e m : Nat) (v : Link) : (s.putLink d e m v).teams = s.teams := rfl
@[simp] theorem State.putLink_reqs (s : State) (d e m : Nat) (v : Link) : (s.putLink d e m v).reqs = s.reqs := rfl
@[simp] theorem State.putLink_swreqs (s : State) (d e m : Nat) (v : Link) : (s.putLink d e m v).swreqs = s.swreqs := rfl
@[simp] theorem State.putLink_ops (s : State) (d e m : Nat) (v : Link) : (s.putLink d e m v).ops = s.ops := rfl
@[simp] theorem State.putLink_locks (s : State) (d e m : Nat) (v : Link) : (s.putLink d e m v).locks = s.locks := rfl
@[simp] theorem State.putLink_walks (s : State) (d e m : Nat) (v : Link) : (s.putLink d e m v).walks = s.walks := rfl
@[simp] theorem State.putLink_ldels (s : State) (d e m : Nat) (v : Link) : (s.putLink d e m v).ldels = s.ldels := rfl
@[simp] theorem State.putLink_hostReply (s : State) (d e m : Nat) (v : Link) : (s.putLink d e m v).hostReply = s.hostReply := rfl

/-! ## `putChan` -/

@[simp] theorem State.putChan_agenda (s : State) (d e i : Nat) (v : Chan) : (s.putChan d e i v).agenda = s.agenda := rfl
@[simp] theorem State.putChan_cur (s : State) (d e i : Nat) (v : Chan) : (s.putChan d e i v).cur = s.cur := rfl
@[simp] theorem State.putChan_ps (s : State) (d e i : Nat) (v : Chan) : (s.putChan d e i v).ps = s.ps := rfl
@[simp] theorem State.putChan_eventPs (s : State) (d e i : Nat) (v : Chan) : (s.putChan d e i v).eventPs = s.eventPs := rfl
@[simp] theorem State.putChan_held (s : State) (d e i : Nat) (v : Chan) : (s.putChan d e i v).held = s.held := rfl
@[simp] theorem State.putChan_nextId (s : State) (d e i : Nat) (v : Chan) : (s.putChan d e i v).nextId = s.nextId := rfl
@[simp] theorem State.putChan_free (s : State) (d e i : Nat) (v : Chan) : (s.putChan d e i v).free = s.free := rfl
@[simp] theorem State.putChan_meets (s : State) (d e i : Nat) (v : Chan) : (s.putChan d e i v).meets = s.meets := rfl
@[simp] theorem State.putChan_powered (s : State) (d e i : Nat) (v : Chan) : (s.putChan d e i v).powered = s.powered := rfl
@[simp] theorem State.putChan_regs (s : State) (d e i : Nat) (v : Chan) : (s.putChan d e i v).regs = s.regs := rfl
@[simp] theorem State.putChan_parts (s : State) (d e i : Nat) (v : Chan) : (s.putChan d e i v).parts = s.parts := rfl
@[simp] theorem State.putChan_keys (s : State) (d e i : Nat) (v : Chan) : (s.putChan d e i v).keys = s.keys := rfl
@[simp] theorem State.putChan_dies (s : State) (d e i : Nat) (v : Chan) : (s.putChan d e i v).dies = s.dies := rfl
@[simp] theorem State.putChan_cores (s : State) (d e i : Nat) (v : Chan) : (s.putChan d e i v).cores = s.cores := rfl
@[simp] theorem State.putChan_clusters (s : State) (d e i : Nat) (v : Chan) : (s.putChan d e i v).clusters = s.clusters := rfl
@[simp] theorem State.putChan_links (s : State) (d e i : Nat) (v : Chan) : (s.putChan d e i v).links = s.links := rfl
@[simp] theorem State.putChan_lnkmap (s : State) (d e i : Nat) (v : Chan) : (s.putChan d e i v).lnkmap = s.lnkmap := rfl
@[simp] theorem State.putChan_routes (s : State) (d e i : Nat) (v : Chan) : (s.putChan d e i v).routes = s.routes := rfl
@[simp] theorem State.putChan_ports (s : State) (d e i : Nat) (v : Chan) : (s.putChan d e i v).ports = s.ports := rfl
@[simp] theorem State.putChan_pal (s : State) (d e i : Nat) (v : Chan) : (s.putChan d e i v).pal = s.pal := rfl
@[simp] theorem State.putChan_mem (s : State) (d e i : Nat) (v : Chan) : (s.putChan d e i v).mem = s.mem := rfl
@[simp] theorem State.putChan_poison (s : State) (d e i : Nat) (v : Chan) : (s.putChan d e i v).poison = s.poison := rfl
@[simp] theorem State.putChan_tags (s : State) (d e i : Nat) (v : Chan) : (s.putChan d e i v).tags = s.tags := rfl
@[simp] theorem State.putChan_swatches (s : State) (d e i : Nat) (v : Chan) : (s.putChan d e i v).swatches = s.swatches := rfl
@[simp] theorem State.putChan_slots (s : State) (d e i : Nat) (v : Chan) : (s.putChan d e i v).slots = s.slots := rfl
@[simp] theorem State.putChan_parked (s : State) (d e i : Nat) (v : Chan) : (s.putChan d e i v).parked = s.parked := rfl
@[simp] theorem State.putChan_launches (s : State) (d e i : Nat) (v : Chan) : (s.putChan d e i v).launches = s.launches := rfl
@[simp] theorem State.putChan_teams (s : State) (d e i : Nat) (v : Chan) : (s.putChan d e i v).teams = s.teams := rfl
@[simp] theorem State.putChan_reqs (s : State) (d e i : Nat) (v : Chan) : (s.putChan d e i v).reqs = s.reqs := rfl
@[simp] theorem State.putChan_swreqs (s : State) (d e i : Nat) (v : Chan) : (s.putChan d e i v).swreqs = s.swreqs := rfl
@[simp] theorem State.putChan_ops (s : State) (d e i : Nat) (v : Chan) : (s.putChan d e i v).ops = s.ops := rfl
@[simp] theorem State.putChan_locks (s : State) (d e i : Nat) (v : Chan) : (s.putChan d e i v).locks = s.locks := rfl
@[simp] theorem State.putChan_walks (s : State) (d e i : Nat) (v : Chan) : (s.putChan d e i v).walks = s.walks := rfl
@[simp] theorem State.putChan_ldels (s : State) (d e i : Nat) (v : Chan) : (s.putChan d e i v).ldels = s.ldels := rfl
@[simp] theorem State.putChan_hostReply (s : State) (d e i : Nat) (v : Chan) : (s.putChan d e i v).hostReply = s.hostReply := rfl

/-! ## `putTeam` -/

@[simp] theorem State.putTeam_agenda (s : State) (t : Team) : (s.putTeam t).agenda = s.agenda := rfl
@[simp] theorem State.putTeam_cur (s : State) (t : Team) : (s.putTeam t).cur = s.cur := rfl
@[simp] theorem State.putTeam_ps (s : State) (t : Team) : (s.putTeam t).ps = s.ps := rfl
@[simp] theorem State.putTeam_eventPs (s : State) (t : Team) : (s.putTeam t).eventPs = s.eventPs := rfl
@[simp] theorem State.putTeam_held (s : State) (t : Team) : (s.putTeam t).held = s.held := rfl
@[simp] theorem State.putTeam_nextId (s : State) (t : Team) : (s.putTeam t).nextId = s.nextId := rfl
@[simp] theorem State.putTeam_free (s : State) (t : Team) : (s.putTeam t).free = s.free := rfl
@[simp] theorem State.putTeam_meets (s : State) (t : Team) : (s.putTeam t).meets = s.meets := rfl
@[simp] theorem State.putTeam_powered (s : State) (t : Team) : (s.putTeam t).powered = s.powered := rfl
@[simp] theorem State.putTeam_regs (s : State) (t : Team) : (s.putTeam t).regs = s.regs := rfl
@[simp] theorem State.putTeam_parts (s : State) (t : Team) : (s.putTeam t).parts = s.parts := rfl
@[simp] theorem State.putTeam_keys (s : State) (t : Team) : (s.putTeam t).keys = s.keys := rfl
@[simp] theorem State.putTeam_dies (s : State) (t : Team) : (s.putTeam t).dies = s.dies := rfl
@[simp] theorem State.putTeam_cores (s : State) (t : Team) : (s.putTeam t).cores = s.cores := rfl
@[simp] theorem State.putTeam_clusters (s : State) (t : Team) : (s.putTeam t).clusters = s.clusters := rfl
@[simp] theorem State.putTeam_links (s : State) (t : Team) : (s.putTeam t).links = s.links := rfl
@[simp] theorem State.putTeam_chans (s : State) (t : Team) : (s.putTeam t).chans = s.chans := rfl
@[simp] theorem State.putTeam_lnkmap (s : State) (t : Team) : (s.putTeam t).lnkmap = s.lnkmap := rfl
@[simp] theorem State.putTeam_routes (s : State) (t : Team) : (s.putTeam t).routes = s.routes := rfl
@[simp] theorem State.putTeam_ports (s : State) (t : Team) : (s.putTeam t).ports = s.ports := rfl
@[simp] theorem State.putTeam_pal (s : State) (t : Team) : (s.putTeam t).pal = s.pal := rfl
@[simp] theorem State.putTeam_mem (s : State) (t : Team) : (s.putTeam t).mem = s.mem := rfl
@[simp] theorem State.putTeam_poison (s : State) (t : Team) : (s.putTeam t).poison = s.poison := rfl
@[simp] theorem State.putTeam_tags (s : State) (t : Team) : (s.putTeam t).tags = s.tags := rfl
@[simp] theorem State.putTeam_swatches (s : State) (t : Team) : (s.putTeam t).swatches = s.swatches := rfl
@[simp] theorem State.putTeam_slots (s : State) (t : Team) : (s.putTeam t).slots = s.slots := rfl
@[simp] theorem State.putTeam_parked (s : State) (t : Team) : (s.putTeam t).parked = s.parked := rfl
@[simp] theorem State.putTeam_launches (s : State) (t : Team) : (s.putTeam t).launches = s.launches := rfl
@[simp] theorem State.putTeam_reqs (s : State) (t : Team) : (s.putTeam t).reqs = s.reqs := rfl
@[simp] theorem State.putTeam_swreqs (s : State) (t : Team) : (s.putTeam t).swreqs = s.swreqs := rfl
@[simp] theorem State.putTeam_ops (s : State) (t : Team) : (s.putTeam t).ops = s.ops := rfl
@[simp] theorem State.putTeam_locks (s : State) (t : Team) : (s.putTeam t).locks = s.locks := rfl
@[simp] theorem State.putTeam_walks (s : State) (t : Team) : (s.putTeam t).walks = s.walks := rfl
@[simp] theorem State.putTeam_ldels (s : State) (t : Team) : (s.putTeam t).ldels = s.ldels := rfl
@[simp] theorem State.putTeam_hostReply (s : State) (t : Team) : (s.putTeam t).hostReply = s.hostReply := rfl

/-! ## `putByte` -/

@[simp] theorem State.putByte_agenda (s : State) (pa : Nat) (b : Byte) : (s.putByte pa b).agenda = s.agenda := rfl
@[simp] theorem State.putByte_cur (s : State) (pa : Nat) (b : Byte) : (s.putByte pa b).cur = s.cur := rfl
@[simp] theorem State.putByte_ps (s : State) (pa : Nat) (b : Byte) : (s.putByte pa b).ps = s.ps := rfl
@[simp] theorem State.putByte_eventPs (s : State) (pa : Nat) (b : Byte) : (s.putByte pa b).eventPs = s.eventPs := rfl
@[simp] theorem State.putByte_held (s : State) (pa : Nat) (b : Byte) : (s.putByte pa b).held = s.held := rfl
@[simp] theorem State.putByte_nextId (s : State) (pa : Nat) (b : Byte) : (s.putByte pa b).nextId = s.nextId := rfl
@[simp] theorem State.putByte_free (s : State) (pa : Nat) (b : Byte) : (s.putByte pa b).free = s.free := rfl
@[simp] theorem State.putByte_meets (s : State) (pa : Nat) (b : Byte) : (s.putByte pa b).meets = s.meets := rfl
@[simp] theorem State.putByte_powered (s : State) (pa : Nat) (b : Byte) : (s.putByte pa b).powered = s.powered := rfl
@[simp] theorem State.putByte_regs (s : State) (pa : Nat) (b : Byte) : (s.putByte pa b).regs = s.regs := rfl
@[simp] theorem State.putByte_parts (s : State) (pa : Nat) (b : Byte) : (s.putByte pa b).parts = s.parts := rfl
@[simp] theorem State.putByte_keys (s : State) (pa : Nat) (b : Byte) : (s.putByte pa b).keys = s.keys := rfl
@[simp] theorem State.putByte_dies (s : State) (pa : Nat) (b : Byte) : (s.putByte pa b).dies = s.dies := rfl
@[simp] theorem State.putByte_cores (s : State) (pa : Nat) (b : Byte) : (s.putByte pa b).cores = s.cores := rfl
@[simp] theorem State.putByte_clusters (s : State) (pa : Nat) (b : Byte) : (s.putByte pa b).clusters = s.clusters := rfl
@[simp] theorem State.putByte_links (s : State) (pa : Nat) (b : Byte) : (s.putByte pa b).links = s.links := rfl
@[simp] theorem State.putByte_chans (s : State) (pa : Nat) (b : Byte) : (s.putByte pa b).chans = s.chans := rfl
@[simp] theorem State.putByte_lnkmap (s : State) (pa : Nat) (b : Byte) : (s.putByte pa b).lnkmap = s.lnkmap := rfl
@[simp] theorem State.putByte_routes (s : State) (pa : Nat) (b : Byte) : (s.putByte pa b).routes = s.routes := rfl
@[simp] theorem State.putByte_ports (s : State) (pa : Nat) (b : Byte) : (s.putByte pa b).ports = s.ports := rfl
@[simp] theorem State.putByte_pal (s : State) (pa : Nat) (b : Byte) : (s.putByte pa b).pal = s.pal := rfl
@[simp] theorem State.putByte_poison (s : State) (pa : Nat) (b : Byte) : (s.putByte pa b).poison = s.poison := rfl
@[simp] theorem State.putByte_tags (s : State) (pa : Nat) (b : Byte) : (s.putByte pa b).tags = s.tags := rfl
@[simp] theorem State.putByte_swatches (s : State) (pa : Nat) (b : Byte) : (s.putByte pa b).swatches = s.swatches := rfl
@[simp] theorem State.putByte_slots (s : State) (pa : Nat) (b : Byte) : (s.putByte pa b).slots = s.slots := rfl
@[simp] theorem State.putByte_parked (s : State) (pa : Nat) (b : Byte) : (s.putByte pa b).parked = s.parked := rfl
@[simp] theorem State.putByte_launches (s : State) (pa : Nat) (b : Byte) : (s.putByte pa b).launches = s.launches := rfl
@[simp] theorem State.putByte_teams (s : State) (pa : Nat) (b : Byte) : (s.putByte pa b).teams = s.teams := rfl
@[simp] theorem State.putByte_reqs (s : State) (pa : Nat) (b : Byte) : (s.putByte pa b).reqs = s.reqs := rfl
@[simp] theorem State.putByte_swreqs (s : State) (pa : Nat) (b : Byte) : (s.putByte pa b).swreqs = s.swreqs := rfl
@[simp] theorem State.putByte_ops (s : State) (pa : Nat) (b : Byte) : (s.putByte pa b).ops = s.ops := rfl
@[simp] theorem State.putByte_locks (s : State) (pa : Nat) (b : Byte) : (s.putByte pa b).locks = s.locks := rfl
@[simp] theorem State.putByte_walks (s : State) (pa : Nat) (b : Byte) : (s.putByte pa b).walks = s.walks := rfl
@[simp] theorem State.putByte_ldels (s : State) (pa : Nat) (b : Byte) : (s.putByte pa b).ldels = s.ldels := rfl
@[simp] theorem State.putByte_hostReply (s : State) (pa : Nat) (b : Byte) : (s.putByte pa b).hostReply = s.hostReply := rfl

/-! ## `setPoison` -/

@[simp] theorem State.setPoison_agenda (s : State) (pa : Nat) (b : Bool) : (s.setPoison pa b).agenda = s.agenda := rfl
@[simp] theorem State.setPoison_cur (s : State) (pa : Nat) (b : Bool) : (s.setPoison pa b).cur = s.cur := rfl
@[simp] theorem State.setPoison_ps (s : State) (pa : Nat) (b : Bool) : (s.setPoison pa b).ps = s.ps := rfl
@[simp] theorem State.setPoison_eventPs (s : State) (pa : Nat) (b : Bool) : (s.setPoison pa b).eventPs = s.eventPs := rfl
@[simp] theorem State.setPoison_held (s : State) (pa : Nat) (b : Bool) : (s.setPoison pa b).held = s.held := rfl
@[simp] theorem State.setPoison_nextId (s : State) (pa : Nat) (b : Bool) : (s.setPoison pa b).nextId = s.nextId := rfl
@[simp] theorem State.setPoison_free (s : State) (pa : Nat) (b : Bool) : (s.setPoison pa b).free = s.free := rfl
@[simp] theorem State.setPoison_meets (s : State) (pa : Nat) (b : Bool) : (s.setPoison pa b).meets = s.meets := rfl
@[simp] theorem State.setPoison_powered (s : State) (pa : Nat) (b : Bool) : (s.setPoison pa b).powered = s.powered := rfl
@[simp] theorem State.setPoison_regs (s : State) (pa : Nat) (b : Bool) : (s.setPoison pa b).regs = s.regs := rfl
@[simp] theorem State.setPoison_parts (s : State) (pa : Nat) (b : Bool) : (s.setPoison pa b).parts = s.parts := rfl
@[simp] theorem State.setPoison_keys (s : State) (pa : Nat) (b : Bool) : (s.setPoison pa b).keys = s.keys := rfl
@[simp] theorem State.setPoison_dies (s : State) (pa : Nat) (b : Bool) : (s.setPoison pa b).dies = s.dies := rfl
@[simp] theorem State.setPoison_cores (s : State) (pa : Nat) (b : Bool) : (s.setPoison pa b).cores = s.cores := rfl
@[simp] theorem State.setPoison_clusters (s : State) (pa : Nat) (b : Bool) : (s.setPoison pa b).clusters = s.clusters := rfl
@[simp] theorem State.setPoison_links (s : State) (pa : Nat) (b : Bool) : (s.setPoison pa b).links = s.links := rfl
@[simp] theorem State.setPoison_chans (s : State) (pa : Nat) (b : Bool) : (s.setPoison pa b).chans = s.chans := rfl
@[simp] theorem State.setPoison_lnkmap (s : State) (pa : Nat) (b : Bool) : (s.setPoison pa b).lnkmap = s.lnkmap := rfl
@[simp] theorem State.setPoison_routes (s : State) (pa : Nat) (b : Bool) : (s.setPoison pa b).routes = s.routes := rfl
@[simp] theorem State.setPoison_ports (s : State) (pa : Nat) (b : Bool) : (s.setPoison pa b).ports = s.ports := rfl
@[simp] theorem State.setPoison_pal (s : State) (pa : Nat) (b : Bool) : (s.setPoison pa b).pal = s.pal := rfl
@[simp] theorem State.setPoison_mem (s : State) (pa : Nat) (b : Bool) : (s.setPoison pa b).mem = s.mem := rfl
@[simp] theorem State.setPoison_tags (s : State) (pa : Nat) (b : Bool) : (s.setPoison pa b).tags = s.tags := rfl
@[simp] theorem State.setPoison_swatches (s : State) (pa : Nat) (b : Bool) : (s.setPoison pa b).swatches = s.swatches := rfl
@[simp] theorem State.setPoison_slots (s : State) (pa : Nat) (b : Bool) : (s.setPoison pa b).slots = s.slots := rfl
@[simp] theorem State.setPoison_parked (s : State) (pa : Nat) (b : Bool) : (s.setPoison pa b).parked = s.parked := rfl
@[simp] theorem State.setPoison_launches (s : State) (pa : Nat) (b : Bool) : (s.setPoison pa b).launches = s.launches := rfl
@[simp] theorem State.setPoison_teams (s : State) (pa : Nat) (b : Bool) : (s.setPoison pa b).teams = s.teams := rfl
@[simp] theorem State.setPoison_reqs (s : State) (pa : Nat) (b : Bool) : (s.setPoison pa b).reqs = s.reqs := rfl
@[simp] theorem State.setPoison_swreqs (s : State) (pa : Nat) (b : Bool) : (s.setPoison pa b).swreqs = s.swreqs := rfl
@[simp] theorem State.setPoison_ops (s : State) (pa : Nat) (b : Bool) : (s.setPoison pa b).ops = s.ops := rfl
@[simp] theorem State.setPoison_locks (s : State) (pa : Nat) (b : Bool) : (s.setPoison pa b).locks = s.locks := rfl
@[simp] theorem State.setPoison_walks (s : State) (pa : Nat) (b : Bool) : (s.setPoison pa b).walks = s.walks := rfl
@[simp] theorem State.setPoison_ldels (s : State) (pa : Nat) (b : Bool) : (s.setPoison pa b).ldels = s.ldels := rfl
@[simp] theorem State.setPoison_hostReply (s : State) (pa : Nat) (b : Bool) : (s.setPoison pa b).hostReply = s.hostReply := rfl

/-! ## Reads after writes -/

@[simp] theorem State.core_putCore_self (s : State) (c : Nat) (v : Core) : (s.putCore c v).core c = v := by
  simp [State.core, State.putCore]
theorem State.core_putCore_other (s : State) {c j : Nat} (v : Core) (h : j ≠ c) : (s.putCore c v).core j = s.core j := by
  simp [State.core, State.putCore, sget_sset_other _ _ _ h]
@[simp] theorem State.cluster_putCluster_self (s : State) (c : Nat) (v : Cluster) : (s.putCluster c v).cluster c = v := by
  simp [State.cluster, State.putCluster]
theorem State.cluster_putCluster_other (s : State) {c j : Nat} (v : Cluster) (h : j ≠ c) : (s.putCluster c v).cluster j = s.cluster j := by
  simp [State.cluster, State.putCluster, sget_sset_other _ _ _ h]
@[simp] theorem State.die_putDie_self (s : State) (d : Nat) (v : Die) : (s.putDie d v).die d = v := by
  simp [State.die, State.putDie]
theorem State.die_putDie_other (s : State) {d j : Nat} (v : Die) (h : j ≠ d) : (s.putDie d v).die j = s.die j := by
  simp [State.die, State.putDie, sget_sset_other _ _ _ h]
@[simp] theorem State.part_putPart_self (s : State) (p : Nat) (v : Part) : (s.putPart p v).part p = v := by
  simp [State.part, State.putPart]
theorem State.part_putPart_other (s : State) {p j : Nat} (v : Part) (h : j ≠ p) : (s.putPart p v).part j = s.part j := by
  simp [State.part, State.putPart, sget_sset_other _ _ _ h]
@[simp] theorem State.key_putKey_self (s : State) (k : Nat) (v : KeySlot) : (s.putKey k v).key k = v := by
  simp [State.key, State.putKey]
theorem State.key_putKey_other (s : State) {k j : Nat} (v : KeySlot) (h : j ≠ k) : (s.putKey k v).key j = s.key j := by
  simp [State.key, State.putKey, sget_sset_other _ _ _ h]
@[simp] theorem State.port_putPort_self (s : State) (k : Nat) (v : Port) : (s.putPort k v).port k = v := by
  simp [State.port, State.putPort]
theorem State.port_putPort_other (s : State) {k j : Nat} (v : Port) (h : j ≠ k) : (s.putPort k v).port j = s.port j := by
  simp [State.port, State.putPort, sget_sset_other _ _ _ h]
@[simp] theorem State.byte_putByte_self (s : State) (pa : Nat) (b : Byte) : (s.putByte pa b).byte pa = b := by
  simp [State.byte, State.putByte]
theorem State.byte_putByte_other (s : State) {pa q : Nat} (b : Byte) (h : q ≠ pa) : (s.putByte pa b).byte q = s.byte q := by
  simp [State.byte, State.putByte, sget_sset_other _ _ _ h]

end Sys2Proof.Machine
end

