-- ==== Sys2Proof/Laws/Word.lean ====
section
/-! SUPPORT. The frame of a main-stream word, said once: what the checks, the settling, the advance and `word` answer when
nothing stands in the word's way, and what writing elements leaves as it was. -/

namespace Sys2Proof.Machine

open Sys2Proof

/-! ## Lookups -/

theorem findTeam_id {l : List Team} {id : Nat} {t : Team} (h : l.find? (fun u => u.id == id) = some t) : t.id = id := by
  simpa using List.find?_some h

/-- Replacing the entries of a key leaves the new entry to be found. -/
theorem find_replaced {α : Type} (key : α → Nat) {l : List α} {id : Nat} {t u : α}
    (h : l.find? (fun x => key x == id) = some t) (hu : key u = id) :
    (l.map (fun x => if key x == key u then u else x)).find? (fun x => key x == id) = some u := by
  subst hu
  induction l with
  | nil => simp at h
  | cons a r ih =>
    by_cases ha : key a = key u
    · simp [ha]
    · rw [List.find?_cons_of_neg (by simpa using ha)] at h
      have : (key a == key u) = false := by simpa using ha
      rw [List.map_cons, this, List.find?_cons_of_neg (by simpa using ha)]
      exact ih h

theorem State.team?_putTeam {s : State} {id : Nat} {t u : Team} (h : s.team? id = some t) (hu : u.id = id) :
    (s.putTeam u).team? id = some u :=
  find_replaced Team.id h hu

theorem group?_putGroup {t : Team} {n : Nat} {g h : Group} (hg : t.group? n = some g) (hn : h.num = n) :
    (t.putGroup h).group? n = some h := find_replaced Group.num hg hn

theorem team?_id {s : State} {id : Nat} {t : Team} (h : s.team? id = some t) : t.id = id := findTeam_id h

theorem group?_num {t : Team} {n : Nat} {g : Group} (h : t.group? n = some g) : g.num = n := by
  simpa using List.find?_some h

@[simp] theorem Team.putGroup_id (t : Team) (g : Group) : (t.putGroup g).id = t.id := rfl

/-- A group that is put back under its number is then the group of that number. -/
theorem State.group?_putGroup {s : State} {n m : Nat} {t : Team} {g h : Group} (ht : s.team? n = some t)
    (hg : t.group? m = some g) (hn : h.num = m) : (s.putGroup n h).group? n m = some h := by
  have h1 : (s.putTeam (t.putGroup h)).team? n = some (t.putGroup h) :=
    State.team?_putTeam ht (by simpa using team?_id ht)
  simp only [State.putGroup, ht]
  simp [State.group?, h1, Sys2Proof.Machine.group?_putGroup hg hn]

/-- Changing a group changes that group, and nothing but the teams. -/
theorem State.group?_modGroup {s : State} {team n : Nat} {g : Group} (f : Group → Group) (h : s.group? team n = some g)
    (hn : (f g).num = n) : (s.modGroup team n f).group? team n = some (f g) := by
  obtain ⟨t, ht, hg⟩ : ∃ t, s.team? team = some t ∧ t.group? n = some g := by
    simpa [State.group?, Option.bind_eq_some_iff] using h
  have h1 : (s.putTeam (t.putGroup (f g))).team? team = some (t.putGroup (f g)) :=
    State.team?_putTeam ht (by simpa using team?_id ht)
  simp only [State.modGroup, h, State.putGroup, ht]
  simp [State.group?, h1, Sys2Proof.Machine.group?_putGroup hg hn]

/-! ## What the context is -/

theorem State.issues.group {s : State} {c : Ctx} (h : s.issues c) :
    s.team? c.t.id = some c.t ∧ c.t.group? c.g.num = some c.g ∧ s.group? c.t.id c.g.num = some c.g ∧ c.pal = s.view c.t.core := by
  obtain ⟨hc, -, hp, -⟩ := h
  unfold State.ctx? at hc
  split at hc
  · next team n sl _ =>
    rw [hp] at hc
    simp only [Option.bind_eq_some_iff, Option.map_eq_some_iff] at hc
    obtain ⟨t, ht, g, hg, rfl⟩ := hc
    have hi := team?_id ht
    have hn := group?_num hg
    simp only
    rw [hi, hn]
    exact ⟨ht, hg, by simp [State.group?, ht, hg], by simp [State.view, hp]⟩
  · simp at hc

/-! ## A trap that nothing raises is not entered -/

theorem State.tryEnter_calm {s : State} {team n : Nat} {g : Group} (h : s.group? team n = some g) (hg : g.trapping = none) :
    s.tryEnter team n = s := by
  obtain ⟨t, ht, hg'⟩ : ∃ t, s.team? team = some t ∧ t.group? n = some g := by
    simpa [State.group?, Option.bind_eq_some_iff] using h
  simp [State.tryEnter, ht, hg', hg]

/-! ## Settling -/

/-- Sound elements leave the state as it is. -/
theorem State.settle_sound {s : State} {team n core : Nat} {l : List ERef}
    (h : ∀ r ∈ l, (palGet (s.view core) core r.row r.lane).ecc = .sound) : s.settle team n core l = s := by
  have : l.all (fun r => decide ((palGet (s.view core) core r.row r.lane).ecc = .sound)) = true := by
    simpa [List.all_eq_true] using h
  simp [State.settle, this]

theorem Elem.good_iff {e : Elem} : e.good = true ↔ e.ecc = .sound ∧ e.valid = true := by
  simp [Elem.good]

/-- What it is for one operand to be ready. -/
theorem Ctx.ready_iff {c : Ctx} {s : State} {us : List Use} : c.ready s us = true ↔ ∀ u ∈ us, c.inRange u.loc = true ∧
    (u.rd = true → c.readable u.loc = true) ∧ c.settled s u.loc = true ∧ c.unlocked s u = true := by
  simp only [Ctx.ready, List.all_eq_true, Bool.and_eq_true, Bool.or_eq_true, Bool.not_eq_true', and_assoc, ← Bool.not_eq_true,
    ← imp_iff_not_or]

/-- What operands that are ready read is sound. -/
theorem Ctx.refs_sound {c : Ctx} {s : State} {us : List Use} (hp : c.pal = s.view c.t.core) (h : c.ready s us = true) :
    ∀ r ∈ c.refs us, (palGet (s.view c.t.core) c.t.core r.row r.lane).ecc = .sound := by
  intro r hr
  simp only [Ctx.refs, List.mem_flatMap] at hr
  obtain ⟨u, hu, hr⟩ := hr
  split at hr
  · simp at hr
  next hno =>
  have hread : c.readable u.loc = true := (Ctx.ready_iff.mp h u hu).2.1 (by
    cases hx : u.rd
    · exact absurd (.inl hx) hno
    · rfl)
  split at hr
  · next n hl =>
    simp only [List.mem_singleton] at hr
    subst hr
    rw [hl] at hread
    simpa [Ctx.elem, hp] using (Elem.good_iff.mp hread).1
  · next q hl =>
    simp only [List.mem_map] at hr
    obtain ⟨l, hlane, rfl⟩ := hr
    cases hq : u.loc with
    | s n => exact absurd hq (hl n)
    | v n =>
      rw [hq] at hread
      simp only [Ctx.readable, List.all_eq_true] at hread
      simpa [Ctx.elem, Ctx.rowOf, hp] using (Elem.good_iff.mp (hread l hlane)).1
    | w n =>
      rw [hq] at hread
      simp only [Ctx.readable, List.all_eq_true] at hread
      simpa [Ctx.elem, Ctx.rowOf, hp] using (Elem.good_iff.mp (hread l hlane)).1

/-! ## The checks -/

theorem firstStop_ok {l : List (Option Stop)} (h : ∀ x ∈ l, x = none) : firstStop l = .ok () := by
  have : l.findSome? id = none := by
    simpa [List.findSome?_eq_none_iff] using h
  simp [firstStop, this]

theorem Ctx.uninit_none {c : Ctx} {u : Use} (h : u.rd = true → c.readable u.loc = true) : c.uninit u = none := by
  obtain ⟨loc, opnd, rd, wr⟩ := u
  cases rd
  · rfl
  have h := h rfl
  have row : ∀ p : Loc, c.lanes.all (fun l => (c.elem p l).good) = true → c.invalid p = [] := fun p hp =>
    List.filter_eq_nil_iff.mpr (fun l hl => by simp [(Elem.good_iff.mp (List.all_eq_true.mp hp l hl)).2])
  cases loc with
  | s n => simp [Ctx.uninit, (Elem.good_iff.mp h).2]
  | v n => simp [Ctx.uninit, row _ h]
  | w n => simp [Ctx.uninit, row _ h]

theorem Ctx.pend_none {c : Ctx} {s : State} {u : Use} (h : c.settled s u.loc = true) : c.pend s u = none := by
  obtain ⟨loc, opnd, rd, wr⟩ := u
  by_cases he : c.lanes = [] <;> cases loc <;> simp_all [Ctx.settled, Ctx.pend]

theorem Ctx.locked_none {c : Ctx} {s : State} {u : Use} (h : c.unlocked s u = true) : c.locked s u = none := by
  obtain ⟨loc, opnd, rd, wr⟩ := u
  cases loc with
  | s n => rfl
  | v n => by_cases he : c.lanes = [] <;> cases rd <;> cases wr <;> simp_all [Ctx.unlocked, Ctx.locked]
  | w n => by_cases he : c.lanes = [] <;> cases rd <;> cases wr <;> simp_all [Ctx.unlocked, Ctx.locked]

/-- Operands that are ready pass every check (R38, R42, R54, R56). -/
theorem Ctx.check_ok {c : Ctx} {s : State} {us : List Use} (h : c.ready s us = true) : c.check s us = .ok () := by
  have h := Ctx.ready_iff.mp h
  have all : ∀ f : Use → Option Stop, (∀ u ∈ us, f u = none) → firstStop (us.map f) = .ok () := fun f hf =>
    firstStop_ok (by simpa using hf)
  have h1 : c.chkBound us = .ok () := all _ (fun u hu => by simp [(h u hu).1])
  have h2 : c.chkUninit us = .ok () := all _ (fun u hu => Ctx.uninit_none (h u hu).2.1)
  have h3 : c.chkPend s us = .ok () := all _ (fun u hu => Ctx.pend_none (h u hu).2.2.1)
  have h4 : c.chkLock s us = .ok () := all _ (fun u hu => Ctx.locked_none (h u hu).2.2.2)
  simp [Ctx.check, h1, h2, h3, h4, bind, Except.bind]

/-! ## `word` and `direct` -/

/-- A word whose elements are sound and whose body completes, and raises no trap, answers what the body leaves. -/
theorem wordFrom_next {s s' : State} {c : Ctx} {g' : Group} {us : Ctx → List Use} {more : Ctx → List ERef}
    {body : Ctx → Ctx → State → Except Stop State} (h : s.issues c)
    (hs : ∀ r ∈ c.refs (us c) ++ more c, (palGet (s.view c.t.core) c.t.core r.row r.lane).ecc = .sound)
    (hb : body c c s = .ok s') (hg : s'.group? c.t.id c.g.num = some g') (ht : g'.trapping = none) :
    wordFrom s us more body = .next s' := by
  have hset : s.settle c.t.id c.g.num c.t.core (c.refs (us c) ++ more c) = s := State.settle_sound hs
  simp [wordFrom, h.1, hset, State.finish, hb, State.tryEnter_calm hg ht]

theorem word_next {s s' : State} {c : Ctx} {g' : Group} {us : Ctx → List Use} {more : Ctx → List ERef}
    {body : Ctx → State → Except Stop State} (h : s.issues c)
    (hs : ∀ r ∈ c.refs (us c) ++ more c, (palGet (s.view c.t.core) c.t.core r.row r.lane).ecc = .sound)
    (hb : body c s = .ok s') (hg : s'.group? c.t.id c.g.num = some g') (ht : g'.trapping = none) :
    word s us more body = .next s' := wordFrom_next h hs hb hg ht

@[simp] theorem Group.complete_num (g : Group) (sl : List Nat) (pc : Pc) : (g.complete sl pc).num = g.num := rfl
@[simp] theorem Group.complete_trapping (g : Group) (sl : List Nat) (pc : Pc) : (g.complete sl pc).trapping = g.trapping := rfl
@[simp] theorem Group.setPred_num (g : Group) (p : Nat) (l : List Nat) (f : Nat → Bool) : (g.setPred p l f).num = g.num := rfl
@[simp] theorem Group.setPred_trapping (g : Group) (p : Nat) (l : List Nat) (f : Nat → Bool) :
    (g.setPred p l f).trapping = g.trapping := rfl

theorem State.group?_adv {s : State} {c : Ctx} {g : Group} (k : Nat) (h : s.group? c.t.id c.g.num = some g)
    (hn : g.num = c.g.num) : (s.adv c k).group? c.t.id c.g.num = some (g.complete c.sl (c.pc.add k)) :=
  State.group?_modGroup _ h (by simp [hn])

theorem State.group?_of_teams {s t : State} {a n : Nat} (h : t.teams = s.teams) : t.group? a n = s.group? a n := by
  simp [State.group?, State.team?, h]

/-- A direct word whose operands are ready has its effect and stands at the next word. -/
theorem direct_next {s : State} {c : Ctx} {us : List Use} {k : Nat} {act : Ctx → State → State} {g' : Group} (h : s.issues c)
    (hr : c.ready s us = true) (hg : (act c s).group? c.t.id c.g.num = some g') (hn : g'.num = c.g.num)
    (ht : g'.trapping = none) : direct s us k act = .next ((act c s).adv c k) := by
  refine word_next (g' := g'.complete c.sl (c.pc.add k)) h ?_ ?_ (State.group?_adv k hg hn) (by simpa using ht)
  · simpa using Ctx.refs_sound h.group.2.2.2 hr
  · simp [Ctx.check_ok hr, bind, Except.bind]

/-! ## Writes of elements -/

@[simp] theorem State.putElem_teams (s : State) (core row l : Nat) (e : Elem) : (s.putElem core row l e).teams = s.teams := by
  unfold State.putElem; split <;> rfl

@[simp] theorem State.putRow_teams (s : State) (c : Ctx) (n : Nat) (f : Nat → Word) : (s.putRow c n f).teams = s.teams := by
  unfold State.putRow
  generalize c.lanes = l
  induction l generalizing s with
  | nil => rfl
  | cons a r ih => simp [ih]

@[simp] theorem State.putScal_teams (s : State) (c : Ctx) (n : Nat) (v : Word) : (s.putScal c n v).teams = s.teams := by
  simp [State.putScal]

@[simp] theorem State.putPair_teams (s : State) (c : Ctx) (n v : Nat) : (s.putPair c n v).teams = s.teams := by
  simp [State.putPair]

/-- A direct word that writes no team: rows, scalars and pairs. -/
theorem direct_write {s : State} {c : Ctx} {us : List Use} {k : Nat} {act : Ctx → State → State} (h : s.issues c)
    (hr : c.ready s us = true) (ha : (act c s).teams = s.teams) : direct s us k act = .next ((act c s).adv c k) :=
  direct_next h hr ((State.group?_of_teams ha).trans h.group.2.2.1) rfl h.2.2.2

/-- A direct word that changes its group, but neither its number nor a trap that awaits its entry. -/
theorem direct_group {s : State} {c : Ctx} {us : List Use} {k : Nat} {f : Ctx → Group → Group} (h : s.issues c)
    (hr : c.ready s us = true) (hn : (f c c.g).num = c.g.num) (ht : (f c c.g).trapping = c.g.trapping) :
    direct s us k (fun c s => s.modG c (f c)) = .next ((s.modG c (f c)).adv c k) :=
  direct_next (act := fun c s => s.modG c (f c)) h hr (State.group?_modGroup _ h.group.2.2.1 hn) hn (ht.trans h.2.2.2)

end Sys2Proof.Machine
end

