-- ==== Sys2Proof/Laws/Calm.lean ====
section
/-! SUPPORT. Words that change their group without raising a trap: what keeps the issuing group calm, and what each shared
operation of the memory words, of the barrier words and of the branches answers when nothing stands in its way. -/

namespace Sys2Proof.Machine

open Sys2Proof

variable {s t : State} {c : Ctx}

/-- The issuing group stands, and no trap of it awaits its entry. -/
def State.calm (s : State) (c : Ctx) : Prop := ∃ g, s.group? c.t.id c.g.num = some g ∧ g.trapping = none

theorem State.issues.calm (h : s.issues c) : s.calm c := ⟨c.g, h.group.2.2.1, h.2.2.2⟩

theorem calm_of_teams (h : s.calm c) (ht : t.teams = s.teams) : t.calm c := by
  obtain ⟨g, hg, h0⟩ := h
  exact ⟨g, (State.group?_of_teams ht).trans hg, h0⟩

theorem calm_modG (h : s.calm c) {f : Group → Group} (hn : ∀ g, (f g).num = g.num) (ht : ∀ g, (f g).trapping = g.trapping) :
    (s.modG c f).calm c := by
  obtain ⟨g, hg, h0⟩ := h
  obtain ⟨_, -, hg'⟩ : ∃ u, s.team? c.t.id = some u ∧ u.group? c.g.num = some g := by
    simpa [State.group?, Option.bind_eq_some_iff] using hg
  exact ⟨f g, State.group?_modGroup _ hg ((hn g).trans (group?_num hg')), (ht g).trans h0⟩

theorem calm_adv (h : s.calm c) (k : Nat) : (s.adv c k).calm c := calm_modG h (fun _ => rfl) (fun _ => rfl)
theorem calm_hold (h : s.calm c) (w : Wait) : (s.hold c w).calm c := calm_modG h (fun _ => rfl) (fun _ => rfl)
theorem calm_fences (h : s.calm c) (k : Nat) : (s.fences c k).calm c := by
  unfold State.fences; split
  · exact calm_modG h (fun _ => rfl) (fun _ => rfl)
  · exact h
theorem calm_gotoAll (h : s.calm c) (p : Nat) : (s.gotoAll c p).calm c := calm_modG h (fun _ => rfl) (fun _ => rfl)
theorem calm_putPred (h : s.calm c) (p : Nat) (f : Nat → Bool) : (s.putPred c p f).calm c :=
  calm_modG h (fun _ => rfl) (fun _ => rfl)
theorem calm_putRow (h : s.calm c) (n : Nat) (f : Nat → Word) : (s.putRow c n f).calm c := calm_of_teams h (by simp)
theorem calm_putScal (h : s.calm c) (n : Nat) (v : Word) : (s.putScal c n v).calm c := calm_of_teams h (by simp)
theorem calm_putPair (h : s.calm c) (n v : Nat) : (s.putPair c n v).calm c := calm_of_teams h (by simp)

theorem tryEnter_of_calm (h : s.calm c) : s.tryEnter c.t.id c.g.num = s := by
  obtain ⟨g, hg, h0⟩ := h
  exact State.tryEnter_calm hg h0

/-- `word_next` for what is still calm. -/
theorem word_calm {us : Ctx → List Use} {more : Ctx → List ERef} {body : Ctx → State → Except Stop State} (h : s.issues c)
    (hs : ∀ r ∈ c.refs (us c) ++ more c, (palGet (s.view c.t.core) c.t.core r.row r.lane).ecc = .sound) (hb : body c s = .ok t)
    (hc : t.calm c) : word s us more body = .next t := by
  obtain ⟨g, hg, h0⟩ := hc
  exact word_next h hs hb hg h0

/-- A word whose effect may raise a trap: the trap, if nothing holds it back, is entered. -/
theorem word_enters {us : Ctx → List Use} {more : Ctx → List ERef} {body : Ctx → State → Except Stop State} (h : s.issues c)
    (hs : ∀ r ∈ c.refs (us c) ++ more c, (palGet (s.view c.t.core) c.t.core r.row r.lane).ecc = .sound) (hb : body c s = .ok t)
    (hc : t.cur.chain = false) : word s us more body = .next (t.tryEnter c.t.id c.g.num) := by
  have hset : s.settle c.t.id c.g.num c.t.core (c.refs (us c) ++ more c) = s := State.settle_sound hs
  simp [word, wordFrom, h.1, hset, State.finish, hb, hc]

/-- A word without operands reads no element. -/
theorem refs_nil : ∀ r ∈ c.refs [] ++ noMore c, (palGet (s.view c.t.core) c.t.core r.row r.lane).ecc = .sound := by
  simp [Ctx.refs, noMore]

theorem refs_ready (h : s.issues c) {us : List Use} (hr : c.ready s us = true) :
    ∀ r ∈ c.refs us ++ noMore c, (palGet (s.view c.t.core) c.t.core r.row r.lane).ecc = .sound := by
  simpa [noMore] using Ctx.refs_sound h.group.2.2.2 hr

/-! ## The current unit is left alone -/

@[simp] theorem State.putGroup_cur (s : State) (n : Nat) (g : Group) : (s.putGroup n g).cur = s.cur := by
  unfold State.putGroup; split <;> rfl

@[simp] theorem State.modGroup_cur (s : State) (a n : Nat) (f : Group → Group) : (s.modGroup a n f).cur = s.cur := by
  unfold State.modGroup; split <;> simp

@[simp] theorem State.modG_cur (s : State) (c : Ctx) (f : Group → Group) : (s.modG c f).cur = s.cur := State.modGroup_cur ..
@[simp] theorem State.adv_cur (s : State) (c : Ctx) (k : Nat) : (s.adv c k).cur = s.cur := State.modG_cur ..

@[simp] theorem State.putElem_cur (s : State) (core row l : Nat) (e : Elem) : (s.putElem core row l e).cur = s.cur := by
  unfold State.putElem; split <;> rfl

/-! ## Agreement of lane pairs (R369) -/

theorem shadow_none {α : Type} [DecidableEq α] {sub : Nat} {f : Nat → α} (h : c.agrees f = true) : c.shadow sub f = none := by
  unfold Ctx.shadow
  split
  · rfl
  next hp =>
  have : c.lanes.filter (fun l => c.lanes.contains (l ^^^ 1) && decide (f l ≠ f (l ^^^ 1))) = [] := by
    simp only [Ctx.agrees, Bool.or_eq_true, List.all_eq_true] at h
    rcases h with h | h
    · simp_all
    · refine List.filter_eq_nil_iff.mpr (fun l hl => ?_)
      rcases h l hl with h | h
      · simp_all
      · rw [of_decide_eq_true h]; simp
  rw [this]; rfl

/-! ## Branch targets (R217) -/

theorem chkTarget_ok {p : Int} (h : c.canEnter s p = true) : c.chkTarget s p = .ok () := by
  simp only [Ctx.canEnter, Bool.and_eq_true, decide_eq_true_eq] at h
  obtain ⟨⟨h0, h1⟩, h2⟩ := h
  unfold Ctx.chkTarget Ctx.fetch
  rw [if_neg (by omega)]
  split at h2
  · next i hi => simp_all [bind, Except.bind]
  · simp at h2

/-! ## Flags (R59, R174) -/

theorem chkFlag_ok {fs : Nat} (h : c.flagFree fs = true) : c.chkFlag fs = .ok () := by
  unfold Ctx.flagFree at h
  unfold Ctx.chkFlag
  split at h <;> simp_all

theorem chkFull_ok {fs : Nat} (hi : s.issues c) (h : c.flagFree fs = true) : c.chkFull s fs = .ok () := by
  unfold Ctx.flagFree at h
  unfold Ctx.chkFull
  rw [hi.group.2.2.1]
  split at h
  · simp_all
  · next f hf =>
    simp only [Bool.and_eq_true, decide_eq_true_eq] at h
    rw [hf]; exact if_neg (Nat.not_le.mpr h.2)

/-! ## Addresses (R78, R56, R332) -/

theorem reaches_iff {wr host : Bool} {z rights : Nat} {l : List Access} : c.reaches s wr host z rights l = true ↔
    (∀ a ∈ l, a.va % z = 0 ∧ s.memLockSub c.t.id a.va z wr = 0 ∧ c.served s host z rights a.va = true) ∧
      (s.die (dieOf c.t.core)).rtbusy ≠ some c.t.part := by
  simp [Ctx.reaches, and_assoc]

theorem chkAlign_ok {wr : Bool} {z : Nat} {l : List Access} (h : ∀ a ∈ l, a.va % z = 0) : chkAlign wr z l = .ok () := by
  unfold chkAlign
  have : l.find? (fun a => decide (a.va % z ≠ 0)) = none := by simpa [List.find?_eq_none] using h
  rw [this]

theorem chkMemLock_ok {wr scalar : Bool} {z : Nat} {l : List Access} (h : ∀ a ∈ l, s.memLockSub c.t.id a.va z wr = 0) :
    c.chkMemLock s wr scalar z l = .ok () := by
  unfold Ctx.chkMemLock
  have : l.filter (fun a => decide (s.memLockSub c.t.id a.va z wr ≠ 0)) = [] :=
    List.filter_eq_nil_iff.mpr (fun a ha => by simp [h a ha])
  rw [this]

/-- The place of an access that is served. -/
theorem served_cases {host : Bool} {z rights va : Nat} (h : c.served s host z rights va = true) :
    (∃ pa tag, c.locate s va z rights = .at_ pa tag ∧ (Where.at_ pa tag).barred host = false) ∨
      ∃ w, c.locate s va z rights = .window w := by
  unfold Ctx.served at h
  split at h
  · next pa tag hx => exact .inl ⟨pa, tag, hx, by cases host <;> simp_all [Where.barred]⟩
  · next w hx => exact .inr ⟨w, hx⟩
  · simp at h

theorem translateAll_ok {wr host : Bool} {z rights : Nat} {l : List Access}
    (h : ∀ a ∈ l, c.served s host z rights a.va = true) (hr : (s.die (dieOf c.t.core)).rtbusy ≠ some c.t.part) :
    c.translateAll s wr host z rights l = .ok (c.places s z rights l) := by
  have hp : ∀ e ∈ l.map (fun a => (a, c.locate s a.va z rights)),
      (∃ pa tag, e.2 = .at_ pa tag ∧ (Where.at_ pa tag).barred host = false) ∨ ∃ w, e.2 = .window w := by
    intro e he
    obtain ⟨a, ha, rfl⟩ := List.mem_map.mp he
    exact served_cases (h a ha)
  unfold Ctx.translateAll
  simp only
  rw [if_neg]
  · split
    · next e he =>
      obtain ⟨x, hx, hv⟩ := List.exists_of_findSome?_eq_some he
      obtain ⟨pa, tag, hx, -⟩ | ⟨w, hx⟩ := hp x hx <;> simp [hx] at hv
    · split
      · next e he =>
        obtain ⟨x, hx, hv⟩ := List.exists_of_findSome?_eq_some he
        obtain ⟨pa, tag, hx, hb⟩ | ⟨w, hx⟩ := hp x hx
        · rw [hx] at hv; simp [hb] at hv
        · rw [hx] at hv; simp [Where.barred] at hv
      · rw [if_neg hr]; rfl
  · rw [Bool.not_eq_false, List.isEmpty_iff, List.filterMap_eq_nil_iff]
    intro e he
    obtain ⟨pa, tag, hx, -⟩ | ⟨w, hx⟩ := hp e he <;> simp [hx]

/-! ## Requests leave the group calm -/

@[simp] theorem State.raiseFlag_cur (s : State) (c : Ctx) (fs : Nat) : (s.raiseFlag c fs).cur = s.cur := by
  unfold State.raiseFlag; split <;> simp

theorem calm_raiseFlag (h : s.calm c) (fs : Nat) : (s.raiseFlag c fs).calm c := by
  unfold State.raiseFlag
  split
  · exact h
  · exact calm_modG h (fun _ => rfl) (fun _ => rfl)

theorem calm_send (h : s.calm c) (k : ReqKind) (d : Dst) (aux : Nat) (hold : List (Nat × Nat)) (fs : Nat) (after : List Nat)
    (ps : List Piece) : (s.send c k d aux hold fs after ps).calm c :=
  calm_raiseFlag (s := s.request _) (calm_of_teams h rfl) fs

theorem calm_sent (h : s.calm c) (kind : ReqKind) (dst : Dst) (fs scope : Nat) (rel acq : Bool) (k : Nat) (ps : List Piece) :
    (s.sent c kind dst fs scope rel acq k ps).calm c := by
  unfold State.sent
  split
  · exact calm_adv h k
  · dsimp only
    split
    · exact calm_hold (calm_send (calm_adv h k) ..) _
    · exact calm_send (calm_adv h k) ..

/-- A core that has the tags may send. -/
theorem chkTags_ok {ps : List Piece} (h : c.tagged s ps = true) : c.chkTags s ps = .ok () := by
  simpa [Ctx.chkTags, Ctx.tagged] using h

/-- A core that has the tags sends. -/
theorem sendOrdered_ok {kind : ReqKind} {dst : Dst} {fs scope : Nat} {rel acq : Bool} {log z k : Nat} {ws : List (Access × Where)}
    (h : c.tagged s (pieces c.t.core log z ws) = true) : s.sendOrdered c kind dst fs scope rel acq log z k ws =
      .ok (s.sent c kind dst fs scope rel acq k (pieces c.t.core log z ws)) := by
  simp [State.sendOrdered, chkTags_ok h, bind, Except.bind]

/-- The whole of R256's order, when nothing fails. -/
theorem memCheck_ok (hi : s.issues c) {fs : Nat} {us : List Use} {sh : List (Option Stop)} {q : Asks}
    (hf : c.flagFree fs = true) (hr : c.ready s us = true) (hs : ∀ x ∈ sh, x = none)
    (ha : c.reaches s q.wr q.host q.z q.rights q.accs = true) : c.memCheck s fs us sh q = .ok (c.places s q.z q.rights q.accs) := by
  obtain ⟨ha, hb⟩ := reaches_iff.mp ha
  have h := Ctx.ready_iff.mp hr
  have all : ∀ f : Use → Option Stop, (∀ u ∈ us, f u = none) → firstStop (us.map f) = .ok () := fun f hf =>
    firstStop_ok (by simpa using hf)
  have h1 : c.chkBound us = .ok () := all _ (fun u hu => by simp [(h u hu).1])
  have h2 : c.chkUninit us = .ok () := all _ (fun u hu => Ctx.uninit_none (h u hu).2.1)
  have h3 : c.chkPend s us = .ok () := all _ (fun u hu => Ctx.pend_none (h u hu).2.2.1)
  have h4 : c.chkLock s us = .ok () := all _ (fun u hu => Ctx.locked_none (h u hu).2.2.2)
  simp [Ctx.memCheck, chkFlag_ok hf, chkFull_ok hi hf, h1, h2, h3, h4, chkAlign_ok (fun a m => (ha a m).1),
    chkMemLock_ok (fun a m => (ha a m).2.1), firstStop_ok hs, translateAll_ok (fun a m => (ha a m).2.2) hb, bind, Except.bind]

/-- A memory word whose checks pass sends its accesses. -/
theorem sends_next (hi : s.issues c) {us : List Use} (hr : c.ready s us = true) {body : Ctx → State → Except Stop State}
    (hb : body c s = .ok t) (hc : t.calm c) : word s (fun _ => us) noMore body = .next t :=
  word_calm hi (refs_ready hi hr) hb hc

end Sys2Proof.Machine
end

