-- ==== Sys2Proof/Laws/Memory.lean ====
section
/-! SUPPORT. What the operations on memory do to the rest of the state: they keep the canonical form, and they leave the teams,
the Palette and the issuing unit as they were. -/

namespace Sys2Proof.Machine

open Sys2Proof

/-- The canonical form, part by part. -/
theorem State.canonical_iff {s : State} : s.canonical = true ↔
    Memory.wf s.mem = true ∧ swf Elem.blank s.pal = true ∧ swf false s.poison = true ∧ swf 0 s.tags = true := by
  simp [State.canonical, and_assoc]

/-- `t` differs from `s` in no team, no element and not in who issues, and stands in canonical form if `s` did. -/
def State.MemStep (s t : State) : Prop :=
  t.teams = s.teams ∧ t.cur = s.cur ∧ t.pal = s.pal ∧ (s.canonical = true → t.canonical = true)

theorem State.MemStep.refl (s : State) : s.MemStep s := ⟨rfl, rfl, rfl, id⟩

theorem State.MemStep.trans {s t u : State} (h : s.MemStep t) (k : t.MemStep u) : s.MemStep u :=
  ⟨k.1.trans h.1, k.2.1.trans h.2.1, k.2.2.1.trans h.2.2.1, fun c => k.2.2.2 (h.2.2.2 c)⟩

theorem State.MemStep.foldl {α : Type} {f : State → α → State} (hf : ∀ (s : State) a, s.MemStep (f s a)) (l : List α) (s : State) :
    s.MemStep (l.foldl f s) := by
  induction l generalizing s with
  | nil => exact .refl s
  | cons a r ih => exact (hf s a).trans (ih _)

/-- Fields outside the tables may change at will. -/
theorem State.MemStep.of_eq {s t : State} (h1 : t.teams = s.teams) (h2 : t.cur = s.cur) (h3 : t.pal = s.pal)
    (h4 : t.mem = s.mem) (h5 : t.poison = s.poison) (h6 : t.tags = s.tags) : s.MemStep t :=
  ⟨h1, h2, h3, fun c => by rw [State.canonical_iff] at c ⊢; rw [h3, h4, h5, h6]; exact c⟩

theorem State.putByte_memStep (s : State) (pa : Nat) (b : Byte) : s.MemStep (s.putByte pa b) :=
  ⟨rfl, rfl, rfl, fun c => by
    rw [State.canonical_iff] at c ⊢
    exact ⟨swf_sset _ _ _ c.1, c.2⟩⟩

theorem State.setPoison_memStep (s : State) (pa : Nat) (b : Bool) : s.MemStep (s.setPoison pa b) :=
  ⟨rfl, rfl, rfl, fun c => by
    rw [State.canonical_iff] at c ⊢
    exact ⟨c.1, c.2.1, swf_sset _ _ _ c.2.2.1, c.2.2.2⟩⟩

theorem State.setTag_memStep (s : State) (k v : Nat) : s.MemStep { s with tags := sset 0 s.tags k v } :=
  ⟨rfl, rfl, rfl, fun c => by
    rw [State.canonical_iff] at c ⊢
    exact ⟨c.1, c.2.1, c.2.2.1, swf_sset _ _ _ c.2.2.2⟩⟩

theorem State.retag_memStep (s : State) (tag pa : Nat) : s.MemStep (s.retag tag pa) := by
  unfold State.retag
  split
  · exact .refl s
  · exact (State.MemStep.foldl (fun (t : State) (e : Byte × Nat) => t.putByte_memStep _ _) _ _).trans (State.setTag_memStep _ _ _)

theorem State.writeByte_memStep (s : State) (tag pa : Nat) (b : Byte) : s.MemStep (s.writeByte tag pa b) :=
  (s.retag_memStep tag pa).trans (State.putByte_memStep _ _ _)

theorem State.putDie_memStep (s : State) (d : Nat) (v : Die) : s.MemStep (s.putDie d v) := .of_eq rfl rfl rfl rfl rfl rfl

theorem State.putPart_memStep (s : State) (n : Nat) (p : Part) : s.MemStep (s.putPart n p) := .of_eq rfl rfl rfl rfl rfl rfl

theorem State.unbuffer_memStep (s : State) (pa : Nat) : s.MemStep (s.unbuffer pa) := by
  unfold State.unbuffer
  dsimp only
  split
  · exact s.putDie_memStep _ _
  · exact .refl s

theorem State.noteHbmError_memStep (s : State) (pa : Nat) : s.MemStep (s.noteHbmError pa) := s.putDie_memStep _ _

theorem State.tmAdd_memStep (s : State) (d off n : Nat) : s.MemStep (s.tmAdd d off n) := s.putDie_memStep _ _

theorem State.meetAhead_memStep (s : State) (pa : Nat) : s.MemStep (s.meetAhead pa) := by
  unfold State.meetAhead
  dsimp only
  split
  · exact .refl s
  · have h := (s.unbuffer_memStep pa).trans (State.tmAdd_memStep (s.unbuffer pa) (homeDie pa) (prefetchCounter pa + 8) 1)
    generalize (s.unbuffer pa).tmAdd (homeDie pa) (prefetchCounter pa + 8) 1 = u at h ⊢
    exact (h.trans (.of_eq rfl rfl rfl rfl rfl rfl : u.MemStep { u with free := s.free + 1 })).trans (State.tmAdd_memStep ..)

theorem State.noteBytes_memStep (s : State) (pa n : Nat) (wr : Bool) : s.MemStep (s.noteBytes pa n wr) := by
  unfold State.noteBytes
  dsimp only
  split
  · split
    · exact s.tmAdd_memStep ..
    · exact (s.tmAdd_memStep ..).trans (State.meetAhead_memStep ..)
  · exact .refl s

theorem State.flit_memStep (s : State) (die edge chan : Nat) (load : List (Nat × Nat)) : s.MemStep (s.flit die edge chan load) := by
  have hf : ∀ (s : State) (f : Flit), s.MemStep (match opposite die edge with
      | some (d, e) => s.modLink d e (s.moduleOf die edge f.chan) (fun k => { k with wire := k.wire ++ [f] })
      | none => s) := by
    intro s f
    split
    · exact .of_eq rfl rfl rfl rfl rfl rfl
    · exact .refl s
  exact (State.MemStep.of_eq rfl rfl rfl rfl rfl rfl).trans (.foldl hf _ _)

theorem State.crosses_memStep (s : State) (part core pa : Nat) : s.MemStep (s.crosses part core pa) := by
  unfold State.crosses
  split
  · exact .refl s
  · exact .of_eq rfl rfl rfl rfl rfl rfl
  · split
    · unfold State.block
      split
      · exact .of_eq rfl rfl rfl rfl rfl rfl
      · exact .refl s
    · exact .foldl (fun (t : State) (e : Nat × Nat) => t.flit_memStep ..) _ _

theorem State.access_memStep (s : State) (part core pa n : Nat) (wr : Bool) : s.MemStep (s.access part core pa n wr) :=
  (s.crosses_memStep ..).trans (State.noteBytes_memStep ..)

theorem State.walked_memStep (s : State) (core part va : Nat) : s.MemStep (s.walked core part va) := by
  unfold State.walked
  dsimp only
  split
  · exact .refl s
  · refine .foldl (fun (t : State) (ea : Nat) => ?_) _ _
    split
    · exact t.access_memStep ..
    · exact .refl t

theorem State.writeMem_memStep (s : State) (tag pa : Nat) (b : List Byte) : s.MemStep (s.writeMem tag pa b) :=
  .foldl (fun (t : State) (e : Byte × Nat) => (t.writeByte_memStep tag (pa + e.2) e.1).trans (State.unbuffer_memStep _ _)) _ _

theorem State.writeSector_memStep (s : State) (tag : Nat) (b : List (Nat × Byte)) : s.MemStep (s.writeSector tag b) := by
  unfold State.writeSector
  split
  · exact .refl s
  · dsimp only
    split
    · exact .refl s
    · exact ((s.setPoison_memStep _ _).trans (.foldl (fun (t : State) (e : Nat × Byte) => t.writeByte_memStep tag e.1 e.2) _ _)).trans
        (State.unbuffer_memStep _ _)

theorem State.writeRun_memStep (s : State) (tag pa : Nat) (b : List Byte) : s.MemStep (s.writeRun tag pa b) :=
  .foldl (fun (t : State) (_ : Nat) => t.writeSector_memStep tag _) _ _

theorem State.tlbInstall_memStep (s : State) (core : Nat) (e : TlbEntry) : s.MemStep (s.tlbInstall core e) :=
  .of_eq rfl rfl rfl rfl rfl rfl

theorem State.learn_memStep (s : State) (core part va rights : Nat) : s.MemStep (s.learn core part va rights) := by
  unfold State.learn
  split
  · exact (s.walked_memStep ..).trans (State.tlbInstall_memStep ..)
  · exact .refl s

theorem State.noted_memStep (s : State) (part core : Nat) (r : WalkRes) : s.MemStep (s.noted part core r) := by
  unfold State.noted
  split
  · exact .of_eq rfl rfl rfl rfl rfl rfl
  · exact s.noteHbmError_memStep _
  · exact .refl s

theorem State.blame_memStep (s : State) (part core : Nat) (r : FaultRec) : s.MemStep (s.blame part core r) := by
  unfold State.blame
  extract_lets t
  have h : s.MemStep t := by
    unfold t
    split
    · exact s.walked_memStep ..
    · exact .refl s
  split
  · exact h.trans (State.noted_memStep ..)
  · exact h

theorem State.vseen_memStep (s : State) (core part va n : Nat) : s.MemStep (s.vseen core part va n) := by
  unfold State.vseen
  split
  · exact .refl s
  · extract_lets s1
    have h : s.MemStep s1 := (s.learn_memStep ..).trans (State.access_memStep ..)
    split
    · exact h.trans (State.noteHbmError_memStep ..)
    · exact h

theorem State.vwrite_memStep {s t : State} {core part va : Nat} {b : List Byte} (h : s.vwrite core part va b = .ok t) :
    s.MemStep t := by
  unfold State.vwrite at h
  split at h
  · cases h
  · cases h; exact ((s.writeRun_memStep _ _ _).trans (State.learn_memStep _ _ _ _ _)).trans (State.access_memStep ..)

theorem State.writeFault_memStep (s : State) (part core queue tick : Nat) (r : FaultRec) :
    s.MemStep (s.writeFault part core queue tick r) := by
  unfold State.writeFault
  dsimp only
  have h0 := s.blame_memStep part core r
  split
  · exact h0
  · split
    · exact h0
    · next h => exact (h0.trans (State.vwrite_memStep h)).trans (State.putPart_memStep _ _ _)

theorem State.qwrite_memStep (s : State) (part q va : Nat) (b : List Byte) : s.MemStep (s.qwrite part q va b) := by
  unfold State.qwrite
  split
  · exact s.writeFault_memStep _ _ _ _ _
  · next h => exact State.vwrite_memStep h

theorem State.qread_memStep (s : State) (part q va n : Nat) : s.MemStep (s.qread part q va n).1 := by
  unfold State.qread
  dsimp only
  split
  · exact (s.vseen_memStep _ _ _ _).trans (State.writeFault_memStep _ _ _ _ _ _)
  · exact s.vseen_memStep _ _ _ _

theorem State.qentry_memStep (s : State) (part q : Nat) : s.MemStep (s.qentry part q).1 := by
  have h := s.qread_memStep part q (s.entryVa part q) 64
  unfold State.qentry
  split <;> simp_all

theorem State.takeStraight_memStep (s : State) (part q : Nat) (e : QEntry) (w : List Nat) :
    s.MemStep (s.takeStraight part q e w) := by
  unfold State.takeStraight
  dsimp only
  split
  · exact .of_eq rfl rfl rfl rfl rfl rfl
  · exact .refl s

theorem State.submit_memStep (s : State) (part q : Nat) (e : QEntry) (w : List Nat) : s.MemStep (s.submit part q e w) := by
  unfold State.submit
  exact ((((s.qwrite_memStep _ _ _ _).trans (State.qwrite_memStep _ _ _ _ _)).trans (State.qwrite_memStep _ _ _ _ _)).trans
    (State.qwrite_memStep _ _ _ _ _)).trans (State.takeStraight_memStep _ _ _ _ _)

theorem State.codeSeen_memStep (s : State) (core part va n : Nat) : s.MemStep (s.codeSeen core part va n) := by
  unfold State.codeSeen
  dsimp only
  split
  · exact .refl s
  · exact s.noted_memStep _ _ _
  · next pa _ pb _ _ _ =>
    have h0 : s.MemStep (((s.learn core part va 4).learn core part (va + n - 1) 4).access part core pa 32 false) :=
      ((s.learn_memStep ..).trans (State.learn_memStep ..)).trans (State.access_memStep ..)
    have h : s.MemStep (if pa / 32 = pb / 32 then ((s.learn core part va 4).learn core part (va + n - 1) 4).access part core pa 32 false
        else (((s.learn core part va 4).learn core part (va + n - 1) 4).access part core pa 32 false).access part core pb 32 false) := by
      split
      · exact h0
      · exact h0.trans (State.access_memStep ..)
    split
    · exact h.trans (State.noteHbmError_memStep ..)
    · split
      · exact h.trans (State.noteHbmError_memStep ..)
      · exact h

/-- Every memory operation keeps the memory's canonical form. -/
theorem Memory.wf_ops (s : State) (h : s.canonical = true) :
    (∀ pa b, Memory.wf (s.putByte pa b).mem = true) ∧ (∀ tag pa b, Memory.wf (s.writeByte tag pa b).mem = true) ∧
    (∀ tag pa b, Memory.wf (s.writeMem tag pa b).mem = true) ∧ (∀ tag b, Memory.wf (s.writeSector tag b).mem = true) ∧
    (∀ core part va b t, s.vwrite core part va b = .ok t → Memory.wf t.mem = true) :=
  ⟨fun pa b => (State.canonical_iff.mp ((s.putByte_memStep pa b).2.2.2 h)).1,
    fun tag pa b => (State.canonical_iff.mp ((s.writeByte_memStep tag pa b).2.2.2 h)).1,
    fun tag pa b => (State.canonical_iff.mp ((s.writeMem_memStep tag pa b).2.2.2 h)).1,
    fun tag b => (State.canonical_iff.mp ((s.writeSector_memStep tag b).2.2.2 h)).1,
    fun _ _ _ _ _ ht => (State.canonical_iff.mp ((State.vwrite_memStep ht).2.2.2 h)).1⟩

/-- One byte after a byte is stored. -/
theorem State.byte_putByte (s : State) (pa qa : Nat) (b : Byte) :
    (s.putByte pa b).byte qa = if qa = pa then b else s.byte qa := by
  unfold State.putByte State.byte
  split
  · next h => subst h; exact sget_sset_self ..
  · next h => exact sget_sset_other _ _ _ h

end Sys2Proof.Machine
end

