-- ==== Sys2Proof/Laws/Cur.lean ====
section
/-! SUPPORT. The issuing unit (`cur`) is left alone by every shared operation below `finish`: memory writes, records, kills,
trap entry and the evaluation of `regang`. -/

namespace Sys2Proof.Machine

open Sys2Proof

/-- An operation folded over a list leaves `cur` alone if each application does. -/
theorem foldl_cur {α : Type} {f : State → α → State} (h : ∀ s a, (f s a).cur = s.cur) (l : List α) (s : State) :
    (l.foldl f s).cur = s.cur := by
  induction l generalizing s with
  | nil => rfl
  | cons a r ih => rw [List.foldl_cons, ih, h]

@[simp] theorem State.retag_cur (s : State) (tag pa : Nat) : (s.retag tag pa).cur = s.cur := by
  unfold State.retag
  split
  · rfl
  · dsimp only
    generalize List.zipIdx _ = b
    exact foldl_cur (fun s a => State.putByte_cur s (pa / 64 * 64 + a.2) a.1) b s

@[simp] theorem State.writeByte_cur (s : State) (tag pa : Nat) (b : Byte) : (s.writeByte tag pa b).cur = s.cur := by
  simp [State.writeByte]

@[simp] theorem State.writeMem_cur (s : State) (tag pa : Nat) (b : List Byte) : (s.writeMem tag pa b).cur = s.cur :=
  (s.writeMem_memStep tag pa b).2.1

theorem State.vwrite_cur {s t : State} {core part va : Nat} {b : List Byte} (h : s.vwrite core part va b = .ok t) :
    t.cur = s.cur := (State.vwrite_memStep h).2.1

@[simp] theorem State.noteHbmError_cur (s : State) (pa : Nat) : (s.noteHbmError pa).cur = s.cur := rfl

@[simp] theorem State.writeFault_cur (s : State) (part core queue tick : Nat) (r : FaultRec) :
    (s.writeFault part core queue tick r).cur = s.cur := (s.writeFault_memStep part core queue tick r).2.1

@[simp] theorem State.writeError_cur (s : State) (t : Team) (b : List Byte) (tick : Nat) : (s.writeError t b tick).cur = s.cur := by
  unfold State.writeError
  extract_lets p va
  split
  · rfl
  · split
    · simp
    · next h => exact (State.putPart_cur ..).trans (State.vwrite_cur h)

@[simp] theorem State.kill_cur (s : State) (team group cause w arg info tick : Nat) :
    (s.kill team group cause w arg info tick).cur = s.cur := by
  unfold State.kill
  split
  · rfl
  · split
    · rfl
    · exact State.writeError_cur ..

@[simp] theorem State.readElem_cur (s : State) (core row lane : Nat) : (s.readElem core row lane).1.cur = s.cur := by
  unfold State.readElem
  dsimp only
  split
  · rfl
  · rfl
  · split
    · split <;> rfl
    · rfl

@[simp] theorem State.lanesDie_cur (s : State) (team n : Nat) (l : List Nat) : (s.lanesDie team n l).cur = s.cur := by
  unfold State.lanesDie
  split
  · rfl
  · split
    · rfl
    · dsimp only
      split
      · rfl
      · simp

@[simp] theorem State.settle1_cur (s : State) (team n core : Nat) (r : ERef) : (s.settle1 team n core r).cur = s.cur := by
  have h := s.readElem_cur core r.row r.lane
  unfold State.settle1
  split
  · simp_all
  · simp_all
  · split <;> simp_all

@[simp] theorem State.readFrame_cur (s : State) (t : Team) (g : Group) (l : List (Nat × Nat)) : (s.readFrame t g l).cur = s.cur := by
  refine foldl_cur (fun s x => ?_) l s
  have h := s.readElem_cur t.core (g.trapRow + x.1) x.2
  split <;> simp_all

@[simp] theorem State.writeFrame_cur (s : State) (core : Nat) (g : Group) : (s.writeFrame core g).cur = s.cur :=
  foldl_cur (fun _ _ => State.putElem_cur ..) _ s

@[simp] theorem State.leaveTrap_cur (s : State) (t : Team) (g : Group) (f : Bool) : (s.leaveTrap t g f).cur = s.cur := by
  unfold State.leaveTrap
  extract_lets s1
  split <;> simp [s1]

@[simp] theorem State.readScal_cur (s : State) (t : Team) (g : Group) (n : Nat) : (s.readScal t g n).cur = s.cur := by
  unfold State.readScal
  split <;> simp

@[simp] theorem State.putCode_cur (s : State) (d : Nat) (c : CodeItem) : (s.putCode d c).cur = s.cur := rfl

@[simp] theorem State.codeSeen_cur (s : State) (core part va n : Nat) : (s.codeSeen core part va n).cur = s.cur := (s.codeSeen_memStep ..).2.1

@[simp] theorem State.codeFetch_cur (s : State) (t : Team) (va n tick : Nat) : (s.codeFetch t va n tick).1.cur = s.cur := by
  unfold State.codeFetch
  split <;> simp

@[simp] theorem State.registerHandler_cur (s : State) (t : Team) (g : Group) (code entry : Nat) :
    (s.registerHandler t g code entry).cur = s.cur := by
  unfold State.registerHandler
  extract_lets put s1
  have h1 : s1.cur = s.cur := by unfold s1; split <;> simp
  split
  · simp [put]
  · split
    · simp [put]
    · split <;> simp [put, h1]

@[simp] theorem State.systemHandler_cur (s : State) (t : Team) (g : Group) (r : TrapRec) :
    (s.systemHandler t g r).cur = s.cur := by
  unfold State.systemHandler
  extract_lets lost s1 s2
  split
  · simp
  · split
    · split <;> simp [lost, s1]
    · split
      · split <;> simp [lost, s2]
      · simp

@[simp] theorem State.enter_cur (s : State) (t : Team) (g : Group) (r : TrapRec) : (s.enter t g r).cur = s.cur := by
  unfold State.enter
  split
  · simp
  · extract_lets s0
    have h0 : s0.cur = s.cur := by unfold s0; split <;> simp
    split
    · exact h0
    · dsimp only
      split <;> simp [h0]

@[simp] theorem State.tryEnter_cur (s : State) (team n : Nat) : (s.tryEnter team n).cur = s.cur := by
  unfold State.tryEnter
  split
  · rfl
  · split
    · rfl
    · split
      · rfl
      · split <;> simp

theorem State.raise_chain {s : State} (h : s.cur.chain = false) (team n : Nat) (r : TrapRec) : (s.raise team n r).cur = s.cur := by
  unfold State.raise
  rw [if_neg (by simp [h])]
  split
  · rfl
  · split
    · rfl
    · dsimp only
      split
      · exact (State.tryEnter_cur ..).trans (by simp)
      · split
        · exact (State.tryEnter_cur ..).trans (by simp)
        · simp

@[simp] theorem State.regangCheck_cur (s : State) (team n : Nat) : (s.regangCheck team n).cur = s.cur := by
  unfold State.regangCheck
  split
  · rfl
  · next hc =>
    split
    · rfl
    · dsimp only
      split
      · rfl
      · split
        · rfl
        · split
          · simp
          · exact State.raise_chain (by simpa using hc) ..

@[simp] theorem State.parted_cur (s : State) (c : Ctx) (f : Nat → Slice → Slice) : (s.parted c f).cur = s.cur :=
  (State.regangCheck_cur ..).trans (State.modG_cur ..)

@[simp] theorem State.dropTimer_cur (s : State) (team n : Nat) : (s.dropTimer team n).cur = s.cur := by
  unfold State.dropTimer
  split
  · rfl
  · split
    · rfl
    · split <;> simp

/-- Disarming the comparator leaves the group calm. -/
theorem calm_dropTimer {s : State} {c : Ctx} (h : s.calm c) : (s.dropTimer c.t.id c.g.num).calm c := by
  unfold State.dropTimer
  split
  · exact h
  next t ht =>
  split
  · exact h
  next g hg =>
  split
  · obtain ⟨g', hg', h0⟩ := h
    have hs : s.group? c.t.id c.g.num = some g := by simp [State.group?, ht, hg]
    obtain rfl : g' = g := by rw [hs] at hg'; cases hg'; rfl
    have hm := State.group?_modGroup (s := s) (fun g => { g with tcmp := 0 }) hs (group?_num (g := g') hg)
    unfold State.modGroup at hm
    rw [hg'] at hm
    exact ⟨_, hm, h0⟩
  · exact h

end Sys2Proof.Machine
end

