-- ==== Sys2Proof/Laws/Dispatch.lean ====
section
/-! SUPPORT. What each arm of `exec` is: the meaning of its instruction. -/

namespace Sys2Proof.Machine

open Sys2Proof

@[simp] theorem exec_clause (w : Nat) (a : Nat) (b : Nat) (l : Nat) (y : Nat) (s : State) : exec (.clause w a b l y) s = execClause w a b l y s := rfl
@[simp] theorem exec_nop (s : State) : exec (.nop) s = execNop s := rfl
@[simp] theorem exec_sMovB32 (c : Bool) (d : Nat) (b : Nat) (s : State) : exec (.sMovB32 c d b) s = execSMovB32 c d b s := rfl
@[simp] theorem exec_sAddN32 (c : Bool) (d : Nat) (b : Nat) (s : State) : exec (.sAddN32 c d b) s = execSAddN32 c d b s := rfl
@[simp] theorem exec_sSubN32 (c : Bool) (d : Nat) (b : Nat) (s : State) : exec (.sSubN32 c d b) s = execSSubN32 c d b s := rfl
@[simp] theorem exec_sMulN32 (c : Bool) (d : Nat) (b : Nat) (s : State) : exec (.sMulN32 c d b) s = execSMulN32 c d b s := rfl
@[simp] theorem exec_sMulhiN32 (c : Bool) (d : Nat) (b : Nat) (s : State) : exec (.sMulhiN32 c d b) s = execSMulhiN32 c d b s := rfl
@[simp] theorem exec_sMulhiS32 (c : Bool) (d : Nat) (b : Nat) (s : State) : exec (.sMulhiS32 c d b) s = execSMulhiS32 c d b s := rfl
@[simp] theorem exec_sAndB32 (c : Bool) (d : Nat) (b : Nat) (s : State) : exec (.sAndB32 c d b) s = execSAndB32 c d b s := rfl
@[simp] theorem exec_sOrB32 (c : Bool) (d : Nat) (b : Nat) (s : State) : exec (.sOrB32 c d b) s = execSOrB32 c d b s := rfl
@[simp] theorem exec_sXorB32 (c : Bool) (d : Nat) (b : Nat) (s : State) : exec (.sXorB32 c d b) s = execSXorB32 c d b s := rfl
@[simp] theorem exec_sNotB32 (c : Bool) (d : Nat) (b : Nat) (s : State) : exec (.sNotB32 c d b) s = execSNotB32 c d b s := rfl
@[simp] theorem exec_sShlB32 (c : Bool) (d : Nat) (b : Nat) (s : State) : exec (.sShlB32 c d b) s = execSShlB32 c d b s := rfl
@[simp] theorem exec_sShrN32 (c : Bool) (d : Nat) (b : Nat) (s : State) : exec (.sShrN32 c d b) s = execSShrN32 c d b s := rfl
@[simp] theorem exec_sShrS32 (c : Bool) (d : Nat) (b : Nat) (s : State) : exec (.sShrS32 c d b) s = execSShrS32 c d b s := rfl
@[simp] theorem exec_sMinN32 (c : Bool) (d : Nat) (b : Nat) (s : State) : exec (.sMinN32 c d b) s = execSMinN32 c d b s := rfl
@[simp] theorem exec_sMinS32 (c : Bool) (d : Nat) (b : Nat) (s : State) : exec (.sMinS32 c d b) s = execSMinS32 c d b s := rfl
@[simp] theorem exec_sMaxN32 (c : Bool) (d : Nat) (b : Nat) (s : State) : exec (.sMaxN32 c d b) s = execSMaxN32 c d b s := rfl
@[simp] theorem exec_sMaxS32 (c : Bool) (d : Nat) (b : Nat) (s : State) : exec (.sMaxS32 c d b) s = execSMaxS32 c d b s := rfl
@[simp] theorem exec_sMovB64 (c : Bool) (d : Nat) (b : Nat) (s : State) : exec (.sMovB64 c d b) s = execSMovB64 c d b s := rfl
@[simp] theorem exec_sAddN64 (c : Bool) (d : Nat) (b : Nat) (s : State) : exec (.sAddN64 c d b) s = execSAddN64 c d b s := rfl
@[simp] theorem exec_sSubN64 (c : Bool) (d : Nat) (b : Nat) (s : State) : exec (.sSubN64 c d b) s = execSSubN64 c d b s := rfl
@[simp] theorem exec_sMulN64 (c : Bool) (d : Nat) (b : Nat) (s : State) : exec (.sMulN64 c d b) s = execSMulN64 c d b s := rfl
@[simp] theorem exec_sAndB64 (c : Bool) (d : Nat) (b : Nat) (s : State) : exec (.sAndB64 c d b) s = execSAndB64 c d b s := rfl
@[simp] theorem exec_sOrB64 (c : Bool) (d : Nat) (b : Nat) (s : State) : exec (.sOrB64 c d b) s = execSOrB64 c d b s := rfl
@[simp] theorem exec_sXorB64 (c : Bool) (d : Nat) (b : Nat) (s : State) : exec (.sXorB64 c d b) s = execSXorB64 c d b s := rfl
@[simp] theorem exec_sShlB64 (c : Bool) (d : Nat) (b : Nat) (s : State) : exec (.sShlB64 c d b) s = execSShlB64 c d b s := rfl
@[simp] theorem exec_sShrN64 (c : Bool) (d : Nat) (b : Nat) (s : State) : exec (.sShrN64 c d b) s = execSShrN64 c d b s := rfl
@[simp] theorem exec_sShrS64 (c : Bool) (d : Nat) (b : Nat) (s : State) : exec (.sShrS64 c d b) s = execSShrS64 c d b s := rfl
@[simp] theorem exec_siMovB32 (c : Bool) (d : Nat) (im : Imm) (s : State) : exec (.siMovB32 c d im) s = execSiMovB32 c d im s := rfl
@[simp] theorem exec_siAddN32 (c : Bool) (d : Nat) (im : Imm) (s : State) : exec (.siAddN32 c d im) s = execSiAddN32 c d im s := rfl
@[simp] theorem exec_siMulN32 (c : Bool) (d : Nat) (im : Imm) (s : State) : exec (.siMulN32 c d im) s = execSiMulN32 c d im s := rfl
@[simp] theorem exec_siAndB32 (c : Bool) (d : Nat) (im : Imm) (s : State) : exec (.siAndB32 c d im) s = execSiAndB32 c d im s := rfl
@[simp] theorem exec_siOrB32 (c : Bool) (d : Nat) (im : Imm) (s : State) : exec (.siOrB32 c d im) s = execSiOrB32 c d im s := rfl
@[simp] theorem exec_siXorB32 (c : Bool) (d : Nat) (im : Imm) (s : State) : exec (.siXorB32 c d im) s = execSiXorB32 c d im s := rfl
@[simp] theorem exec_siShlB32 (c : Bool) (d : Nat) (im : Imm) (s : State) : exec (.siShlB32 c d im) s = execSiShlB32 c d im s := rfl
@[simp] theorem exec_siShrN32 (c : Bool) (d : Nat) (im : Imm) (s : State) : exec (.siShrN32 c d im) s = execSiShrN32 c d im s := rfl
@[simp] theorem exec_siShrS32 (c : Bool) (d : Nat) (im : Imm) (s : State) : exec (.siShrS32 c d im) s = execSiShrS32 c d im s := rfl
@[simp] theorem exec_siMovB64 (c : Bool) (d : Nat) (im : Imm) (s : State) : exec (.siMovB64 c d im) s = execSiMovB64 c d im s := rfl
@[simp] theorem exec_siAddN64 (c : Bool) (d : Nat) (im : Imm) (s : State) : exec (.siAddN64 c d im) s = execSiAddN64 c d im s := rfl
@[simp] theorem exec_beq (c : Bool) (a : Nat) (b : Nat) (o : Tgt) (s : State) : exec (.beq c a b o) s = execBeq c a b o s := rfl
@[simp] theorem exec_bne (c : Bool) (a : Nat) (b : Nat) (o : Tgt) (s : State) : exec (.bne c a b o) s = execBne c a b o s := rfl
@[simp] theorem exec_bltS32 (c : Bool) (a : Nat) (b : Nat) (o : Tgt) (s : State) : exec (.bltS32 c a b o) s = execBltS32 c a b o s := rfl
@[simp] theorem exec_bgeS32 (c : Bool) (a : Nat) (b : Nat) (o : Tgt) (s : State) : exec (.bgeS32 c a b o) s = execBgeS32 c a b o s := rfl
@[simp] theorem exec_bltN32 (c : Bool) (a : Nat) (b : Nat) (o : Tgt) (s : State) : exec (.bltN32 c a b o) s = execBltN32 c a b o s := rfl
@[simp] theorem exec_bgeN32 (c : Bool) (a : Nat) (b : Nat) (o : Tgt) (s : State) : exec (.bgeN32 c a b o) s = execBgeN32 c a b o s := rfl
@[simp] theorem exec_vAddN32 (c : Bool) (d : Nat) (a : Nat) (sc : Nat) (b : Nat) (s : State) : exec (.vAddN32 c d a sc b) s = execVAddN32 c d a sc b s := rfl
@[simp] theorem exec_vSubN32 (c : Bool) (d : Nat) (a : Nat) (sc : Nat) (b : Nat) (s : State) : exec (.vSubN32 c d a sc b) s = execVSubN32 c d a sc b s := rfl
@[simp] theorem exec_vMulN32 (c : Bool) (d : Nat) (a : Nat) (sc : Nat) (b : Nat) (s : State) : exec (.vMulN32 c d a sc b) s = execVMulN32 c d a sc b s := rfl
@[simp] theorem exec_vMulhiN32 (c : Bool) (d : Nat) (a : Nat) (sc : Nat) (b : Nat) (s : State) : exec (.vMulhiN32 c d a sc b) s = execVMulhiN32 c d a sc b s := rfl
@[simp] theorem exec_vMulhiS32 (c : Bool) (d : Nat) (a : Nat) (sc : Nat) (b : Nat) (s : State) : exec (.vMulhiS32 c d a sc b) s = execVMulhiS32 c d a sc b s := rfl
@[simp] theorem exec_vAndB32 (c : Bool) (d : Nat) (a : Nat) (sc : Nat) (b : Nat) (s : State) : exec (.vAndB32 c d a sc b) s = execVAndB32 c d a sc b s := rfl
@[simp] theorem exec_vOrB32 (c : Bool) (d : Nat) (a : Nat) (sc : Nat) (b : Nat) (s : State) : exec (.vOrB32 c d a sc b) s = execVOrB32 c d a sc b s := rfl
@[simp] theorem exec_vXorB32 (c : Bool) (d : Nat) (a : Nat) (sc : Nat) (b : Nat) (s : State) : exec (.vXorB32 c d a sc b) s = execVXorB32 c d a sc b s := rfl
@[simp] theorem exec_vShlB32 (c : Bool) (d : Nat) (a : Nat) (sc : Nat) (b : Nat) (s : State) : exec (.vShlB32 c d a sc b) s = execVShlB32 c d a sc b s := rfl
@[simp] theorem exec_vShrN32 (c : Bool) (d : Nat) (a : Nat) (sc : Nat) (b : Nat) (s : State) : exec (.vShrN32 c d a sc b) s = execVShrN32 c d a sc b s := rfl
@[simp] theorem exec_vShrS32 (c : Bool) (d : Nat) (a : Nat) (sc : Nat) (b : Nat) (s : State) : exec (.vShrS32 c d a sc b) s = execVShrS32 c d a sc b s := rfl
@[simp] theorem exec_vMinN32 (c : Bool) (d : Nat) (a : Nat) (sc : Nat) (b : Nat) (s : State) : exec (.vMinN32 c d a sc b) s = execVMinN32 c d a sc b s := rfl
@[simp] theorem exec_vMinS32 (c : Bool) (d : Nat) (a : Nat) (sc : Nat) (b : Nat) (s : State) : exec (.vMinS32 c d a sc b) s = execVMinS32 c d a sc b s := rfl
@[simp] theorem exec_vMaxN32 (c : Bool) (d : Nat) (a : Nat) (sc : Nat) (b : Nat) (s : State) : exec (.vMaxN32 c d a sc b) s = execVMaxN32 c d a sc b s := rfl
@[simp] theorem exec_vMaxS32 (c : Bool) (d : Nat) (a : Nat) (sc : Nat) (b : Nat) (s : State) : exec (.vMaxS32 c d a sc b) s = execVMaxS32 c d a sc b s := rfl
@[simp] theorem exec_vAddsatS32 (c : Bool) (d : Nat) (a : Nat) (sc : Nat) (b : Nat) (s : State) : exec (.vAddsatS32 c d a sc b) s = execVAddsatS32 c d a sc b s := rfl
@[simp] theorem exec_viAddN32 (c : Bool) (d : Nat) (a : Nat) (im : Imm) (s : State) : exec (.viAddN32 c d a im) s = execViAddN32 c d a im s := rfl
@[simp] theorem exec_viSubN32 (c : Bool) (d : Nat) (a : Nat) (im : Imm) (s : State) : exec (.viSubN32 c d a im) s = execViSubN32 c d a im s := rfl
@[simp] theorem exec_viMulN32 (c : Bool) (d : Nat) (a : Nat) (im : Imm) (s : State) : exec (.viMulN32 c d a im) s = execViMulN32 c d a im s := rfl
@[simp] theorem exec_viMulhiN32 (c : Bool) (d : Nat) (a : Nat) (im : Imm) (s : State) : exec (.viMulhiN32 c d a im) s = execViMulhiN32 c d a im s := rfl
@[simp] theorem exec_viMulhiS32 (c : Bool) (d : Nat) (a : Nat) (im : Imm) (s : State) : exec (.viMulhiS32 c d a im) s = execViMulhiS32 c d a im s := rfl
@[simp] theorem exec_viAndB32 (c : Bool) (d : Nat) (a : Nat) (im : Imm) (s : State) : exec (.viAndB32 c d a im) s = execViAndB32 c d a im s := rfl
@[simp] theorem exec_viOrB32 (c : Bool) (d : Nat) (a : Nat) (im : Imm) (s : State) : exec (.viOrB32 c d a im) s = execViOrB32 c d a im s := rfl
@[simp] theorem exec_viXorB32 (c : Bool) (d : Nat) (a : Nat) (im : Imm) (s : State) : exec (.viXorB32 c d a im) s = execViXorB32 c d a im s := rfl
@[simp] theorem exec_viShlB32 (c : Bool) (d : Nat) (a : Nat) (im : Imm) (s : State) : exec (.viShlB32 c d a im) s = execViShlB32 c d a im s := rfl
@[simp] theorem exec_viShrN32 (c : Bool) (d : Nat) (a : Nat) (im : Imm) (s : State) : exec (.viShrN32 c d a im) s = execViShrN32 c d a im s := rfl
@[simp] theorem exec_viShrS32 (c : Bool) (d : Nat) (a : Nat) (im : Imm) (s : State) : exec (.viShrS32 c d a im) s = execViShrS32 c d a im s := rfl
@[simp] theorem exec_viMinN32 (c : Bool) (d : Nat) (a : Nat) (im : Imm) (s : State) : exec (.viMinN32 c d a im) s = execViMinN32 c d a im s := rfl
@[simp] theorem exec_viMinS32 (c : Bool) (d : Nat) (a : Nat) (im : Imm) (s : State) : exec (.viMinS32 c d a im) s = execViMinS32 c d a im s := rfl
@[simp] theorem exec_viMaxN32 (c : Bool) (d : Nat) (a : Nat) (im : Imm) (s : State) : exec (.viMaxN32 c d a im) s = execViMaxN32 c d a im s := rfl
@[simp] theorem exec_viMaxS32 (c : Bool) (d : Nat) (a : Nat) (im : Imm) (s : State) : exec (.viMaxS32 c d a im) s = execViMaxS32 c d a im s := rfl
@[simp] theorem exec_faddF32 (c : Bool) (d : Nat) (a : Nat) (sc : Nat) (b : Nat) (s : State) : exec (.faddF32 c d a sc b) s = execFaddF32 c d a sc b s := rfl
@[simp] theorem exec_fsubF32 (c : Bool) (d : Nat) (a : Nat) (sc : Nat) (b : Nat) (s : State) : exec (.fsubF32 c d a sc b) s = execFsubF32 c d a sc b s := rfl
@[simp] theorem exec_fmulF32 (c : Bool) (d : Nat) (a : Nat) (sc : Nat) (b : Nat) (s : State) : exec (.fmulF32 c d a sc b) s = execFmulF32 c d a sc b s := rfl
@[simp] theorem exec_fminF32 (c : Bool) (d : Nat) (a : Nat) (sc : Nat) (b : Nat) (s : State) : exec (.fminF32 c d a sc b) s = execFminF32 c d a sc b s := rfl
@[simp] theorem exec_fmaxF32 (c : Bool) (d : Nat) (a : Nat) (sc : Nat) (b : Nat) (s : State) : exec (.fmaxF32 c d a sc b) s = execFmaxF32 c d a sc b s := rfl
@[simp] theorem exec_fabsF32 (c : Bool) (d : Nat) (a : Nat) (s : State) : exec (.fabsF32 c d a) s = execFabsF32 c d a s := rfl
@[simp] theorem exec_fnegF32 (c : Bool) (d : Nat) (a : Nat) (s : State) : exec (.fnegF32 c d a) s = execFnegF32 c d a s := rfl
@[simp] theorem exec_fcpsgnF32 (c : Bool) (d : Nat) (a : Nat) (sc : Nat) (b : Nat) (s : State) : exec (.fcpsgnF32 c d a sc b) s = execFcpsgnF32 c d a sc b s := rfl
@[simp] theorem exec_fmaF32 (c : Bool) (d : Nat) (a : Nat) (sc : Nat) (b : Nat) (s : State) : exec (.fmaF32 c d a sc b) s = execFmaF32 c d a sc b s := rfl
@[simp] theorem exec_fnmaF32 (c : Bool) (d : Nat) (a : Nat) (sc : Nat) (b : Nat) (s : State) : exec (.fnmaF32 c d a sc b) s = execFnmaF32 c d a sc b s := rfl
@[simp] theorem exec_faddF16 (c : Bool) (d : Nat) (a : Nat) (sc : Nat) (b : Nat) (s : State) : exec (.faddF16 c d a sc b) s = execFaddF16 c d a sc b s := rfl
@[simp] theorem exec_fsubF16 (c : Bool) (d : Nat) (a : Nat) (sc : Nat) (b : Nat) (s : State) : exec (.fsubF16 c d a sc b) s = execFsubF16 c d a sc b s := rfl
@[simp] theorem exec_fmulF16 (c : Bool) (d : Nat) (a : Nat) (sc : Nat) (b : Nat) (s : State) : exec (.fmulF16 c d a sc b) s = execFmulF16 c d a sc b s := rfl
@[simp] theorem exec_fmaF16 (c : Bool) (d : Nat) (a : Nat) (sc : Nat) (b : Nat) (s : State) : exec (.fmaF16 c d a sc b) s = execFmaF16 c d a sc b s := rfl
@[simp] theorem exec_faddBf16 (c : Bool) (d : Nat) (a : Nat) (sc : Nat) (b : Nat) (s : State) : exec (.faddBf16 c d a sc b) s = execFaddBf16 c d a sc b s := rfl
@[simp] theorem exec_fsubBf16 (c : Bool) (d : Nat) (a : Nat) (sc : Nat) (b : Nat) (s : State) : exec (.fsubBf16 c d a sc b) s = execFsubBf16 c d a sc b s := rfl
@[simp] theorem exec_fmulBf16 (c : Bool) (d : Nat) (a : Nat) (sc : Nat) (b : Nat) (s : State) : exec (.fmulBf16 c d a sc b) s = execFmulBf16 c d a sc b s := rfl
@[simp] theorem exec_fmaBf16 (c : Bool) (d : Nat) (a : Nat) (sc : Nat) (b : Nat) (s : State) : exec (.fmaBf16 c d a sc b) s = execFmaBf16 c d a sc b s := rfl
@[simp] theorem exec_fminF16 (c : Bool) (d : Nat) (a : Nat) (sc : Nat) (b : Nat) (s : State) : exec (.fminF16 c d a sc b) s = execFminF16 c d a sc b s := rfl
@[simp] theorem exec_fmaxF16 (c : Bool) (d : Nat) (a : Nat) (sc : Nat) (b : Nat) (s : State) : exec (.fmaxF16 c d a sc b) s = execFmaxF16 c d a sc b s := rfl
@[simp] theorem exec_fminBf16 (c : Bool) (d : Nat) (a : Nat) (sc : Nat) (b : Nat) (s : State) : exec (.fminBf16 c d a sc b) s = execFminBf16 c d a sc b s := rfl
@[simp] theorem exec_fmaxBf16 (c : Bool) (d : Nat) (a : Nat) (sc : Nat) (b : Nat) (s : State) : exec (.fmaxBf16 c d a sc b) s = execFmaxBf16 c d a sc b s := rfl
@[simp] theorem exec_vcmpEq (c : Bool) (t : Nat) (p : Nat) (a : Nat) (sc : Nat) (b : Nat) (s : State) : exec (.vcmpEq c t p a sc b) s = execVcmpEq c t p a sc b s := rfl
@[simp] theorem exec_vcmpNe (c : Bool) (t : Nat) (p : Nat) (a : Nat) (sc : Nat) (b : Nat) (s : State) : exec (.vcmpNe c t p a sc b) s = execVcmpNe c t p a sc b s := rfl
@[simp] theorem exec_vcmpLt (c : Bool) (t : Nat) (p : Nat) (a : Nat) (sc : Nat) (b : Nat) (s : State) : exec (.vcmpLt c t p a sc b) s = execVcmpLt c t p a sc b s := rfl
@[simp] theorem exec_vcmpLe (c : Bool) (t : Nat) (p : Nat) (a : Nat) (sc : Nat) (b : Nat) (s : State) : exec (.vcmpLe c t p a sc b) s = execVcmpLe c t p a sc b s := rfl
@[simp] theorem exec_vcmpGt (c : Bool) (t : Nat) (p : Nat) (a : Nat) (sc : Nat) (b : Nat) (s : State) : exec (.vcmpGt c t p a sc b) s = execVcmpGt c t p a sc b s := rfl
@[simp] theorem exec_vcmpGe (c : Bool) (t : Nat) (p : Nat) (a : Nat) (sc : Nat) (b : Nat) (s : State) : exec (.vcmpGe c t p a sc b) s = execVcmpGe c t p a sc b s := rfl
@[simp] theorem exec_pand (c : Bool) (d : Nat) (a : Nat) (b : Nat) (s : State) : exec (.pand c d a b) s = execPand c d a b s := rfl
@[simp] theorem exec_por (c : Bool) (d : Nat) (a : Nat) (b : Nat) (s : State) : exec (.por c d a b) s = execPor c d a b s := rfl
@[simp] theorem exec_pxor (c : Bool) (d : Nat) (a : Nat) (b : Nat) (s : State) : exec (.pxor c d a b) s = execPxor c d a b s := rfl
@[simp] theorem exec_pnot (c : Bool) (d : Nat) (a : Nat) (s : State) : exec (.pnot c d a) s = execPnot c d a s := rfl
@[simp] theorem exec_cvt (c : Bool) (sc : Nat) (t : Nat) (r : Nat) (x : Option Nat) (d : Nat) (a : Nat) (s : State) : exec (.cvt c sc t r x d a) s = execCvt c sc t r x d a s := rfl
@[simp] theorem exec_rcpF32 (c : Bool) (d : Nat) (a : Nat) (s : State) : exec (.rcpF32 c d a) s = execRcpF32 c d a s := rfl
@[simp] theorem exec_rsqrtF32 (c : Bool) (d : Nat) (a : Nat) (s : State) : exec (.rsqrtF32 c d a) s = execRsqrtF32 c d a s := rfl
@[simp] theorem exec_sqrtF32 (c : Bool) (d : Nat) (a : Nat) (s : State) : exec (.sqrtF32 c d a) s = execSqrtF32 c d a s := rfl
@[simp] theorem exec_exp2F32 (c : Bool) (d : Nat) (a : Nat) (s : State) : exec (.exp2F32 c d a) s = execExp2F32 c d a s := rfl
@[simp] theorem exec_log2F32 (c : Bool) (d : Nat) (a : Nat) (s : State) : exec (.log2F32 c d a) s = execLog2F32 c d a s := rfl
@[simp] theorem exec_sinpiF32 (c : Bool) (d : Nat) (a : Nat) (s : State) : exec (.sinpiF32 c d a) s = execSinpiF32 c d a s := rfl
@[simp] theorem exec_cospiF32 (c : Bool) (d : Nat) (a : Nat) (s : State) : exec (.cospiF32 c d a) s = execCospiF32 c d a s := rfl
@[simp] theorem exec_tanhF32 (c : Bool) (d : Nat) (a : Nat) (s : State) : exec (.tanhF32 c d a) s = execTanhF32 c d a s := rfl
@[simp] theorem exec_sigmF32 (c : Bool) (d : Nat) (a : Nat) (s : State) : exec (.sigmF32 c d a) s = execSigmF32 c d a s := rfl
@[simp] theorem exec_erfF32 (c : Bool) (d : Nat) (a : Nat) (s : State) : exec (.erfF32 c d a) s = execErfF32 c d a s := rfl
@[simp] theorem exec_vgetB32 (c : Bool) (d : Nat) (im : Nat) (w : Nat) (j : Nat) (s : State) : exec (.vgetB32 c d im w j) s = execVgetB32 c d im w j s := rfl
@[simp] theorem exec_vputB32 (c : Bool) (d : Nat) (im : Nat) (w : Nat) (j : Nat) (s : State) : exec (.vputB32 c d im w j) s = execVputB32 c d im w j s := rfl
@[simp] theorem exec_xreadB32 (c : Bool) (d : Nat) (im : Nat) (w : Nat) (j : Nat) (s : State) : exec (.xreadB32 c d im w j) s = execXreadB32 c d im w j s := rfl
@[simp] theorem exec_xwriteB32 (c : Bool) (d : Nat) (im : Nat) (w : Nat) (j : Nat) (s : State) : exec (.xwriteB32 c d im w j) s = execXwriteB32 c d im w j s := rfl
@[simp] theorem exec_shflIdxB32 (c : Bool) (d : Nat) (im : Nat) (j : Nat) (s : State) : exec (.shflIdxB32 c d im j) s = execShflIdxB32 c d im j s := rfl
@[simp] theorem exec_shflUpB32 (c : Bool) (d : Nat) (im : Nat) (j : Nat) (s : State) : exec (.shflUpB32 c d im j) s = execShflUpB32 c d im j s := rfl
@[simp] theorem exec_shflDownB32 (c : Bool) (d : Nat) (im : Nat) (j : Nat) (s : State) : exec (.shflDownB32 c d im j) s = execShflDownB32 c d im j s := rfl
@[simp] theorem exec_shflXorB32 (c : Bool) (d : Nat) (im : Nat) (j : Nat) (s : State) : exec (.shflXorB32 c d im j) s = execShflXorB32 c d im j s := rfl
@[simp] theorem exec_ballotB32 (c : Bool) (d : Nat) (a : Nat) (s : State) : exec (.ballotB32 c d a) s = execBallotB32 c d a s := rfl
@[simp] theorem exec_voteAny (c : Bool) (d : Nat) (a : Nat) (s : State) : exec (.voteAny c d a) s = execVoteAny c d a s := rfl
@[simp] theorem exec_voteAll (c : Bool) (d : Nat) (a : Nat) (s : State) : exec (.voteAll c d a) s = execVoteAll c d a s := rfl
@[simp] theorem exec_pmovB32 (c : Bool) (d : Nat) (a : Nat) (s : State) : exec (.pmovB32 c d a) s = execPmovB32 c d a s := rfl
@[simp] theorem exec_ptestB32 (c : Bool) (d : Nat) (im : Nat) (s : State) : exec (.ptestB32 c d im) s = execPtestB32 c d im s := rfl
@[simp] theorem exec_ldB8 (c : Bool) (f : Nat) (d : Nat) (im : Nat) (sc : Nat) (s : State) : exec (.ldB8 c f d im sc) s = execLdB8 c f d im sc s := rfl
@[simp] theorem exec_ldB16 (c : Bool) (f : Nat) (d : Nat) (im : Nat) (sc : Nat) (s : State) : exec (.ldB16 c f d im sc) s = execLdB16 c f d im sc s := rfl
@[simp] theorem exec_ldB32 (c : Bool) (f : Nat) (d : Nat) (im : Nat) (sc : Nat) (s : State) : exec (.ldB32 c f d im sc) s = execLdB32 c f d im sc s := rfl
@[simp] theorem exec_ldB8Fa (c : Bool) (f : Nat) (d : Nat) (im : Nat) (sc : Nat) (s : State) : exec (.ldB8Fa c f d im sc) s = execLdB8Fa c f d im sc s := rfl
@[simp] theorem exec_ldB16Fa (c : Bool) (f : Nat) (d : Nat) (im : Nat) (sc : Nat) (s : State) : exec (.ldB16Fa c f d im sc) s = execLdB16Fa c f d im sc s := rfl
@[simp] theorem exec_ldB32Fa (c : Bool) (f : Nat) (d : Nat) (im : Nat) (sc : Nat) (s : State) : exec (.ldB32Fa c f d im sc) s = execLdB32Fa c f d im sc s := rfl
@[simp] theorem exec_ldB8Fb (c : Bool) (f : Nat) (d : Nat) (im : Nat) (sc : Nat) (s : State) : exec (.ldB8Fb c f d im sc) s = execLdB8Fb c f d im sc s := rfl
@[simp] theorem exec_ldB16Fb (c : Bool) (f : Nat) (d : Nat) (im : Nat) (sc : Nat) (s : State) : exec (.ldB16Fb c f d im sc) s = execLdB16Fb c f d im sc s := rfl
@[simp] theorem exec_ldB32Fb (c : Bool) (f : Nat) (d : Nat) (im : Nat) (sc : Nat) (s : State) : exec (.ldB32Fb c f d im sc) s = execLdB32Fb c f d im sc s := rfl
@[simp] theorem exec_stB8 (c : Bool) (f : Nat) (d : Nat) (im : Nat) (sc : Nat) (s : State) : exec (.stB8 c f d im sc) s = execStB8 c f d im sc s := rfl
@[simp] theorem exec_stB16 (c : Bool) (f : Nat) (d : Nat) (im : Nat) (sc : Nat) (s : State) : exec (.stB16 c f d im sc) s = execStB16 c f d im sc s := rfl
@[simp] theorem exec_stB32 (c : Bool) (f : Nat) (d : Nat) (im : Nat) (sc : Nat) (s : State) : exec (.stB32 c f d im sc) s = execStB32 c f d im sc s := rfl
@[simp] theorem exec_ldScalarAddress (c : Bool) (z : Nat) (f : Nat) (e : Nat) (o : Nat) (k : Nat) (d : Nat) (sc : Nat) (s : State) : exec (.ldScalarAddress c z f e o k d sc) s = execLdScalarAddress c z f e o k d sc s := rfl
@[simp] theorem exec_stScalarAddress (c : Bool) (z : Nat) (e : Nat) (o : Nat) (k : Nat) (d : Nat) (sc : Nat) (s : State) : exec (.stScalarAddress c z e o k d sc) s = execStScalarAddress c z e o k d sc s := rfl
@[simp] theorem exec_atomAddN32 (c : Bool) (o : Nat) (k : Nat) (f : Nat) (d : Nat) (u : Nat) (a : Nat) (s : State) : exec (.atomAddN32 c o k f d u a) s = execAtomAddN32 c o k f d u a s := rfl
@[simp] theorem exec_atomAddN64 (c : Bool) (o : Nat) (k : Nat) (f : Nat) (d : Nat) (u : Nat) (a : Nat) (s : State) : exec (.atomAddN64 c o k f d u a) s = execAtomAddN64 c o k f d u a s := rfl
@[simp] theorem exec_atomAddF32 (c : Bool) (o : Nat) (k : Nat) (f : Nat) (d : Nat) (u : Nat) (a : Nat) (s : State) : exec (.atomAddF32 c o k f d u a) s = execAtomAddF32 c o k f d u a s := rfl
@[simp] theorem exec_atomMinS32 (c : Bool) (o : Nat) (k : Nat) (f : Nat) (d : Nat) (u : Nat) (a : Nat) (s : State) : exec (.atomMinS32 c o k f d u a) s = execAtomMinS32 c o k f d u a s := rfl
@[simp] theorem exec_atomMinN32 (c : Bool) (o : Nat) (k : Nat) (f : Nat) (d : Nat) (u : Nat) (a : Nat) (s : State) : exec (.atomMinN32 c o k f d u a) s = execAtomMinN32 c o k f d u a s := rfl
@[simp] theorem exec_atomMaxS32 (c : Bool) (o : Nat) (k : Nat) (f : Nat) (d : Nat) (u : Nat) (a : Nat) (s : State) : exec (.atomMaxS32 c o k f d u a) s = execAtomMaxS32 c o k f d u a s := rfl
@[simp] theorem exec_atomMaxN32 (c : Bool) (o : Nat) (k : Nat) (f : Nat) (d : Nat) (u : Nat) (a : Nat) (s : State) : exec (.atomMaxN32 c o k f d u a) s = execAtomMaxN32 c o k f d u a s := rfl
@[simp] theorem exec_atomAndB32 (c : Bool) (o : Nat) (k : Nat) (f : Nat) (d : Nat) (u : Nat) (a : Nat) (s : State) : exec (.atomAndB32 c o k f d u a) s = execAtomAndB32 c o k f d u a s := rfl
@[simp] theorem exec_atomOrB32 (c : Bool) (o : Nat) (k : Nat) (f : Nat) (d : Nat) (u : Nat) (a : Nat) (s : State) : exec (.atomOrB32 c o k f d u a) s = execAtomOrB32 c o k f d u a s := rfl
@[simp] theorem exec_atomXorB32 (c : Bool) (o : Nat) (k : Nat) (f : Nat) (d : Nat) (u : Nat) (a : Nat) (s : State) : exec (.atomXorB32 c o k f d u a) s = execAtomXorB32 c o k f d u a s := rfl
@[simp] theorem exec_atomXchgB32 (c : Bool) (o : Nat) (k : Nat) (f : Nat) (d : Nat) (u : Nat) (a : Nat) (s : State) : exec (.atomXchgB32 c o k f d u a) s = execAtomXchgB32 c o k f d u a s := rfl
@[simp] theorem exec_atomCasB32 (c : Bool) (o : Nat) (k : Nat) (f : Nat) (d : Nat) (u : Nat) (a : Nat) (s : State) : exec (.atomCasB32 c o k f d u a) s = execAtomCasB32 c o k f d u a s := rfl
@[simp] theorem exec_atomXchgB64 (c : Bool) (o : Nat) (k : Nat) (f : Nat) (d : Nat) (u : Nat) (a : Nat) (s : State) : exec (.atomXchgB64 c o k f d u a) s = execAtomXchgB64 c o k f d u a s := rfl
@[simp] theorem exec_atomCasB64 (c : Bool) (o : Nat) (k : Nat) (f : Nat) (d : Nat) (u : Nat) (a : Nat) (s : State) : exec (.atomCasB64 c o k f d u a) s = execAtomCasB64 c o k f d u a s := rfl
@[simp] theorem exec_swldB32 (c : Bool) (f : Nat) (d : Nat) (h : Nat) (s : State) : exec (.swldB32 c f d h) s = execSwldB32 c f d h s := rfl
@[simp] theorem exec_swstB32 (c : Bool) (d : Nat) (h : Nat) (n : Nat) (s : State) : exec (.swstB32 c d h n) s = execSwstB32 c d h n s := rfl
@[simp] theorem exec_swatomAddN32 (c : Bool) (f : Nat) (d : Nat) (h : Nat) (n : Nat) (s : State) : exec (.swatomAddN32 c f d h n) s = execSwatomAddN32 c f d h n s := rfl
@[simp] theorem exec_swatomCasB32 (c : Bool) (f : Nat) (d : Nat) (h : Nat) (n : Nat) (s : State) : exec (.swatomCasB32 c f d h n) s = execSwatomCasB32 c f d h n s := rfl
@[simp] theorem exec_swredAddN32 (c : Bool) (d : Nat) (h : Nat) (n : Nat) (s : State) : exec (.swredAddN32 c d h n) s = execSwredAddN32 c d h n s := rfl
@[simp] theorem exec_swredOrB32 (c : Bool) (d : Nat) (h : Nat) (n : Nat) (s : State) : exec (.swredOrB32 c d h n) s = execSwredOrB32 c d h n s := rfl
@[simp] theorem exec_swldB32Far (c : Bool) (f : Nat) (d : Nat) (h : Nat) (s : State) : exec (.swldB32Far c f d h) s = execSwldB32Far c f d h s := rfl
@[simp] theorem exec_swstB32Far (c : Bool) (d : Nat) (h : Nat) (n : Nat) (s : State) : exec (.swstB32Far c d h n) s = execSwstB32Far c d h n s := rfl
@[simp] theorem exec_swatomAddN32Far (c : Bool) (f : Nat) (d : Nat) (h : Nat) (n : Nat) (s : State) : exec (.swatomAddN32Far c f d h n) s = execSwatomAddN32Far c f d h n s := rfl
@[simp] theorem exec_swatomCasB32Far (c : Bool) (f : Nat) (d : Nat) (h : Nat) (n : Nat) (s : State) : exec (.swatomCasB32Far c f d h n) s = execSwatomCasB32Far c f d h n s := rfl
@[simp] theorem exec_swredAddN32Far (c : Bool) (d : Nat) (h : Nat) (n : Nat) (s : State) : exec (.swredAddN32Far c d h n) s = execSwredAddN32Far c d h n s := rfl
@[simp] theorem exec_swredOrB32Far (c : Bool) (d : Nat) (h : Nat) (n : Nat) (s : State) : exec (.swredOrB32Far c d h n) s = execSwredOrB32Far c d h n s := rfl
@[simp] theorem exec_exportSwatch (c : Bool) (im : Nat) (s : State) : exec (.exportSwatch c im) s = execExportSwatch c im s := rfl
@[simp] theorem exec_copyRows (c : Bool) (w : Nat) (d : Nat) (sc : Nat) (n : Nat) (s : State) : exec (.copyRows c w d sc n) s = execCopyRows c w d sc n s := rfl
@[simp] theorem exec_copyCol (c : Bool) (d : Nat) (sc : Nat) (n : Nat) (s : State) : exec (.copyCol c d sc n) s = execCopyCol c d sc n s := rfl
@[simp] theorem exec_copyRowsX24 (c : Bool) (w : Nat) (d : Nat) (sc : Nat) (n : Nat) (s : State) : exec (.copyRowsX24 c w d sc n) s = execCopyRowsX24 c w d sc n s := rfl
@[simp] theorem exec_copySwatch (c : Bool) (w : Nat) (d : Nat) (sc : Nat) (n : Nat) (s : State) : exec (.copySwatch c w d sc n) s = execCopySwatch c w d sc n s := rfl
@[simp] theorem exec_copyOutTeam (c : Bool) (w : Nat) (d : Nat) (sc : Nat) (n : Nat) (s : State) : exec (.copyOutTeam c w d sc n) s = execCopyOutTeam c w d sc n s := rfl
@[simp] theorem exec_copyOutClu (c : Bool) (w : Nat) (d : Nat) (sc : Nat) (n : Nat) (s : State) : exec (.copyOutClu c w d sc n) s = execCopyOutClu c w d sc n s := rfl
@[simp] theorem exec_copyOutDie (c : Bool) (w : Nat) (d : Nat) (sc : Nat) (n : Nat) (s : State) : exec (.copyOutDie c w d sc n) s = execCopyOutDie c w d sc n s := rfl
@[simp] theorem exec_copyOutMod (c : Bool) (w : Nat) (d : Nat) (sc : Nat) (n : Nat) (s : State) : exec (.copyOutMod c w d sc n) s = execCopyOutMod c w d sc n s := rfl
@[simp] theorem exec_copyOutSys (c : Bool) (w : Nat) (d : Nat) (sc : Nat) (n : Nat) (s : State) : exec (.copyOutSys c w d sc n) s = execCopyOutSys c w d sc n s := rfl
@[simp] theorem exec_copyOutC24Team (c : Bool) (w : Nat) (d : Nat) (sc : Nat) (n : Nat) (s : State) : exec (.copyOutC24Team c w d sc n) s = execCopyOutC24Team c w d sc n s := rfl
@[simp] theorem exec_copyOutC24Clu (c : Bool) (w : Nat) (d : Nat) (sc : Nat) (n : Nat) (s : State) : exec (.copyOutC24Clu c w d sc n) s = execCopyOutC24Clu c w d sc n s := rfl
@[simp] theorem exec_copyOutC24Die (c : Bool) (w : Nat) (d : Nat) (sc : Nat) (n : Nat) (s : State) : exec (.copyOutC24Die c w d sc n) s = execCopyOutC24Die c w d sc n s := rfl
@[simp] theorem exec_copyOutC24Mod (c : Bool) (w : Nat) (d : Nat) (sc : Nat) (n : Nat) (s : State) : exec (.copyOutC24Mod c w d sc n) s = execCopyOutC24Mod c w d sc n s := rfl
@[simp] theorem exec_copyOutC24Sys (c : Bool) (w : Nat) (d : Nat) (sc : Nat) (n : Nat) (s : State) : exec (.copyOutC24Sys c w d sc n) s = execCopyOutC24Sys c w d sc n s := rfl
@[simp] theorem exec_walk (c : Bool) (w : Nat) (d : Nat) (sc : Nat) (n : Nat) (s : State) : exec (.walk c w d sc n) s = execWalk c w d sc n s := rfl
@[simp] theorem exec_gather (c : Bool) (im : Nat) (s : State) : exec (.gather c im) s = execGather c im s := rfl
@[simp] theorem exec_scatter (c : Bool) (im : Nat) (s : State) : exec (.scatter c im) s = execScatter c im s := rfl
@[simp] theorem exec_shbind (c : Bool) (im : Nat) (s : State) : exec (.shbind c im) s = execShbind c im s := rfl
@[simp] theorem exec_shbindOff (c : Bool) (im : Nat) (s : State) : exec (.shbindOff c im) s = execShbindOff c im s := rfl
@[simp] theorem exec_arrive (c : Bool) (n : Nat) (s : State) : exec (.arrive c n) s = execArrive c n s := rfl
@[simp] theorem exec_binit (c : Bool) (n : Nat) (sc : Nat) (s : State) : exec (.binit c n sc) s = execBinit c n sc s := rfl
@[simp] theorem exec_bread (c : Bool) (n : Nat) (sc : Nat) (s : State) : exec (.bread c n sc) s = execBread c n sc s := rfl
@[simp] theorem exec_twait (c : Bool) (p : Nat) (n : Nat) (sc : Nat) (s : State) : exec (.twait c p n sc) s = execTwait c p n sc s := rfl
@[simp] theorem exec_swap (c : Bool) (n : Nat) (s : State) : exec (.swap c n) s = execSwap c n s := rfl
@[simp] theorem exec_fence (c : Bool) (k : Nat) (s : State) : exec (.fence c k) s = execFence c k s := rfl
@[simp] theorem exec_cbatch (c : Bool) (sc : Nat) (s : State) : exec (.cbatch c sc) s = execCbatch c sc s := rfl
@[simp] theorem exec_waitb (c : Bool) (sc : Nat) (s : State) : exec (.waitb c sc) s = execWaitb c sc s := rfl
@[simp] theorem exec_waitbPred (c : Bool) (p : Nat) (sc : Nat) (s : State) : exec (.waitbPred c p sc) s = execWaitbPred c p sc s := rfl
@[simp] theorem exec_bra (c : Bool) (p : Nat) (o : Tgt) (s : State) : exec (.bra c p o) s = execBra c p o s := rfl
@[simp] theorem exec_braU (c : Bool) (p : Nat) (o : Tgt) (s : State) : exec (.braU c p o) s = execBraU c p o s := rfl
@[simp] theorem exec_call (c : Bool) (d : Nat) (o : Tgt) (s : State) : exec (.call c d o) s = execCall c d o s := rfl
@[simp] theorem exec_ret (c : Bool) (d : Nat) (s : State) : exec (.ret c d) s = execRet c d s := rfl
@[simp] theorem exec_exit (c : Bool) (s : State) : exec (.exit c) s = execExit c s := rfl
@[simp] theorem exec_mark (c : Bool) (o : Tgt) (s : State) : exec (.mark c o) s = execMark c o s := rfl
@[simp] theorem exec_join (c : Bool) (s : State) : exec (.join c) s = execJoin c s := rfl
@[simp] theorem exec_brk (c : Bool) (p : Nat) (n : Nat) (s : State) : exec (.brk c p n) s = execBrk c p n s := rfl
@[simp] theorem exec_regang (c : Bool) (n : Nat) (s : State) : exec (.regang c n) s = execRegang c n s := rfl
@[simp] theorem exec_sgetScalar (c : Bool) (r : Nat) (d : Nat) (s : State) : exec (.sgetScalar c r d) s = execSgetScalar c r d s := rfl
@[simp] theorem exec_sgetVector (c : Bool) (r : Nat) (d : Nat) (s : State) : exec (.sgetVector c r d) s = execSgetVector c r d s := rfl
@[simp] theorem exec_sput (c : Bool) (r : Nat) (sc : Nat) (s : State) : exec (.sput c r sc) s = execSput c r sc s := rfl
@[simp] theorem exec_trap (c : Bool) (n : Nat) (s : State) : exec (.trap c n) s = execTrap c n s := rfl
@[simp] theorem exec_trapRegisterHandler (c : Bool) (s : State) : exec (.trapRegisterHandler c) s = execTrapRegisterHandler c s := rfl
@[simp] theorem exec_trapKillService (c : Bool) (s : State) : exec (.trapKillService c) s = execTrapKillService c s := rfl
@[simp] theorem exec_rte (c : Bool) (s : State) : exec (.rte c) s = execRte c s := rfl
@[simp] theorem exec_inv (c : Bool) (im : Nat) (s : State) : exec (.inv c im) s = execInv c im s := rfl
@[simp] theorem exec_vredAddF32 (c : Bool) (d : Nat) (a : Nat) (sc : Nat) (s : State) : exec (.vredAddF32 c d a sc) s = execVredAddF32 c d a sc s := rfl
@[simp] theorem exec_vredAddN32 (c : Bool) (d : Nat) (a : Nat) (sc : Nat) (s : State) : exec (.vredAddN32 c d a sc) s = execVredAddN32 c d a sc s := rfl
@[simp] theorem exec_vredMinF32 (c : Bool) (d : Nat) (a : Nat) (sc : Nat) (s : State) : exec (.vredMinF32 c d a sc) s = execVredMinF32 c d a sc s := rfl
@[simp] theorem exec_vredMaxF32 (c : Bool) (d : Nat) (a : Nat) (sc : Nat) (s : State) : exec (.vredMaxF32 c d a sc) s = execVredMaxF32 c d a sc s := rfl
@[simp] theorem exec_vredMinS32 (c : Bool) (d : Nat) (a : Nat) (sc : Nat) (s : State) : exec (.vredMinS32 c d a sc) s = execVredMinS32 c d a sc s := rfl
@[simp] theorem exec_vredMaxS32 (c : Bool) (d : Nat) (a : Nat) (sc : Nat) (s : State) : exec (.vredMaxS32 c d a sc) s = execVredMaxS32 c d a sc s := rfl
@[simp] theorem exec_vredAndB32 (c : Bool) (d : Nat) (a : Nat) (sc : Nat) (s : State) : exec (.vredAndB32 c d a sc) s = execVredAndB32 c d a sc s := rfl
@[simp] theorem exec_vredOrB32 (c : Bool) (d : Nat) (a : Nat) (sc : Nat) (s : State) : exec (.vredOrB32 c d a sc) s = execVredOrB32 c d a sc s := rfl
@[simp] theorem exec_vredLmF32 (c : Bool) (d : Nat) (a : Nat) (sc : Nat) (m : Nat) (s : State) : exec (.vredLmF32 c d a sc m) s = execVredLmF32 c d a sc m s := rfl
@[simp] theorem exec_vredLmBf16 (c : Bool) (d : Nat) (a : Nat) (sc : Nat) (m : Nat) (s : State) : exec (.vredLmBf16 c d a sc m) s = execVredLmBf16 c d a sc m s := rfl
@[simp] theorem exec_bump (c : Bool) (p : Nat) (d : Nat) (sc : Nat) (s : State) : exec (.bump c p d sc) s = execBump c p d sc s := rfl
@[simp] theorem exec_appendB32 (c : Bool) (f : Nat) (p : Nat) (d : Nat) (sc : Nat) (s : State) : exec (.appendB32 c f p d sc) s = execAppendB32 c f p d sc s := rfl
@[simp] theorem exec_appendB64 (c : Bool) (f : Nat) (p : Nat) (d : Nat) (sc : Nat) (s : State) : exec (.appendB64 c f p d sc) s = execAppendB64 c f p d sc s := rfl
@[simp] theorem exec_enq (c : Bool) (sc : Nat) (s : State) : exec (.enq c sc) s = execEnq c sc s := rfl
@[simp] theorem exec_enqPred (c : Bool) (p : Nat) (sc : Nat) (s : State) : exec (.enqPred c p sc) s = execEnqPred c p sc s := rfl
@[simp] theorem exec_mnop (s : State) : exec (.mnop) s = execMnop s := rfl
@[simp] theorem exec_qmov (d : Nat) (a : Nat) (s : State) : exec (.qmov d a) s = execQmov d a s := rfl
@[simp] theorem exec_qadd (d : Nat) (a : Nat) (b : Nat) (s : State) : exec (.qadd d a b) s = execQadd d a b s := rfl
@[simp] theorem exec_qsub (d : Nat) (a : Nat) (b : Nat) (s : State) : exec (.qsub d a b) s = execQsub d a b s := rfl
@[simp] theorem exec_qmul (d : Nat) (a : Nat) (b : Nat) (s : State) : exec (.qmul d a b) s = execQmul d a b s := rfl
@[simp] theorem exec_qand (d : Nat) (a : Nat) (b : Nat) (s : State) : exec (.qand d a b) s = execQand d a b s := rfl
@[simp] theorem exec_qor (d : Nat) (a : Nat) (b : Nat) (s : State) : exec (.qor d a b) s = execQor d a b s := rfl
@[simp] theorem exec_qshl (d : Nat) (a : Nat) (b : Nat) (s : State) : exec (.qshl d a b) s = execQshl d a b s := rfl
@[simp] theorem exec_qshr (d : Nat) (a : Nat) (b : Nat) (s : State) : exec (.qshr d a b) s = execQshr d a b s := rfl
@[simp] theorem exec_qli (d : Nat) (im : Nat) (s : State) : exec (.qli d im) s = execQli d im s := rfl
@[simp] theorem exec_qlih (d : Nat) (im : Nat) (s : State) : exec (.qlih d im) s = execQlih d im s := rfl
@[simp] theorem exec_qrd (d : Nat) (w : Nat) (l : Nat) (s : State) : exec (.qrd d w l) s = execQrd d w l s := rfl
@[simp] theorem exec_mwait (n : Nat) (k : Nat) (s : State) : exec (.mwait n k) s = execMwait n k s := rfl
@[simp] theorem exec_marrive (n : Nat) (s : State) : exec (.marrive n) s = execMarrive n s := rfl
@[simp] theorem exec_mloop (d : Nat) (o : Nat) (s : State) : exec (.mloop d o) s = execMloop d o s := rfl
@[simp] theorem exec_mkeep (d : Nat) (o : Nat) (s : State) : exec (.mkeep d o) s = execMkeep d o s := rfl
@[simp] theorem exec_mjmp (o : Nat) (s : State) : exec (.mjmp o) s = execMjmp o s := rfl
@[simp] theorem exec_mend (s : State) : exec (.mend) s = execMend s := rfl
@[simp] theorem exec_mma (im : Nat) (s : State) : exec (.mma im) s = execMma im s := rfl
@[simp] theorem exec_mzero (t : Nat) (s : State) : exec (.mzero t) s = execMzero t s := rfl
@[simp] theorem exec_mload (t : Nat) (v : Nat) (q : Nat) (n : Nat) (s : State) : exec (.mload t v q n) s = execMload t v q n s := rfl
@[simp] theorem exec_mstore (t : Nat) (v : Nat) (q : Nat) (n : Nat) (s : State) : exec (.mstore t v q n) s = execMstore t v q n s := rfl
@[simp] theorem exec_macq (t : Nat) (q : Nat) (s : State) : exec (.macq t q) s = execMacq t q s := rfl
@[simp] theorem exec_mrel (t : Nat) (s : State) : exec (.mrel t) s = execMrel t s := rfl
@[simp] theorem exec_mmask (q : Nat) (s : State) : exec (.mmask q) s = execMmask q s := rfl
@[simp] theorem exec_cnop (s : State) : exec (.cnop) s = execCnop s := rfl
@[simp] theorem exec_cmov (d : Nat) (a : Nat) (s : State) : exec (.cmov d a) s = execCmov d a s := rfl
@[simp] theorem exec_cli (d : Nat) (im : Nat) (s : State) : exec (.cli d im) s = execCli d im s := rfl
@[simp] theorem exec_cadd (d : Nat) (a : Nat) (b : Nat) (s : State) : exec (.cadd d a b) s = execCadd d a b s := rfl
@[simp] theorem exec_csub (d : Nat) (a : Nat) (b : Nat) (s : State) : exec (.csub d a b) s = execCsub d a b s := rfl
@[simp] theorem exec_cmul (d : Nat) (a : Nat) (b : Nat) (s : State) : exec (.cmul d a b) s = execCmul d a b s := rfl
@[simp] theorem exec_cand (d : Nat) (a : Nat) (b : Nat) (s : State) : exec (.cand d a b) s = execCand d a b s := rfl
@[simp] theorem exec_cor (d : Nat) (a : Nat) (b : Nat) (s : State) : exec (.cor d a b) s = execCor d a b s := rfl
@[simp] theorem exec_caddi (d : Nat) (a : Nat) (im : Nat) (s : State) : exec (.caddi d a im) s = execCaddi d a im s := rfl
@[simp] theorem exec_cshli (d : Nat) (a : Nat) (n : Nat) (s : State) : exec (.cshli d a n) s = execCshli d a n s := rfl
@[simp] theorem exec_cshri (d : Nat) (a : Nat) (n : Nat) (s : State) : exec (.cshri d a n) s = execCshri d a n s := rfl
@[simp] theorem exec_crd8 (d : Nat) (a : Nat) (im : Nat) (s : State) : exec (.crd8 d a im) s = execCrd8 d a im s := rfl
@[simp] theorem exec_crd16 (d : Nat) (a : Nat) (im : Nat) (s : State) : exec (.crd16 d a im) s = execCrd16 d a im s := rfl
@[simp] theorem exec_crd32 (d : Nat) (a : Nat) (im : Nat) (s : State) : exec (.crd32 d a im) s = execCrd32 d a im s := rfl
@[simp] theorem exec_crd64 (d : Nat) (a : Nat) (im : Nat) (s : State) : exec (.crd64 d a im) s = execCrd64 d a im s := rfl
@[simp] theorem exec_cemit8 (a : Nat) (b : Nat) (s : State) : exec (.cemit8 a b) s = execCemit8 a b s := rfl
@[simp] theorem exec_cemit16 (a : Nat) (b : Nat) (s : State) : exec (.cemit16 a b) s = execCemit16 a b s := rfl
@[simp] theorem exec_cemit32 (a : Nat) (b : Nat) (s : State) : exec (.cemit32 a b) s = execCemit32 a b s := rfl
@[simp] theorem exec_cbeq (a : Nat) (b : Nat) (t : Nat) (s : State) : exec (.cbeq a b t) s = execCbeq a b t s := rfl
@[simp] theorem exec_cbne (a : Nat) (b : Nat) (t : Nat) (s : State) : exec (.cbne a b t) s = execCbne a b t s := rfl
@[simp] theorem exec_cblt (a : Nat) (b : Nat) (t : Nat) (s : State) : exec (.cblt a b t) s = execCblt a b t s := rfl
@[simp] theorem exec_cbge (a : Nat) (b : Nat) (t : Nat) (s : State) : exec (.cbge a b t) s = execCbge a b t s := rfl
@[simp] theorem exec_cjmp (t : Nat) (s : State) : exec (.cjmp t) s = execCjmp t s := rfl
@[simp] theorem exec_cend (s : State) : exec (.cend) s = execCend s := rfl
@[simp] theorem exec_carderReadReturn (walk : Nat) (rd : Nat) (s : State) : exec (.carderReadReturn walk rd) s = execCarderReadReturn walk rd s := rfl
@[simp] theorem exec_walkStepLimit (walk : Nat) (s : State) : exec (.walkStepLimit walk) s = execWalkStepLimit walk s := rfl
@[simp] theorem exec_powerOn (s : State) : exec (.powerOn) s = execPowerOn s := rfl
@[simp] theorem exec_coreStart (core : Nat) (s : State) : exec (.coreStart core) s = execCoreStart core s := rfl
@[simp] theorem exec_teamPlacement (die : Nat) (s : State) : exec (.teamPlacement die) s = execTeamPlacement die s := rfl
@[simp] theorem exec_stealRequest (die : Nat) (s : State) : exec (.stealRequest die) s = execStealRequest die s := rfl
@[simp] theorem exec_teamRetirement (team : Nat) (s : State) : exec (.teamRetirement team) s = execTeamRetirement team s := rfl
@[simp] theorem exec_trapEntry (team : Nat) (group : Nat) (s : State) : exec (.trapEntry team group) s = execTrapEntry team group s := rfl
@[simp] theorem exec_timerMatch (team : Nat) (group : Nat) (s : State) : exec (.timerMatch team group) s = execTimerMatch team group s := rfl
@[simp] theorem exec_twaitTimeout (team : Nat) (group : Nat) (slice : Nat) (s : State) : exec (.twaitTimeout team group slice) s = execTwaitTimeout team group slice s := rfl
@[simp] theorem exec_softEvent (team : Nat) (group : Nat) (s : State) : exec (.softEvent team group) s = execSoftEvent team group s := rfl
@[simp] theorem exec_trapDeadlane (team : Nat) (group : Nat) (s : State) : exec (.trapDeadlane team group) s = execTrapDeadlane team group s := rfl
@[simp] theorem exec_mirrorBuild (core : Nat) (row : Nat) (s : State) : exec (.mirrorBuild core row) s = execMirrorBuild core row s := rfl
@[simp] theorem exec_codeFetchReturn (team : Nat) (group : Nat) (slice : Nat) (s : State) : exec (.codeFetchReturn team group slice) s = execCodeFetchReturn team group slice s := rfl
@[simp] theorem exec_translationWalk (team : Nat) (group : Nat) (slice : Nat) (s : State) : exec (.translationWalk team group slice) s = execTranslationWalk team group slice s := rfl
@[simp] theorem exec_pseudoChannelRead (req : Nat) (piece : Nat) (s : State) : exec (.pseudoChannelRead req piece) s = execPseudoChannelRead req piece s := rfl
@[simp] theorem exec_pseudoChannelWrite (req : Nat) (piece : Nat) (s : State) : exec (.pseudoChannelWrite req piece) s = execPseudoChannelWrite req piece s := rfl
@[simp] theorem exec_pseudoChannelAtomic (req : Nat) (piece : Nat) (s : State) : exec (.pseudoChannelAtomic req piece) s = execPseudoChannelAtomic req piece s := rfl
@[simp] theorem exec_writeAcknowledge (req : Nat) (piece : Nat) (s : State) : exec (.writeAcknowledge req piece) s = execWriteAcknowledge req piece s := rfl
@[simp] theorem exec_prefetchIssue (die : Nat) (sector : Nat) (s : State) : exec (.prefetchIssue die sector) s = execPrefetchIssue die sector s := rfl
@[simp] theorem exec_loadSectorLanding (req : Nat) (piece : Nat) (s : State) : exec (.loadSectorLanding req piece) s = execLoadSectorLanding req piece s := rfl
@[simp] theorem exec_atomicReplyLanding (req : Nat) (piece : Nat) (s : State) : exec (.atomicReplyLanding req piece) s = execAtomicReplyLanding req piece s := rfl
@[simp] theorem exec_copySectorLanding (op : Nat) (unit : Nat) (s : State) : exec (.copySectorLanding op unit) s = execCopySectorLanding op unit s := rfl
@[simp] theorem exec_copySectorFault (op : Nat) (unit : Nat) (s : State) : exec (.copySectorFault op unit) s = execCopySectorFault op unit s := rfl
@[simp] theorem exec_gatherEngineRequest (op : Nat) (sector : Nat) (s : State) : exec (.gatherEngineRequest op sector) s = execGatherEngineRequest op sector s := rfl
@[simp] theorem exec_gatherReplyLanding (op : Nat) (s : State) : exec (.gatherReplyLanding op) s = execGatherReplyLanding op s := rfl
@[simp] theorem exec_scatterPositionApply (op : Nat) (pos : Nat) (s : State) : exec (.scatterPositionApply op pos) s = execScatterPositionApply op pos s := rfl
@[simp] theorem exec_appendApply (req : Nat) (s : State) : exec (.appendApply req) s = execAppendApply req s := rfl
@[simp] theorem exec_bumpApply (req : Nat) (s : State) : exec (.bumpApply req) s = execBumpApply req s := rfl
@[simp] theorem exec_outlierListRequest (req : Nat) (s : State) : exec (.outlierListRequest req) s = execOutlierListRequest req s := rfl
@[simp] theorem exec_outlierReply (req : Nat) (s : State) : exec (.outlierReply req) s = execOutlierReply req s := rfl
@[simp] theorem exec_swatchAccessArrival (req : Nat) (s : State) : exec (.swatchAccessArrival req) s = execSwatchAccessArrival req s := rfl
@[simp] theorem exec_swatchLanding (req : Nat) (s : State) : exec (.swatchLanding req) s = execSwatchLanding req s := rfl
@[simp] theorem exec_swatchReplyLanding (req : Nat) (s : State) : exec (.swatchReplyLanding req) s = execSwatchReplyLanding req s := rfl
@[simp] theorem exec_swatchDeliveryArrival (op : Nat) (dest : Nat) (s : State) : exec (.swatchDeliveryArrival op dest) s = execSwatchDeliveryArrival op dest s := rfl
@[simp] theorem exec_swatchDeliveryLanded (op : Nat) (dest : Nat) (s : State) : exec (.swatchDeliveryLanded op dest) s = execSwatchDeliveryLanded op dest s := rfl
@[simp] theorem exec_mmaSegment (op : Nat) (s : State) : exec (.mmaSegment op) s = execMmaSegment op s := rfl
@[simp] theorem exec_tileWordCompletion (op : Nat) (s : State) : exec (.tileWordCompletion op) s = execTileWordCompletion op s := rfl
@[simp] theorem exec_macqGrant (team : Nat) (s : State) : exec (.macqGrant team) s = execMacqGrant team s := rfl
@[simp] theorem exec_macqDeadlockFail (core : Nat) (s : State) : exec (.macqDeadlockFail core) s = execMacqDeadlockFail core s := rfl
@[simp] theorem exec_arrayPowerGate (core : Nat) (quad : Nat) (s : State) : exec (.arrayPowerGate core quad) s = execArrayPowerGate core quad s := rfl
@[simp] theorem exec_preemptionStop (team : Nat) (s : State) : exec (.preemptionStop team) s = execPreemptionStop team s := rfl
@[simp] theorem exec_teamRestore (team : Nat) (s : State) : exec (.teamRestore team) s = execTeamRestore team s := rfl
@[simp] theorem exec_pendingScan (part : Nat) (queue : Nat) (s : State) : exec (.pendingScan part queue) s = execPendingScan part queue s := rfl
@[simp] theorem exec_headPoll (slot : Nat) (s : State) : exec (.headPoll slot) s = execHeadPoll slot s := rfl
@[simp] theorem exec_kernel (slot : Nat) (s : State) : exec (.kernel slot) s = execKernel slot s := rfl
@[simp] theorem exec_cond (slot : Nat) (s : State) : exec (.cond slot) s = execCond slot s := rfl
@[simp] theorem exec_wait (slot : Nat) (s : State) : exec (.wait slot) s = execWait slot s := rfl
@[simp] theorem exec_tokenWaitSatisfied (slot : Nat) (s : State) : exec (.tokenWaitSatisfied slot) s = execTokenWaitSatisfied slot s := rfl
@[simp] theorem exec_signal (slot : Nat) (s : State) : exec (.signal slot) s = execSignal slot s := rfl
@[simp] theorem exec_compact (slot : Nat) (s : State) : exec (.compact slot) s = execCompact slot s := rfl
@[simp] theorem exec_barrier (slot : Nat) (s : State) : exec (.barrier slot) s = execBarrier slot s := rfl
@[simp] theorem exec_sliceExpiry (slot : Nat) (s : State) : exec (.sliceExpiry slot) s = execSliceExpiry slot s := rfl
@[simp] theorem exec_enqRoomRetry (team : Nat) (group : Nat) (slice : Nat) (s : State) : exec (.enqRoomRetry team group slice) s = execEnqRoomRetry team group slice s := rfl
@[simp] theorem exec_watchdogExpiry (slot : Nat) (s : State) : exec (.watchdogExpiry slot) s = execWatchdogExpiry slot s := rfl
@[simp] theorem exec_resetComplete (part : Nat) (s : State) : exec (.resetComplete part) s = execResetComplete part s := rfl
@[simp] theorem exec_wdctlReset (part : Nat) (value : Nat) (s : State) : exec (.wdctlReset part value) s = execWdctlReset part value s := rfl
@[simp] theorem exec_hostAccess (off : Nat) (len : Nat) (data : List Nat) (s : State) : exec (.hostAccess off len data) s = execHostAccess off len data s := rfl
@[simp] theorem exec_hostAtomicop (off : Nat) (op : HostAtomic) (x : Nat) (n : Nat) (wide : Bool) (s : State) : exec (.hostAtomicop off op x n wide) s = execHostAtomicop off op x n wide s := rfl
@[simp] theorem exec_hostCompletionError (req : Nat) (piece : Nat) (s : State) : exec (.hostCompletionError req piece) s = execHostCompletionError req piece s := rfl
@[simp] theorem exec_completionTimeout (req : Nat) (piece : Nat) (s : State) : exec (.completionTimeout req piece) s = execCompletionTimeout req piece s := rfl
@[simp] theorem exec_primaryLinkDown (s : State) : exec (.primaryLinkDown) s = execPrimaryLinkDown s := rfl
@[simp] theorem exec_registerWrite (off : Nat) (size : Nat) (value : Nat) (s : State) : exec (.registerWrite off size value) s = execRegisterWrite off size value s := rfl
@[simp] theorem exec_qcfgWrite (part : Nat) (value : Nat) (s : State) : exec (.qcfgWrite part value) s = execQcfgWrite part value s := rfl
@[simp] theorem exec_ptrootWrite (part : Nat) (value : Nat) (s : State) : exec (.ptrootWrite part value) s = execPtrootWrite part value s := rfl
@[simp] theorem exec_shbaseWrite (part : Nat) (value : Nat) (s : State) : exec (.shbaseWrite part value) s = execShbaseWrite part value s := rfl
@[simp] theorem exec_shsizeWrite (part : Nat) (value : Nat) (s : State) : exec (.shsizeWrite part value) s = execShsizeWrite part value s := rfl
@[simp] theorem exec_tlbinv (part : Nat) (value : Nat) (s : State) : exec (.tlbinv part value) s = execTlbinv part value s := rfl
@[simp] theorem exec_tlbinvComplete (part : Nat) (s : State) : exec (.tlbinvComplete part) s = execTlbinvComplete part s := rfl
@[simp] theorem exec_cluownWrite (cluster : Nat) (value : Nat) (s : State) : exec (.cluownWrite cluster value) s = execCluownWrite cluster value s := rfl
@[simp] theorem exec_ksctlWrite (slot : Nat) (value : Nat) (s : State) : exec (.ksctlWrite slot value) s = execKsctlWrite slot value s := rfl
@[simp] theorem exec_kskey1Write (slot : Nat) (value : Nat) (s : State) : exec (.kskey1Write slot value) s = execKskey1Write slot value s := rfl
@[simp] theorem exec_kskey2Write (slot : Nat) (value : Nat) (s : State) : exec (.kskey2Write slot value) s = execKskey2Write slot value s := rfl
@[simp] theorem exec_bootgo (value : Nat) (s : State) : exec (.bootgo value) s = execBootgo value s := rfl
@[simp] theorem exec_bootCheckComplete (s : State) : exec (.bootCheckComplete) s = execBootCheckComplete s := rfl
@[simp] theorem exec_attcmdGo (value : Nat) (s : State) : exec (.attcmdGo value) s = execAttcmdGo value s := rfl
@[simp] theorem exec_attestationReportWritten (ok : Bool) (s : State) : exec (.attestationReportWritten ok) s = execAttestationReportWritten ok s := rfl
@[simp] theorem exec_alarmpolWrite (value : Nat) (s : State) : exec (.alarmpolWrite value) s = execAlarmpolWrite value s := rfl
@[simp] theorem exec_alarmraise (value : Nat) (s : State) : exec (.alarmraise value) s = execAlarmraise value s := rfl
@[simp] theorem exec_alarmEvent (source : Nat) (die : Nat) (part : Nat) (s : State) : exec (.alarmEvent source die part) s = execAlarmEvent source die part s := rfl
@[simp] theorem exec_modidWrite (value : Nat) (s : State) : exec (.modidWrite value) s = execModidWrite value s := rfl
@[simp] theorem exec_optltoWrite (part : Nat) (value : Nat) (s : State) : exec (.optltoWrite part value) s = execOptltoWrite part value s := rfl
@[simp] theorem exec_clr (die : Nat) (edge : Nat) (mod : Nat) (s : State) : exec (.clr die edge mod) s = execClr die edge mod s := rfl
@[simp] theorem exec_widen (die : Nat) (edge : Nat) (mod : Nat) (s : State) : exec (.widen die edge mod) s = execWiden die edge mod s := rfl
@[simp] theorem exec_linkOff (die : Nat) (edge : Nat) (mod : Nat) (value : Nat) (s : State) : exec (.linkOff die edge mod value) s = execLinkOff die edge mod value s := rfl
@[simp] theorem exec_flitSend (die : Nat) (edge : Nat) (chan : Nat) (s : State) : exec (.flitSend die edge chan) s = execFlitSend die edge chan s := rfl
@[simp] theorem exec_dataFlitReceive (die : Nat) (edge : Nat) (mod : Nat) (crcOk : Bool) (s : State) : exec (.dataFlitReceive die edge mod crcOk) s = execDataFlitReceive die edge mod crcOk s := rfl
@[simp] theorem exec_ackReceive (die : Nat) (edge : Nat) (mod : Nat) (crcOk : Bool) (s : State) : exec (.ackReceive die edge mod crcOk) s = execAckReceive die edge mod crcOk s := rfl
@[simp] theorem exec_nakReceive (die : Nat) (edge : Nat) (mod : Nat) (crcOk : Bool) (s : State) : exec (.nakReceive die edge mod crcOk) s = execNakReceive die edge mod crcOk s := rfl
@[simp] theorem exec_replayTimeout (die : Nat) (edge : Nat) (chan : Nat) (s : State) : exec (.replayTimeout die edge chan) s = execReplayTimeout die edge chan s := rfl
@[simp] theorem exec_ackDelayExpiry (die : Nat) (edge : Nat) (chan : Nat) (s : State) : exec (.ackDelayExpiry die edge chan) s = execAckDelayExpiry die edge chan s := rfl
@[simp] theorem exec_retrainComplete (die : Nat) (edge : Nat) (mod : Nat) (ok : Bool) (laneFail : Bool) (s : State) : exec (.retrainComplete die edge mod ok laneFail) s = execRetrainComplete die edge mod ok laneFail s := rfl
@[simp] theorem exec_edgeHoldExpiry (die : Nat) (edge : Nat) (s : State) : exec (.edgeHoldExpiry die edge) s = execEdgeHoldExpiry die edge s := rfl
@[simp] theorem exec_rtswap (die : Nat) (value : Nat) (s : State) : exec (.rtswap die value) s = execRtswap die value s := rfl
@[simp] theorem exec_routeSwapComplete (die : Nat) (s : State) : exec (.routeSwapComplete die) s = execRouteSwapComplete die s := rfl
@[simp] theorem exec_classSBlockReceive (port : Nat) (seq : Nat) (crcOk : Bool) (s : State) : exec (.classSBlockReceive port seq crcOk) s = execClassSBlockReceive port seq crcOk s := rfl
@[simp] theorem exec_opticalPortDown (port : Nat) (s : State) : exec (.opticalPortDown port) s = execOpticalPortDown port s := rfl
@[simp] theorem exec_classLBlockArrival (port : Nat) (block : LBlock) (crcOk : Bool) (s : State) : exec (.classLBlockArrival port block crcOk) s = execClassLBlockArrival port block crcOk s := rfl
@[simp] theorem exec_classLTimeout (delivery : Nat) (s : State) : exec (.classLTimeout delivery) s = execClassLTimeout delivery s := rfl
@[simp] theorem exec_powerThrottle (draw : Nat) (s : State) : exec (.powerThrottle draw) s = execPowerThrottle draw s := rfl
@[simp] theorem exec_dieTemperature (die : Nat) (temp : Nat) (s : State) : exec (.dieTemperature die temp) s = execDieTemperature die temp s := rfl
@[simp] theorem exec_ageingMeasurement (cluster : Nat) (margin : Nat) (index : Nat) (s : State) : exec (.ageingMeasurement cluster margin index) s = execAgeingMeasurement cluster margin index s := rfl
@[simp] theorem exec_tmsnapGo (die : Nat) (value : Nat) (s : State) : exec (.tmsnapGo die value) s = execTmsnapGo die value s := rfl
@[simp] theorem exec_frozenWrite (die : Nat) (value : Nat) (s : State) : exec (.frozenWrite die value) s = execFrozenWrite die value s := rfl
@[simp] theorem exec_primaryLinkReturn (s : State) : exec (.primaryLinkReturn) s = execPrimaryLinkReturn s := rfl
@[simp] theorem exec_powerOff (s : State) : exec (.powerOff) s = execPowerOff s := rfl
@[simp] theorem exec_paletteSoftError (core : Nat) (row : Nat) (lane : Nat) (fatal : Bool) (s : State) : exec (.paletteSoftError core row lane fatal) s = execPaletteSoftError core row lane fatal s := rfl
@[simp] theorem exec_hbmUncorrectableError (sector : Nat) (s : State) : exec (.hbmUncorrectableError sector) s = execHbmUncorrectableError sector s := rfl
@[simp] theorem exec_invRound (team : Nat) (group : Nat) (slice : Nat) (s : State) : exec (.invRound team group slice) s = execInvRound team group slice s := rfl
@[simp] theorem exec_flushingReadCompletion (req : Nat) (s : State) : exec (.flushingReadCompletion req) s = execFlushingReadCompletion req s := rfl
@[simp] theorem exec_opticalBlockSend (port : Nat) (s : State) : exec (.opticalBlockSend port) s = execOpticalBlockSend port s := rfl

end Sys2Proof.Machine
end

