-- ==== Sys2Proof/Laws/Words.lean ====
section
/-! SUPPORT. What the writes of reductions, conversions, barriers and swaps leave alone, and reads of sound barriers. -/

namespace Sys2Proof.Machine

open Sys2Proof

theorem putRed_teams (s : State) (c : Ctx) (bs d : Nat) (v : Word) : (s.putRed c bs d v).teams = s.teams := by
  unfold State.putRed; split <;> simp

theorem putCvt_teams (s : State) (a b c d e f : Nat) : (s.putCvt a b c d e f).teams = s.teams := by
  unfold State.putCvt; split <;> simp

/-- A sound element is read as it stands. -/
theorem readElem_sound {s : State} {core row lane : Nat} (h : (palGet s.pal core row lane).ecc = .sound) : s.readElem core row lane = (s, some (palGet s.pal core row lane), false) := by
  unfold State.readElem
  simp only
  rw [h]

/-- Reading a sound barrier changes nothing. -/
theorem readBarrier_sound {s : State} {c : Ctx} {n : Nat} (h : c.soundBarrier s n = true) : s.readBarrier c.t n = s := by
  unfold State.readBarrier
  simp only [Ctx.soundBarrier, List.all_eq_true, decide_eq_true_eq] at h
  suffices ∀ ls : List Nat, (∀ j ∈ ls, (palGet s.pal c.t.core (c.t.barRow n) (4 * (n % 8) + j)).ecc = .sound) → ls.foldl (fun s j =>
    match s.readElem c.t.core (c.t.barRow n) (4 * (n % 8) + j) with
    | (s1, some _, false) => s1
    | (s1, some _, true) => s1.softTeam c.t.id 0 0
    | (s1, none, _) => s1.kill c.t.id 0 0x16 0 0 0 0) s = s from this _ h
  intro ls hl
  induction ls with
  | nil => rfl
  | cons a r ih =>
    rw [List.foldl_cons, readElem_sound (hl a (by simp))]
    exact ih (fun j hj => hl j (by simp [hj]))

/-- So a change of a sound barrier is that change, and with a new phase the locks held for it are released (R55). -/
theorem modBarrier_sound {s : State} {c : Ctx} {n : Nat} (h : s.issues c) (hs : c.soundBarrier s n = true) (f : Barrier → Barrier) :
    s.modBarrier c.t.id n f = s.barrierTo c.t n f := by
  unfold State.modBarrier
  rw [h.group.1]
  simp only [readBarrier_sound hs]
  rfl

theorem calm_modTeam {s : State} {c : Ctx} (h : s.calm c) {f : Team → Team} (hi : ∀ t, (f t).id = t.id) (hg : ∀ t, (f t).groups = t.groups) : (s.modTeam c.t.id f).calm c := by
  unfold State.modTeam
  split
  · next t ht =>
    obtain ⟨g, hg', h0⟩ := h
    refine ⟨g, ?_, h0⟩
    have := State.team?_putTeam (u := f t) ht ((hi t).trans (team?_id ht))
    simp only [State.group?, ht, this, Option.bind_some] at hg' ⊢
    simpa [Team.group?, hg] using hg'
  · exact h

/-- A barrier that changes leaves its group calm. -/
theorem calm_barrierTo {s : State} {c : Ctx} (h : s.calm c) (n : Nat) (f : Barrier → Barrier) : (s.barrierTo c.t n f).calm c := by
  have h1 := calm_modTeam h (f := fun t => { t with barriers := t.barriers.modify n f }) (fun _ => rfl) (fun _ => rfl)
  unfold State.barrierTo
  dsimp only
  split
  · exact h1
  · exact calm_of_teams h1 rfl

theorem exch_teams (s : State) (a b d : Nat) : (s.exchangeRows a b d).teams = s.teams := by
  unfold State.exchangeRows; dsimp only; split <;> rfl

theorem unhold_teams (s : State) (team n : Nat) : (s.unhold team n).teams = s.teams := rfl

theorem swapBanks_teams (s : State) (e : SwEntry) : (s.swapBanks e).teams = s.teams := by
  unfold State.swapBanks
  dsimp only
  split
  · suffices ∀ (ls : List Nat) (f g : Nat → Nat) (k : Nat) (s : State), (ls.foldl (fun s i => s.exchangeRows k (f i) (g i)) s).teams = s.teams from this _ _ _ _ _
    intro ls f g k
    induction ls with
    | nil => intro s; rfl
    | cons a r ih => intro s; rw [List.foldl_cons, ih, exch_teams]
  · rfl

/-- There is a MARK for `brk n` where the stack holds more than n of them (R68). -/
theorem brkStack_some (b : BitVec 4) : ∀ (l : List Token) (n : Nat), n < (l.filter (fun t => t.isMark)).length → (brkStack b n l).isSome = true
  | [], n, h => by simp at h
  | t :: r, n, h => by
    unfold brkStack
    cases ht : t.isMark
    · simp only [if_true, Option.isSome_map]
      exact brkStack_some b r n (by simpa [List.filter_cons, ht] using h)
    · cases n with
      | zero => simp
      | succ m =>
        simp only [Option.isSome_map, if_neg (by simp : ¬ (true = false))]
        exact brkStack_some b r m (by simpa [List.filter_cons, ht] using h)

end Sys2Proof.Machine
end

