-- ==== Sys2Proof/Laws/Engine.lean ====
section
/-! SUPPORT. The checks of engine words pass where the statements' hypotheses hold, and what starting an operation leaves alone. -/

namespace Sys2Proof.Machine

open Sys2Proof

/-- A check that passed goes on with its value. (Rewrite with it rather than unfold the bind: the kernel then stays shallow.) -/
theorem ok_bind {α β : Type} (x : α) (f : α → Except Stop β) : (Except.ok x >>= f) = f x := Eq.trans (rfl : _ = f x) rfl

theorem chkBar_ok {c : Ctx} {n : Nat} (h : n < c.t.kernel.bars) : c.chkBar n = .ok () := by unfold Ctx.chkBar; rw [if_pos h]

theorem ready_app {c : Ctx} {s : State} {a b : List Use} : c.ready s (a ++ b) = true ↔ c.ready s a = true ∧ c.ready s b = true := by
  simp [Ctx.ready, List.all_append]

theorem ready_of_all {c : Ctx} {s : State} {us vs : List Use} (h : c.ready s us = true) (hs : ∀ v ∈ vs, v ∈ us) : c.ready s vs = true :=
  Ctx.ready_iff.mpr (fun v hv => Ctx.ready_iff.mp h v (hs v hv))

/-- Operands that are ready pass the four checks one by one. -/
theorem chk4 {c : Ctx} {s : State} {us : List Use} (hr : c.ready s us = true) : c.chkBound us = .ok () ∧ c.chkUninit us = .ok () ∧ c.chkPend s us = .ok () ∧ c.chkLock s us = .ok () := by
  have h := Ctx.ready_iff.mp hr
  have all : ∀ f : Use → Option Stop, (∀ u ∈ us, f u = none) → firstStop (us.map f) = .ok () := fun f hf =>
    firstStop_ok (by simpa using hf)
  exact ⟨all _ (fun u hu => by simp [(h u hu).1]), all _ (fun u hu => Ctx.uninit_none (h u hu).2.1), all _ (fun u hu => Ctx.pend_none (h u hu).2.2.1), all _ (fun u hu => Ctx.locked_none (h u hu).2.2.2)⟩

theorem chkRoom_ok {s : State} {core n : Nat} (h : s.opCount core < 64) (h1 : s.lockRoom core n = true) : chkRoom s core n = .ok () := by
  unfold chkRoom; rw [if_neg (by omega), if_neg (by simp [h1])]

/-- A range of rows that is clear passes its checks. -/
theorem clear_iff {r : RowRange} {s : State} {t : Team} : r.clear s t = true ↔ r.chkBound t = none ∧ r.chkPend s t = none ∧ r.chkLock s t = none := by
  simp [RowRange.clear, and_assoc]

/-- An operation started on a sound barrier leaves its group calm. -/
theorem launch_sound {s : State} {c : Ctx} {o : Op} {ls : List Lock} {m n : Nat} (h : s.issues c) (hb : c.soundBarrier s n = true) (ho : o.bar = some n) : (s.launch c o ls m).calm c := by
  unfold State.launch
  dsimp only
  rw [ho]
  refine calm_modG (f := fun g => { g with openOps := g.openOps ++ [s.nextId] }) ?_ (fun _ => rfl) (fun _ => rfl)
  have : ∀ t : State, t.pal = s.pal → t.teams = s.teams → (t.modBar c.t.id (some n) (fun b => b.begin_ m)).calm c := by
    intro t hp ht
    unfold State.modBar State.modBarrier
    have h2 : t.team? c.t.id = some c.t := by unfold State.team?; rw [ht]; exact h.group.1
    rw [h2]
    have hb' : c.soundBarrier t n = true := by unfold Ctx.soundBarrier at hb ⊢; rw [hp]; exact hb
    simp only [readBarrier_sound hb']
    exact calm_barrierTo (calm_of_teams h.calm ht) n (fun b => b.begin_ m)
  exact this _ rfl rfl

/-- An address found in memory is served. -/
theorem served_at {c : Ctx} {s : State} {z r va pa tag : Nat} (h : c.locate s va z r = .at_ pa tag) :
    c.served s true z r va = true := by
  unfold Ctx.served; rw [h]; rfl

theorem one_served {c : Ctx} {s : State} {z r va pa tag : Nat} (h : c.locate s va z r = .at_ pa tag) :
    ∀ a ∈ [oneAccess va], c.served s true z r a.va = true := by
  intro a ha; rw [List.mem_singleton.mp ha]; exact served_at h

theorem one_places {c : Ctx} {s : State} {z r va pa tag : Nat} (h : c.locate s va z r = .at_ pa tag) : c.places s z r [oneAccess va] = [(oneAccess va, .at_ pa tag)] := by
  unfold Ctx.places
  rw [List.map_cons, List.map_nil, show (oneAccess va).va = va from rfl, h]

theorem one_align {z va : Nat} {wr : Bool} (h : va % z = 0) : chkAlign wr z [oneAccess va] = .ok () :=
  chkAlign_ok (by intro a ha; rw [List.mem_singleton.mp ha]; exact h)

theorem one_memLock {c : Ctx} {s : State} {z va : Nat} {wr sc : Bool} (h : s.memLockSub c.t.id va z wr = 0) : c.chkMemLock s wr sc z [oneAccess va] = .ok () :=
  chkMemLock_ok (by intro a ha; rw [List.mem_singleton.mp ha]; exact h)

theorem mem_insertBy {α : Type} (f : α → α → Bool) (x y : α) (l : List α) : y ∈ insertBy f x l ↔ y = x ∨ y ∈ l := by
  induction l with
  | nil => simp [insertBy]
  | cons a r ih =>
    unfold insertBy
    split
    · simp only [List.mem_cons, ih]; tauto
    · simp [List.mem_cons]

/-- Sorting keeps the members. -/
theorem mem_sortBy {α : Type} (f : α → α → Bool) (l : List α) (y : α) : y ∈ sortBy f l ↔ y ∈ l := by
  unfold sortBy
  induction l with
  | nil => simp
  | cons a r ih => rw [List.foldr_cons, mem_insertBy, ih, List.mem_cons]

theorem engineElem_sound {s : State} {o : Op} {core row lane sp num : Nat} (h : (palGet s.pal core row lane).ecc = .sound) :
    s.engineElem o core row lane sp num = (s, some (palGet s.pal core row lane).val) := by
  unfold State.engineElem; rw [readElem_sound h]

/-- Sound index elements are read as they stand. -/
theorem readIndex_sound {s : State} {o : Op} {t : Team} {f : GatherForm} {m : Nat}
    (h : ∀ i < m, (palGet s.pal t.core (t.rowAt false o.group (f.i + i / 32)) (i % 32)).ecc = .sound) :
    s.readIndex o t f m = (s, (List.range m).map (fun i => (palGet s.pal t.core (t.rowAt false o.group (f.i + i / 32)) (i % 32)).val.toNat)) := by
  unfold State.readIndex
  suffices ∀ (l : List Nat) (acc : List Nat), (∀ i ∈ l, i < m) → l.foldl (fun (acc : State × List Nat) k =>
      match acc.1.engineElem o t.core (t.rowAt false o.group (f.i + k / 32)) (k % 32) 0 (f.i + k / 32) with
      | (s1, some w) => (s1, acc.2 ++ [w.toNat])
      | (s1, none) => (s1, acc.2 ++ [lostIndex])) (s, acc) =
      (s, acc ++ l.map (fun i => (palGet s.pal t.core (t.rowAt false o.group (f.i + i / 32)) (i % 32)).val.toNat)) by
    exact (this (List.range m) [] (fun i hi => List.mem_range.mp hi)).trans (by rw [List.nil_append])
  intro l
  induction l with
  | nil => intro acc _; simp
  | cons a r ih =>
    intro acc ha
    rw [List.foldl_cons, engineElem_sound (h a (ha a (by simp)))]
    rw [ih _ (fun i hi => ha i (by simp [hi]))]
    simp

/-- Reading sound source elements changes nothing. -/
theorem readSource_fst {s : State} {o : Op} {t : Team} {f : GatherForm} {m : Nat}
    (h : ∀ i < cdiv (m * f.esz) 4, (palGet s.pal t.core (t.rowAt f.w o.group (f.d + i / 32)) (i % 32)).ecc = .sound) :
    (s.readSource o t f m).1 = s := by
  unfold State.readSource
  dsimp only
  suffices ∀ (l : List Nat) (acc : List (Option Word)), (∀ i ∈ l, i < cdiv (m * f.esz) 4) → (l.foldl (fun (acc : State × List (Option Word)) e =>
      ((acc.1.engineElem o t.core (t.rowAt f.w o.group (f.d + e / 32)) (e % 32) (if f.w then 2 else 0) (f.d + e / 32)).1,
        acc.2 ++ [(acc.1.engineElem o t.core (t.rowAt f.w o.group (f.d + e / 32)) (e % 32) (if f.w then 2 else 0) (f.d + e / 32)).2])) (s, acc)).1 = s by
    exact this (List.range _) [] (by simp)
  intro l
  induction l with
  | nil => intro acc _; simp
  | cons a r ih =>
    intro acc ha
    rw [List.foldl_cons, engineElem_sound (h a (ha a (by simp)))]
    exact ih _ (fun i hi => ha i (by simp [hi]))

/-- What an offered packet does whose queue can be read: it is submitted and its word completes, or it waits for the way to the queue or
for room, or its word says that there is none. -/
theorem offer_some {s w : State} {c : Ctx} {p q : Nat} {ws : List Nat} {x : QEntry} (hqe : s.qentry c.t.part q = (w, some x)) :
    s.offer c p (q :: ws) = if w.held = true then .error (.wait (.room .route)) else if x.room = true then
        (if (w.submit c.t.part q x ws).held = true then .error (.wait (.room .route))
        else .ok (((if p = 7 then w.submit c.t.part q x ws else (w.submit c.t.part q x ws).putPred c p (fun _ => true)).adv c 1).ready c))
      else if p = 7 then (if s.cur.chain = true then .error (.wait (.enqRoom (q :: ws))) else .ok (w.hold c (.enqRoom (q :: ws))))
      else .ok (((w.putPred c p (fun _ => false)).adv c 1).ready c) := by
  unfold State.offer
  simp only [List.headD_cons, List.drop_succ_cons, List.drop_zero, hqe, Option.map_some, Option.getD_some]

@[simp] theorem modTeam_cur (s : State) (t : Nat) (f) : (s.modTeam t f).cur = s.cur := by
  unfold State.modTeam; split <;> rfl

theorem modG_next (s : State) (c : Ctx) (f) : (s.modG c f).nextId = s.nextId ∧ (s.modG c f).swreqs = s.swreqs := by
  unfold State.modG State.modGroup State.putGroup; split
  · split <;> exact ⟨rfl, rfl⟩
  · exact ⟨rfl, rfl⟩

theorem modTeam_next (s : State) (t : Nat) (f) : (s.modTeam t f).nextId = s.nextId ∧ (s.modTeam t f).swreqs = s.swreqs := by
  unfold State.modTeam; split <;> exact ⟨rfl, rfl⟩

theorem foldl_teams {α : Type} {f : State → α → State} (h : ∀ s a, (f s a).teams = s.teams) (l : List α) (s : State) :
    (l.foldl f s).teams = s.teams := by
  induction l generalizing s with
  | nil => rfl
  | cons a r ih => rw [List.foldl_cons, ih, h]

theorem engineRow_teams (s : State) (a b : Nat) (l) : (s.engineRow a b l).teams = s.teams := foldl_teams (fun _ _ => by simp) _ _

theorem startWalk_teams (s : State) (t : Team) (o : Op) (x : Nat) : (s.startWalk t o x).teams = s.teams := rfl

end Sys2Proof.Machine
end

