-- ==== Sys2Proof/Laws/Lane.lean ====
section
/-! SUPPORT. Indexed Palette access and lane exchange: the checks that pass, the touches and what they read. -/

namespace Sys2Proof.Machine

open Sys2Proof

/-- Row writes that agree on the live active lanes are the same. -/
theorem putRow_congr {s : State} {c : Ctx} {n : Nat} {f g : Nat → Word} (h : ∀ l ∈ c.lanes, f l = g l) : s.putRow c n f = s.putRow c n g := by
  unfold State.putRow
  suffices ∀ ls : List Nat, (∀ l ∈ ls, f l = g l) → ∀ s : State, ls.foldl (fun s l => s.putElem c.t.core (c.g.vecRow n) l (Elem.of (f l))) s = ls.foldl (fun s l => s.putElem c.t.core (c.g.vecRow n) l (Elem.of (g l))) s from this _ h s
  intro ls
  induction ls with
  | nil => intros; rfl
  | cons a r ih =>
    intro h s
    rw [List.foldl_cons, List.foldl_cons, h a (by simp)]
    exact ih (fun l hl => h l (by simp [hl])) _

theorem setPred_congr {g : Group} {p : Nat} {ls : List Nat} {f h : Nat → Bool} (e : ∀ l ∈ ls, f l = h l) : g.setPred p ls f = g.setPred p ls h := by
  unfold Group.setPred
  have : (fun r : BitVec 32 => ls.foldl (fun a l => if f l then a ||| BitVec.ofNat 32 (2 ^ l) else a &&& ~~~ BitVec.ofNat 32 (2 ^ l)) r) = (fun r => ls.foldl (fun a l => if h l then a ||| BitVec.ofNat 32 (2 ^ l) else a &&& ~~~ BitVec.ofNat 32 (2 ^ l)) r) := by
    funext r
    induction ls generalizing r with
    | nil => rfl
    | cons a t ih =>
      rw [List.foldl_cons, List.foldl_cons, e a (by simp)]
      exact ih (fun l hl => e l (by simp [hl])) _
  rw [this]

theorem putPred_congr {s : State} {c : Ctx} {p : Nat} {f h : Nat → Bool} (e : ∀ l ∈ c.lanes, f l = h l) : s.putPred c p f = s.putPred c p h := by
  unfold State.putPred
  congr 1; funext g; exact setPred_congr e

/-- What it is for a touch to be reachable. -/
theorem reach_iff {c : Ctx} {s : State} {wr : Bool} {t : Touch} : c.reachable s wr t = true ↔
    (wr = true ∨ (c.touched t).good = true) ∧ (match t.loc with | .v n => s.rowPending c.t.id c.g.num n = false | _ => True) ∧
    s.destLocked c.t.core (c.rowOf t.loc) = false ∧ (wr = false ∨ s.srcLocked c.t.core (c.rowOf t.loc) = false) := by
  unfold Ctx.reachable
  cases t.loc <;> simp [and_assoc]

theorem touchStop_nil {code sub opnd : Nat} : touchStop code sub opnd [] = none := rfl

/-- Indexed words whose operands and touches are in order pass every check. -/
theorem chkIndexed_ok {c : Ctx} {s : State} {us : List Use} {bounds : List (Option Stop)} {wr : Bool} {ts : List Touch}
    (hr : c.ready s us = true) (hb : ∀ x ∈ bounds, x = none)
    (ht : ∀ t ∈ ts, c.reachable s wr t = true) : c.chkIndexed s us bounds wr ts = .ok () := by
  have h := Ctx.ready_iff.mp hr
  have all : ∀ (l : List Use) (f : Use → Option Stop), (∀ u ∈ l, f u = none) → firstStop (l.map f) = .ok () := fun l f hf =>
    firstStop_ok (by simpa using hf)
  have h1 : c.chkBound us = .ok () := all _ _ (fun u hu => by simp [(h u hu).1])
  have h2 : c.chkUninit us = .ok () := all _ _ (fun u hu => Ctx.uninit_none (h u hu).2.1)
  have h3 : c.chkPend s us = .ok () := all _ _ (fun u hu => Ctx.pend_none (h u hu).2.2.1)
  have h4 : c.chkLock s us = .ok () := all _ _ (fun u hu => Ctx.locked_none (h u hu).2.2.2)
  have h5 : (if wr then none else c.touchUninit ts) = none := by
    cases hw : wr
    · have : ts.filter (fun t => !(c.touched t).valid) = [] := List.filter_eq_nil_iff.mpr (fun t hm => by
        have := (reach_iff.mp (ht t hm)).1
        simp only [hw, Bool.false_eq_true, false_or] at this
        simp [(Elem.good_iff.mp this).2])
      simp [Ctx.touchUninit, this, touchStop_nil]
    · rfl
  have h6 : c.touchPend s wr ts = none := by
    have : ts.filter (fun t => match t.loc with
        | .v n => s.rowPending c.t.id c.g.num n
        | _ => false) = [] := List.filter_eq_nil_iff.mpr (fun t hm => by
      have := (reach_iff.mp (ht t hm)).2.1
      cases hl : t.loc <;> simp_all)
    unfold Ctx.touchPend
    exact (congrArg (touchStop 5 1 (touchOpnd wr)) this).trans rfl
  have h7 : c.touchLock s wr ts = none := by
    have : ts.filter (fun t => s.destLocked c.t.core (c.rowOf t.loc) || (wr && s.srcLocked c.t.core (c.rowOf t.loc))) = [] :=
      List.filter_eq_nil_iff.mpr (fun t hm => by
        obtain ⟨-, -, h1, h2⟩ := reach_iff.mp (ht t hm)
        rcases h2 with h2 | h2 <;> simp [h1, h2])
    unfold Ctx.touchLock
    rw [this]
  simp [Ctx.chkIndexed, h1, h2, h3, h4, h5, h6, h7, firstStop_ok hb, firstStop_ok (l := [none]) (by simp), bind, Except.bind]

/-- What they read is sound. -/
theorem touchRefs_sound {c : Ctx} {s : State} {us : List Use} {ts : List Touch} (h : s.issues c) (hr : c.ready s us = true) (ht : ∀ t ∈ ts, c.reachable s false t = true) :
    ∀ r ∈ c.refs us ++ c.touchRefs ts, (palGet (s.view c.t.core) c.t.core r.row r.lane).ecc = .sound := by
  intro r hm
  rw [List.mem_append] at hm
  rcases hm with hm | hm
  · exact Ctx.refs_sound h.group.2.2.2 hr r hm
  · obtain ⟨t, ht', rfl⟩ := List.mem_map.mp hm
    have := (reach_iff.mp (ht t ht')).1
    simp only [Bool.false_eq_true, false_or] at this
    have := (Elem.good_iff.mp this).1
    simpa [Ctx.touched, h.group.2.2.2] using this

theorem rowBound_none {c : Ctx} {wr : Bool} {w i : Nat} {off : Int} (h : ∀ l ∈ c.lanes, 0 ≤ c.idxRow i off l ∧ c.idxRow i off l < (c.idxLim w : Int)) : c.rowBound wr w i off = none := by
  have : (c.named i).filter (fun l => decide (c.idxRow i off l < 0) || decide ((c.idxLim w : Int) ≤ c.idxRow i off l)) = [] :=
    List.filter_eq_nil_iff.mpr (fun l hl => by have := h l (List.mem_of_mem_filter hl); simp; omega)
  unfold Ctx.rowBound
  rw [this]

theorem laneBound_none {c : Ctx} {j : Nat} (h : ∀ l ∈ c.lanes, (c.vec j l).toNat < (if c.t.prot then 16 else 32)) : c.laneBound j = none := by
  have : (c.named j).filter (fun l => decide ((if c.t.prot then 16 else 32) ≤ (c.vec j l).toNat)) = [] :=
    List.filter_eq_nil_iff.mpr (fun l hl => by have := h l (List.mem_of_mem_filter hl); simp only [decide_eq_true_eq]; omega)
  unfold Ctx.laneBound
  rw [this]; rfl

theorem own_eq {c : Ctx} {w i : Nat} {off : Int} (h : ∀ l ∈ c.lanes, 0 ≤ c.idxRow i off l ∧ c.idxRow i off l < (c.idxLim w : Int)) :
    c.ownTouches w i off = c.lanes.map (fun l => ⟨l, idxLoc w (c.idxRow i off l).toNat, l⟩) := by
  unfold Ctx.ownTouches
  rw [← List.filterMap_eq_map]
  apply List.filterMap_congr
  intro l hl
  simp [h l hl]

/-- The touch of a lane among the touches of all lanes. -/
theorem find_touch {ls : List Nat} {l : Nat} (hl : l ∈ ls) (f : Nat → Option Touch) (hf : ∀ k t, f k = some t → t.lane = k) :
    (ls.filterMap f).find? (fun t => t.lane == l) = f l := by
  induction ls with
  | nil => simp at hl
  | cons a r ih =>
    rw [List.filterMap_cons]
    by_cases ha : a = l
    · subst ha
      cases hfa : f a with
      | none =>
        simp only
        by_cases hr : a ∈ r
        · rw [ih hr, hfa]
        · rw [List.find?_eq_none]
          intro t ht
          obtain ⟨k, hk, hkt⟩ := List.mem_filterMap.mp ht
          have := hf k t hkt
          simp only [this, beq_iff_eq]
          rintro rfl; exact hr hk
      | some t => simp [hf a t hfa]
    · have hr : l ∈ r := by simpa [Ne.symm ha] using hl
      cases hfa : f a with
      | none => exact ih hr
      | some t =>
        simp only
        rw [List.find?_cons_of_neg (by simp [hf a t hfa, ha])]
        exact ih hr

theorem touchVal_eq {c : Ctx} {l : Nat} (hl : l ∈ c.lanes) (f : Nat → Option Touch) (hf : ∀ k t, f k = some t → t.lane = k) :
    c.touchVal (c.lanes.filterMap f) l = (f l).map (fun t => (c.touched t).val) := by
  rw [Ctx.touchVal, find_touch hl f hf]

theorem putTouches_teams (s : State) (c : Ctx) (ts : List Touch) (f : Nat → Word) : (s.putTouches c ts f).teams = s.teams := by
  unfold State.putTouches
  induction ts generalizing s with
  | nil => rfl
  | cons a r ih => simp [ih]

end Sys2Proof.Machine
end

