-- ==== Sys2Proof/Laws/Shapes.lean ====
section
/-! SUPPORT. One lemma for each shape of word: what it answers when its operands are ready. -/

namespace Sys2Proof.Machine

open Sys2Proof

variable {s : State} {c : Ctx}

theorem scal1_next (h : s.issues c) {d b : Nat} (hr : c.ready s [rdS b 1, wrS d] = true) (f : Word → Word) :
    scal1 s d b f = .next ((s.putScal c d (f (c.scal b))).adv c 1) := direct_write h hr (by simp)

theorem scal2_next (h : s.issues c) {d b : Nat} (hr : c.ready s [rdS b 1, rwS d] = true) (f : Word → Word → Word) :
    scal2 s d b f = .next ((s.putScal c d (f (c.scal d) (c.scal b))).adv c 1) := direct_write h hr (by simp)

theorem long2_next (h : s.issues c) {d b : Nat} (hr : c.ready s [rdS b 1, rdS (b + 1) 1, rwS d, rwS (d + 1)] = true)
    (f : Long → Long → Long) : long2 s d b f = .next ((s.putPair c d (f (c.long d) (c.long b)).toNat).adv c 1) :=
  direct_write h hr (by simp)

theorem longShift_next (h : s.issues c) {d b : Nat} (hr : c.ready s [rdS b 1, rwS d, rwS (d + 1)] = true)
    (f : Long → Nat → Long) : longShift s d b f = .next ((s.putPair c d (f (c.long d) (c.scal b).toNat).toNat).adv c 1) :=
  direct_write h hr (by simp)

theorem scalI_next (h : s.issues c) {d : Nat} {i : Imm} (hr : c.ready s [rwS d] = true) (v : Word) (f : Word → Word → Word) :
    scalI s d i v f = .next ((s.putScal c d (f (c.scal d) v)).adv c (immSlots i)) := direct_write h hr (by simp)

/-- A direct word that writes a constant scalar, or pair, of the context. -/
theorem directScal_next (h : s.issues c) {us : List Use} {d k : Nat} (hr : c.ready s us = true) (v : Ctx → Word) :
    direct s us k (fun c s => s.putScal c d (v c)) = .next ((s.putScal c d (v c)).adv c k) :=
  direct_write (act := fun c s => s.putScal c d (v c)) h hr (by simp)

theorem directPair_next (h : s.issues c) {us : List Use} {d k : Nat} (hr : c.ready s us = true) (v : Ctx → Nat) :
    direct s us k (fun c s => s.putPair c d (v c)) = .next ((s.putPair c d (v c)).adv c k) :=
  direct_write (act := fun c s => s.putPair c d (v c)) h hr (by simp)

/-- A direct word that writes a vector row. -/
theorem directRow_next (h : s.issues c) {us : List Use} {d k : Nat} (hr : c.ready s us = true) (v : Ctx → Nat → Word) :
    direct s us k (fun c s => s.putRow c d (v c)) = .next ((s.putRow c d (v c)).adv c k) :=
  direct_write (act := fun c s => s.putRow c d (v c)) h hr (by simp)

/-- A direct word that writes a predicate. -/
theorem directPred_next (h : s.issues c) {us : List Use} {p k : Nat} (hr : c.ready s us = true) (v : Ctx → Nat → Bool) :
    direct s us k (fun c s => s.putPred c p (v c)) = .next ((s.putPred c p (v c)).adv c k) :=
  direct_group (f := fun c g => g.setPred p c.lanes (v c)) h hr rfl rfl

theorem vec2_next (h : s.issues c) {d a bs b : Nat} (hr : c.ready s [rdV a 0, rdB bs b, wrV d] = true) (f : Word → Word → Word) :
    vec2 s d a bs b f = .next ((s.putRow c d (fun l => f (c.vec a l) (c.opB bs b l))).adv c 1) := directRow_next h hr _

theorem vecI_next (h : s.issues c) {d a : Nat} {i : Imm} (hr : c.ready s [rdV a 0, wrV d] = true) (v : Word)
    (f : Word → Word → Word) : vecI s d a i v f = .next ((s.putRow c d (fun l => f (c.vec a l) v)).adv c (immSlots i)) :=
  directRow_next h hr _

theorem float1_next (h : s.issues c) {d a : Nat} (hr : c.ready s [rdV a 0, wrV d] = true) (f : Nat → Word → Word) :
    float1 s d a f = .next ((s.putRow c d (fun l => f c.g.mode (c.vec a l))).adv c 1) := directRow_next h hr _

theorem float2_next (h : s.issues c) {d a bs b : Nat} (hr : c.ready s [rdV a 0, rdB bs b, wrV d] = true)
    (f : Nat → Word → Word → Word) :
    float2 s d a bs b f = .next ((s.putRow c d (fun l => f c.g.mode (c.vec a l) (c.opB bs b l))).adv c 1) :=
  directRow_next h hr _

theorem float3_next (h : s.issues c) {d a bs b : Nat} (hr : c.ready s [rdV a 0, rdB bs b, ⟨.v d, 2, true, true⟩] = true)
    (f : Nat → Word → Word → Word → Word) :
    float3 s d a bs b f = .next ((s.putRow c d (fun l => f c.g.mode (c.vec a l) (c.opB bs b l) (c.vec d l))).adv c 1) :=
  directRow_next h hr _

theorem vcmp_next (h : s.issues c) {cc t p a bs b : Nat} (hr : c.ready s [rdV a 0, rdB bs b] = true) :
    vcmp s cc t p a bs b = .next ((s.putPred c p (fun l => cmpTy t cc (c.vec a l) (c.opB bs b l))).adv c 1) :=
  directPred_next h hr _

theorem pred2_next (h : s.issues c) {d a b : Nat} (f : Bool → Bool → Bool) :
    pred2 s d a b f = .next ((s.putPred c d (fun l => f (c.g.pred a l) (c.g.pred b l))).adv c 1) := directPred_next h rfl _

end Sys2Proof.Machine
end

