-- ==== Sys2Proof/Laws/Stream.lean ====
section
/-! SUPPORT. Matrix-stream and Carder words: how a word completes, and which checks pass. -/

namespace Sys2Proof.Machine

open Sys2Proof

/-- A stream word whose body answers `t` takes the machine to `t`. -/
theorem sword_next {s t : State} {c : SCtx} {body : SCtx → Except StreamStop State} (h : s.runsStream c) (hb : body c = .ok t) :
    sword s body = .next t := by
  unfold sword
  rw [show s.sctx? = some c from h]
  simp [hb, State.streamEnds]

theorem chkQ_ok {c : SCtx} {l : List Nat} (h : ∀ n ∈ l, c.st.valid n = true) : c.chkQ l = .ok () := by
  unfold SCtx.chkQ
  have : l.find? (fun n => decide (n < 64) && !c.st.valid n) = none := by
    rw [List.find?_eq_none]; intro n hn; simp [h n hn]
  rw [this]

theorem holds_iff {c : SCtx} {l : List Nat} : c.holds l = true ↔ ∀ n ∈ l, c.st.valid n = true := by
  simp [SCtx.holds]

theorem modStream_put (s : State) (team n v : Nat) : s.modStream team (fun st => st.put n (v % 2 ^ 32)) = s.modStream team (fun st => st.put n v) := by
  have : (fun st : Stream => st.put n (v % 2 ^ 32)) = (fun st => st.put n v) := by
    funext st; simp only [Stream.put, Nat.mod_mod]
  rw [this]

theorem putQ_mod (s : State) (c : SCtx) (n v : Nat) : s.putQ c n (v % 2 ^ 32) = s.putQ c n v := modStream_put _ _ _ _

theorem sreadBarrier {s : State} {c : SCtx} {n : Nat} (h : c.soundBarrier s n = true) : s.readBarrier c.t n = s := by
  unfold State.readBarrier
  simp only [SCtx.soundBarrier, Bool.and_eq_true, List.all_eq_true, decide_eq_true_eq] at h
  suffices ∀ ls : List Nat, (∀ j ∈ ls, (palGet s.pal c.t.core (c.t.barRow n) (4 * (n % 8) + j)).ecc = .sound) → ls.foldl (fun s j =>
    match s.readElem c.t.core (c.t.barRow n) (4 * (n % 8) + j) with
    | (s1, some _, false) => s1
    | (s1, some _, true) => s1.softTeam c.t.id 0 0
    | (s1, none, _) => s1.kill c.t.id 0 0x16 0 0 0 0) s = s from this _ h.2
  intro ls hl
  induction ls with
  | nil => rfl
  | cons a r ih =>
    rw [List.foldl_cons, readElem_sound (hl a (by simp))]
    exact ih (fun j hj => hl j (by simp [hj]))

theorem sctx_team {s : State} {c : SCtx} (h : s.runsStream c) : s.team? c.t.id = some c.t ∧ c.t.stream = some c.st := by
  unfold State.runsStream State.sctx? at h
  split at h
  · next team _ =>
    simp only [Option.bind_eq_some_iff, Option.map_eq_some_iff] at h
    obtain ⟨t, ht, st, hst, rfl⟩ := h
    exact ⟨by rw [team?_id ht]; exact ht, hst⟩
  · simp at h

theorem chkBarS {s : State} {c : SCtx} {n : Nat} (h : c.soundBarrier s n = true) : c.chkBar n = .ok () := by
  simp only [SCtx.soundBarrier, Bool.and_eq_true, decide_eq_true_eq] at h
  simp [SCtx.chkBar, chkName, h.1]

/-- A long word that meets nothing passes. -/
theorem spass {s : State} {c : SCtx} {rows : List CRange} {locks : List Lock} (h : c.passes s rows locks = true) : c.pass s rows locks = .ok () := by
  simp only [SCtx.passes, Bool.and_eq_true, Bool.not_eq_true', decide_eq_true_eq] at h
  obtain ⟨⟨⟨⟨h1, h2⟩, h3⟩, h4⟩, h5⟩ := h
  have hm : s.locks.filter (fun l => locks.any (fun m => m.conflicts l)) = [] := by
    rw [List.filter_eq_nil_iff]; intro l hl; simpa using List.any_eq_false.mp h1 l hl
  have hp : rows.any (fun r => (List.range r.n).any (fun i => (List.range 4).any (fun q =>
    match c.t.cgroup q with
    | some g => s.rowPending c.t.id g.num (r.lo + i)
    | none => false))) = false := by
    rw [List.any_eq_false]; intro r hr
    rw [Bool.not_eq_true, List.any_eq_false]; intro i hi
    rw [Bool.not_eq_true, List.any_eq_false]; intro q hq
    have := List.all_eq_true.mp (List.all_eq_true.mp (List.all_eq_true.mp h5 r hr) i hi) q hq
    cases hg : c.t.cgroup q with
    | none => simp
    | some g => rw [hg] at this; simpa using this
  unfold SCtx.pass
  simp only
  rw [hm, if_neg (by simpa using h2), if_neg (by
    rintro (h | h | h | h)
    · omega
    · simp at h
    · exact absurd (hp.symm.trans h) (by simp)
    · rw [h4] at h; simp at h)]

theorem chkRowsS {c : SCtx} {l : List CRange} (h : c.covers l = true) : c.chkRows l = .ok () := by
  unfold SCtx.chkRows
  have : l.find? (fun r => (List.range 4).any (fun q => decide (((c.t.cgroup q).map (fun g => g.vrows)).getD 0 < r.lo + r.n))) = none := by
    rw [List.find?_eq_none]; intro r hr
    rw [Bool.not_eq_true, List.any_eq_false]; intro q hq
    have := of_decide_eq_true (List.all_eq_true.mp (List.all_eq_true.mp h r hr) q hq)
    simp only [decide_eq_true_eq]; omega
  rw [this]

/-- A Carder word that does not wait acts. -/
theorem cword_next {s : State} {k : KCtx} {o : CarderOp} {act : KCtx → Walk → State} (h : s.runsCarder k o) : cword s o act = .next (act k (k.w.stepped (s.clk (dieOf k.t.core)))) := by
  unfold cword
  rw [h.1]
  simp [h.2]

theorem calu_next {s : State} {k : KCtx} {o : CarderOp} {d : Nat} {f : KCtx → Nat} (h : s.runsCarder k o) : calu s o d f =
    .next (s.putWalk { k.w.stepped (s.clk (dieOf k.t.core)) with regs := k.w.regs.set d (f k % 2 ^ 64) }) := cword_next h

end Sys2Proof.Machine
end

