-- ==== Sys2Proof/Tests/Slice0.lean ====
section
/-! SUPPORT. Tests: what the well-formedness checks refuse; a word of every encoding, written from the spec's encoding table,
decodes to its instruction; the spec's worked values; and for every statement with hypotheses a state and operands that
meet them. -/

set_option Elab.async false

open Sys2Proof Sys2Proof.Machine

/-! ## What the well-formedness checks refuse -/

/-- R172: a header's fields are bounded, and fit the word. -/
theorem test_wf_header : Instr.wf (.clause 4096 0 15 1 0) = false ∧ Instr.wf (.clause 0 16 15 1 0) = false ∧
    Instr.wf (.clause 0 0 16 1 0) = false ∧ Instr.wf (.clause 0 0 15 32 0) = false ∧ Instr.wf (.clause 0 0 15 1 2) = false ∧
    Instr.wf (.clause 4095 11 15 31 1) = true := by decide

/-- R175: register fields of 10, 7, 6 and 4 bits, and the one-bit selectors. -/
theorem test_wf_fields : Instr.wf (.sAddN32 false 1024 0) = false ∧ Instr.wf (.sAddN32 false 0 1024) = false ∧
    Instr.wf (.vAddN32 false 128 0 0 0) = false ∧ Instr.wf (.vAddN32 false 0 0 2 0) = false ∧ Instr.wf (.ldB32 false 4 0 0 0) = false ∧
    Instr.wf (.ldB32 false 0 0 0 64) = false ∧ Instr.wf (.arrive false 64) = false ∧ Instr.wf (.gather false 4096) = false ∧
    Instr.wf (.brk false 0 16) = false ∧ Instr.wf (.regang false 16) = false ∧ Instr.wf (.shflUpB32 false 0 0 32) = false ∧
    Instr.wf (.qadd 64 0 0) = false ∧ Instr.wf (.qli 0 65536) = false ∧ Instr.wf (.mzero 8) = false ∧ Instr.wf (.qrd 0 256 0) = false ∧
    Instr.wf (.cadd 16 0 0) = false ∧ Instr.wf (.cli 0 32768) = false ∧ Instr.wf (.cbeq 0 0 256) = false ∧
    Instr.wf (.cshli 0 0 64) = false := by decide

/-- R177: an immediate fits its field; a literal has 32 bits and no chain bit beside it. -/
theorem test_wf_immediate : Instr.wf (.siAddN32 false 0 (.short 2048)) = false ∧ Instr.wf (.viAddN32 false 0 0 (.short 128)) = false ∧
    Instr.wf (.siAddN32 true 0 (.lit 5)) = false ∧ Instr.wf (.siAddN32 false 0 (.lit 0x100000000)) = false ∧
    Instr.wf (.siAddN32 false 0 (.lit 0xFFFFFFFF)) = true := by decide

/-- R176, R177: an offset fits its field and is not the literal code; a literal target likewise. -/
theorem test_wf_target : Instr.wf (.bra false 0 (.off 16384)) = false ∧ Instr.wf (.bra false 0 (.off 8192)) = false ∧
    Instr.wf (.beq false 0 0 (.off 32)) = false ∧ Instr.wf (.call false 0 (.off 2048)) = false ∧
    Instr.wf (.bra true 0 (.lit 5)) = false ∧ Instr.wf (.bra false 0 (.lit 0x100000000)) = false ∧
    Instr.wf (.bra false 0 (.off 16383)) = true := by decide

/-- R175, R176: a scope is 0 to 5, and 0 where nothing is ordered. -/
theorem test_wf_scope : Instr.wf (.ldScalarAddress false 0 0 0 1 6 0 0) = false ∧ Instr.wf (.ldScalarAddress false 0 0 0 0 1 0 0) = false ∧
    Instr.wf (.stScalarAddress false 0 0 1 7 0 0) = false ∧ Instr.wf (.atomAddN32 false 0 5 0 0 0 0) = false ∧
    Instr.wf (.fence false 6) = false ∧ Instr.wf (.atomAddN32 false 3 5 0 0 0 0) = true := by decide

/-- R175, R183, R227, R232: reserved values of defined fields. -/
theorem test_wf_reserved : Instr.wf (.vcmpEq false 3 0 0 0 0) = false ∧ Instr.wf (.vcmpEq false 0 7 0 0 0) = false ∧
    Instr.wf (.pand false 7 0 0) = false ∧ Instr.wf (.voteAny false 7 0) = false ∧ Instr.wf (.ptestB32 false 7 0) = false ∧
    Instr.wf (.twait false 7 0 0) = false ∧ Instr.wf (.bump false 7 0 0) = false ∧ Instr.wf (.enqPred false 7 0) = false ∧
    Instr.wf (.waitbPred false 7 0) = false ∧ Instr.wf (.atomOrB32 false 0 0 3 0 0 0) = false ∧
    Instr.wf (.swldB32 false 3 0 0) = false ∧ Instr.wf (.appendB32 false 3 0 0 0) = false ∧
    Instr.wf (.sgetScalar false 0 0) = false ∧ Instr.wf (.sgetScalar false 14 0) = false ∧ Instr.wf (.sput false 14 0) = false ∧
    Instr.wf (.trap false 0x21) = false ∧ Instr.wf (.trap false 256) = false := by decide

/-- R177, R245, R196: the conversion's extension and formats: exactly one side FP32, no reserved format, rounding or overflow,
POS within the element, SE only where the narrow side has it. -/
theorem test_wf_cvt : Instr.wf (.cvt false 0 0 0 none 0 0) = false ∧ Instr.wf (.cvt false 1 2 0 none 0 0) = false ∧
    Instr.wf (.cvt false 13 0 0 none 0 0) = false ∧ Instr.wf (.cvt false 0 13 0 none 0 0) = false ∧
    Instr.wf (.cvt false 0 1 5 none 0 0) = false ∧ Instr.wf (.cvt true 0 1 0 (some 0) 0 0) = false ∧
    Instr.wf (.cvt false 0 1 0 (some 0x100000000) 0 0) = false ∧ Instr.wf (.cvt false 0 3 0 (some 0xC0) 0 0) = false ∧
    Instr.wf (.cvt false 0 3 0 (some 1) 0 0) = false ∧ Instr.wf (.cvt false 0 3 0 (some 0x4000000) 0 0) = false ∧
    Instr.wf (.cvt false 0 1 0 (some 0x40000) 0 0) = false ∧ Instr.wf (.cvt false 8 0 0 none 0 0) = false ∧
    Instr.wf (.cvt false 0 1 0 (some 0x200) 0 0) = false ∧ Instr.wf (.cvt false 3 0 0 (some 0x80) 0 0) = false ∧
    Instr.wf (.cvt false 0 1 0 (some 0x100) 0 0) = true := by decide

/-! ## Encodings that do not decode, and literals -/

/-- R177, R183: a literal takes the next slot, cannot stand after slot 2, and goes with no chain bit; reserved words are refused. -/
theorem test_decode_literals : decodeMain 0 0x08403800 100000 = .ok (.siAddN32 false 3 (.lit 100000)) ∧
    (∃ n, decodeMain 2 0x08403800 100000 = .illegal n) ∧ (∃ n, decodeMain 0 0x88403800 100000 = .illegal n) ∧
    decodeMain 1 0x44002000 7 = .ok (.bra false 0 (.lit 7)) ∧ (∃ n, decodeMain 1 0x78000000 0 = .illegal n) ∧
    (∃ n, decodeMain 1 0x20600000 0 = .illegal n) ∧ (∃ n, decodeStreamOp 0xFFFFFFFF = .error n) ∧
    decodeCarderOp 0xFFFFFFFF = none :=
  ⟨by decide +kernel, ⟨_, rfl⟩, ⟨_, rfl⟩, by decide +kernel, ⟨_, rfl⟩, ⟨_, rfl⟩, ⟨_, rfl⟩, by decide +kernel⟩

/-! ## A word of every encoding -/

/-- Words of major 0 written from the encoding table (R226). -/
theorem test_decode_major0 :
    decodeMain 1 0x00000000 0 = .ok (.nop) := by decide +kernel

/-- Words of major 1 written from the encoding table (R213). -/
theorem test_decode_major1_1 :
    decodeMain 1 0x84012F49 0 = .ok (.sMovB32 true 75 841) ∧
    decodeMain 1 0x04189461 0 = .ok (.sAddN32 false 549 97) ∧
    decodeMain 1 0x8425DE55 0 = .ok (.sSubN32 true 375 597) ∧
    decodeMain 1 0x0430F3A4 0 = .ok (.sMulN32 false 60 932) ∧
    decodeMain 1 0x844820DC 0 = .ok (.sMulhiN32 true 520 220) ∧
    decodeMain 1 0x04509C59 0 = .ok (.sMulhiS32 false 39 89) ∧
    decodeMain 1 0x8466F5AD 0 = .ok (.sAndB32 true 445 429) ∧
    decodeMain 1 0x047120F7 0 = .ok (.sOrB32 false 72 247) ∧
    decodeMain 1 0x84817635 0 = .ok (.sXorB32 true 93 565) ∧
    decodeMain 1 0x0496CC3D 0 = .ok (.sNotB32 false 435 61) ∧
    decodeMain 1 0x84AD3E44 0 = .ok (.sShlB32 true 847 580) ∧
    decodeMain 1 0x04B1FFCB 0 = .ok (.sShrN32 false 127 971) ∧
    decodeMain 1 0x84C39686 0 = .ok (.sShrS32 true 229 646) ∧
    decodeMain 1 0x04DA0E55 0 = .ok (.sMinN32 false 643 597) ∧
    decodeMain 1 0x84EF2C40 0 = .ok (.sMinS32 true 971 64) ∧
    decodeMain 1 0x04F93E58 0 = .ok (.sMaxN32 false 591 600) ∧
    decodeMain 1 0x85065C33 0 = .ok (.sMaxS32 true 407 51) ∧
    decodeMain 1 0x051FA0E3 0 = .ok (.sMovB64 false 1000 227) ∧
    decodeMain 1 0x8520C23B 0 = .ok (.sAddN64 true 48 571) ∧
    decodeMain 1 0x053DC089 0 = .ok (.sSubN64 false 880 137) := by decide +kernel

/-- Words of major 1 written from the encoding table (R213). -/
theorem test_decode_major1_2 :
    decodeMain 1 0x8544A5AE 0 = .ok (.sMulN64 true 297 430) ∧
    decodeMain 1 0x0552522A 0 = .ok (.sAndB64 false 148 554) ∧
    decodeMain 1 0x8561E649 0 = .ok (.sOrB64 true 121 585) ∧
    decodeMain 1 0x0574F23E 0 = .ok (.sXorB64 false 316 574) ∧
    decodeMain 1 0x858D12BB 0 = .ok (.sShlB64 true 836 699) ∧
    decodeMain 1 0x0592E86A 0 = .ok (.sShrN64 false 186 106) ∧
    decodeMain 1 0x85A95249 0 = .ok (.sShrS64 true 596 585) := by decide +kernel

/-- Words of major 2 written from the encoding table (R214). -/
theorem test_decode_major2 :
    decodeMain 1 0x0828F181 0 = .ok (.siMovB32 false 655 (.short 385)) ∧
    decodeMain 1 0x8857E0C8 0 = .ok (.siAddN32 true 382 (.short 200)) ∧
    decodeMain 1 0x08A315B3 0 = .ok (.siMulN32 false 561 (.short 1459)) ∧
    decodeMain 1 0x88C41484 0 = .ok (.siAndB32 true 65 (.short 1156)) ∧
    decodeMain 1 0x0903E4F4 0 = .ok (.siOrB32 false 62 (.short 1268)) ∧
    decodeMain 1 0x894D33F9 0 = .ok (.siXorB32 true 211 (.short 1017)) ∧
    decodeMain 1 0x09AB9441 0 = .ok (.siShlB32 false 697 (.short 1089)) ∧
    decodeMain 1 0x89DB6638 0 = .ok (.siShrN32 true 438 (.short 1592)) ∧
    decodeMain 1 0x0A1423BA 0 = .ok (.siShrS32 false 322 (.short 954)) ∧
    decodeMain 1 0x8A658764 0 = .ok (.siMovB64 true 600 (.short 1892)) ∧
    decodeMain 1 0x0A9D12E5 0 = .ok (.siAddN64 false 465 (.short 741)) := by decide +kernel

/-- Words of major 3 written from the encoding table (R215). -/
theorem test_decode_major3 :
    decodeMain 1 0x8C266833 0 = .ok (.beq true 307 32 (.off 51)) ∧
    decodeMain 1 0x0C9736B2 0 = .ok (.bne false 185 90 (.off 50)) ∧
    decodeMain 1 0x8D1F42E5 0 = .ok (.bltS32 true 250 11 (.off 37)) ∧
    decodeMain 1 0x0DA6912B 0 = .ok (.bgeS32 false 308 68 (.off 43)) ∧
    decodeMain 1 0x8E5D6E93 0 = .ok (.bltN32 true 747 58 (.off 19)) ∧
    decodeMain 1 0x0ECE1F85 0 = .ok (.bgeN32 false 624 126 (.off 5)) := by decide +kernel

/-- Words of major 4 written from the encoding table (R238). -/
theorem test_decode_major4 :
    decodeMain 1 0x90084296 0 = .ok (.vAddN32 true 16 66 1 22) ∧
    decodeMain 1 0x1070ACF8 0 = .ok (.vSubN32 false 97 44 1 120) ∧
    decodeMain 1 0x909FB6FC 0 = .ok (.vMulN32 true 63 54 1 124) ∧
    decodeMain 1 0x10EB0AAC 0 = .ok (.vMulhiN32 false 86 10 1 44) ∧
    decodeMain 1 0x912CADCB 0 = .ok (.vMulhiS32 true 89 45 1 75) ∧
    decodeMain 1 0x1173BBEC 0 = .ok (.vAndB32 false 103 59 1 108) ∧
    decodeMain 1 0x918679BD 0 = .ok (.vOrB32 true 12 121 1 61) ∧
    decodeMain 1 0x11ED5688 0 = .ok (.vXorB32 false 90 86 1 8) ∧
    decodeMain 1 0x922F5AD3 0 = .ok (.vShlB32 true 94 90 1 83) ∧
    decodeMain 1 0x126558A5 0 = .ok (.vShrN32 false 74 88 1 37) ∧
    decodeMain 1 0x92AE3283 0 = .ok (.vShrS32 true 92 50 1 3) ∧
    decodeMain 1 0x12FCBC96 0 = .ok (.vMinN32 false 121 60 1 22) ∧
    decodeMain 1 0x93278F88 0 = .ok (.vMinS32 true 79 15 1 8) ∧
    decodeMain 1 0x134E6391 0 = .ok (.vMaxN32 false 28 99 1 17) ∧
    decodeMain 1 0x93AFA0B3 0 = .ok (.vMaxS32 true 95 32 1 51) ∧
    decodeMain 1 0x13FB708B 0 = .ok (.vAddsatS32 false 118 112 1 11) := by decide +kernel

/-- Words of major 5 written from the encoding table (R239). -/
theorem test_decode_major5 :
    decodeMain 1 0x940B3A34 0 = .ok (.viAddN32 true 22 58 (.short 52)) ∧
    decodeMain 1 0x1463A472 0 = .ok (.viSubN32 false 71 36 (.short 114)) ∧
    decodeMain 1 0x94896938 0 = .ok (.viMulN32 true 18 105 (.short 56)) ∧
    decodeMain 1 0x14F7C724 0 = .ok (.viMulhiN32 false 111 71 (.short 36)) ∧
    decodeMain 1 0x952DB67F 0 = .ok (.viMulhiS32 true 91 54 (.short 127)) ∧
    decodeMain 1 0x15575872 0 = .ok (.viAndB32 false 46 88 (.short 114)) ∧
    decodeMain 1 0x9598FB1E 0 = .ok (.viOrB32 true 49 123 (.short 30)) ∧
    decodeMain 1 0x15CA0B17 0 = .ok (.viXorB32 false 20 11 (.short 23)) ∧
    decodeMain 1 0x960A1E55 0 = .ok (.viShlB32 true 20 30 (.short 85)) ∧
    decodeMain 1 0x164F023F 0 = .ok (.viShrN32 false 30 2 (.short 63)) ∧
    decodeMain 1 0x96B5CC18 0 = .ok (.viShrS32 true 107 76 (.short 24)) ∧
    decodeMain 1 0x16D12501 0 = .ok (.viMinN32 false 34 37 (.short 1)) ∧
    decodeMain 1 0x9709B645 0 = .ok (.viMinS32 true 19 54 (.short 69)) ∧
    decodeMain 1 0x17584F49 0 = .ok (.viMaxN32 false 48 79 (.short 73)) ∧
    decodeMain 1 0x9794FA11 0 = .ok (.viMaxS32 true 41 122 (.short 17)) := by decide +kernel

/-- Words of major 6 written from the encoding table (R240). -/
theorem test_decode_major6 :
    decodeMain 1 0x182CEEBB 0 = .ok (.faddF32 false 89 110 1 59) ∧
    decodeMain 1 0x987A70B3 0 = .ok (.fsubF32 true 116 112 1 51) ∧
    decodeMain 1 0x189A33BE 0 = .ok (.fmulF32 false 52 51 1 62) ∧
    decodeMain 1 0x98E93499 0 = .ok (.fminF32 true 82 52 1 25) ∧
    decodeMain 1 0x1904FFB9 0 = .ok (.fmaxF32 false 9 127 1 57) ∧
    decodeMain 1 0x994A8F00 0 = .ok (.fabsF32 true 21 15) ∧
    decodeMain 1 0x19964D00 0 = .ok (.fnegF32 false 44 77) ∧
    decodeMain 1 0x99C38EC9 0 = .ok (.fcpsgnF32 true 7 14 1 73) := by decide +kernel

/-- Words of major 7 written from the encoding table (R241, R242). -/
theorem test_decode_major7 :
    decodeMain 1 0x1C0A45FA 0 = .ok (.fmaF32 false 20 69 1 122) ∧
    decodeMain 1 0x9C57CF8A 0 = .ok (.fnmaF32 true 47 79 1 10) ∧
    decodeMain 1 0x1CB81B94 0 = .ok (.faddF16 false 112 27 1 20) ∧
    decodeMain 1 0x9CE921CE 0 = .ok (.fsubF16 true 82 33 1 78) ∧
    decodeMain 1 0x1D17BD8F 0 = .ok (.fmulF16 false 47 61 1 15) ∧
    decodeMain 1 0x9D76BFBE 0 = .ok (.fmaF16 true 109 63 1 62) ∧
    decodeMain 1 0x1D9F2893 0 = .ok (.faddBf16 false 62 40 1 19) ∧
    decodeMain 1 0x9DC760DF 0 = .ok (.fsubBf16 true 14 96 1 95) ∧
    decodeMain 1 0x1E113EC3 0 = .ok (.fmulBf16 false 34 62 1 67) ∧
    decodeMain 1 0x9E419B93 0 = .ok (.fmaBf16 true 3 27 1 19) ∧
    decodeMain 1 0x1EACC6E2 0 = .ok (.fminF16 false 89 70 1 98) ∧
    decodeMain 1 0x9EE227DA 0 = .ok (.fmaxF16 true 68 39 1 90) ∧
    decodeMain 1 0x1F36A2F5 0 = .ok (.fminBf16 false 109 34 1 117) ∧
    decodeMain 1 0x9F4B2EC5 0 = .ok (.fmaxBf16 true 22 46 1 69) := by decide +kernel

/-- Words of major 8 written from the encoding table (R243, R244). -/
theorem test_decode_major8 :
    decodeMain 1 0x202141D2 0 = .ok (.vcmpEq false 1 2 65 1 82) ∧
    decodeMain 1 0xA0C1E8E8 0 = .ok (.vcmpNe true 2 3 104 1 104) ∧
    decodeMain 1 0x2102349A 0 = .ok (.vcmpLt false 0 4 52 1 26) ∧
    decodeMain 1 0xA1A2AEFF 0 = .ok (.vcmpLe true 1 5 46 1 127) ∧
    decodeMain 1 0x224324A2 0 = .ok (.vcmpGt false 2 6 36 1 34) ∧
    decodeMain 1 0xA2804EBA 0 = .ok (.vcmpGe true 0 0 78 1 58) ∧
    decodeMain 1 0x23008603 0 = .ok (.pand false 1 6 3) ∧
    decodeMain 1 0xA3210102 0 = .ok (.por true 2 1 2) ∧
    decodeMain 1 0x23418204 0 = .ok (.pxor false 3 2 4) ∧
    decodeMain 1 0xA3620300 0 = .ok (.pnot true 4 3) := by decide +kernel

/-- Words of major 9 written from the encoding table (R246). -/
theorem test_decode_major9 :
    decodeMain 1 0x24C21F75 0 = .ok (.cvt false 3 0 4 none 62 117) := by decide +kernel

/-- Words of major 10 written from the encoding table (R247). -/
theorem test_decode_major10 :
    decodeMain 1 0xA82A2D00 0 = .ok (.rcpF32 true 84 45) ∧
    decodeMain 1 0x2873D300 0 = .ok (.rsqrtF32 false 103 83) ∧
    decodeMain 1 0xA885EB00 0 = .ok (.sqrtF32 true 11 107) ∧
    decodeMain 1 0x28EA9000 0 = .ok (.exp2F32 false 85 16) ∧
    decodeMain 1 0xA93AB200 0 = .ok (.log2F32 true 117 50) ∧
    decodeMain 1 0x2972DC00 0 = .ok (.sinpiF32 false 101 92) ∧
    decodeMain 1 0xA9B09A00 0 = .ok (.cospiF32 true 97 26) ∧
    decodeMain 1 0x29DF7200 0 = .ok (.tanhF32 false 62 114) ∧
    decodeMain 1 0xAA0BB800 0 = .ok (.sigmF32 true 23 56) ∧
    decodeMain 1 0x2A735200 0 = .ok (.erfF32 false 102 82) := by decide +kernel

/-- Words of major 11 written from the encoding table (R248, R249, R250, R251). -/
theorem test_decode_major11 :
    decodeMain 1 0xAC158CBC 0 = .ok (.vgetB32 true 43 12 1 60) ∧
    decodeMain 1 0x2C5A60DD 0 = .ok (.vputB32 false 52 96 1 93) ∧
    decodeMain 1 0xAC8A9684 0 = .ok (.xreadB32 true 21 22 1 4) ∧
    decodeMain 1 0x2CCA4CE8 0 = .ok (.xwriteB32 false 20 76 1 104) ∧
    decodeMain 1 0xAD2A134F 0 = .ok (.shflIdxB32 true 84 19 79) ∧
    decodeMain 1 0x2D754D10 0 = .ok (.shflUpB32 false 106 77 16) ∧
    decodeMain 1 0xADAAF80C 0 = .ok (.shflDownB32 true 85 120 12) ∧
    decodeMain 1 0x2DCA4712 0 = .ok (.shflXorB32 false 20 71 18) ∧
    decodeMain 1 0xAE088100 0 = .ok (.ballotB32 true 17 1) ∧
    decodeMain 1 0x2E420700 0 = .ok (.voteAny false 4 7) ∧
    decodeMain 1 0xAE828600 0 = .ok (.voteAll true 5 6) ∧
    decodeMain 1 0x2EC70500 0 = .ok (.pmovB32 false 14 5) ∧
    decodeMain 1 0xAF007800 0 = .ok (.ptestB32 true 0 120) := by decide +kernel

/-- Words of major 12 written from the encoding table (R260, R261). -/
theorem test_decode_major12 :
    decodeMain 1 0x30171FF8 0 = .ok (.ldB8 false 1 56 127 56) ∧
    decodeMain 1 0xB05D5C0E 0 = .ok (.ldB16 true 1 106 112 14) ∧
    decodeMain 1 0x30942713 0 = .ok (.ldB32 false 1 33 28 19) ∧
    decodeMain 1 0xB0F3F8A6 0 = .ok (.ldB8Fa true 3 31 98 38) ∧
    decodeMain 1 0x3124519B 0 = .ok (.ldB16Fa false 2 34 70 27) ∧
    decodeMain 1 0xB1511D70 0 = .ok (.ldB32Fa true 1 8 117 48) ∧
    decodeMain 1 0x31AE6EEB 0 = .ok (.ldB8Fb false 2 115 59 43) ∧
    decodeMain 1 0xB1FD3D22 0 = .ok (.ldB16Fb true 3 105 116 34) ∧
    decodeMain 1 0x322D5DB9 0 = .ok (.ldB32Fb false 2 106 118 57) ∧
    decodeMain 1 0xB272314A 0 = .ok (.stB8 true 3 17 69 10) ∧
    decodeMain 1 0x32B840F8 0 = .ok (.stB16 false 3 66 3 56) ∧
    decodeMain 1 0xB2EC8627 0 = .ok (.stB32 true 2 100 24 39) ∧
    decodeMain 1 0x3317542F 0 = .ok (.ldScalarAddress false 1 1 1 1 2 80 47) ∧
    decodeMain 1 0xB35370E2 0 = .ok (.stScalarAddress true 1 1 1 3 67 34) := by decide +kernel

/-- Words of major 13 written from the encoding table (R263). -/
theorem test_decode_major13 :
    decodeMain 1 0x3428F2A0 0 = .ok (.atomAddN32 false 2 4 1 114 1 32) ∧
    decodeMain 1 0xB46AE3C1 0 = .ok (.atomAddN64 true 2 5 1 99 1 65) ∧
    decodeMain 1 0x34A0E2B9 0 = .ok (.atomAddF32 false 2 0 1 98 1 57) ∧
    decodeMain 1 0xB4E34ED9 0 = .ok (.atomMinS32 true 2 1 2 78 1 89) ∧
    decodeMain 1 0x352545C1 0 = .ok (.atomMinN32 false 2 2 2 69 1 65) ∧
    decodeMain 1 0xB56771F7 0 = .ok (.atomMaxS32 true 2 3 2 113 1 119) ∧
    decodeMain 1 0x35A91290 0 = .ok (.atomMaxN32 false 2 4 2 18 1 16) ∧
    decodeMain 1 0xB5EB0AB7 0 = .ok (.atomAndB32 true 2 5 2 10 1 55) ∧
    decodeMain 1 0x362127F3 0 = .ok (.atomOrB32 false 2 0 2 39 1 115) ∧
    decodeMain 1 0xB6635593 0 = .ok (.atomXorB32 true 2 1 2 85 1 19) ∧
    decodeMain 1 0x36A51DB3 0 = .ok (.atomXchgB32 false 2 2 2 29 1 51) ∧
    decodeMain 1 0xB6E76B95 0 = .ok (.atomCasB32 true 2 3 2 107 1 21) ∧
    decodeMain 1 0x372934B6 0 = .ok (.atomXchgB64 false 2 4 2 52 1 54) ∧
    decodeMain 1 0xB76B0C83 0 = .ok (.atomCasB64 true 2 5 2 12 1 3) := by decide +kernel

/-- Words of major 14 written from the encoding table (R48, R267). -/
theorem test_decode_major14 :
    decodeMain 1 0x3828EEC0 0 = .ok (.swldB32 false 2 71 59) ∧
    decodeMain 1 0xB84736C2 0 = .ok (.swstB32 true 57 91 2) ∧
    decodeMain 1 0x38A570E8 0 = .ok (.swatomAddN32 false 2 43 67 40) ∧
    decodeMain 1 0xB8E85EC5 0 = .ok (.swatomCasB32 true 2 66 123 5) ∧
    decodeMain 1 0x3901FFFB 0 = .ok (.swredAddN32 false 15 127 59) ∧
    decodeMain 1 0xB94CA7BF 0 = .ok (.swredOrB32 true 101 30 63) ∧
    decodeMain 1 0x3A116880 0 = .ok (.swldB32Far false 1 11 34) ∧
    decodeMain 1 0xBA4461BA 0 = .ok (.swstB32Far true 35 6 58) ∧
    decodeMain 1 0x3A947849 0 = .ok (.swatomAddN32Far false 1 35 97 9) ∧
    decodeMain 1 0xBAEDBD6C 0 = .ok (.swatomCasB32Far true 2 109 117 44) ∧
    decodeMain 1 0x3B0D3E91 0 = .ok (.swredAddN32Far false 105 122 17) ∧
    decodeMain 1 0xBB468523 0 = .ok (.swredOrB32Far true 52 20 35) ∧
    decodeMain 1 0x3BC00EB5 0 = .ok (.exportSwatch false 3765) := by decide +kernel

/-- Words of major 15 written from the encoding table (R102, R113, R115, R116, R137, R141, R143, R149). -/
theorem test_decode_major15 :
    decodeMain 1 0xBC36950C 0 = .ok (.copyRows true 1 90 42 6) ∧
    decodeMain 1 0x3C490468 0 = .ok (.copyCol false 36 8 52) ∧
    decodeMain 1 0xBCADF98A 0 = .ok (.copyRowsX24 true 1 55 115 5) ∧
    decodeMain 1 0x3CFE41D2 0 = .ok (.copySwatch false 1 121 3 41) ∧
    decodeMain 1 0xBD39D10C 0 = .ok (.copyOutTeam true 1 103 34 6) ∧
    decodeMain 1 0x3D625170 0 = .ok (.copyOutClu false 1 9 34 56) ∧
    decodeMain 1 0xBDAEC12C 0 = .ok (.copyOutDie true 1 59 2 22) ∧
    decodeMain 1 0x3DFDFB24 0 = .ok (.copyOutMod false 1 119 118 18) ∧
    decodeMain 1 0xBE21A25C 0 = .ok (.copyOutSys true 1 6 68 46) ∧
    decodeMain 1 0x3E7E47FE 0 = .ok (.copyOutC24Team false 1 121 15 63) ∧
    decodeMain 1 0xBEA88398 0 = .ok (.copyOutC24Clu true 1 34 7 12) ∧
    decodeMain 1 0x3EFE1452 0 = .ok (.copyOutC24Die false 1 120 40 41) ∧
    decodeMain 1 0xBF31311C 0 = .ok (.copyOutC24Mod true 1 68 98 14) ∧
    decodeMain 1 0x3F6EA0D8 0 = .ok (.copyOutC24Sys false 1 58 65 44) ∧
    decodeMain 1 0xBFA8D6E8 0 = .ok (.walk true 1 35 45 52) ∧
    decodeMain 1 0x3FC0004B 0 = .ok (.gather false 75) ∧
    decodeMain 1 0xBFC40FEA 0 = .ok (.scatter true 4074) ∧
    decodeMain 1 0x3FC80402 0 = .ok (.shbind false 1026) ∧
    decodeMain 1 0xBFCC0098 0 = .ok (.shbindOff true 152) := by decide +kernel

/-- Words of major 16 written from the encoding table (R53, R106, R107, R109, R111, R112, R266). -/
theorem test_decode_major16 :
    decodeMain 1 0x40002000 0 = .ok (.arrive false 1) ∧
    decodeMain 1 0xC04042EF 0 = .ok (.binit true 2 751) ∧
    decodeMain 1 0x40842235 0 = .ok (.bread false 33 565) ∧
    decodeMain 1 0xC0CC21E7 0 = .ok (.twait true 1 33 487) ∧
    decodeMain 1 0x41020000 0 = .ok (.swap false 16) ∧
    decodeMain 1 0xC1401000 0 = .ok (.fence true 4) ∧
    decodeMain 1 0x4180006D 0 = .ok (.cbatch false 109) ∧
    decodeMain 1 0xC1C002A3 0 = .ok (.waitb true 675) ∧
    decodeMain 1 0x4230029A 0 = .ok (.waitbPred false 6 666) := by decide +kernel

/-- Words of major 17 written from the encoding table (R63, R64, R69, R223, R224). -/
theorem test_decode_major17 :
    decodeMain 1 0xC4102A05 0 = .ok (.bra true 4 (.off 10757)) ∧
    decodeMain 1 0x443022F1 0 = .ok (.braU false 4 (.off 8945)) ∧
    decodeMain 1 0xC4757E39 0 = .ok (.call true 855 (.off 3641)) ∧
    decodeMain 1 0x44993000 0 = .ok (.ret false 403) ∧
    decodeMain 1 0xC4C00000 0 = .ok (.exit true) := by decide +kernel

/-- Words of major 18 written from the encoding table (R66, R67, R68, R73). -/
theorem test_decode_major18 :
    decodeMain 1 0x48003E1A 0 = .ok (.mark false (.off 15898)) ∧
    decodeMain 1 0xC8400000 0 = .ok (.join true) ∧
    decodeMain 1 0x48974000 0 = .ok (.brk false 5 13) ∧
    decodeMain 1 0xC8C34000 0 = .ok (.regang true 13) := by decide +kernel

/-- Words of major 19 written from the encoding table (R227, R228, R232, R233, R314). -/
theorem test_decode_major19 :
    decodeMain 1 0x4C0503EF 0 = .ok (.sgetScalar false 5 1007) ∧
    decodeMain 1 0xCC26002C 0 = .ok (.sgetVector true 6 44) ∧
    decodeMain 1 0x4C4C0355 0 = .ok (.sput false 12 853) ∧
    decodeMain 1 0xCC8000A5 0 = .ok (.trap true 165) ∧
    decodeMain 1 0x4C800020 0 = .ok (.trapRegisterHandler false) ∧
    decodeMain 1 0xCC800021 0 = .ok (.trapKillService true) ∧
    decodeMain 1 0x4CC00000 0 = .ok (.rte false) := by decide +kernel

/-- Words of major 20 written from the encoding table (R164). -/
theorem test_decode_major20 :
    decodeMain 1 0xD0000B4F 0 = .ok (.inv true 2895) := by decide +kernel

/-- Words of major 21 written from the encoding table (R252, R253). -/
theorem test_decode_major21 :
    decodeMain 1 0x542F5280 0 = .ok (.vredAddF32 false 94 82 1) ∧
    decodeMain 1 0xD45A7F80 0 = .ok (.vredAddN32 true 52 127 1) ∧
    decodeMain 1 0x54BF0780 0 = .ok (.vredMinF32 false 126 7 1) ∧
    decodeMain 1 0xD4C10A80 0 = .ok (.vredMaxF32 true 2 10 1) ∧
    decodeMain 1 0x551C1580 0 = .ok (.vredMinS32 false 56 21 1) ∧
    decodeMain 1 0xD545D680 0 = .ok (.vredMaxS32 true 11 86 1) ∧
    decodeMain 1 0x55B84180 0 = .ok (.vredAndB32 false 112 65 1) ∧
    decodeMain 1 0xD5E6A080 0 = .ok (.vredOrB32 true 77 32 1) ∧
    decodeMain 1 0x56033B95 0 = .ok (.vredLmF32 false 6 59 1 21) ∧
    decodeMain 1 0xD651BAA2 0 = .ok (.vredLmBf16 true 35 58 1 34) := by decide +kernel

/-- Words of major 22 written from the encoding table (R155, R158, R274). -/
theorem test_decode_major22 :
    decodeMain 1 0x580DF158 0 = .ok (.bump false 6 124 43) ∧
    decodeMain 1 0xD8668028 0 = .ok (.appendB32 true 2 3 32 5) ∧
    decodeMain 1 0x58A4B8C0 0 = .ok (.appendB64 false 2 2 46 24) ∧
    decodeMain 1 0xD8CE0008 0 = .ok (.enq true 1) ∧
    decodeMain 1 0x58C60188 0 = .ok (.enqPred false 3 49) := by decide +kernel

/-- Words of major 31 written from the encoding table (R172). -/
theorem test_decode_major31 :
    decodeMain 1 0x7D4BEFEB 0 = .ok (.clause 1327 11 15 21 1) := by decide +kernel

/-- Words of the matrix stream written from the encoding table (R275). -/
theorem test_decode_stream :
    decodeStreamOp 0x00000000 = .ok (.mnop) ∧
    decodeStreamOp 0x04067C00 = .ok (.qmov 6 31) ∧
    decodeStreamOp 0x045286A0 = .ok (.qadd 18 33 42) ∧
    decodeStreamOp 0x048D4210 = .ok (.qsub 13 16 33) ∧
    decodeStreamOp 0x04F20460 = .ok (.qmul 50 1 6) ∧
    decodeStreamOp 0x0511D460 = .ok (.qand 17 53 6) ∧
    decodeStreamOp 0x054A6A60 = .ok (.qor 10 26 38) ∧
    decodeStreamOp 0x05836820 = .ok (.qshl 3 26 2) ∧
    decodeStreamOp 0x05D45290 = .ok (.qshr 20 20 41) ∧
    decodeStreamOp 0x060F15A1 = .ok (.qli 15 5537) ∧
    decodeStreamOp 0x0666F528 = .ok (.qlih 38 62760) ∧
    decodeStreamOp 0x06A236F2 = .ok (.qrd 34 219 25) ∧
    decodeStreamOp 0x080AAC00 = .ok (.mwait 10 43) ∧
    decodeStreamOp 0x087A0000 = .ok (.marrive 58) ∧
    decodeStreamOp 0x0C2EC8B7 = .ok (.mloop 46 51383) ∧
    decodeStreamOp 0x0C7998B9 = .ok (.mkeep 57 39097) ∧
    decodeStreamOp 0x0C8063B8 = .ok (.mjmp 25528) ∧
    decodeStreamOp 0x0CC00000 = .ok (.mend) ∧
    decodeStreamOp 0x10000C3B = .ok (.mma 3131) ∧
    decodeStreamOp 0x14180000 = .ok (.mzero 3) ∧
    decodeStreamOp 0x1477F80A = .ok (.mload 6 127 32 10) ∧
    decodeStreamOp 0x149DDA2A = .ok (.mstore 3 93 40 42) ∧
    decodeStreamOp 0x18100C00 = .ok (.macq 2 3) ∧
    decodeStreamOp 0x18780000 = .ok (.mrel 7) ∧
    decodeStreamOp 0x1880D800 = .ok (.mmask 54) := by decide +kernel

/-- Words of the Carder written from the encoding table (R289). -/
theorem test_decode_carder :
    decodeCarderOp 0x00000000 = some (.cnop) ∧
    decodeCarderOp 0x0E780000 = some (.cmov 12 15) ∧
    decodeCarderOp 0x1480504D = some (.cli 9 20557) ∧
    decodeCarderOp 0x1BE60000 = some (.cadd 7 12 12) ∧
    decodeCarderOp 0x26C98000 = some (.csub 13 9 3) ∧
    decodeCarderOp 0x2FCE8000 = some (.cmul 15 9 13) ∧
    decodeCarderOp 0x34D70000 = some (.cand 9 10 14) ∧
    decodeCarderOp 0x3F688000 = some (.cor 14 13 1) ∧
    decodeCarderOp 0x47584AC3 = some (.caddi 14 11 19139) ∧
    decodeCarderOp 0x4EF8002E = some (.cshli 13 15 46) ∧
    decodeCarderOp 0x55E0002A = some (.cshri 11 12 42) ∧
    decodeCarderOp 0x5A1003FE = some (.crd8 4 2 1022) ∧
    decodeCarderOp 0x6098518E = some (.crd16 1 3 20878) ∧
    decodeCarderOp 0x6B103036 = some (.crd32 6 2 12342) ∧
    decodeCarderOp 0x7740477E = some (.crd64 14 8 18302) ∧
    decodeCarderOp 0x780D8000 = some (.cemit8 1 11) ∧
    decodeCarderOp 0x800D8000 = some (.cemit16 1 11) ∧
    decodeCarderOp 0x884D8000 = some (.cemit32 9 11) ∧
    decodeCarderOp 0x90240044 = some (.cbeq 4 8 68) ∧
    decodeCarderOp 0x980C00CD = some (.cbne 1 8 205) ∧
    decodeCarderOp 0xA01600EF = some (.cblt 2 12 239) ∧
    decodeCarderOp 0xA84F808A = some (.cbge 9 15 138) ∧
    decodeCarderOp 0xB0000018 = some (.cjmp 24) ∧
    decodeCarderOp 0xB8000000 = some (.cend) := by decide +kernel
/-! ## A small machine -/

namespace Sys2Proof.Fix

/-- A kernel with eight team rows, eight barriers, 16 pool entries and a Carder section of four words. -/
def kernel : Kernel := ⟨0x40000, 0, some 0, some 0, some 0, 16, 0x1000, 0x2000, 4, 8, 40, 128, 40, 128, 8, 2⟩

/-- A P group of 128 scalars and 40 vector rows on rows 0 to 59, whose lanes 0 and 31 are active, with every flag at 0 and the
header of `fetchHeader` in force, at slot 1 of packet 0. -/
def group : Group :=
  let x := fun (m : BitVec 4) => (⟨⟨0, 1⟩, m, [], fetchHeader, 1, false⟩ : Slice)
  ⟨0, true, 0, 4, 40, 0, [x 1, x 0, x 0, x 0, x 0, x 0, x 0, x 8], [⟨List.range 8, .ready, 0, 0, [], []⟩], List.replicate 7 0,
    List.replicate 12 0, 0, 0, 0, 0, 0, 0, 0, false, none, none, 0, ⟨0, 0, 0, 0⟩, 5, [], false, [], [], []⟩

/-- A team of partition 0 on core 0, its team rows from row 100 and its barriers on row 120. -/
def team (g : Group) : Team :=
  ⟨1, 0, 0, 0, 3, 0, 7, 0, .resident, kernel, 0, true, false, false, false, 0, none, 100, 120, [g], List.replicate 8 Barrier.fresh,
    List.replicate 8 none, none⟩

/-- The first scalars, and row `n` of core 0 in lanes 0 and 31. -/
def scal (l : List Nat) : Sparse Elem := l.mapIdx (fun i v => (palKey 0 (i / 32) (i % 32), Elem.of (BitVec.ofNat 32 v)))
def row (n a b : Nat) : Sparse Elem := [(palKey 0 n 0, Elem.of (BitVec.ofNat 32 a)), (palKey 0 n 31, Elem.of (BitVec.ofNat 32 b))]

/-- The machine in which the team's group issues a word, outside a chain. -/
def st (t : Team) (pal : Sparse Elem) : State :=
  { State.reset with
    cur := ⟨.main 1 0 (List.range 8), none, false, [], 0, []⟩
    nextId := 9
    teams := [t]
    pal := pal
    dies := [(0, { Die.fresh with old := pal })] }

/-- What the word reads from. -/
def ctx (t : Team) (pal : Sparse Elem) : Ctx :=
  ⟨t, t.groups.headD group, pal, List.range 8, (t.groups.headD group).active (List.range 8),
    ((t.groups.headD group).slice 0).pc⟩

/-- Whether a state issues a word that reads from a context. -/
def issues (s : State) (c : Ctx) : Bool :=
  decide (s.ctx? = some c) && !s.cur.chain && s.cur.pre.isNone && c.g.trapping.isNone

theorem issues_of {s : State} {c : Ctx} (h : issues s c = true) : s.issues c := by
  simp only [issues, Bool.and_eq_true, decide_eq_true_eq, Bool.not_eq_true', Option.isNone_iff_eq_none] at h
  exact ⟨h.1.1.1, h.1.1.2, h.1.2, h.2⟩

/-- Scalar `n` and element `l` of vector row `n` after one instruction. -/
def scalAfter (i : Instr) (s : State) (n : Nat) : Option Nat :=
  match exec i s with
  | .next t => some (palGet t.pal 0 (n / 32) (n % 32)).val.toNat
  | _ => none
def vecAfter (i : Instr) (s : State) (n l : Nat) : Option Nat :=
  match exec i s with
  | .next t => some (palGet t.pal 0 (4 + n) l).val.toNat
  | _ => none

end Sys2Proof.Fix

open Sys2Proof.Fix

/-! ## The spec's worked values -/

/-- 14_ref_scalar_control.md, worked values of the scalar words: D is `s4`, the operand `s9`. -/
theorem test_scalar_worked_values :
    (∀ e ∈ ([(.sMulhiN32 false 4 9, 0xFFFFFFFF, 2, 1), (.sMulhiS32 false 4 9, 0xFFFFFFFF, 2, 0xFFFFFFFF),
      (.sShrS32 false 4 9, 0x80000000, 35, 0xF0000000), (.sShlB32 false 4 9, 3, 32, 3),
      (.sMaxN32 false 4 9, 0xFFFFFFFF, 1, 0xFFFFFFFF), (.sMaxS32 false 4 9, 0xFFFFFFFF, 1, 1),
      (.siAddN32 false 4 (.short 0x7FF), 5, 0, 4), (.siAndB32 false 4 (.short 0x7FF), 0x12345678, 0, 0x678),
      (.siAddN32 false 4 (.lit 0x7FF), 5, 0, 2052)] : List (Instr × Nat × Nat × Nat)),
      scalAfter e.1 (st (team group) (scal [0, 0, 0, 0, e.2.1, 0, 0, 0, 0, e.2.2.1])) 4 = some e.2.2.2) := by decide +kernel

/-- The last row of the same table: a pair. -/
theorem test_add_n64_worked_value :
    scalAfter (.siAddN64 false 4 (.short 0x7FE)) (st (team group) (scal [0, 0, 0, 0, 0, 1])) 4 = some 0xFFFFFFFE ∧
    scalAfter (.siAddN64 false 4 (.short 0x7FE)) (st (team group) (scal [0, 0, 0, 0, 0, 1])) 5 = some 0 := by decide +kernel

/-- The group with a MODE. -/
def Sys2Proof.Fix.moded (m : Nat) : Group := { group with mode := m }

/-- 15_ref_vector.md, worked values of the floating words, with A in `v1`, B in `v2`, D in `v3`. -/
theorem test_float_worked_values :
    (∀ e ∈ ([(.fminF32 false 3 1 0 2, 0x80000000, 0, 0, 0x80000000), (.fmaxF32 false 3 1 0 2, 0x7FC01234, 0x40000000, 0, 0x40000000),
      (.fnegF32 false 3 1, 0x7FC01234, 0, 0, 0xFFC01234), (.fmulF32 false 3 1 0 2, 0x7F000000, 0x40000000, 0, 0x7F800000),
      (.fmaF32 false 3 1 0 2, 0x3F800001, 0x3F7FFFFE, 0xBF800000, 0xA8800000),
      (.faddBf16 false 3 1 0 2, 0x3F80, 0x3B80, 0, 0x3F80)] : List (Instr × Nat × Nat × Nat × Nat)),
      vecAfter e.1 (st (team group) (row 5 e.2.1 e.2.1 ++ row 6 e.2.2.1 e.2.2.1 ++ row 7 e.2.2.2.1 e.2.2.2.1)) 3 31 =
        some e.2.2.2.2) := by decide +kernel

/-- The same table: SAT, and BF16 rounded up. -/
theorem test_float_worked_modes :
    vecAfter (.fmulF32 false 3 1 0 2) (st (team (moded 8)) (row 5 0x7F000000 0x7F000000 ++ row 6 0x40000000 0x40000000)) 3 0 =
      some 0x7F7FFFFF ∧
    vecAfter (.faddBf16 false 3 1 0 2) (st (team (moded 2)) (row 5 0x3F80 0x3F80 ++ row 6 0x3B80 0x3B80)) 3 0 = some 0x3F81 := by
  decide +kernel

/-- 12_number_formats.md, worked conversions to a narrow format: source, target, rounding, extension, code. -/
theorem test_worked_narrowings :
    (∀ e ∈ ([(0x3F880000, 3, 0, none, 0x38), (0x3F980000, 3, 0, none, 0x3A), (0x3F980000, 3, 1, none, 0x39),
      (0x43E60000, 3, 0, none, 0x7E), (0x43EB0000, 3, 0, some 0, 0x7E), (0x43EB0000, 3, 0, some 0x40, 0x7F),
      (0x477FF000, 2, 0, some 0, 0x7BFF), (0x477FF000, 2, 0, some 0x40, 0x7E00), (0x3F808000, 1, 0, none, 0x3F80),
      (0x3F818000, 1, 0, none, 0x3F82), (0x37C00000, 4, 0, none, 2), (0x40200000, 7, 0, none, 4), (0x40A00000, 7, 0, none, 6),
      (0x7FC00000, 6, 0, some 0, 0), (0x3F980000, 3, 0, some 0x100, 0x3A00)] : List (Nat × Nat × Nat × Option Nat × Nat)),
      vecAfter (.cvt false 0 e.2.1 e.2.2.1 e.2.2.2.1 3 1) (st (team group) (row 5 e.1 e.1)) 3 31 = some e.2.2.2.2) := by
  decide +kernel

/-- The same chapter: the widening direction. -/
theorem test_worked_widenings :
    (∀ e ∈ ([(0x7F, 3, 0x7FC00000), (0xFC, 4, 0xFF800000), (0x7C00, 2, 0x7F800000), (5, 9, 0x40A00000), (8, 10, 0xC1000000)] :
      List (Nat × Nat × Nat)),
      vecAfter (.cvt false e.2.1 0 0 none 3 1) (st (team group) (row 5 e.1 e.1)) 3 0 = some e.2.2) := by decide +kernel

/-- All 32 lanes active, lane L of `v5` holding L as FP32. -/
def Sys2Proof.Fix.wide : Group := { group with slices := group.slices.map (fun x => { x with mask := 15 }) }
def Sys2Proof.Fix.ramp : Sparse Elem :=
  [0, 0x3F800000, 0x40000000, 0x40400000, 0x40800000, 0x40A00000, 0x40C00000, 0x40E00000, 0, 0, 0, 0, 0, 0, 0, 0, 0x41800000,
    0x41880000, 0x41900000, 0x41980000, 0x41A00000, 0x41A80000, 0x41B00000, 0x41B80000, 0x41C00000, 0x41C80000, 0x41D00000,
    0x41D80000, 0x41E00000, 0x41E80000, 0x41F00000, 0x41F80000].mapIdx (fun i v => (palKey 0 9 i, Elem.of (BitVec.ofNat 32 v)))

/-- 15_ref_vector.md, "a lost block": lanes 8 to 15 came as zeros. -/
theorem test_lost_block :
    scalAfter (.vredAddF32 false 10 5 0) (st (team wide) ramp) 10 = some 0x43CA0000 ∧
    (∀ e ∈ ([(0xFFFF00FF, 0x4406AAAB, 24), (0, 0, 0)] : List (Nat × Nat × Nat)),
      scalAfter (.vredLmF32 false 10 5 0 2) (st (team wide) (scal [0, 0, e.1] ++ ramp)) 10 = some e.2.1 ∧
      scalAfter (.vredLmF32 false 10 5 0 2) (st (team wide) (scal [0, 0, e.1] ++ ramp)) 11 = some e.2.2) := by decide +kernel

/-- R43, R311: what a trap leaves in its group. -/
def Sys2Proof.Fix.trapOf (i : Instr) (s : State) : Option (Nat × Nat) :=
  match exec i s with
  | .next t => (t.teams.head?.bind (fun t => t.groups.head?)).bind (fun g => g.trapping.map (fun r => (r.code, r.info)))
  | _ => none

/-- A second candidate waits for a translation, so that a raised trap is seen before its entry (R310). -/
def Sys2Proof.Fix.held : Group :=
  { group with cands := [⟨[0, 1, 2, 3], .ready, 0, 0, [], []⟩, ⟨[4, 5, 6, 7], .xlate [⟨0, 1⟩], 0, 0, [], []⟩] }
def Sys2Proof.Fix.stHeld (pal : Sparse Elem) : State :=
  { st (team held) pal with cur := ⟨.main 1 0 [0, 1, 2, 3], none, false, [], 0, []⟩ }

/-- 02_palette.md, masked writes, step 3: reading `v5` where a lane's element is not valid; ROW 5, SPACE 0, and the lane in LANES. -/
theorem test_uninit_read : trapOf (.vAddN32 false 6 5 0 5) (stHeld []) = some (4, 5 * 2 ^ 32 + 1) := by decide +kernel

/-- R38: a row beyond the allocation of 40; R212, R42: a scalar that is not valid. -/
theorem test_bound_and_scalar : trapOf (.vAddN32 false 40 5 0 5) (stHeld []) = some (7, info43 0 3 3 40 1) ∧
    trapOf (.sAddN32 false 1 0) (stHeld []) = some (4, info43 1 1 0 0 1) := by decide +kernel

/-- R232: `trap 0xA5` raises code 0xA5 with the live active lanes. -/
theorem test_trap_word : trapOf (.trap false 0xA5) (stHeld []) = some (0xA5, 1) := by decide +kernel

/-- R223: `call` at slot 1 of packet 0 writes the number of the next packet; R224 returns to it. -/
def Sys2Proof.Fix.pkt (va v : Nat) : CodeItem := ⟨0, 0x40000, va, 12, v⟩
def Sys2Proof.Fix.coded (s : State) : State :=
  ((s.putCode 0 (pkt 0 fetchHeader)).putCode 0 (pkt 12 fetchHeader)).putCode 0 (pkt 24 fetchHeader)
def Sys2Proof.Fix.pcAfter (i : Instr) (s : State) : Option Pc :=
  match exec i s with
  | .next t => (t.group? 1 0).map (fun g => (g.slice 0).pc)
  | _ => none
theorem test_call_and_ret :
    scalAfter (.call false 5 (.off 2)) (coded (st (team group) [])) 5 = some 1 ∧
    pcAfter (.call false 5 (.off 2)) (coded (st (team group) [])) = some ⟨2, 0⟩ ∧
    pcAfter (.ret false 5) (coded (st (team group) (scal [0, 0, 0, 0, 0, 1]))) = some ⟨1, 0⟩ := by decide +kernel

/-- R215: `beq` goes to its target when the scalars are equal, else to the next word. -/
theorem test_branch :
    pcAfter (.beq false 0 1 (.off 2)) (coded (st (team group) (scal [5, 5]))) = some ⟨2, 0⟩ ∧
    pcAfter (.beq false 0 1 (.off 2)) (coded (st (team group) (scal [5, 6]))) = some ⟨0, 2⟩ ∧
    pcAfter (.bltS32 false 0 1 (.off 2)) (coded (st (team group) (scal [0xFFFFFFFF, 1]))) = some ⟨2, 0⟩ ∧
    pcAfter (.bltN32 false 0 1 (.off 2)) (coded (st (team group) (scal [0xFFFFFFFF, 1]))) = some ⟨0, 2⟩ := by decide +kernel

/-- R248, R44: `vget` reads row index plus signed offset, each lane its own element; `vput` writes it. -/
theorem test_indexed_rows :
    vecAfter (.vgetB32 false 3 1 0 2) (st (team group) (row 5 0 1 ++ row 6 10 11 ++ row 7 20 21)) 3 31 = some 21 ∧
    vecAfter (.vgetB32 false 3 1 0 127) (st (team group) (row 4 7 8 ++ row 5 1 2 ++ row 6 10 11)) 3 0 = some 7 ∧
    vecAfter (.vputB32 false 2 1 0 127) (st (team group) (row 5 1 2 ++ row 6 10 11)) 1 31 = some 11 := by decide +kernel

/-- R227: LANEID by lane, and GROUP's registers as the spec numbers them; `sget` of MODE. -/
theorem test_sget_mode : scalAfter (.sgetScalar false 7 2) (st (team (moded 13)) []) 2 = some 13 := by decide +kernel

/-! ## The matrix stream and the Carder, run from a word in memory -/

/-- The scalar `q` of the stream, and the register of the walk, after one step on a word laid where it is fetched. -/
def Sys2Proof.Fix.qAfter (w q : Nat) : Option Nat :=
  match step (State.reset.withFetchWord 32 w) with
  | .next t => (t.teams.head?.bind (fun t => t.stream)).map (fun st => st.val q)
  | _ => none
def Sys2Proof.Fix.cregAfter (w r : Nat) : Option Nat :=
  match step (State.reset.withFetchWord 32 w) with
  | .next t => t.walks.head?.map (fun k => k.regs.getD r 99)
  | _ => none

/-- R279: `qli q3, 1` and `qlih`; R290: `cli` of a negative number, `caddi`. -/
theorem test_stream_and_carder_words :
    qAfter 0x06030001 3 = some 1 ∧ cregAfter 0x15807FFF 11 = some (2 ^ 64 - 1) ∧ cregAfter 0x45800010 11 = some 16 := by
  decide +kernel

/-- The published examples of SM3 ("abc") and SM4, the standards that R336 and R339 name (log entry 125). -/
theorem test_ciphers : natBE (sm3 [0x61, 0x62, 0x63]) = 0x66c7f0f462eeedd9d1f2d46bdc10e4e24167c4875cf2f7a2297da02b8f4ba8e0 ∧
    natBE (sm4Block (sm4Keys (bytesBE 16 0x0123456789abcdeffedcba9876543210)) (bytesBE 16 0x0123456789abcdeffedcba9876543210)) =
      0x681edf34d206965e86b3e94f536e4246 := by decide +kernel

/-- R336: a line written under one key pair and read under it is what was written; and with no key pair on either side. -/
theorem test_recrypt : recrypt 0 0 5 (List.replicate 64 7) = List.replicate 64 7 ∧
    recrypt (2 ^ 128 + 9) (2 ^ 128 + 9) 5 (List.replicate 64 7) = List.replicate 64 7 := by decide +kernel

/-! ## Witnesses: states and operands that meet the hypotheses of the statements -/

/-- The general witness: scalars `s0` to `s9`, and `v0` to `v5` in lanes 0 and 31, at the edges of the allocation too. -/
def Sys2Proof.Fix.pal0 : Sparse Elem :=
  scal [3, 5, 0xFFFFFFFF, 0, 7, 1, 2, 9, 0x1000, 0] ++ [(palKey 0 3 30, Elem.of 4), (palKey 0 3 31, Elem.of 6)] ++ row 4 1 2 ++
    row 5 0 1 ++ row 6 10 20 ++ row 7 30 31 ++ row 8 0x3F800000 0x40000000 ++ row 9 3 3 ++ row 43 8 9
def Sys2Proof.Fix.s0 : State := st (team group) pal0
def Sys2Proof.Fix.c0 : Ctx := ctx (team group) pal0

theorem fix_issues : s0.issues c0 := issues_of (by decide +kernel)

/-- The context has the lanes 0 and 31. -/
theorem fix_lanes : c0.lanes = [0, 31] := by decide +kernel

theorem witness_ScalarResults : s0.issues c0 ∧ c0.ready s0 [rdS 127 1, rwS 0] = true ∧ c0.ready s0 [rdS 0 1, wrS 127] = true ∧
    c0.ready s0 [rdS 126 1, rdS (126 + 1) 1, wrS 0, wrS (0 + 1)] = true ∧
    c0.ready s0 [rdS 126 1, rdS (126 + 1) 1, rwS 0, rwS (0 + 1)] = true ∧ c0.ready s0 [rdS 0 1, rwS 126, rwS (126 + 1)] = true :=
  ⟨fix_issues, by decide +kernel⟩

theorem witness_ScalarImmediateResults : s0.issues c0 ∧ c0.ready s0 [rwS 127] = true ∧ c0.ready s0 [wrS 127] = true ∧
    c0.ready s0 [wrS 126, wrS (126 + 1)] = true ∧ c0.ready s0 [rwS 126, rwS (126 + 1)] = true := ⟨fix_issues, by decide +kernel⟩

theorem witness_VectorIntegerResults : s0.issues c0 ∧ c0.ready s0 [rdV 39 0, rdB 0 0, wrV 39] = true ∧
    c0.ready s0 [rdV 39 0, rdB 1 127, wrV 0] = true ∧ c0.ready s0 [rdV 0 0, wrV 39] = true := ⟨fix_issues, by decide +kernel⟩

theorem witness_FloatResults : s0.issues c0 ∧ c0.ready s0 [rdV 4 0, rdB 0 4, wrV 39] = true ∧
    c0.ready s0 [rdV 4 0, rdB 1 127, ⟨.v 39, 2, true, true⟩] = true ∧ c0.ready s0 [rdV 4 0, wrV 39] = true :=
  ⟨fix_issues, by decide +kernel⟩

theorem witness_PredicateResults : s0.issues c0 ∧ c0.ready s0 [rdV 39 0, rdB 1 127] = true ∧ c0.ready s0 [wrS 127] = true ∧
    c0.ready s0 [wrV 39] = true ∧ c0.ready s0 [rdV 39 0] = true := ⟨fix_issues, by decide +kernel⟩

theorem witness_IndexedRowResults : s0.issues c0 ∧
    (∀ l ∈ c0.lanes, 0 ≤ c0.idxRow 1 (sext 7 4) l ∧ c0.idxRow 1 (sext 7 4) l < (c0.idxLim 0 : Int)) ∧
    c0.ready s0 [rdV 1 0, wrV 39] = true ∧
    (∀ l ∈ c0.lanes, c0.reachable s0 false ⟨l, idxLoc 0 (c0.idxRow 1 (sext 7 4) l).toNat, l⟩ = true) ∧
    c0.ready s0 [rdV 1 0, rdV 39 2] = true ∧
    (∀ l ∈ c0.lanes, c0.reachable s0 true ⟨l, idxLoc 0 (c0.idxRow 1 (sext 7 4) l).toNat, l⟩ = true) :=
  ⟨fix_issues, by decide +kernel⟩

/-- Lane 0 reads lane 31 of row 0, lane 31 lane 0 of row 1. -/
def Sys2Proof.Fix.palX : Sparse Elem := row 4 40 41 ++ row 5 0 1 ++ row 6 31 0 ++ row 7 50 51
theorem witness_CrossLaneResults : (st (team group) palX).issues (ctx (team group) palX) ∧
    (∀ l ∈ (ctx (team group) palX).lanes, ((ctx (team group) palX).vec 1 l).toNat < (ctx (team group) palX).idxLim 0 ∧
      ((ctx (team group) palX).vec 2 l).toNat < (if (ctx (team group) palX).t.prot then 16 else 32)) ∧
    (ctx (team group) palX).ready (st (team group) palX) [rdV 1 0, rdV 2 1, wrV 3] = true ∧
    (∀ l ∈ (ctx (team group) palX).lanes, (ctx (team group) palX).g.live ((ctx (team group) palX).laneOf 2 l) = true →
      (ctx (team group) palX).reachable (st (team group) palX) false
        ⟨l, idxLoc 0 ((ctx (team group) palX).vec 1 l).toNat, (ctx (team group) palX).laneOf 2 l⟩ = true) ∧
    (ctx (team group) palX).ready (st (team group) palX) [rdV 1 0, rdV 2 1, rdV 3 2] = true ∧
    (∀ l ∈ (ctx (team group) palX).lanes, (ctx (team group) palX).reachable (st (team group) palX) true
      ⟨l, idxLoc 0 ((ctx (team group) palX).vec 1 l).toNat, (ctx (team group) palX).laneOf 2 l⟩ = true) ∧
    (ctx (team group) palX).agrees (fun l => ((ctx (team group) palX).vec 1 l, (ctx (team group) palX).vec 2 l)) = true ∧
    (ctx (team group) palX).agrees ((ctx (team group) palX).vec 3) = true := ⟨issues_of (by decide +kernel), by decide +kernel⟩

/-- `shfl.xor` by 31 exchanges lanes 0 and 31; `shfl.up` by 31 leaves lane 0 beyond the edge; the indexed form names the last lane. -/
theorem witness_ShuffleResults : s0.issues c0 ∧ c0.ready s0 [⟨.v 1, 0, false, false⟩, wrV 39] = true ∧
    (∀ l ∈ c0.lanes, ¬ (((l ^^^ 31 : Nat) : Int) < 0 ∨ 31 < ((l ^^^ 31 : Nat) : Int)) → c0.g.live ((l ^^^ 31 : Nat) : Int).toNat = true →
      c0.reachable s0 false ⟨l, .v 1, ((l ^^^ 31 : Nat) : Int).toNat⟩ = true) ∧
    (∀ l ∈ c0.lanes, ((l : Int) - 31 < 0 ∨ 31 < (l : Int) - 31) → c0.reachable s0 false ⟨l, .v 1, l⟩ = true) ∧
    c0.ready s0 [rdV 3 1] = true ∧ (∀ l ∈ c0.lanes, (c0.vec 3 l).toNat < 32) := ⟨fix_issues, by decide +kernel⟩

theorem witness_ReductionResults : s0.issues c0 ∧ c0.ready s0 [rdV 39 0, if (0 : Nat) = 1 then wrV 127 else wrS 127] = true ∧
    c0.ready s0 [rdV 39 0, if (1 : Nat) = 1 then wrV 39 else wrS 39] = true ∧
    c0.ready s0 [⟨.v 39, 0, false, false⟩, rdS 2 1, redDst 0 126, redDst 0 (126 + 1)] = true ∧ (126 : Nat) ≠ 127 ∧
    c0.ready s0 [⟨.v 39, 0, false, false⟩, rdS 2 1, redDst 1 38, redDst 1 (38 + 1)] = true ∧
    (∀ l ∈ c0.lanes, (c0.scal 2).getLsbD l = true → (c0.elem (.v 39) l).good = true) ∧ c0.unlocked s0 (rdV 39 0) = true :=
  ⟨fix_issues, by decide +kernel⟩

theorem witness_ConversionResults : s0.issues c0 ∧ c0.ready s0 ((cvtForm 0 3 0 (some 0x100)).uses 39 4) = true ∧
    s0.answerOf c0 (fun q => decide (q = .olist)) = none ∧
    (∀ l ∈ c0.lanes, c0.cvtLane (cvtForm 0 3 0 (some 0x100)) 4 l ≠ .outlier) := ⟨fix_issues, by decide +kernel⟩

/-- A header in slot 0 whose wait mask names flag 0, and the candidate at its clause's end. -/
def Sys2Proof.Fix.atHeader : Group := { group with slices := group.slices.map (fun x => { x with pc := ⟨1, 0⟩ }) }
theorem witness_ClauseResults : (st (team atHeader) []).issues (ctx (team atHeader) []) ∧ (ctx (team atHeader) []).pc.slot = 0 ∧
    ((ctx (team atHeader) []).g.slice ((ctx (team atHeader) []).sl.headD 0)).hdrEnd ≤ (ctx (team atHeader) []).pc.packet ∧
    (∀ i < 12, nbit 0xFFF i = true → (ctx (team atHeader) []).g.flags.getD i 0 = 0) ∧
    (∀ a ∈ [0, 11, 15], a < 12 ∨ a = 15) ∧ (∀ a ∈ [12, 14], 12 ≤ a ∧ a < 15) := ⟨issues_of (by decide +kernel), by decide +kernel⟩

/-- The same with the first three packets of the code fetched. -/
def Sys2Proof.Fix.sCode : State := coded (st (team group) pal0)
theorem code_issues : sCode.issues c0 := issues_of (by decide +kernel)

theorem witness_BranchResults : sCode.issues c0 ∧ c0.ready sCode [rdS 127 0, rdS 0 1] = true ∧
    c0.canEnter sCode (c0.target 6 (.off 2)) = true ∧ c0.canEnter sCode (c0.target 14 (.off 1)) = true ∧
    (∀ l ∈ c0.lanes, c0.g.pred 7 l = true) ∧ (∀ l ∈ c0.lanes, c0.g.pred 0 l = false) := ⟨code_issues, by decide +kernel⟩

theorem witness_DivergentBranchResults : sCode.issues c0 ∧ c0.canEnter sCode (c0.target 14 (.lit 2)) = true ∧
    c0.agrees (fun l => c0.g.pred 3 l) = true ∧ c0.sl.all (fun i => decide ((c0.g.slice i).stack.length < 16)) = true :=
  ⟨code_issues, by decide +kernel⟩

/-- Every slice has a MARK on its stack. -/
def Sys2Proof.Fix.marked : Group := { group with slices := group.slices.map (fun x => { x with stack := [⟨true, 2, 9⟩] }) }
theorem witness_TokenResults : (coded (st (team marked) [])).issues (ctx (team marked) []) ∧
    (ctx (team marked) []).canEnter (coded (st (team marked) [])) ((ctx (team marked) []).target 14 (.off 2)) = true ∧
    (ctx (team marked) []).sl.all (fun i => decide (((ctx (team marked) []).g.slice i).stack.length < 16)) = true ∧
    (ctx (team marked) []).sl.all (fun i => decide (0 < ((ctx (team marked) []).g.slice i).stack.length)) = true ∧
    (ctx (team marked) []).agrees (fun l => (ctx (team marked) []).g.pred 0 l) = true ∧
    (ctx (team marked) []).sl.all (fun i =>
      decide (0 < (((ctx (team marked) []).g.slice i).stack.filter (fun t => t.isMark)).length)) = true :=
  ⟨issues_of (by decide +kernel), by decide +kernel⟩

theorem witness_CallResults : sCode.issues c0 ∧ c0.ready sCode [wrS 127] = true ∧ c0.canEnter sCode (c0.target 12 (.off 2)) = true ∧
    c0.canEnter sCode ((c0.pc.packet : Int) + 1) = true ∧ c0.ready sCode [rdS 5 0] = true ∧
    c0.canEnter sCode ((c0.scal 5).toNat : Int) = true := ⟨code_issues, by decide +kernel⟩

/-- The group inside a handler. -/
def Sys2Proof.Fix.inHandler : Group :=
  { group with trapcode := 0x316, trappc := 4, saved := some ⟨group.slices, group.cands, List.range 8⟩ }
theorem witness_SystemRegisterResults : (st (team inHandler) pal0).issues (ctx (team inHandler) pal0) ∧
    (ctx (team inHandler) pal0).ready (st (team inHandler) pal0) [wrS 127] = true ∧
    (ctx (team inHandler) pal0).ready (st (team inHandler) pal0) [wrS 126, wrS (126 + 1)] = true ∧
    (ctx (team inHandler) pal0).ready (st (team inHandler) pal0) [wrV 39] = true ∧
    (ctx (team inHandler) pal0).ready (st (team inHandler) pal0) [wrV 38, wrV (38 + 1)] = true ∧
    (ctx (team inHandler) pal0).ready (st (team inHandler) pal0) [rdS 127 0] = true ∧
    (ctx (team inHandler) pal0).ready (st (team inHandler) pal0) [rdS 126 0, rdS (126 + 1) 0] = true ∧
    (ctx (team inHandler) pal0).g.inprog = true := ⟨issues_of (by decide +kernel), by decide +kernel⟩

theorem witness_TrapWordResults : s0.issues c0 := fix_issues

theorem witness_ReturnFromTrap : (st (team inHandler) pal0).issues (ctx (team inHandler) pal0) ∧
    (ctx (team inHandler) pal0).g.inprog = true ∧
    (ctx (team inHandler) pal0).g.liveSlices.all (fun i => (ctx (team inHandler) pal0).sl.contains i) = true ∧
    (ctx (team inHandler) pal0).g.trappc % 4 ≠ 3 ∧
    ((ctx (team inHandler) pal0).g.pcWritten = true → (ctx (team inHandler) pal0).g.trappc % 4 = 0 ∧
      (ctx (team inHandler) pal0).canEnter (st (team inHandler) pal0) (((ctx (team inHandler) pal0).g.trappc / 4 : Nat) : Int) = true) ∧
    (ctx (team inHandler) pal0).t.status ≠ .killed ∧
    (∀ x ∈ frameCells, (palGet (st (team inHandler) pal0).pal 0 ((ctx (team inHandler) pal0).g.trapRow + x.1) x.2).ecc = .sound) :=
  ⟨issues_of (by decide +kernel), by decide +kernel⟩

/-- The routes of core 0 to the four stacks of its die. -/
def Sys2Proof.Fix.local0 : Sparse Nat := [(routeKey 0 0 0 0 16, 8), (routeKey 0 0 0 0 17, 8), (routeKey 0 0 0 0 18, 8), (routeKey 0 0 0 0 19, 8)]
/-- The page of address 0 in core 0's TLB, its routes to the four stacks of its die, and the first packets of its code. -/
def Sys2Proof.Fix.mapped (s : State) : State :=
  { coded s with
    cores := [(0, { Core.fresh with tlb := [⟨0, 0, 65536, 0, 0, true, true, true, 3⟩] })]
    routes := local0 }

/-- A pool entry in the code store. -/
def Sys2Proof.Fix.pooled (s : State) (ix v : Nat) : State := s.putCode 0 ⟨0, 0x40000, 0x1000 + 8 * ix, 8, v⟩

theorem witness_ReturnFromTrap_written : ((ctx (team { inHandler with pcWritten := true }) pal0).g.pcWritten = true) ∧
    (ctx (team { inHandler with pcWritten := true }) pal0).g.trappc % 4 = 0 ∧
    (ctx (team { inHandler with pcWritten := true }) pal0).canEnter (coded (st (team { inHandler with pcWritten := true }) pal0))
      (((ctx (team { inHandler with pcWritten := true }) pal0).g.trappc / 4 : Nat) : Int) = true := by decide +kernel

theorem witness_BarrierResults : s0.issues c0 ∧ 7 < c0.t.kernel.bars ∧ c0.soundBarrier s0 7 = true ∧
    s0.outstanding (s0.earlier c0.t.id c0.g.num c0.sl 1) = false ∧ c0.ready s0 [rdS 127 0] = true ∧
    (c0.scal 127).toNat % 2 ^ 16 ≠ 0 ∧ (c0.t.barrier 7).sectors = 0 ∧ (c0.t.barrier 7).arrivals = (c0.t.barrier 7).reload ∧
    c0.ready s0 [wrS 124, wrS (124 + 1), wrS (124 + 2), wrS (124 + 3)] = true ∧ c0.ready s0 [rdS 7 0] = true ∧
    (c0.t.barrier 7).reached ((c0.scal 7).toNat % 16) = true ∧
    (s0.swappable c0.t.id 7).all (fun e => (s0.swLockedRow e).isNone) = true := ⟨fix_issues, by decide +kernel⟩

/-- Batches 3 and 4 are complete; 5 is the next. -/
theorem witness_BatchResults : s0.issues c0 ∧ s0.outstanding (s0.earlier c0.t.id c0.g.num c0.sl 5) = false ∧
    c0.ready s0 [wrS 127] = true ∧ c0.g.openBatches.length < 16 ∧ c0.ready s0 [rdS 127 0] = true ∧
    batchAge ((c0.g.nextBatch + 65535) % 65536) ((c0.scal 0).toNat % 65536) < 32768 ∧
    c0.g.batchDone ((c0.scal 0).toNat % 65536) = true := ⟨fix_issues, by decide +kernel⟩

/-- `s0`, `s1` the pair 0x100; `v1` the indices 0 and 1. -/
def Sys2Proof.Fix.palM : Sparse Elem :=
  scal [0x100, 0, 1, 0, 0, 0] ++ row 4 0x200 0x240 ++ row 5 0 1 ++ row 6 0 0 ++ row 7 30 31 ++ row 8 5 6 ++ row 9 7 8 ++ row 10 9 10
def Sys2Proof.Fix.sM : State := mapped (st (team group) palM)
def Sys2Proof.Fix.cM : Ctx := ctx (team group) palM
theorem mem_issues : sM.issues cM := issues_of (by decide +kernel)

theorem witness_LoadStoreResults : sM.issues cM ∧ cM.ready sM [rdS 0 0, rdS (0 + 1) 0, rdV 1 0, wrV 39] = true ∧
    cM.flagFree 0 = true ∧ cM.flagFree 1 = true ∧ cM.flagFree 2 = true ∧
    (∀ z ∈ [1, 2, 4], cM.agrees (cM.idxVa 0 1 z 3) = true ∧
      cM.reaches sM false true z rightsR (cM.lanes.map (fun l => ⟨l, cM.idxVa 0 1 z 3 l, 0, 0, [l]⟩)) = true ∧
      cM.tagged sM (pieces 0 5 z (cM.places sM z rightsR (cM.lanes.map (fun l => ⟨l, cM.idxVa 0 1 z 3 l, 0, 0, [l]⟩)))) = true ∧
      cM.agrees (fun l => (cM.vec 3 l).toNat % 2 ^ (8 * z)) = true ∧
      cM.reaches sM true true z rightsW (cM.lanes.map (fun l => ⟨l, cM.idxVa 0 1 z 3 l, (cM.vec 3 l).toNat % 2 ^ (8 * z), 0, []⟩)) = true ∧
      cM.tagged sM (pieces 0 5 z (cM.places sM z rightsW
        (cM.lanes.map (fun l => ⟨l, cM.idxVa 0 1 z 3 l, (cM.vec 3 l).toNat % 2 ^ (8 * z), 0, []⟩)))) = true) ∧
    cM.ready sM [rdS 0 0, rdS (0 + 1) 0, rdV 1 0, rdV 3 1] = true := ⟨mem_issues, by decide +kernel⟩

theorem witness_MemoryFrames : sM.issues cM ∧ cM.ready sM [rdS 0 0, rdS (0 + 1) 0, rdV 1 0, wrV 0] = true ∧ cM.flagFree 2 = true ∧
    cM.agrees (cM.idxVa 0 1 4 0) = true ∧
    cM.reaches sM false true 4 rightsR (cM.lanes.map (fun l => ⟨l, cM.idxVa 0 1 4 0 l, 0, 0, [l]⟩)) = true ∧
    cM.tagged sM (pieces 0 5 4 (cM.places sM 4 rightsR (cM.lanes.map (fun l => ⟨l, cM.idxVa 0 1 4 0 l, 0, 0, [l]⟩)))) = true := ⟨mem_issues, by decide +kernel⟩

theorem witness_ScalarAddressResults : sM.issues cM ∧ cM.flagFree 1 = true ∧ cM.lanes ≠ [] ∧ cM.lanes.getLast? = some 31 ∧
    (∀ ds ∈ [0, 1], ∀ z ∈ [0, 1, 2, 3],
      cM.ready sM ([rdS 0 0, rdS (0 + 1) 0] ++ partsOf (decide (ds = 1)) 2 (partCount (2 ^ z)) false true 3) = true ∧
      cM.reaches sM false true (2 ^ z) rightsR [⟨0, cM.pair 0, 0, 0, if ds = 1 then [] else cM.lanes⟩] = true ∧
      cM.tagged sM (pieces 0 5 (2 ^ z) (cM.places sM (2 ^ z) rightsR [⟨0, cM.pair 0, 0, 0, cM.lanes⟩])) = true ∧
      cM.ready sM ([rdS 0 0, rdS (0 + 1) 0] ++ partsOf (decide (ds = 1)) 2 (partCount (2 ^ z)) true false 1) = true ∧
      cM.agrees (fun l => cM.partsVal (decide (ds = 1)) 2 (partCount (2 ^ z)) l % 2 ^ (8 * 2 ^ z)) = true ∧
      cM.reaches sM true true (2 ^ z) rightsW
        [⟨0, cM.pair 0, cM.partsVal (decide (ds = 1)) 2 (partCount (2 ^ z)) 31 % 2 ^ (8 * 2 ^ z), 0, []⟩] = true) :=
  ⟨mem_issues, by decide +kernel⟩

/-- `atom.add.n32` and `atom.cas.b64` with the lanes' addresses in `v0`, `v1`, and with the scalar address in `s0`, `s1`. -/
def Sys2Proof.Fix.palA : Sparse Elem :=
  scal [0x100, 0, 1, 2, 3, 4] ++ row 4 0x200 0x240 ++ row 5 0 0 ++ row 6 1 2 ++ row 7 3 4 ++ row 8 5 6 ++ row 9 7 8
def Sys2Proof.Fix.sA : State := mapped (st (team group) palA)
def Sys2Proof.Fix.cA : Ctx := ctx (team group) palA
def Sys2Proof.Fix.accsA (u : Nat) : List Access :=
  if u = 1 then [⟨0, cA.pair 0, 1, 2, []⟩]
  else cA.primaries.map (fun l => ⟨l, (cA.vec 0 l).toNat + (cA.vec (0 + 1) l).toNat * 2 ^ 32, 1, 2, [l]⟩)
theorem witness_AtomicResults : sA.issues cA ∧ cA.flagFree 2 = true ∧
    (∀ e ∈ ([(AtomOp.addN, false), (AtomOp.cas, true), (AtomOp.and, false)] : List (AtomOp × Bool)), ∀ u ∈ [0, 1],
      cA.ready sA (partsOf (decide (u = 1)) 2 ((if e.1 = .cas then 2 else 1) * (if e.2 then 2 else 1)) true false 2 ++
        (if u = 1 then [rdS 0 0, rdS (0 + 1) 0] else [rdV 0 0, rdV (0 + 1) 0]) ++
        partsOf (decide (u = 1)) 2 (if e.2 then 2 else 1) false true 3) = true ∧
      cA.agrees (fun l => (cA.vec 0 l).toNat + (cA.vec (0 + 1) l).toNat * 2 ^ 32) = true ∧
      (∀ host, cA.reaches sA true host (if e.2 then 8 else 4) rightsRW (accsA u) = true) ∧
      cA.tagged sA (pieces 0 6 (if e.2 then 8 else 4) (cA.places sA (if e.2 then 8 else 4) rightsRW (accsA u))) = true) := ⟨issues_of (by decide +kernel), by decide +kernel⟩

theorem witness_SwatchWordResults : sM.issues cM ∧ cM.lanes ≠ [] ∧
    cM.ready sM ([rdS 0 0, rdS (0 + 1) 0, rdS (0 + 2) 0] ++ [rdS (0 + 3) 0] ++
      (List.range (SwOp.sends .atomCas)).map (fun i => rdV (2 + i) 2) ++ [wrV 2]) = true ∧
    cM.ready sM ([rdS 0 0, rdS (0 + 1) 0, rdS (0 + 2) 0] ++ [] ++ (List.range (SwOp.sends .st)).map (fun i => rdV (2 + i) 2) ++ []) = true ∧
    cM.flagFree 2 = true ∧ 7 < cM.t.kernel.bars ∧ cM.agrees (fun l => (cM.vec 2 l, cM.vec (2 + 1) l)) = true ∧
    sM.swAnswer cM = none ∧ cM.soundBarrier sM 7 = true ∧ (sM.die (dieOf cM.t.core)).rtbusy ≠ some cM.t.part := ⟨mem_issues, by decide +kernel⟩

/-- A pool entry of `export`: rows 4 to 7 of the vector rows, rights 1, scope 1, D = `s10`. -/
def Sys2Proof.Fix.expEntry : Nat := 2 ^ 39 + 2 ^ 36 + 3 * 2 ^ 24 + 4 * 2 ^ 12 + 10
def Sys2Proof.Fix.sE : State := pooled sM 15 expEntry
theorem witness_ExportResults : sE.issues cM ∧ cM.poolEntry sE 15 = .ok expEntry ∧ (exportForm expEntry).ok = true ∧
    ((exportForm expEntry).hasb = true → (exportForm expEntry).bn < cM.t.kernel.bars) ∧
    cM.ready sE [wrS (exportForm expEntry).d, wrS ((exportForm expEntry).d + 1)] = true ∧
    (exportForm expEntry).base + (exportForm expEntry).rows ≤ (if (exportForm expEntry).team then cM.t.kernel.trows else cM.g.vrows) ∧
    (sE.swOf cM.t.id).length < 64 ∧ sE.swOverlap cM (exportForm expEntry) = false ∧ sE.swRoom (homeOfKey cM.t.tkey) = true ∧
    ((exportForm expEntry).dbl = true → sE.lockRoom cM.t.core 1 = true) := ⟨issues_of (by decide +kernel), by decide +kernel⟩

/-- A shape record of four rows in `s0` to `s3`, and the metadata of `.x24` in `s4`, `s5`; rows `v0` to `v3` valid in every lane. -/
def Sys2Proof.Fix.full (n v : Nat) : Sparse Elem := (List.range 32).map (fun l => (palKey 0 n l, Elem.of (BitVec.ofNat 32 v)))
def Sys2Proof.Fix.palC : Sparse Elem := scal [0x100, 0, 2 * 2 ^ 19, 128] ++ full 4 5 ++ full 5 6
def Sys2Proof.Fix.palC24 : Sparse Elem := scal [0x100, 0, 2 * 2 ^ 19 + 2 ^ 12, 128, 0x800, 0] ++ full 4 5 ++ full 5 6
def Sys2Proof.Fix.copyMet (pal : Sparse Elem) (k : OpKind) : Bool :=
  let s := st (team group) pal
  let c := ctx (team group) pal
  let snap := (List.range (if k.hasMeta then 6 else 4)).map (fun i => (c.scal (0 + i)).toNat)
  let r : RowRange := ⟨decide ((0 : Nat) = 1), (shapeOf snap).tgt, 0, (shapeOf snap).count, !k.outward, 0⟩
  let mems := memLockOf c.t (shapeOf snap).base (((shapeOf snap).count - 1) * (shapeOf snap).stride + copyBytes k c.t.prot) k.outward ::
    (if k.hasMeta then [memLockOf c.t (shapeOf snap).metaVa ((shapeOf snap).count * (shapeOf snap).metaBytes) k.outward] else [])
  issues s c && c.g.isP && decide (7 < c.t.kernel.bars) && c.soundBarrier s 7 && decide (s.opCount c.t.core < 64) && !c.t.prot &&
    c.ready s ((List.range (if k.hasMeta then 6 else 4)).map (fun i => rdS (0 + i) 0)) &&
    decide ((shapeOf snap).sub k c.t.prot (decide ((0 : Nat) = 1)) (c.t.group? (shapeOf snap).tgt).isSome = 0) && r.clear s c.t &&
    (!k.outward || decide (r.chkValid s c.t (fun _ => readLanes c.t.prot) = none)) && mems.all (fun l => decide (l.chkMem s = none)) &&
    s.lockRoom c.t.core (1 + mems.length)
theorem witness_CopyResults : copyMet palC .copyRows = true ∧ copyMet palC .copyCol = true ∧ copyMet palC .copyOut = true ∧
    copyMet palC24 .copyX24 = true ∧ copyMet palC24 .copyC24 = true := by decide +kernel

/-- `copy.swatch` of row `v0` to one swatch. -/
def Sys2Proof.Fix.palS : Sparse Elem := scal [0, 1, 2 ^ 19, 0, 0x10001, 0, 0, 0] ++ full 4 5
theorem witness_CopyResults_swatch :
    issues (st (team group) palS) (ctx (team group) palS) = true ∧ (ctx (team group) palS).g.isP = true ∧
    (ctx (team group) palS).t.prot = false ∧ 7 < (ctx (team group) palS).t.kernel.bars ∧
    (ctx (team group) palS).soundBarrier (st (team group) palS) 7 = true ∧
    (st (team group) palS).opCount (ctx (team group) palS).t.core < 64 ∧
    (st (team group) palS).lockRoom (ctx (team group) palS).t.core 1 = true ∧
    ((ctx (team group) palS).scal (0 + 1)).toNat % 16 = 1 ∧
    (ctx (team group) palS).ready (st (team group) palS) ((List.range (4 + 2 * 1)).map (fun i => rdS (0 + i) 0)) = true ∧
    (shapeOf [0, 1, 2 ^ 19, 0, 0x10001, 0]).swSub [0, 1, 2 ^ 19, 0, 0x10001, 0] (decide ((0 : Nat) = 1))
      ((ctx (team group) palS).t.group? (shapeOf [0, 1, 2 ^ 19, 0, 0x10001, 0]).tgt).isSome = 0 ∧
    RowRange.clear ⟨decide ((0 : Nat) = 1), (shapeOf [0, 1, 2 ^ 19, 0, 0x10001, 0]).tgt, 0,
      (shapeOf [0, 1, 2 ^ 19, 0, 0x10001, 0]).count, false, 0⟩ (st (team group) palS) (ctx (team group) palS).t = true ∧
    RowRange.chkValid ⟨decide ((0 : Nat) = 1), (shapeOf [0, 1, 2 ^ 19, 0, 0x10001, 0]).tgt, 0,
      (shapeOf [0, 1, 2 ^ 19, 0, 0x10001, 0]).count, false, 0⟩ (st (team group) palS) (ctx (team group) palS).t (fun _ => allLanes) = none := by
  decide +kernel

/-- A walk descriptor in `s0` to `s18`: entry 0, one row, step limit 8, filled. -/
def Sys2Proof.Fix.walkSnap : List Nat := [2 ^ 15, 1, 8] ++ List.replicate 16 0
def Sys2Proof.Fix.sW : State := st (team group) (scal walkSnap)
def Sys2Proof.Fix.cW : Ctx := ctx (team group) (scal walkSnap)
theorem witness_WalkResults : sW.issues cW ∧ cW.g.isP = true ∧ cW.t.prot = false ∧ 7 < cW.t.kernel.bars ∧
    cW.soundBarrier sW 7 = true ∧ sW.opCount cW.t.core < 64 ∧ sW.lockRoom cW.t.core 1 = true ∧
    sW.freeContext (clusterOf cW.t.core) = some 0 ∧ cW.ready sW ((List.range 19).map (fun i => rdS (0 + i) 1)) = true ∧
    (List.range 19).map (fun i => (cW.scal (0 + i)).toNat) = walkSnap ∧
    (walkForm walkSnap).sub (decide ((0 : Nat) = 1)) (cW.t.group? (walkForm walkSnap).tgt).isSome cW.t.kernel.cardlen = 0 ∧
    RowRange.clear ⟨decide ((0 : Nat) = 1), (walkForm walkSnap).tgt, 39, (walkForm walkSnap).nrows, true, 0⟩ sW cW.t = true :=
  ⟨issues_of (by decide +kernel), by decide +kernel⟩

/-- A gather of two 4-byte elements: table in `s0` to `s2`, count in `s3`, indices in `v1`, data to `v2`, mask to `v3`, barrier 7; and
a scatter of the same rows. -/
def Sys2Proof.Fix.gatherEntry : Nat := 2 * 2 ^ 43 + 3 * 2 ^ 36 + 3 * 2 ^ 29 + 1 * 2 ^ 22 + 0 * 2 ^ 15 + 2 * 2 ^ 7 + 7 * 2
def Sys2Proof.Fix.scatterEntry : Nat := 2 ^ 52 + 2 * 2 ^ 48 + 3 * 2 ^ 36 + 3 * 2 ^ 29 + 1 * 2 ^ 22 + 0 * 2 ^ 15 + 2 * 2 ^ 7 + 7 * 2
def Sys2Proof.Fix.palG : Sparse Elem := scal [0x100, 0, 16, 2] ++ [(palKey 0 5 0, Elem.of 3), (palKey 0 5 1, Elem.of 0)] ++
  [(palKey 0 6 0, Elem.of 30), (palKey 0 6 1, Elem.of 31)]
def Sys2Proof.Fix.gatherMet (scat : Bool) (v : Nat) : Bool :=
  let s := pooled (st (team group) palG) 2 v
  let c := ctx (team group) palG
  let f := gatherForm scat v
  let snap := [f.t, f.t + 1, f.t + 2, f.n].map (fun i => (c.scal i).toNat)
  let m := (c.scal f.n).toNat
  let data : RowRange := ⟨f.w, c.g.num, f.d, cdiv (m * f.esz) 128, !scat, 1⟩
  let index : RowRange := ⟨false, c.g.num, f.i, cdiv m 32, false, 2⟩
  let mask : RowRange := ⟨false, c.g.num, f.f, 1, true, 3⟩
  let mem := memLockOf c.t (tableBase snap) ((c.scal (f.t + 2)).toNat * f.esz) scat
  issues s c && c.g.isP && !c.t.prot && decide (s.opCount c.t.core < 64) && s.lockRoom c.t.core 4 &&
    decide (c.poolEntry s 2 = .ok v) && f.ok && decide (f.bn < c.t.kernel.bars) && c.soundBarrier s f.bn &&
    c.ready s [rdS f.t 1, rdS (f.t + 1) 1, rdS (f.t + 2) 1, rdS f.n 1] && decide (f.sub snap = 0) && data.clear s c.t &&
    index.clear s c.t && mask.clear s c.t && decide (index.chkValid s c.t (usedLanes m) = none) &&
    (!scat || decide (data.chkValid s c.t (usedLanes (cdiv (m * f.esz) 4)) = none)) &&
    (List.range m).all (fun i => decide ((palGet s.pal c.t.core (c.t.rowAt false c.g.num (f.i + i / 32)) (i % 32)).ecc = .sound)) &&
    (List.range (cdiv (m * f.esz) 4)).all (fun i =>
      decide ((palGet s.pal c.t.core (c.t.rowAt f.w c.g.num (f.d + i / 32)) (i % 32)).ecc = .sound)) && decide (mem.chkMem s = none)
theorem witness_GatherResults : gatherMet false gatherEntry = true ∧ gatherMet true scatterEntry = true := by decide +kernel

/-- A page table at 0x200000 that maps the first gigabyte onto itself with every right, a queue table at 0x8000 whose queue 0 has a
ring of 16 packets at 0x10000, and the pending bytes at 0x9000; more bytes of memory before them. -/
def Sys2Proof.Fix.table (n : Nat) (wridx : Byte) : List Host.Cell :=
  [(n + 2, 1), (n + 8, 4), (n + 9, 3), (n + 10, 1), (n + 12, 1)] ++ (if wridx = 0 then [] else [(n + 24, wridx)])
def Sys2Proof.Fix.pages : List Host.Cell := [(0x200000, 1), (0x200002, 0x30), (0x300000, 0x1F)]
def Sys2Proof.Fix.part0 : Part :=
  { Part.fresh with qtbase := 0x8000, pendbase := 0x9000, slotmax := 4, qcount := 4, ptroot := 0x200000, ptrootEn := true }
def Sys2Proof.Fix.virt (s : State) (m : List Host.Cell) : State := { s with parts := [(0, part0)], mem := m ++ pages, routes := local0 }

/-- `enq`: the packet's address in `s0`, `s1`, queue 0 in `s2`; with room, and with a full ring. -/
def Sys2Proof.Fix.palQ : Sparse Elem := scal [0x4000, 0, 0]
def Sys2Proof.Fix.sQ (wridx : Byte) : State := virt (mapped (st (team group) palQ)) (table 0x8000 wridx)
def Sys2Proof.Fix.cQ : Ctx := ctx (team group) palQ
def Sys2Proof.Fix.entry (wridx : Nat) : QEntry := ⟨0x10000, 4, 3, true, false, 1, 0, wridx, 0, true⟩
def Sys2Proof.Fix.read_ (w : Nat) : State := (sQ (BitVec.ofNat 8 w)).packetRead cQ.t 0x4000
theorem witness_ListResults_enq : (∀ w ∈ [0, 16], issues (sQ (BitVec.ofNat 8 w)) cQ = true ∧ cQ.offering = none ∧
    cQ.ready (sQ (BitVec.ofNat 8 w)) [rdS 0 0, rdS (0 + 1) 0, rdS (0 + 2) 0] = true ∧ (cQ.scal (0 + 2)).toNat < 2 ^ 16 ∧
    (cQ.scal (0 + 2)).toNat < ((sQ (BitVec.ofNat 8 w)).part cQ.t.part).qcount ∧ cQ.pair 0 % 64 = 0 ∧
    (sQ (BitVec.ofNat 8 w)).memLockSub cQ.t.id (cQ.pair 0) 64 false = 0 ∧
    cQ.locate (sQ (BitVec.ofNat 8 w)) (cQ.pair 0) 64 rightsR = .at_ 0x4000 0 ∧
    ((sQ (BitVec.ofNat 8 w)).die (dieOf cQ.t.core)).rtbusy ≠ some cQ.t.part ∧
    (sQ (BitVec.ofNat 8 w)).outstanding ((sQ (BitVec.ofNat 8 w)).earlier cQ.t.id cQ.g.num cQ.sl 4) = false ∧
    ((read_ w).qentry cQ.t.part (cQ.scal (0 + 2)).toNat).2 = some (entry w) ∧
    ((read_ w).qentry cQ.t.part (cQ.scal (0 + 2)).toNat).1.held = false ∧
    (((read_ w).qentry cQ.t.part (cQ.scal (0 + 2)).toNat).1.submit cQ.t.part (cQ.scal (0 + 2)).toNat (entry w)
      ((List.range 16).map (fun i => (sQ (BitVec.ofNat 8 w)).readMem 0 (0x4000 + 4 * i) 4))).held = false) ∧
    (entry 0).room = true ∧ (entry 16).room = false := by decide +kernel

/-- `bump` and `append` at the descriptor that `s0`, `s1` name. -/
theorem witness_ListResults : sM.issues cM ∧ cM.ready sM [rdS 0 0, rdS (0 + 1) 0, wrV 38, wrV (38 + 1)] = true ∧ cM.lanes ≠ [] ∧
    sM.answerOf cM (fun q => decide (q = .bump)) = none ∧ cM.chkDescriptor sM 32 (cM.pair 0) = .ok (0x100, 0) ∧
    cM.pair 0 % 64 = 0 ∧ cM.tagged sM (cM.bumpAsk 0 38 (cM.pair 0) 0x100 0).pieces = true ∧
    cM.ready sM [rdS 0 0, rdS (0 + 1) 0] = true ∧ cM.appendLanes 7 ≠ [] ∧ cM.flagFree 2 = true ∧
    (∀ q ∈ List.range 2, ({ cM with lanes := cM.lanes.filter (fun l => cM.g.pred 7 l) } : Ctx).ready sM [rdV (3 + q) 1] = true) ∧
    cM.agrees (fun l => (cM.g.pred 7 l, if cM.g.pred 7 l then cM.partsVal false 3 2 l else 0)) = true ∧
    cM.chkDescriptor sM 64 (cM.pair 0) = .ok (0x100, 0) := ⟨mem_issues, by decide +kernel⟩

/-- `shbind` of a window of 16 words at the foot of the shadow region: W in `s0`, X in `s2`, T in `s8`; and `shbind.off` of it. -/
def Sys2Proof.Fix.palB : Sparse Elem := scal [0, 0x10, 0x400, 0, 16, 0x800, 0, 0, 0x1000, 0, 16]
def Sys2Proof.Fix.window : Window := ⟨0x1000000000, 0x400, 16, 0x800, 0x1000, 16, 4⟩
def Sys2Proof.Fix.bindEntry : Nat := 4 * 2 ^ 21 + 8 * 2 ^ 14 + 2 * 2 ^ 7
def Sys2Proof.Fix.sB (l : List Window) : State :=
  { pooled (pooled (mapped (st (team group) palB)) 0 bindEntry) 1 0 with
    parts := [(0, { Part.fresh with shbase := 0x1000000000, shsize := 1, windows := l })] }
def Sys2Proof.Fix.cB : Ctx := ctx (team group) palB
theorem witness_GatherResults_window : issues (sB []) cB = true ∧ cB.poolEntry (sB []) 0 = .ok bindEntry ∧
    (bindForm bindEntry).ok = true ∧ cB.ready (sB []) (bindForm bindEntry).uses = true ∧
    window = ⟨cB.pair 0, cB.pair 2, (cB.scal 4).toNat, cB.pair 5, (cB.scal 8).toNat + (cB.scal 9).toNat % 2 ^ 25 * 2 ^ 32,
      (cB.scal 10).toNat, 4⟩ ∧
    window.sub ((sB []).part cB.t.part) (cB.scal 9).toNat = 0 ∧ (sB []).memLockSub cB.t.id window.stat 8 true = 0 ∧
    cB.locate (sB []) window.stat 8 rightsW = .at_ 0x800 0 ∧ ((sB []).die (dieOf cB.t.core)).rtbusy ≠ some cB.t.part ∧
    (sB []).outstanding ((sB []).earlier cB.t.id cB.g.num cB.sl 5) = false ∧
    issues (sB [window]) cB = true ∧ cB.poolEntry (sB [window]) 1 = .ok 0 ∧ cB.ready (sB [window]) [rdS (0 % 2 ^ 7) 0, rdS (0 % 2 ^ 7 + 1) 0] = true ∧
    ((sB [window]).part cB.t.part).windows.any (fun w => w.wbase == cB.pair (0 % 2 ^ 7)) = true := by decide +kernel

/-- "Cube inverse" of 15_ref_vector.md: the pool entry and the three routine words after `inv` in slot 1. -/
def Sys2Proof.Fix.invEntry : Nat := 0x00034471C1410182
def Sys2Proof.Fix.invGroup : Group := { group with slices := group.slices.map (fun x => { x with hdrEnd := 2 }) }
def Sys2Proof.Fix.palV : Sparse Elem := row 8 0x40000000 0x40400000 ++ row 9 0 0 ++ row 14 0 0 ++ row 15 0x40800000 0x40800000
def Sys2Proof.Fix.sV : State :=
  ((pooled (st (team invGroup) palV) 0 invEntry).putCode 0
    (pkt 0 (fetchHeader + 0x50000000 * 2 ^ 32 + 0x18818202 * 2 ^ 64))).putCode 0 (pkt 12 (0x18018305 + 0x18818302 * 2 ^ 32))
def Sys2Proof.Fix.cV : Ctx := ctx (team invGroup) palV
def Sys2Proof.Fix.invMet : Bool :=
  match cV.invRoutine sV false 0 with
  | .ok (f, v, ws, rs) => issues sV cV && decide (v = invEntry) && decide (ws.length = 3) &&
      cV.ready sV ((routScals rs).map (fun n => rdS n 1) ++ (f.reads rs).map (fun n => rdV n 0) ++ (f.writes rs).map wrV) &&
      (f.writes rs ++ f.t :: rs.flatMap (fun r => r.rows)).all (fun n => cV.inRange (.v n)) &&
      sV.lockRoom cV.t.core (f.locks cV rs).length
  | .error _ => false
theorem witness_InversionResults : invMet = true := by decide +kernel

theorem witness_RegisterFrames : s0.issues c0 ∧ c0.ready s0 [rdS 127 1, rwS 0] = true ∧ c0.ready s0 [rdS 0 1, wrS 127] = true ∧
    c0.ready s0 [rdS 126 1, rdS (126 + 1) 1, wrS 0, wrS (0 + 1)] = true ∧
    c0.ready s0 [rdS 126 1, rdS (126 + 1) 1, rwS 0, rwS (0 + 1)] = true ∧ c0.ready s0 [rdS 0 1, rwS 126, rwS (126 + 1)] = true ∧
    c0.ready s0 [rwS 127] = true ∧ c0.ready s0 [wrS 127] = true ∧ c0.ready s0 [wrS 126, wrS (126 + 1)] = true ∧
    c0.ready s0 [rwS 126, rwS (126 + 1)] = true ∧ c0.ready s0 [rdV 39 0, rdB 1 127, wrV 0] = true ∧
    c0.ready s0 [rdV 4 0, rdB 1 127, ⟨.v 39, 2, true, true⟩] = true ∧ c0.ready s0 [rdV 0 0, wrV 39] = true ∧
    c0.ready s0 [rdV 39 0, rdB 0 39] = true ∧ c0.ready s0 [wrV 39] = true ∧ c0.ready s0 [rdV 39 0] = true :=
  ⟨fix_issues, by decide +kernel⟩
/-- The indexed rows, and the lane exchanges, on rows whose every element is valid: `v0` holds 0 and `v1` holds 1. -/
def Sys2Proof.Fix.palF : Sparse Elem := full 4 0 ++ full 5 1
def Sys2Proof.Fix.sF : State := st (team group) palF
def Sys2Proof.Fix.cF : Ctx := ctx (team group) palF
theorem witness_RegisterFrames_lanes : issues sF cF = true ∧
    (∀ l ∈ cF.lanes, 0 ≤ cF.idxRow 1 (sext 7 0x7F) l ∧ cF.idxRow 1 (sext 7 0x7F) l < (cF.idxLim 0 : Int)) ∧
    cF.ready sF [rdV 1 0, wrV 39] = true ∧
    (∀ l ∈ cF.lanes, cF.reachable sF false ⟨l, idxLoc 0 (cF.idxRow 1 (sext 7 0x7F) l).toNat, l⟩ = true) ∧
    cF.ready sF [rdV 1 0, rdV 0 2] = true ∧
    (cF.lanes.map (fun l => (⟨l, idxLoc 0 (cF.idxRow 1 (sext 7 0x7F) l).toNat, l⟩ : Touch))).all (fun e => cF.reachable sF true e) = true ∧
    (∀ l ∈ cF.lanes, (cF.vec 0 l).toNat < cF.idxLim 0 ∧ (cF.vec 1 l).toNat < (if cF.t.prot then 16 else 32)) ∧
    cF.ready sF [rdV 0 0, rdV 1 1, wrV 39] = true ∧
    (∀ l ∈ cF.lanes, cF.g.live (cF.laneOf 1 l) = true → cF.reachable sF false ⟨l, idxLoc 0 (cF.vec 0 l).toNat, cF.laneOf 1 l⟩ = true) ∧
    cF.ready sF [rdV 0 0, rdV 1 1, rdV 1 2] = true ∧ cF.agrees (fun l => (cF.vec 0 l, cF.vec 1 l)) = true ∧
    cF.agrees (cF.vec 1) = true ∧
    (cF.lanes.map (fun l => (⟨l, idxLoc 0 (cF.vec 0 l).toNat, cF.laneOf 1 l⟩ : Touch))).all (fun e => cF.reachable sF true e) = true ∧
    cF.ready sF [⟨.v 1, 0, false, false⟩, wrV 0] = true ∧ cF.ready sF [rdV 1 1] = true ∧
    (∀ f ∈ ([fun l => ((cF.vec 1 l).toNat % 32 : Nat), fun l => (l : Int) - (1 : Nat), fun l => (l : Int) + (1 : Nat),
        fun l => ((l ^^^ 1 : Nat) : Int)] : List (Nat → Int)),
      (∀ l ∈ cF.lanes, (f l < 0 ∨ 31 < f l) → cF.reachable sF false ⟨l, .v 1, l⟩ = true) ∧
      (∀ l ∈ cF.lanes, ¬ (f l < 0 ∨ 31 < f l) → cF.g.live (f l).toNat = true → cF.reachable sF false ⟨l, .v 1, (f l).toNat⟩ = true)) := by
  decide +kernel
/-- The reductions, and a conversion. -/
theorem witness_RegisterFrames_reductions : c0.ready s0 [rdV 39 0, redDst 0 127] = true ∧ c0.ready s0 [rdV 39 0, redDst 1 39] = true ∧
    c0.ready s0 [⟨.v 39, 0, false, false⟩, rdS 2 1, redDst 0 126, redDst 0 (126 + 1)] = true ∧
    c0.ready s0 [⟨.v 39, 0, false, false⟩, rdS 2 1, redDst 1 38, redDst 1 (38 + 1)] = true ∧
    (∀ l ∈ c0.lanes, (c0.scal 2).getLsbD l = true → (c0.elem (.v 39) l).good = true) ∧ c0.unlocked s0 (rdV 39 0) = true ∧
    c0.ready s0 ((cvtForm 0 3 0 (some 0x100)).uses 5 4) = true ∧ (s0.answerOf c0 (fun q => decide (q = .olist))) = none ∧
    (∀ l ∈ c0.lanes, c0.cvtLane (cvtForm 0 3 0 (some 0x100)) 4 l ≠ .outlier) := by decide +kernel

/-- Operands that trap: a bound of 128 scalars and 40 rows, elements that are not valid, a load on its way to a row and a scalar, and
a lock. -/
def Sys2Proof.Fix.pending (s : State) : State :=
  { s with reqs := [⟨3, .load, 1, 0, [0], 0, 0, .rows 1 1, 0, [], none, [], [], .none⟩,
    ⟨4, .load, 1, 0, [0], 0, 0, .scalars 0 1, 0, [], none, [], [], .none⟩] }
def Sys2Proof.Fix.lockedRow (s : State) (n : Nat) (dest : Bool) : State := { s with locks := [⟨0, 5, 1, false, 4 + n, 4 + n, dest, none⟩] }
theorem witness_OperandTraps : s0.issues c0 ∧ (∀ n ∈ [0, 1, 100, 127, 128, 200], c0.sound (.s n) = true) ∧
    (∀ n ∈ [0, 1, 38, 39, 40], c0.sound (.v n) = true) ∧
    c0.offends s0 [rdS 128 1, rwS 200] 7 (info43 1 1 3 128 c0.mask) ∧
    c0.offends s0 [rdV 0 0, rdB 0 1, wrV 40] 7 (info43 0 3 3 40 c0.mask) ∧
    c0.offends s0 [rdS 0 1, rwS 100] 4 (info43 1 2 0 100 c0.mask) ∧
    c0.offends s0 [rdV 0 0, rdB 0 38, wrV 39] 4 (info43 0 1 0 38 (lanesMask [0, 31])) ∧
    c0.g.inprog = false ∧ c0.ready s0 [rdS 127 0] = true :=
  ⟨fix_issues, by decide +kernel, by decide +kernel,
    ⟨[], _, _, _, _, rfl, rfl, .inl ⟨rfl, rfl, rfl, by decide +kernel, by decide +kernel⟩⟩,
    ⟨[rdV 0 0, rdB 0 1], _, [], _, _, rfl, rfl, .inl ⟨rfl, rfl, rfl, by decide +kernel, by decide +kernel⟩⟩,
    ⟨[rdS 0 1], _, [], 0, c0.mask, rfl, rfl, .inr ⟨by decide +kernel, .inl ⟨rfl, rfl, rfl, by decide +kernel, rfl, by decide +kernel⟩⟩⟩,
    ⟨[rdV 0 0], _, [wrV 39], 0, lanesMask [0, 31], rfl, rfl,
      .inr ⟨by decide +kernel, .inl ⟨rfl, rfl, by decide +kernel, by decide +kernel, rfl, by decide +kernel⟩⟩⟩,
    by decide +kernel⟩
/-- PEND of B and of the destination; LOCK of A, of B, and of the destination under either lock. -/
theorem witness_OperandTraps_pending : issues (pending s0) c0 = true ∧
    c0.offends (pending s0) [rdV 0 0, rdB 0 1, wrV 39] 5 (info43 0 1 1 1 c0.mask) ∧
    c0.offends (pending s0) [rdS 5 1, rwS 0] 5 (info43 1 2 1 0 c0.mask) :=
  ⟨by decide +kernel,
    ⟨[rdV 0 0], _, _, _, _, rfl, rfl, .inr ⟨by decide +kernel, .inr ⟨by decide +kernel,
      .inl ⟨rfl, rfl, rfl, by decide +kernel, by decide +kernel⟩⟩⟩⟩,
    ⟨[rdS 5 1], _, [], _, _, rfl, rfl, .inr ⟨by decide +kernel, .inr ⟨by decide +kernel,
      .inl ⟨rfl, rfl, rfl, by decide +kernel, by decide +kernel⟩⟩⟩⟩⟩
theorem witness_OperandTraps_locks :
    (∀ e ∈ ([(1, true), (0, true), (39, false), (39, true)] : List (Nat × Bool)), issues (lockedRow s0 e.1 e.2) c0 = true) ∧
    c0.offends (lockedRow s0 0 true) [rdV 0 0, rdB 0 1, wrV 39] 6 (info43 0 0 1 0 c0.mask) ∧
    c0.offends (lockedRow s0 1 true) [rdV 0 0, rdB 0 1, wrV 39] 6 (info43 0 1 1 1 c0.mask) ∧
    c0.offends (lockedRow s0 39 true) [rdV 0 0, rdB 0 1, wrV 39] 6 (info43 0 3 2 39 c0.mask) ∧
    c0.offends (lockedRow s0 39 false) [rdV 0 0, rdB 0 1, wrV 39] 6 (info43 0 3 3 39 c0.mask) :=
  ⟨by decide +kernel, ⟨[], _, _, 1, _, rfl, rfl, .inr ⟨by decide +kernel, .inr ⟨by decide +kernel,
      .inr ⟨by decide +kernel, rfl, by decide +kernel, rfl, by decide +kernel, by decide +kernel⟩⟩⟩⟩,
    ⟨[rdV 0 0], _, _, 1, _, rfl, rfl, .inr ⟨by decide +kernel, .inr ⟨by decide +kernel,
      .inr ⟨by decide +kernel, rfl, by decide +kernel, rfl, by decide +kernel, by decide +kernel⟩⟩⟩⟩,
    ⟨[rdV 0 0, rdB 0 1], _, [], 2, _, rfl, rfl, .inr ⟨by decide +kernel, .inr ⟨by decide +kernel,
      .inr ⟨by decide +kernel, rfl, by decide +kernel, rfl, by decide +kernel, by decide +kernel⟩⟩⟩⟩,
    ⟨[rdV 0 0, rdB 0 1], _, [], 3, _, rfl, rfl, .inr ⟨by decide +kernel, .inr ⟨by decide +kernel,
      .inr ⟨by decide +kernel, rfl, by decide +kernel, rfl, by decide +kernel, by decide +kernel⟩⟩⟩⟩⟩

/-- Addresses: `s0`, `s1` the pair 0x101, which is not aligned for 4 bytes; a lock of the bytes at 0x100; a page that has no right of
any kind; and an address at 2^57. -/
def Sys2Proof.Fix.palVa (lo hi : Nat) : Sparse Elem := scal [lo, hi] ++ row 5 0 1 ++ row 7 30 31
def Sys2Proof.Fix.sVa (lo hi : Nat) : State := mapped (st (team group) (palVa lo hi))
def Sys2Proof.Fix.cVa (lo hi : Nat) : Ctx := ctx (team group) (palVa lo hi)
def Sys2Proof.Fix.lockedMem (s : State) : State := { s with locks := [⟨0, 5, 1, true, 0x100, 0x13F, true, none⟩] }
def Sys2Proof.Fix.noRights (s : State) : State :=
  { s with cores := [(0, { Core.fresh with tlb := [⟨0, 0, 65536, 0, 0, false, false, true, 3⟩] })] }
theorem witness_AddressTraps_align : issues (sVa 0x101 0) (cVa 0x101 0) = true ∧
    (cVa 0x101 0).ready (sVa 0x101 0) [rdS 0 0, rdS (0 + 1) 0, rdV 1 0, wrV 39] = true ∧
    (cVa 0x101 0).ready (sVa 0x101 0) [rdS 0 0, rdS (0 + 1) 0, rdV 1 0, rdV 3 1] = true ∧ (cVa 0x101 0).flagFree 2 = true ∧
    (cVa 0x101 0).agrees ((cVa 0x101 0).idxVa 0 1 4 0) = true ∧
    (cVa 0x101 0).lanes.find? (fun l => decide ((cVa 0x101 0).idxVa 0 1 4 0 l % 4 ≠ 0)) = some 0 := by decide +kernel
theorem witness_AddressTraps_lock : issues (lockedMem sM) cM = true ∧ (∀ l ∈ cM.lanes, cM.idxVa 0 1 4 0 l % 4 = 0) ∧
    cM.lanes.filter (fun l => decide ((lockedMem sM).memLockSub cM.t.id (cM.idxVa 0 1 4 0 l) 4 true ≠ 0)) = [0, 31] := by
  decide +kernel
theorem witness_AddressTraps_perm : issues (noRights sM) cM = true ∧
    (∀ l ∈ cM.lanes, (noRights sM).memLockSub cM.t.id (cM.idxVa 0 1 4 0 l) 4 false = 0) ∧
    (∀ l ∈ cM.lanes, cM.locate (noRights sM) (cM.idxVa 0 1 4 0 l) 4 rightsR = .fail 3 3 true) ∧ cM.lanes = [] ++ 0 :: [31] := by
  decide +kernel
theorem witness_AddressTraps_xlate : issues (sVa 0 0x2000000) (cVa 0 0x2000000) = true ∧
    (∀ l ∈ (cVa 0 0x2000000).lanes, (sVa 0 0x2000000).memLockSub 1 ((cVa 0 0x2000000).idxVa 0 1 4 0 l) 4 false = 0) ∧
    (∀ l ∈ (cVa 0 0x2000000).lanes, (cVa 0 0x2000000).locate (sVa 0 0x2000000) ((cVa 0 0x2000000).idxVa 0 1 4 0 l) 4 rightsR = .fail 7 4 true) := by
  decide +kernel

/-- Control words: a predicate that lanes 0 and 31 disagree on, full and empty stacks, two candidates waiting at `regang` numbers that
differ, and targets that are outside the code or start no clause. -/
def Sys2Proof.Fix.parting : Group := { group with preds := 1 :: List.replicate 6 0 }
def Sys2Proof.Fix.fullStack : Group :=
  { parting with slices := group.slices.map (fun x => { x with mask := 3, stack := List.replicate 16 ⟨true, 2, 9⟩ }) }
theorem witness_ControlTraps : (∀ g ∈ [group, parting, fullStack], issues (coded (st (team g) [])) (ctx (team g) []) = true) ∧
    (ctx (team parting) []).canEnter (coded (st (team parting) [])) ((ctx (team parting) []).target 14 (.off 2)) = true ∧
    (ctx (team parting) []).lanes.any (fun l => (ctx (team parting) []).g.pred 0 l) = true ∧
    (ctx (team parting) []).lanes.all (fun l => (ctx (team parting) []).g.pred 0 l) = false ∧
    16 ≤ ((ctx (team fullStack) []).g.slice 0).stack.length ∧ (ctx (team fullStack) []).agrees (fun l => (ctx (team fullStack) []).g.pred 0 l) = true ∧
    ((ctx (team fullStack) []).g.slice 0).mask &&& (ctx (team fullStack) []).g.predNibble 0 0 ≠ 0 ∧
    ((ctx (team fullStack) []).g.slice 0).mask &&& ~~~(ctx (team fullStack) []).g.predNibble 0 0 ≠ 0 ∧
    ((ctx (team group) []).g.slice 0).stack = [] ∧
    ((ctx (team group) []).g.slice 0).stack.filter (fun y => y.isMark) = [] := by decide +kernel
/-- `regang 1` of slices 0 to 3 while slices 4 to 7 wait at `regang 2`. -/
def Sys2Proof.Fix.atRegang : Group :=
  { wide with cands := [⟨[0, 1, 2, 3], .ready, 0, 0, [], []⟩, ⟨[4, 5, 6, 7], .regang 2, 0, 0, [], []⟩] }
def Sys2Proof.Fix.sRegang : State := { st (team atRegang) [] with cur := ⟨.main 1 0 [0, 1, 2, 3], none, false, [], 0, []⟩ }
def Sys2Proof.Fix.cRegang : Ctx :=
  ⟨team atRegang, atRegang, [], [0, 1, 2, 3], atRegang.active [0, 1, 2, 3], (atRegang.slice 0).pc⟩
def Sys2Proof.Fix.uRegang : State := sRegang.modG cRegang (fun g => g.modCand cRegang.sl (fun d => { d with wait := .regang 1 }))
theorem witness_ControlTraps_regang : issues sRegang cRegang = true ∧
    (uRegang.group? 1 0).map (fun g => g.regangs) =
      some ((0, 1, 0) :: [(1, 1, 0), (2, 1, 0), (3, 1, 0), (4, 2, 0), (5, 2, 0), (6, 2, 0), (7, 2, 0)]) ∧
    (uRegang.group? 1 0).map (fun g => g.liveSlices.length) = some 8 ∧
    ([(1, 1, 0), (2, 1, 0), (3, 1, 0), (4, 2, 0), (5, 2, 0), (6, 2, 0), (7, 2, 0)] : List (Nat × Nat × Nat)).filter
      (fun e => e.2.1 != 1 || e.2.2 != 0) ≠ [] := by decide +kernel
theorem witness_ControlTraps_target : sCode.issues c0 ∧ c0.ready sCode [rdS 0 0, rdS 1 1] = true ∧
    c0.target 6 (.off 63) < 0 ∧ 2 ^ 30 ≤ c0.target 14 (.lit 0x40000000) ∧
    c0.target 6 (.lit 3) = 3 ∧ (sCode.putCode 0 (pkt 36 0)).codeItem 0 0 0x40000 (c0.t.packetVa 3) 12 = some (pkt 36 0) ∧
    fld ((pkt 36 0).word 0) 26 5 ≠ 31 := ⟨code_issues, by decide +kernel⟩

/-! ### The matrix stream -/

/-- A C group on quadrant `q`, its 128 vector rows from row 64 + 160 q. -/
def Sys2Proof.Fix.cgrp (q : Nat) : Group :=
  { group with num := 1 + q, isP := false, quad := q, srows := 4, vrows := 128, frame := 60 + 160 * q }
/-- A stream whose `q0` to `q7` hold values: a format block of BF16 by BF16, a shape of K = 32, a mask block, phases. -/
def Sys2Proof.Fix.stream (l : List Nat) (t : StreamWait) : Stream :=
  ⟨⟨0, 1⟩, (l.mapIdx (fun i v => (i, v))).filter (fun e => decide (e.2 ≠ 0)), BitVec.ofNat 64 (2 ^ l.length - 1), t, 0, [], 0, false⟩
def Sys2Proof.Fix.steam (st : Stream) (tiles : List (Option Nat)) : Team :=
  { team group with groups := [group, cgrp 0, cgrp 1, cgrp 2, cgrp 3], stream := some st, tiles := tiles }
def Sys2Proof.Fix.tile7 : List (Option Nat) := List.replicate 7 none ++ [some 7]
def Sys2Proof.Fix.qvals : List Nat := [17, 0, 0, 0, 32, 1, 2 ^ 16 + 4, 2 ^ 16 * 8 + 3, 1 + 2 * 2 ^ 16, 4, 1, 0]
def Sys2Proof.Fix.strm : Stream := stream qvals .ready
def Sys2Proof.Fix.sS (t : Team) (pal : Sparse Elem) : State := { st t pal with cur := ⟨.stream 1, none, false, [], 0, []⟩ }
def Sys2Proof.Fix.cS : SCtx := ⟨steam strm tile7, strm⟩

theorem witness_StreamScalarResults : (sS (steam strm tile7) []).sctx? = some cS ∧ cS.holds [0] = true ∧ cS.holds [0, 11] = true ∧
    cS.holds [4] = true := by decide +kernel

/-- A kept list of two blocks, 3 and 4. -/
def Sys2Proof.Fix.kept : Stream := { strm with mblk := [4 + 2 * 2 ^ 16, 8 * 2 ^ 16], iter := 0 }
theorem witness_StreamControlResults : (sS (steam strm tile7) (row 107 5 6)).sctx? = some cS ∧ 7 < cS.t.kernel.trows ∧
    (sS (steam strm tile7) (row 107 5 6)).destLocked cS.t.core (cS.t.teamBase + 7) = false ∧
    (palGet (row 107 5 6) cS.t.core (cS.t.teamBase + 7) 31).ecc = .sound ∧
    cS.soundBarrier (sS (steam strm tile7) (row 107 5 6)) 7 = true ∧ cS.holds [11] = true ∧
    (cS.t.barrier 7).reached (cS.st.val 11 % 16) = true ∧ (sS (steam strm tile7) (row 107 5 6)).longCount cS.t.id = 0 ∧
    cS.st.maskOk 6 = true ∧ 6 + 1 + cdiv (cS.st.val (6 + 1) % 32) 2 ≤ 63 ∧ cS.st.keep = [] ∧ (62 : Nat) ≠ 63 ∧ kept.keep = [3, 4] ∧
    (sS (steam kept tile7) []).sctx? = some ⟨steam kept tile7, kept⟩ := by decide +kernel

theorem witness_TileResults_zero : (sS (steam strm tile7) []).sctx? = some cS ∧ (cS.t.tile 7).isSome = true ∧
    cS.passes (sS (steam strm tile7) []) [] (cS.locksOf [] 7 true []) = true := by decide +kernel
theorem witness_TileResults_load : cS.holds [5] = true ∧ cS.st.val 5 ≤ 2 ∧ 7 < cS.t.kernel.bars ∧
    cS.covers [(⟨64, 128 / perWord (cS.st.val 5), false⟩ : CRange)] = true ∧
    cS.passes (sS (steam strm tile7) []) [(⟨64, 128 / perWord (cS.st.val 5), false⟩ : CRange)]
      (cS.locksOf [(⟨64, 128 / perWord (cS.st.val 5), false⟩ : CRange)] 7 true []) = true := by decide +kernel
theorem witness_TileResults_store :
    cS.holds (10 :: (List.range (if ovfOf (cS.st.val 10) = 2 then 3 else 1)).map (fun j => 10 + 1 + j)) = true ∧
    storeLegal ([cS.st.val 10, cS.st.val (10 + 1)] ++ (if ovfOf (cS.st.val 10) = 2 then [cS.st.val (10 + 2), cS.st.val (10 + 3)] else [0, 0]) ++
      [0]) = true ∧
    cS.covers [(⟨0, 128 / perWord (cS.st.val 10 % 16), true⟩ : CRange)] = true ∧
    cS.passes (sS (steam strm tile7) []) [(⟨0, 128 / perWord (cS.st.val 10 % 16), true⟩ : CRange)]
      (cS.locksOf [(⟨0, 128 / perWord (cS.st.val 10 % 16), true⟩ : CRange)] 7 false []) = true := by decide +kernel
theorem witness_TileResults_map : (cS.t.tile 0).isNone = true ∧
    ((sS (steam strm tile7) []).tileWaiters cS.t.core).all (fun w => decide (w.1.id = cS.t.id)) = true ∧
    (sS (steam strm tile7) []).freeTile cS.t.core = some 0 ∧ (cS.t.tile 7).isSome = true ∧
    (sS (steam strm tile7) []).rowsLocked cS.t.core (cS.t.tileRow 7) 512 = false := by decide +kernel
/-- `mma` on tile 7 and barrier 7, A from row 0 and B from row 16. -/
def Sys2Proof.Fix.mmaEntry : Nat := 7 * 2 ^ 42 + 7 * 2 ^ 36 + 4 * 2 ^ 30 + 16 * 2 ^ 12
def Sys2Proof.Fix.sMma : State := pooled (sS (steam strm tile7) []) 3 mmaEntry
theorem witness_TileResults_mma : sMma.sctx? = some cS ∧ cS.poolEntry sMma 3 = .ok mmaEntry ∧ mmaEntry / 2 ^ 45 = 0 ∧
    (mmaForm mmaEntry).qf ≤ 60 ∧ (mmaForm mmaEntry).t = 7 ∧ (mmaForm mmaEntry).bn = 7 ∧
    (let m := cS.st.mmaSnap (mmaForm mmaEntry)
     let a := m.side (mmaForm mmaEntry) false
     let b := m.side (mmaForm mmaEntry) true
     m.legal a b = true ∧ cS.holds ([0, 0 + 1, 0 + 2, 0 + 3, 4] ++ (a.pair ++ b.pair).flatMap (fun x => [x, x + 1])) = true ∧
     (∀ x ∈ a.pair ++ b.pair, x ≤ 62) ∧ cS.covers (a.ranges m.klen ++ b.ranges m.klen) = true ∧
     cS.passes sMma (a.ranges m.klen ++ b.ranges m.klen)
      (cS.locksOf (a.ranges m.klen ++ b.ranges m.klen) (mmaForm mmaEntry).t true (a.mems m.klen ++ b.mems m.klen)) = true) := by
  decide +kernel

/-! ### The Carder -/

/-- A walk of one row in context 0, at word 0 of 8 steps; `c0` to `c3` hold 0x200, 2, 2 and 31. -/
def Sys2Proof.Fix.walkOp : Op :=
  ⟨5, .walk, 1, 0, some 7, 0x3F800000 + 39 * 2 ^ 14, 0, 1, walkSnap, [], [], 0, 4, 0, 0, [], [], false, 0, []⟩
def Sys2Proof.Fix.wlk (reads : List CRead) (steps : Nat) : Walk :=
  ⟨6, 5, 0, 0, 1, 0, [0x200, 2, 2, 31] ++ List.replicate 12 0, reads, steps, 0⟩
def Sys2Proof.Fix.sK (w : Walk) : State :=
  { mapped (st (team group) []) with
    cur := ⟨.carder 6, none, false, [], 0, []⟩, ops := [walkOp], walks := [w], clusters := [(0, { Cluster.fresh with
      sections := [⟨0, 0x40000, 0, [some 0x15807FFF, some 0, some 0, none], [0, 0, 0, 0x10], 1⟩] })] }
def Sys2Proof.Fix.cK (w : Walk) : KCtx := ⟨w, walkOp, team group⟩
theorem witness_CarderResults : (sK (wlk [] 0)).kctx? = some (cK (wlk [] 0)) ∧
    (∀ o ∈ [CarderOp.cnop, .cli 0 1, .cadd 15 0 1, .crd64 3 0 0, .cemit8 1 2, .cemit32 3 2, .cbeq 1 2 3, .cbne 1 2 3, .cjmp 3, .cend],
      (sK (wlk [] 0)).walkWaits (wlk [] 0) o = false) ∧
    (∀ z ∈ [1, 2, 4, 8], 0 ≤ ((cK (wlk [] 0)).reg 0 : Int) + sext 15 0x7FF8 ∧ ((cK (wlk [] 0)).reg 0 : Int) + sext 15 0x7FF8 < 2 ^ 57 ∧
      (((cK (wlk [] 0)).reg 0 : Int) + sext 15 0x7FF8).toNat % z = 0) ∧
    ((cK (wlk [] 0)).reg 3 + 1) * 4 ≤ 128 * (cK (wlk [] 0)).o.walkForm.nrows ∧
    (∀ i ∈ [0, 1], ∀ lane < 32, (palGet (sK (wlk [] 0)).pal 0 ((cK (wlk [] 0)).o.regionRow (team group) i) lane).ecc = .sound) ∧
    ((cK (wlk [] 0)).reg 1 + 1) * 1 ≤ 128 * (cK (wlk [] 0)).o.walkForm.nrows ∧
    (cK (wlk [] 0)).reg 1 = (cK (wlk [] 0)).reg 2 ∧ 3 < (cK (wlk [] 0)).t.kernel.cardlen := by decide +kernel

/-! ### Requests to memory -/

/-- A request of the group's, of one piece with one access of lane 0 at 0x100; its key tag is 0 and its home is the core's die. -/
def Sys2Proof.Fix.acc (pa : Nat) : LaneAcc := ⟨[0], 0x100, pa, 4, 5, 0, 0⟩
def Sys2Proof.Fix.piece (pa : Nat) (performed : Bool) : Piece := ⟨0, none, [acc pa], 0, 0, [0], performed, false, false, false⟩
def Sys2Proof.Fix.req (k : ReqKind) (p : Piece) : Req := ⟨3, k, 1, 0, [0], 0, 0, .rows 6 1, 0, [], some 0, [], [p], .none⟩
def Sys2Proof.Fix.sR (r : Req) : State := { mapped (st (team group) []) with cur := Cur.none, reqs := [r] }
def Sys2Proof.Fix.turnMet (k : ReqKind) : Bool :=
  decide ((sR (req k (piece 0x100 false))).piece? 3 0 = some (req k (piece 0x100 false), piece 0x100 false)) &&
    (sR (req k (piece 0x100 false))).ripe (req k (piece 0x100 false)) (piece 0x100 false)
def Sys2Proof.Fix.landMet (k : ReqKind) : Bool :=
  decide ((sR (req k (piece 0x100 true))).piece? 3 0 = some (req k (piece 0x100 true), piece 0x100 true)) &&
    (req k (piece 0x100 true)).canLand (piece 0x100 true)
/-- Whether no request of the chain waits for request 3 of the group. -/
def Sys2Proof.Fix.lone (s : State) : Bool := match s.partner 1 0 3 with | .none => true | _ => false
theorem Sys2Proof.Fix.lone_iff (s : State) : lone s = true ↔ s.partner 1 0 3 = .none := by
  unfold lone; split <;> simp_all
theorem witness_RequestEvents : (∀ k ∈ [ReqKind.load, .store, .atom .addN false, .atom .cas true], turnMet k = true) ∧
    (∀ k ∈ [ReqKind.load, .atom .addN false, .bump], landMet k = true) ∧ (piece 0x100 false).accs.head? = some (acc 0x100) ∧
    (req .store (piece 0x100 true)).kind.plainWrite = true ∧ (piece 0x100 true).acked = false ∧ (piece 0x100 true).toHost = false ∧
    (piece 0x100 true).at_ = dieOf (req .store (piece 0x100 true)).core ∧
    (sR (req .store (piece (2 ^ 50) true))).req? 3 = some (req .store (piece (2 ^ 50) true)) ∧
    (req .store (piece (2 ^ 50) true)).pieces.any (fun p => p.toHost && p.performed && !p.acked) = true := by decide +kernel

theorem witness_MemoryFrames_store : turnMet .store = true ∧ (req .store (piece 0x100 false)).kind = .store := by decide +kernel

/-- Candidates that wait: for a translation, for code, for a queue, for a phase. -/
def Sys2Proof.Fix.waits (w : Wait) : Group := { group with cands := [⟨List.range 8, w, 0, 0, [], []⟩] }
def Sys2Proof.Fix.fetching : Stream := { strm with wait := .fetch 12 12 }
theorem witness_FetchEvents : (∀ w ∈ [Wait.xlate [⟨0x100, 1⟩], .fetch 12 12, .enqRoom [0, 1], .twait 0 2 7 1],
      (st (team (waits w)) []).team? 1 = some (team (waits w)) ∧ (team (waits w)).group? 0 = some (waits w) ∧
      (waits w).cand? 7 = some ⟨List.range 8, w, 0, 0, [], []⟩) ∧
    (steam fetching tile7).stream = some fetching ∧ fetching.wait = .fetch 12 12 ∧ (steam fetching tile7).group? 32 = none ∧
    (virt (mapped (st (team group) [])) (table 0x8000 0)).queueRoom 0 0 = true ∧ (waits (.twait 0 2 7 1)).trapping = none ∧
    (∀ j < 4, (palGet [] 0 ((team group).barRow 7) (4 * (7 % 8) + j)).ecc = .sound) ∧
    (0 : Nat) + 2048 ≤ { st (team (waits (.twait 0 2 7 1))) [] with ps := 1280000 }.clk 0 ∧
    ((team group).barrier 7).reached 1 = false ∧ (team group).runs = true ∧ (st (team group) []).codeHeld 0 0 12 12 = false ∧ inHbm (8 * 32) = true ∧ homeDie (8 * 32) = 0 ∧
    ((st (team group) []).die 0).ahead.contains 8 = false := by decide +kernel

theorem witness_FetchEvents_lists : (∀ k ∈ [ReqKind.append true, .bump, .olist], turnMet k = true) ∧ landMet .olist = true ∧
    (piece 0x100 true).accs.head? = some (acc 0x100) ∧ (req .olist (piece 0x100 true)).probe = .none ∧
    (∀ k ∈ [ReqKind.bump, .olist], lone (sR (req k (piece 0x100 false))) = true) := by decide +kernel

/-! ### Engines -/

/-- A copy of one row into `v39` from 0x100, and one from an address that nothing maps. -/
def Sys2Proof.Fix.copyOp (base : Nat) : Op :=
  ⟨5, .copyRows, 1, 0, some 7, cpWord false 0 0 39 0 7, 0, 1, [base, 0, 2 ^ 19, 128], [], [], 0, 4, 0, 0, [], [], false, 0, []⟩
/-- A compaction of `v0` whose elements are all nonzero is dense (R116). -/
def Sys2Proof.Fix.denseOp : Op :=
  ⟨5, .copyC24, 1, 0, some 7, cpWord false 9 0 0 0 7, 0, 1, [0x100, 0, 2 ^ 19 + 2 ^ 12, 64, 0x800, 0], [], [], 0, 4, 0, 0, [], [], false,
    0, []⟩
def Sys2Proof.Fix.sO (o : Op) (pal : Sparse Elem) : State := { mapped (st (team group) pal) with cur := Cur.none, ops := [o] }
def Sys2Proof.Fix.copyEnd (o : Op) (pal : Sparse Elem) : Nat :=
  match (sO o pal).copyTurn 5 3 with
  | some (p, t) => if p = o ∧ t = team group then
      match (sO o pal).copyUnit o t 3 with
      | .ok (_, none) => 1
      | .ok (_, some _) => 2
      | .error (_, f) => if f.rec_.isSome then 3 else 4
    else 0
  | none => 0
theorem witness_EngineEvents_copy : copyEnd (copyOp 0x100) [] = 1 ∧ copyEnd denseOp (full 4 0x01010101) = 2 ∧ copyEnd (copyOp 0x20000) [] = 3 := by
  decide +kernel

/-- A gather of indices 3 and 0, before its sectors have returned and after. -/
def Sys2Proof.Fix.gatherOp (got : Sparse Nat) : Op :=
  ⟨5, .gather, 1, 0, some 7, 0x3FC00000, gatherEntry, 1, [0x100, 0, 16, 2], [3, 0], [], 0, 2, 0, 0, got, [], false, 0, []⟩
def Sys2Proof.Fix.scatterOp_ : Op :=
  ⟨5, .scatter, 1, 0, some 7, 0x3FC40000, scatterEntry, 1, [0x100, 0, 16, 2], [3, 3], [30, 31], 0, 2, 1, 0, [], [], false, 0, []⟩
theorem witness_EngineEvents_gather : (sO (gatherOp []) []).op? 5 = some (gatherOp []) ∧
    (sO (gatherOp []) []).team? (gatherOp []).team = some (team group) ∧ (sO (gatherOp []) []).opReady (gatherOp []) = true ∧
    (gatherOp []).waitingAt 4 = [0, 1] ∧ (gatherOp [(0, 9)]).got ≠ [] ∧ 0 < 64 / (gatherOp [(0, 9)]).form.esz ∧
    (sO scatterOp_ []).op? 5 = some scatterOp_ ∧ scatterOp_.kind = .scatter ∧ 1 < scatterOp_.total ∧ nbit scatterOp_.unitsDone 1 = false ∧
    (sO scatterOp_ []).opReady scatterOp_ = true ∧
    (∀ q < 1, nbit scatterOp_.unitsDone q = true ∨ scatterOp_.idx.getD q 0 ≠ scatterOp_.idx.getD 1 0) ∧
    (sO (gatherOp []) []).engineRoom (team group) (64 * 4) [0, 1].length = true ∧
    (sO (gatherOp []) []).engineHeld (team group) (64 * 4) 1 = false ∧ scatterOp_.posInTable 1 = true ∧
    (sO scatterOp_ []).engineHeld (team group) (scatterOp_.posVa 1) scatterOp_.form.rights = false := by decide +kernel

/-! ### Swatches -/

/-- A swatch of four rows, `v4` to `v7`, that any core of the module may read, write and use with atomics; and its handle. -/
def Sys2Proof.Fix.entry0 : SwEntry := ⟨0, 7, 0, 0, true, 1, 0, false, 4, 4, 7, 5, false, false, none⟩
def Sys2Proof.Fix.swr (op : SwOp) (stage : Nat) : SwReq :=
  ⟨3, op, 1, 0, [0], 0, entry0.handle, 3, 0, 6, if op = .ld then none else some 7, some 0, [(0, 5, 6), (31, 7, 8)],
    [(0, Elem.of 9), (31, ⟨9, true, .uncorrectable⟩)], stage, 0, [], none, .none⟩
def Sys2Proof.Fix.sX (r : SwReq) (l : List SwEntry) : State := { st (team group) [] with cur := Cur.none, swreqs := [r], swatches := l }
theorem witness_SwatchEvents : (∀ op ∈ [SwOp.ld, .st, .atomAdd],
      (sX (swr op 0) []).swreq? 3 = some (swr op 0) ∧ (sX (swr op 0) []).flagRoom (swr op 0) = true ∧
      (swr op 0).module = (sX (swr op 0) []).regs.modid ∧ (sX (swr op 0) []).swWay (swr op 0) = .go ∧ (swr op 0).probe = .none ∧
      lone ((sX (swr op 0) []).swCarry (swr op 0)) = true ∧ lone ((sX (swr op 0) [entry0]).swCarry (swr op 0)) = true ∧
      (sX (swr op 0) [entry0]).swBehind (swr op 0) = false ∧ (sX (swr op 0) []).swFind entry0.handle = none ∧
      (sX (swr op 0) [entry0]).swFind entry0.handle = some entry0 ∧ (sX (swr op 0) [entry0]).swReleased (swr op 0) entry0.scope = true ∧
      (sX (swr op 0) [entry0]).swDecide (swr op 0).handle (swr op 0).row 1 1 0 (op = .st) op.isAtom = 0) ∧
    (sX (swr .st 1) [entry0]).swreq? 3 = some (swr .st 1) ∧ (swr .st 1).op.reads = false ∧
    (sX (swr .st 1) [entry0]).swBehind (swr .st 1) = false ∧ (swr .st 1).module = (sX (swr .st 1) [entry0]).regs.modid ∧ (sX (swr .st 1) [entry0]).swReleased (swr .st 1) entry0.scope = true ∧
    (sX (swr .atomAdd 2) []).swreq? 3 = some (swr .atomAdd 2) ∧ (swr .atomAdd 2).op.reads = true ∧
    (sX (swr .atomAdd 2) []).group? (swr .atomAdd 2).team (swr .atomAdd 2).group = some group := by decide +kernel

/-- A delivery of `copy.swatch`, not sent yet and admitted. -/
def Sys2Proof.Fix.dst (stage : Nat) : Dest := ⟨entry0.handle, 0, stage, none, 0, none⟩
def Sys2Proof.Fix.swOp_ (stage : Nat) : Op :=
  ⟨5, .copySwatch, 1, 0, some 7, cpWord false 3 0 0 0 7, 0, 1, [0, 1, 2 ^ 19, 0, 0, 0], [], [], 0, 1, 0, 0, [], [dst stage], false, 0, []⟩
def Sys2Proof.Fix.sD (stage : Nat) : State := { sO (swOp_ stage) (full 4 5) with swatches := [entry0] }
theorem witness_SwatchEvents_delivery : (sD 0).dest? 5 0 = some (swOp_ 0, dst 0, team group) ∧ (dst 0).classL.isSome = false ∧
    (sD 0).opReady (swOp_ 0) = true ∧ (sD 0).destLost (team group) (dst 0) = false ∧ (sD 0).destDead (team group) (dst 0) = false ∧ (sD 0).destHeld (team group) (dst 0) = false ∧
    (dst 0).module = (sD 0).regs.modid ∧
    ((sD 0).destCarry (swOp_ 0) (team group) (dst 0)).swDecide (dst 0).handle (swOp_ 0).swRow0 (swOp_ 0).shape.count 1 0 true false = 0 ∧
    (sD 1).dest? 5 0 = some (swOp_ 1, dst 1, team group) ∧ (dst 1).module = (sD 1).regs.modid ∧ (sD 1).swFind (dst 1).handle = some entry0 := by decide +kernel

/-! ### Walks and inversions under way -/

theorem witness_WalkEvents : (sK (wlk [] 8)).walk? 6 = some (wlk [] 8) ∧ (sK (wlk [] 8)).team? (wlk [] 8).team = some (team group) ∧
    (sK (wlk [] 8)).atLimit (wlk [] 8) = true ∧
    (∀ va ∈ [0x100, 0x20000], (sK (wlk [⟨0, 2, va, 8⟩] 1)).walk? 6 = some (wlk [⟨0, 2, va, 8⟩] 1) ∧
      (wlk [⟨0, 2, va, 8⟩] 1).reads.find? (fun r => decide (r.id = 0)) = some ⟨0, 2, va, 8⟩ ∧
      (sK (wlk [⟨0, 2, va, 8⟩] 1)).op? (wlk [⟨0, 2, va, 8⟩] 1).op = some walkOp ∧
      (sK (wlk [⟨0, 2, va, 8⟩] 1)).opReady walkOp = true ∧ (sK (wlk [⟨0, 2, va, 8⟩] 1)).engineHeld (team group) va 1 = false) ∧
    (wlk [] 8).reads = [] ∧
    (sK (wlk [] 1)).engineRead (team group) 3 0x100 8 = .ok 0 ∧
    (sK (wlk [] 1)).engineRead (team group) 3 0x20000 8 = .error ⟨codeXlate, 0x20000, some ⟨0x20000, 1, 4, 3, false⟩⟩ := by
  decide +kernel

/-- "Cube inverse" under way, before its first evaluation. -/
def Sys2Proof.Fix.running : InvState :=
  ⟨List.range 8, 8, invEntry, [0x18818202, 0x18018305, 0x18818302], 0, [], [], 0, 0,
    [startLane 0 0x40000000 0 0x40800000, startLane 31 0x40400000 0 0x40800000]⟩
def Sys2Proof.Fix.invRun : Group := { invGroup with inv := [running], cands := [⟨List.range 8, .inv 8, 0, 0, [], []⟩] }
def Sys2Proof.Fix.invSt : State := { st (team invRun) palV with cur := Cur.none }
def Sys2Proof.Fix.invRefs : List ERef :=
  (invForm invEntry).roundRefs invRun (routines running.words) ((running.lanes.filter (fun x => !x.fin)).map (fun x => x.lane))
theorem witness_WalkEvents_inv : invSt.team? 1 = some (team invRun) ∧ (team invRun).engaged = true ∧ (team invRun).group? 0 = some invRun ∧
    (invRun.cand? 7).map (fun (c : Cand) => c.wait) = some (.inv running.lock) ∧ invRun.invOf running.lock = some running ∧ running.left = 0 ∧ invRefs ≠ [] ∧ invSt.settle 1 0 0 invRefs = invSt := by decide +kernel

/-! ### Traps -/

/-- A raised trap 8, with and without a user handler at packet 2, and inside a handler; the handler table is row 57. -/
def Sys2Proof.Fix.rec8 : TrapRec := ⟨0x08, 0, ⟨0, 1⟩, List.range 8⟩
def Sys2Proof.Fix.raised (r : TrapRec) : Group := { group with trapping := some r }
def Sys2Proof.Fix.handlers : Sparse Elem := [0, 1, 2, 3, 4].map (fun i => (palKey 0 53 i, Elem.of (BitVec.ofNat 32 (2 ^ 31 + 2))))
def Sys2Proof.Fix.sT (g : Group) (pal : Sparse Elem) : State := { st (team g) pal with cur := Cur.none }
theorem witness_TrapEntry : (sT (raised rec8) handlers).team? 1 = some (team (raised rec8)) ∧
    (team (raised rec8)).group? 0 = some (raised rec8) ∧ (raised rec8).trapping = some rec8 ∧ rec8.code < 256 ∧
    (raised rec8).entryWaits rec8.slices = false ∧ (raised rec8).inprog = false ∧
    (sT (raised rec8) handlers).handler 0 (raised rec8) rec8.code = some 2 ∧ (team (raised rec8)).status ≠ .killed ∧
    handlerPlace rec8.code = some 0 ∧ (palGet handlers 0 ((raised rec8).trapRow + 9) 0).ecc = .sound := by decide +kernel

theorem witness_TrapEvents : (sT (raised rec8) []).cur.chain = false ∧ (sT (raised rec8) []).handler 0 (raised rec8) rec8.code = none ∧
    (palGet (sT (raised rec8) []).pal 0 ((raised rec8).trapRow + 9) 0).ecc = .sound ∧
    ({ raised rec8 with trapcode := 0x108 } : Group).inprog = true ∧
    ({ raised rec8 with trapcode := 0x108 } : Group).entryWaits rec8.slices = false ∧ (deadlane group).code = 0x14 ∧
    (raised (deadlane group)).entryWaits (deadlane group).slices = false ∧
    (let g : Group := { group with tcmp := 5, tick := 5 }
     g.timerDue = true ∧ (sT g []).team? 1 = some (team g) ∧ (team g).group? 0 = some g ∧ (sT g []).handler 0 g 0x15 = none ∧
      ((sT g handlers).handler 0 g 0x15).isSome = true ∧ (team g).runs = true ∧ (sT g handlers).timerCand (team g) g = some ⟨List.range 8, .ready, 0, 0, [], []⟩) ∧
    (let g : Group := { group with soft := ⟨1, 1, 0, 0⟩ }
     (sT g []).softCand (team g) g = some ⟨List.range 8, .ready, 0, 0, [], []⟩ ∧ g.soft.sub ≠ 0 ∧ g.noLane = false ∧ (team g).runs = true) := by decide +kernel

/-! ### Queues -/

/-- Slot 0 holds queue 0 of partition 0 with a packet at its head; 24 bytes of a kernel descriptor at 0x40000, a token of 3 at
0x4000, queue 1 pending, and a KERNEL of one argument in the ring after the head. -/
def Sys2Proof.Fix.hw (w : List Nat) (started : Bool) : HwSlot := ⟨0, 0, some w, started, false, 0, none, 0, 0, 0, 0⟩
def Sys2Proof.Fix.world : List Host.Cell :=
  [(0x4000, 3)] ++ table 0x8000 0 ++ [(0x9001, 1), (0x10040, 1), (0x10058, 1), (0x40002, 5), (0x40010, 255), (0x40011, 255),
    (0x40012, 255), (0x40013, 255), (0x4002C, 8), (0x4002E, 32), (0x40030, 8), (0x40032, 32)]
def Sys2Proof.Fix.sH (h : HwSlot) : State :=
  { virt { State.reset with regs := { Regs.fresh with bootst := 1 } } world with slots := some h :: List.replicate 255 none }
def Sys2Proof.Fix.pad (l : List Nat) : List Nat := l ++ List.replicate (16 - l.length) 0
def Sys2Proof.Fix.heads (type : Nat) (w : List Nat) (started : Bool) : Bool :=
  decide ((sH (hw (pad w) started)).headOf 0 type = some (hw (pad w) started, entry 0, pad w))

theorem witness_PacketEvents_poll : (sH (hw [] false)).slot? 0 = some (hw [] false) ∧ (hw [] false).started = false ∧
    ((sH (hw [] false)).part 0).wdBusy = false ∧ { sH (hw [] false) with ps := 100000000 }.sliceOver (hw [] false) = true := by
  decide +kernel

/-- KERNEL with a grid of 4 teams of one P and one C group, and one whose byte 26 is not zero. -/
def Sys2Proof.Fix.kpkt : List Nat := [1, 4, 0x40000, 0, 0, 0, 0x4100]
theorem witness_PacketEvents_kernel : heads 1 kpkt false = true ∧ (kernelPacket (pad kpkt)).ok = true ∧ (kernelPacket (pad kpkt)).narg ≤ 8 ∧
    ((sH (hw (pad kpkt) false)).diesOf 0).head? = none ∧
    (match (sH (hw (pad kpkt) false)).qread 0 0 (kernelPacket (pad kpkt)).desc 64 with
      | (s1, .ok v) => decide (s1.kernelStatus 0 (kernelPacket (pad kpkt)) (kernelOf (kernelPacket (pad kpkt)).desc v)
          (decide (fld v 432 80 = 0)) none = 0)
      | (_, .error _) => false) = true ∧
    heads 1 [1, 4, 0x40000, 0, 0, 0, 0x10000] false = true ∧ (kernelPacket (pad [1, 4, 0x40000, 0, 0, 0, 0x10000])).ok = false := by
  decide +kernel

/-- COND on four bytes and on eight; WAIT; SIGNAL; COMPACT; BARRIER. -/
theorem witness_PacketEvents_cond : (∀ b ∈ [0, 8], heads 2 [2, b + 2 ^ 8 + 2 ^ 17, 0x4000, 0, 0xFF, 0, 3, 0] false = true ∧
    (let w := pad [2, b + 2 ^ 8 + 2 ^ 17, 0x4000, 0, 0xFF, 0, 3, 0]
     pbyte w 4 / 16 = 0 ∧ pbyte w 4 % 8 ≤ 5 ∧ pzero w 7 8 = true ∧ pzero w 32 64 = true ∧
      plong w 8 % (if nbit (pbyte w 4) 3 then 8 else 4) = 0 ∧ plong w 16 < 2 ^ 32 ∧ plong w 24 < 2 ^ 32 ∧
      ((sH (hw w false)).qread 0 0 (plong w 8) (if nbit (pbyte w 4) 3 then 8 else 4)).2 = .ok 3)) := by decide +kernel
theorem witness_PacketEvents_tokens : (∀ t ∈ [2, 3, 4], heads 3 [3, 0, 0x4000, 0, t, 0] true = true ∧ tokenOk (pad [3, 0, 0x4000, 0, t, 0]) = true) ∧
    ((sH (hw (pad [3, 0, 0x4000, 0, 3, 0]) true)).qread 0 0 0x4000 8).2 = .ok 3 ∧ plong (pad [3, 0, 0x4000, 0, 3, 0]) 16 ≤ 3 ∧
    heads 4 [4, 0, 0x4000, 0, 3, 0] false = true ∧ tokenOk (pad [4, 0, 0x4000, 0, 3, 0]) = true ∧
    (sH (hw (pad [4, 0, 0x4000, 0, 3, 0]) false)).tokenAt 0 0x4000 3 = .ok (0x4000, 0) := by decide +kernel
theorem witness_PacketEvents_compact :
    (let w := pad [5, 0, 0x4000, 0, 2 ^ 31, 1, 0x80]
     heads 5 [5, 0, 0x4000, 0, 2 ^ 31, 1, 0x80] false = true ∧ pzero w 4 8 = true ∧ pzero w 25 64 = true ∧ fld (pbyte w 24) 4 3 = 0 ∧
      plong w 8 % 4 = 0 ∧ 0 < w.getD 4 0 ∧ w.getD 4 0 ≤ 2 ^ 31 ∧ 0 < w.getD 5 0 ∧ w.getD 5 0 ≤ 2 ^ 31 ∧
      (match ((sH (hw w false)).qread 0 0 ((entry 0).packetVa ((entry 0).rdidx + 1)) 64).2 with
        | .ok n => decide (pbyte (packetWords n) 0 = 1) && decide (pbyte w 24 % 16 < pbyte (packetWords n) 24 % 32)
        | .error _ => false) = true ∧ ((sH (hw w false)).qread 0 0 (plong w 8) 4).2 = .ok 3) ∧
    heads 6 [6] false = true ∧ pzero (pad [6]) 4 64 = true ∧ heads 6 [6, 1] false = true ∧ pzero (pad [6, 1]) 4 64 = false := by
  decide +kernel
theorem witness_PacketEvents_scan : 1 < ((sH (hw [] false)).part 0).qcount ∧ (sH (hw [] false)).slotOf 0 1 = none ∧
    (sH (hw [] false)).regs.bootst = 1 ∧ ((sH (hw [] false)).part 0).wdBusy = false ∧
    ((sH (hw [] false)).qread 0 1 (((sH (hw [] false)).part 0).pendbase + 1) 1).2 = .ok 1 ∧ (sH (hw [] false)).claim 0 1 = some 1 := by decide +kernel

/-! ### Placement -/

/-- A launch of a kernel of one P group, of 200 teams in chunks of the dies 0 and 1; the first core of each die is started, and
cluster 0 and cluster 16 belong to partition 0. -/
def Sys2Proof.Fix.small : Kernel := ⟨0x40000, 0, some 0, none, none, 0, 0, 0, 0, 0, 8, 32, 0, 0, 0, 0⟩
def Sys2Proof.Fix.lch (coop : Bool) (chunks : List Chunk) : Launch :=
  ⟨4, 0, 0, 0, 1, small, [], 0, true, coop, 200, 0, false, chunks⟩
def Sys2Proof.Fix.sP (l : Launch) (teams : List Team) : State :=
  { virt { State.reset with regs := { Regs.fresh with bootst := 1, cluOwn := [(0, 0), (16, 0)] } } (table 0x8000 0) with
    ps := 2 ^ 50, cores := [(0, { Core.fresh with started := true }), (128, { Core.fresh with started := true })], launches := [l],
    teams := teams, parts := [(0, { part0 with slotlog2 := 20, saveSlots := 2 })] }
theorem witness_PlacementEvents_start : Config.cores - 1 < Config.cores ∧ (sP (lch false []) []).regs.bootst = 1 ∧
    (sP (lch false []) []).regs.bootNs + startNs (Config.cores - 1) ≤ (sP (lch false []) []).ns 0 := by decide +kernel
theorem witness_PlacementEvents_place : (∀ b ∈ [false, true],
      (sP (lch b [⟨0, 0, 0, 1⟩]) []).nextLaunch 0 0 = some (lch b [⟨0, 0, 0, 1⟩]) ∧
      (∀ d ∈ (lch b [⟨0, 0, 0, 1⟩]).openDies, (sP (lch b [⟨0, 0, 0, 1⟩]) []).itsTurn (lch b [⟨0, 0, 0, 1⟩]) d = true) ∧
      (lch b [⟨0, 0, 0, 1⟩]).openDies = [0]) ∧
    ((sP (lch false [⟨0, 0, 0, 1⟩]) []).placeNext (lch false [⟨0, 0, 0, 1⟩]) 0).isSome = true ∧
    ((sP (lch true [⟨0, 0, 0, 1⟩]) []).placeGrid (lch true [⟨0, 0, 0, 1⟩])).isSome = true := by decide +kernel
/-- Die 0 holds two untouched chunks, die 1 none. -/
def Sys2Proof.Fix.chunks2 : List Chunk := [⟨0, 0, 64, 64⟩, ⟨1, 0, 64, 128⟩, ⟨2, 0, 128, 192⟩]
theorem witness_PlacementEvents_steal : ((sP (lch false chunks2) []).diesOf 0).contains 1 = true ∧
    (sP (lch false chunks2) []).nextLaunch 0 1 = none ∧
    (∃ b ∈ (sP (lch false chunks2) []).roundFrom 0 1, ∃ x ∈ (sP (lch false chunks2) []).untouched 0 b,
      ((sP (lch false chunks2) []).bestCore (coresOf 1) x.1.need).isSome = true) ∧
    ((sP (lch false chunks2) []).roundFrom 0 1).find? (fun d => decide (2 ≤ ((sP (lch false chunks2) []).untouched 0 d).length)) = some 0 ∧
    lastChunk ((sP (lch false chunks2) []).untouched 0 0) = some (lch false chunks2, ⟨2, 0, 128, 192⟩) := by decide +kernel
/-- A team that has ended; one whose core a launch of another queue waits for; one that stops; one that waits for its restore. -/
def Sys2Proof.Fix.done_ : Team := { team group with groups := [{ group with slices := group.slices.map (fun x => { x with ended := true }) }] }
def Sys2Proof.Fix.victim (x : TeamStatus) : Team := { team group with status := x, queue := 1, kernel := small, groups := [group] }
def Sys2Proof.Fix.rival : Launch := { lch false [⟨0, 3, 0, 1⟩] with kernel := { small with prows := 4000 } }
def Sys2Proof.Fix.sV2 : State := { sP { rival with chunks := [⟨0, 0, 0, 1⟩] } [victim .resident] with cores := [] }
theorem witness_PlacementEvents_teams : (sP (lch false []) [done_]).team? 1 = some done_ ∧ (sP (lch false []) [done_]).mayRetire done_ = true ∧
    sV2.team? 1 = some (victim .resident) ∧ (victim .resident).status ≠ .stopping ∧ (victim .resident).status ≠ .stopped ∧ (victim .resident).status ≠ .saving ∧ sV2.mayStop (victim .resident) = true ∧
    (sP (lch false []) [victim .stopping]).drained (victim .stopping) = true ∧ (victim .stopping).status = .stopping ∧
    (sP (lch false []) [victim .stopped]).team? 1 = some (victim .stopped) ∧ (victim .stopped).coop = false ∧
    (let s := { sP (lch false []) [victim (.preempted 0)] with mem := (4, 2) :: (sP (lch false []) []).mem }
     s.wantsBack (victim (.preempted 0)) = true ∧ s.restoreUnit (victim (.preempted 0)) = [victim (.preempted 0)] ∧
      s.restoreBehind (victim (.preempted 0)) = false ∧ (s.restoreGrid [victim (.preempted 0)]).isSome = true) := by decide +kernel

/-! ### The arrays -/

theorem get_of_all {α : Type} (d v : α) (l : List Nat) {k : Nat} (h : k ∈ l) : sget d (l.map (fun i => (i, v))) k = v := by
  induction l with
  | nil => simp at h
  | cons a r ih =>
    simp only [List.map_cons, sget]
    split
    · rfl
    · next hne => exact ih (by simpa [Ne.symm hne] using h)

/-- A Palette of core 0 every element of which is valid and holds 0. -/
def Sys2Proof.Fix.wholeN (n : Nat) : Sparse Elem := (List.range n).map (fun k => (k, Elem.of 0#32))
@[irreducible] def Sys2Proof.Fix.whole : Sparse Elem := wholeN 524288

theorem whole_read (s : State) (row lane : Nat) (hp : s.pal = whole) (h : palKey 0 row lane < 524288) :
    s.readElem 0 row lane = (s, some (Elem.of 0#32), false) := by
  have e : palGet s.pal 0 row lane = Elem.of 0#32 := by
    rw [hp]
    unfold whole wholeN palGet
    exact get_of_all _ _ _ (List.mem_range.2 h)
  simp only [State.readElem, e]
  rfl

theorem whole_sound (s : State) (t : Team) (seg : Nat) (l : List MRef) (hp : s.pal = whole) (hc : t.core = 0)
    (h : l.all (fun r => decide (palKey 0 r.row r.lane < 524288)) = true) : s.firstBad t seg l = (s, none) := by
  induction l with
  | nil => rfl
  | cons r rest ih =>
    simp only [List.all_cons, Bool.and_eq_true, decide_eq_true_eq] at h
    have hr := whole_read s r.row r.lane hp h.1
    simp only [State.firstBad, State.matRead, hc, hr]
    exact ih h.2

/-- `mma` under way on tile 7: BF16 by BF16, and with A's scales in memory at an address that nothing maps. -/
def Sys2Proof.Fix.mmaOp (snap : List Nat) : Op :=
  ⟨5, .mma, 1, 0xFF, some 7, 0x10000003, mmaEntry, 0, snap, [], [], 7, 1, 0, 0, [], [], false, 0, []⟩
def Sys2Proof.Fix.plainSnap : List Nat := [17, 0, 0, 0, 32, 0, 0]
def Sys2Proof.Fix.farSnap : List Nat := [3 + 16 + 2 ^ 12 + 2 ^ 8, 0, 0, 0, 32, 0x20000, 0]
def Sys2Proof.Fix.arrT : Team := steam strm tile7
def Sys2Proof.Fix.arr (snap : List Nat) (pal : Sparse Elem) : State :=
  { mapped (sS arrT pal) with cur := Cur.none, ops := [mmaOp snap] }
/-- The state in which a segment is checked. -/
def Sys2Proof.Fix.arr0 (snap : List Nat) (pal : Sparse Elem) : State :=
  (arr snap pal).putCore arrT.core { (arr snap pal).core arrT.core with lastMma := (arr snap pal).clk 0 }
def Sys2Proof.Fix.arrRefs (snap : List Nat) : List MRef :=
  let m := mmaSnap snap
  let a := m.side (mmaForm mmaEntry) false
  let b := m.side (mmaForm mmaEntry) true
  a.refs arrT (segLen a b) 0 ++ b.refs arrT (segLen a b) 0 ++ tileRefs arrT 7 m.tri
theorem arrRefs_plain : (arrRefs plainSnap).all (fun r => decide (palKey 0 r.row r.lane < 524288)) = true := by decide +kernel
theorem arrRefs_far : (arrRefs farSnap).all (fun r => decide (palKey 0 r.row r.lane < 524288)) = true := by decide +kernel
theorem arr0_pal (snap : List Nat) (pal : Sparse Elem) : (arr0 snap pal).pal = pal := rfl
theorem arrT_core : arrT.core = 0 := rfl
theorem arr_first (snap : List Nat) (h : (arrRefs snap).all (fun r => decide (palKey 0 r.row r.lane < 524288)) = true) :
    (arr0 snap whole).firstBad arrT 0 (arrRefs snap) = (arr0 snap whole, none) := whole_sound _ _ _ _ (arr0_pal _ _) arrT_core h

theorem witness_MatrixEvents : (∀ l ∈ [plainSnap, farSnap], (arr l []).op? 5 = some (mmaOp l) ∧ (arr l []).team? (mmaOp l).team = some arrT ∧
      ((arr l []).runningMma arrT.core).map (fun p => p.id) = some 5 ∧
      ((arr l []).core arrT.core).ramp.any (fun r => decide ((arr l []).clk 0 < r)) = false ∧
      (arr l []).opReady (mmaOp l) = true ∧ (arr l whole).opReady (mmaOp l) = true ∧ (arr l []).segmentHeld arrT (mmaOp l) = false ∧
      (arr l whole).segmentHeld arrT (mmaOp l) = false ∧
      ((arr l []).core arrT.core).gated.any id = false ∧ (arr l whole).op? 5 = some (mmaOp l) ∧
      (arr l whole).team? (mmaOp l).team = some arrT ∧ ((arr l whole).runningMma arrT.core).map (fun p => p.id) = some 5) ∧
    ((arr0 plainSnap []).segmentFault arrT (mmaOp plainSnap) 0).2 = some (0x20, 3, none) := by decide +kernel
def Sys2Proof.Fix.sideOf (snap : List Nat) (b : Bool) : Side := (mmaSnap snap).side (mmaForm mmaEntry) b
/-- The fault that a scale in memory gives the first segment. -/
def Sys2Proof.Fix.scaleOf (snap : List Nat) (b : Bool) : Option SecFault :=
  (arr0 snap whole).scaleFault arrT (sideOf snap b) (mmaSnap snap).klen
    (0 * segLen (sideOf snap false) (sideOf snap true) / (sideOf snap b).bl)
theorem segment_sound (snap : List Nat) (h : (arr0 snap whole).firstBad arrT 0 (arrRefs snap) = (arr0 snap whole, none)) :
    (scaleOf snap false = none → scaleOf snap true = none →
      ∃ s1, (arr0 snap whole).segmentFault arrT (mmaOp snap) 0 = (s1, none)) ∧
    (∀ e, scaleOf snap false = some e → (arr0 snap whole).segmentFault arrT (mmaOp snap) 0 =
      ((arr0 snap whole).noteSector arrT e.va, some (e.code, xfinfo e.va 3, e.rec_))) := by
  simp only [arrRefs] at h
  refine ⟨fun h1 h2 => ?_, fun e h1 => ?_⟩
  · simp only [scaleOf, sideOf] at h1 h2
    simp only [State.segmentFault, mmaOp, h, h1, h2]
    exact ⟨_, rfl⟩
  · simp only [scaleOf, sideOf] at h1
    simp only [State.segmentFault, mmaOp, h, h1]
theorem scaleOf_plain : scaleOf plainSnap false = none ∧ scaleOf plainSnap true = none := by decide +kernel
theorem scaleOf_far : scaleOf farSnap false = some ⟨codeXlate, 0x20000, some ⟨0x20000, 1, 4, 4, false⟩⟩ := by decide +kernel
theorem witness_MatrixEvents_applies : ∃ s1, (arr0 plainSnap whole).segmentFault arrT (mmaOp plainSnap) 0 = (s1, none) :=
  (segment_sound _ (arr_first _ arrRefs_plain)).1 scaleOf_plain.1 scaleOf_plain.2
theorem witness_MatrixEvents_record : ∃ s1 e f r, (arr0 farSnap whole).segmentFault arrT (mmaOp farSnap) 0 = (s1, some (e, f, some r)) :=
  ⟨_, _, _, _, (segment_sound _ (arr_first _ arrRefs_far)).2 _ scaleOf_far⟩

/-- A tile word, a waiting `macq`, and a deadlock of two teams. -/
def Sys2Proof.Fix.macqT (tiles : List (Option Nat)) : Team := steam (stream qvals .tile) tiles
noncomputable def Sys2Proof.Fix.tileSt (l : List Team) (kind : OpKind) : State :=
  State.putCode { sS (team group) [] with teams := l, cur := Cur.none, ps := 85000, ops := [{ mmaOp plainSnap with kind := kind }] } 0
    (pkt 0 ((encode (.macq 3 9)).headD 0 * 2 ^ 32))
def Sys2Proof.Fix.allTiles : Team := macqT ((List.range 8).map some)
theorem witness_MatrixEvents_tiles : (∀ k ∈ [OpKind.mzero, .mload, .mstore], (tileSt [arrT] k).op? 5 = some { mmaOp plainSnap with kind := k } ∧
      (tileSt [arrT] k).team? 1 = some arrT ∧ k.onPath = true ∧ 0 + 136 ≤ (tileSt [arrT] k).clk 0 ∧ arrT.onCore = true ∧
      (tileSt [arrT] k).outstanding (mmaOp plainSnap).after = false ∧ ovfOf (plainSnap.getD 0 0) ≠ 2) ∧
    (let t := macqT tile7
     let s := tileSt [t] .mma
     s.team? 1 = some t ∧ (s.streams t.core).find? (fun w => !s.streamHeld w.1 w.2) = some (t, stream qvals .tile) ∧
      (s.core t.core).issuedAt ≠ s.clk 0 + 1 ∧ s.freeTile t.core = some 0 ∧
      s.macqAt t (stream qvals .tile) = some (3, 9)) ∧
    (let s := tileSt [allTiles] .mma
     s.tileDeadlock 0 = true ∧ s.tileWaiters 0 = [(allTiles, stream qvals .tile)] ∧
      s.macqAt allTiles (stream qvals .tile) = some (3, 9)) ∧
    (let s := { State.reset with ps := 2560000 }
     (s.core (Config.cores - 1)).lastMma + 4096 ≤ s.clk (dieOf (Config.cores - 1)) ∧ s.runningMma (Config.cores - 1) = none) := by decide +kernel

/-! ### Errors, mirrors, resets -/

def Sys2Proof.Fix.mirT : Team := { team group with mirror := true }
theorem witness_ReliabilityEvents : (∀ l ∈ [0, 31], l < 32 ∧ (palGet (row 16383 1 2) (Config.cores - 1) (Config.rows - 1) l).ecc ≠ .uncorrectable) ∧
    inHbm (32 * 0) = true ∧ inHbm (32 * 8) = true ∧
    (st mirT []).allocatedRows 0 ≤ Config.mirrorRows ∧ (st mirT []).runToMirror 0 59 = some (0, 60) ∧
    ((st mirT []).mirrorRoom 0 60).isSome = true ∧
    (let h : HwSlot := { hw [] false with limit := 1, timer := 1000000 }
     (sH h).slot? 0 = some h ∧ h.limit ≠ 0 ∧ h.limit * 1000000 ≤ h.timer ∧ ((sH h).part h.part).wdBusy = false) ∧
    State.reset.managed = true ∧
    (let s := (st (team group) []).putPart 0 { part0 with wdBusy := true }
     (s.part 0).wdBusy = true ∧ (∀ t ∈ s.teams, t.part = 0 → s.teamQuiet t = true)) := by decide +kernel

/-! ### Registers -/

theorem witness_RegisterEvents : State.reset.managed = true ∧
    (∀ v ∈ [0, 256 * 2 ^ 17 + 65536], fld v 17 9 ≤ 256 ∧ fld v 0 17 ≤ 65536 ∧ fld v 0 17 + State.reset.otherQueues 63 ≤ 65536) ∧
    State.reset.partIdle 63 = true ∧ (1 : Nat) % 2 ^ 16 ≠ 0 ∧
    (∀ v ∈ [0, 41 * 2 ^ 57], (State.reset.part 63).tlbBusy = false ∧ fld v 57 6 ≤ 41 ∧ fld v 16 41 * 2 ^ 16 % 2 ^ (fld v 57 6 + 16) = 0) ∧
    (let s := State.reset.putPart 0 { part0 with tlbBusy := true, tlbWait := [3] }
     (s.part 0).tlbBusy = true ∧
      s.reqs.any (fun r => (s.part 0).tlbWait.contains r.id && r.under (s.part 0).tlbVa (2 ^ ((s.part 0).tlbLog2 + 16))) = false) ∧
    State.reset.clusterUsed 383 = false ∧ (63 : Nat) % 256 < 64 ∧ 255 % 256 = 0xFF ∧ (State.reset.key 4095).en = false ∧
    State.reset.regs.alarmLock = false ∧ State.reset.teams = [] ∧ nbit (2 ^ 63) 63 = true := by decide +kernel

theorem witness_SecurityAndPowerEvents : State.reset.managed = true ∧ State.reset.regs.bootst = 0 ∧
    (∀ v ∈ [256, 2 ^ 28], v % 2 ^ 32 % 256 = 0 ∧ 256 ≤ v % 2 ^ 32 ∧ v % 2 ^ 32 ≤ 2 ^ 28) ∧ nbit 1 0 = true ∧ State.reset.regs.attGo = false ∧
    { Regs.fresh with bootst := 3 }.bootst = 3 ∧ { Regs.fresh with attGo := true }.attGo = true ∧ Regs.fresh.primaryUp = true ∧
    State.reset.powered = true ∧ { State.reset with powered := false }.powered = false ∧
    (let s := { State.reset with regs := { Regs.fresh with bootst := 1, pwrcap := 1000 } }
     s.powered = true ∧ s.regs.bootst = 1 ∧ s.regs.cap < s.regs.cap + 1 ∧ s.regs.cap * 95 ≤ s.regs.cap * 100 ∧ (95 : Nat) < 110 ∧
      (∀ t ∈ s.teams, clusterOf t.core = 383 → t.onCore = false)) := by decide +kernel

theorem witness_HostEvents : (∀ w ∈ [4, 8], State.reset.powered = true ∧ (0x40 : Nat) % w = 0 ∧ State.reset.apertureOk 0x40 w = true ∧
    State.reset.poisoned (State.reset.aperture 0x40) = false) := by decide +kernel

/-! ### Links -/

/-- Die 0's east edge up; a load of core 0 whose home is die 1 stands ready on channel 0 for module 0. -/
def Sys2Proof.Fix.upLink (wire : List Flit) : Link := { Link.fresh with state := 2, wire := wire }
def Sys2Proof.Fix.flit (type seq : Nat) : Flit := ⟨0, type, seq, seq, []⟩
def Sys2Proof.Fix.sL (wire : List Flit) (c : Chan) : State :=
  let r := req .load { piece 0x100 false with home := 1, at_ := 0, way := [0, 1] }
  let s := { mapped (st (team group) []) with cur := Cur.none, reqs := [r], ps := 200000 }
  ((List.range 8).foldl (fun (s : State) m => s.putLink 0 1 m (upLink wire)) s).putChan 0 1 0 c
/-- The same with an atomic of 32 accesses, which fills more than one flit. -/
def Sys2Proof.Fix.wideL : State :=
  let p := { piece 0x100 false with home := 1, at_ := 0, way := [0, 1], accs := (List.range 32).map (fun i => { acc (0x100 + 4 * i) with outs := [i] }) }
  { sL [] Chan.fresh with reqs := [req (.atom .addN false) p] }
theorem witness_LinkEvents : (sL [] Chan.fresh).managed = true ∧ (opposite 0 1).isSome = true ∧ ((sL [] Chan.fresh).link 0 1 7).state = 2 ∧
    nbit 1 0 = true ∧ nbit 0 0 = false ∧ (({ upLink [] with off := true } : Link).off = true) ∧
    ((sL [] Chan.fresh).link 0 1 ((sL [] Chan.fresh).moduleOf 0 1 0)).state = 2 ∧ (sL [] Chan.fresh).packed 0 ((sL [] Chan.fresh).readyPieces 0 1 0) = [(3, 0)] ∧
    ([(3, 0)].map (sL [] Chan.fresh).bytesOf).sum ≤ 248 ∧
    (let s := wideL
     let l := s.packed 0 (s.readyPieces 0 1 0)
     248 < (l.map s.bytesOf).sum ∧ Chan.fresh.held.length + cdiv ((l.map s.bytesOf).sum) 248 ≤ 64 ∧ (s.chan 0 1 0) = Chan.fresh ∧
       (s.link 0 1 (s.moduleOf 0 1 0)).state = 2) ∧
    ((sL [] Chan.fresh).putLink 0 1 7 { upLink [] with off := true } |>.link 0 1 7).off = true ∧
    Chan.fresh.held.length < 64 ∧
    (let c := { Chan.fresh with held := [flit 1 0], unacked := 1 }
     c.held ≠ [] ∧ c.heldSince + max 16 ((sL [] c).link 0 1 ((sL [] c).moduleOf 0 1 0)).ackto ≤ (sL [] c).ns 0 ∧ c.unacked ≠ 0 ∧
      c.lastRx + 8 ≤ (sL [] c).ns 0) ∧
    (∀ k ∈ [1, 2, 3, 4, 255], ∀ q ∈ [0, 63, 64, 191, 192, 255],
      ((sL [flit k q] Chan.fresh).takeFlit 0 1 0).map (fun e => e.1) = some (flit k q)) ∧
    (Chan.fresh.knows 0 = true ∧ ({ Chan.fresh with tx := 1, held := [flit 1 0] } : Chan).knows 0 = true) ∧
    nbit (2 ^ 31) 31 = true ∧ ((sL [] Chan.fresh).die 0).rtbusy = none ∧
    (let s := (sL [] Chan.fresh).putDie 0 { Die.fresh with rtbusy := some 63 }
     (s.die 0).rtbusy = some 63 ∧ s.admitted 0 63 = false) := by decide +kernel

/-! ### Optical ports -/

/-- Port 0 up, and a route to module 1 through it; a swatch access and a class L delivery for that module. -/
def Sys2Proof.Fix.blk (b count : Nat) : LBlock := ⟨entry0.handle, 0, count, b, List.replicate 64 5, 2⟩
def Sys2Proof.Fix.ldel (ended : Bool) : LDelivery := ⟨7, 0, 1, 2, entry0.handle, 0, 2, 4, 0, [], none, ended⟩
def Sys2Proof.Fix.sOpt (s op : Bool) (l : List LDelivery) : State :=
  { sX (swr .ld 0) [entry0] with
    regs := { Regs.fresh with optroute := [(1, 1)], modid := 0 }, ports := [(0, { Port.fresh with state := 2 })], ps := 20000000
    swreqs := if s then [{ swr .ld 0 with module := 1 }] else []
    ops := if op then [{ swOp_ 0 with dests := [⟨entry0.handle, 1, 0, some 0, 0, none⟩] }] else [], ldels := l }
/-- As it stands when its turn in the rotation has moved on. -/
def Sys2Proof.Fix.sTurn (s op : Bool) : State := (sOpt s op []).putPort 0 { (sOpt s op []).port 0 with turn := 1 }
theorem witness_OpticalEvents : portOf 0 = some 0 ∧ portOf 23 = some 11 ∧ ((sOpt true true []).port 0).state = 2 ∧
    ((sTurn true false).sendS 0).isSome = true ∧ (sTurn true false).classLToSend 0 = none ∧
    (sTurn false true).sendS 0 = none ∧ ((sTurn false true).classLToSend 0).isSome = true ∧
    ((sTurn true true).sendS 0).isSome = true ∧ ((sTurn true true).classLToSend 0).isSome = true ∧
    (let p := { Port.fresh with state := 2, held := [⟨0, 1, 0, 0, []⟩], unacked := 1 }
     p.held ≠ [] ∧ p.heldSince + portAckto ≤ (sOpt true true []).ns (portDie 0) ∧ p.unacked ≠ 0 ∧ p.lastRx + 8 ≤ (sOpt true true []).ns (portDie 0)) ∧
    ((sOpt false false []).ldels.find? (fun y => decide (y.sender = (blk 0 2).sender))).isNone = true ∧
    (∀ n ∈ [1, 4096], (blk 0 n).count ≠ 0 ∧ (blk 0 n).count ≤ 4096 ∧ (blk 0 n).b < blocksOf (blk 0 n).count ∧ (sOpt false false []).ldels = []) ∧
    (∀ e ∈ [false, true], (sOpt false false [ldel e]).ldels.find? (fun y => decide (y.sender = (blk 0 2).sender) &&
      decide (y.handle = (blk 0 2).handle) && decide (y.baselo = (blk 0 2).baselo) && decide (y.count = (blk 0 2).count) &&
        !y.landed.contains (blk 0 2).b) = some (ldel e)) ∧
    (let s := sOpt false false [ldel false]
     s.ldels.find? (fun y => y.id == 7) = some (ldel false) ∧ (ldel false).ended = false ∧ s.team? (ldel false).team = some (team group) ∧
      (ldel false).since + 1000 * (s.part (team group).part).optlto ≤ s.ns (portDie 0)) := by decide +kernel

/-! ### The whole machine -/

/-- The hypotheses of `StepRunsDecoded` on the candidate that issues, with the test of its word. -/
def Sys2Proof.Fix.mainMet (s : State) (f : Ctx → State → CodeItem → Bool) : Bool :=
  let u := s.turn
  match s.act with
  | some (.issue core quad) => u.powered && (match u.pick core quad with
    | some x => (u.boundaryEvent x).isNone && (match x.c.wait with
      | .inv _ => false
      | _ => true) && (match (u.seated x).ctx? with
      | some c => (match c.packet (u.seated x) with
        | .ok p => !c.strayHeader p && (match c.chkClause p with
          | .ok _ => f c (u.seated x) p
          | .error _ => false)
        | .error _ => false)
      | none => false)
    | none => false)
  | _ => false
def Sys2Proof.Fix.wordMet (i : Instr) : Bool :=
  mainMet (State.reset.withFetchWord 32 ((encode i).headD 0)) (fun c v p =>
    let w := p.word c.pc.slot
    (!nbit w 31 || decide (fld w 26 5 = 20)) && (match decodeMain c.pc.slot w (p.word (c.pc.slot + 1)) with
      | .ok j => decide (j = i) && (decide (fld w 26 5 = 31) || (match c.chkIssue v j with
        | .ok _ => true
        | .error _ => false))
      | .illegal _ => false))
def Sys2Proof.Fix.pkt0 (v : Nat) : CodeItem := ⟨0, 0, 0, 12, v⟩
noncomputable def Sys2Proof.Fix.streamMet (o : StreamOp) : Bool :=
  let s := State.reset.loadStream ((encode o.instr).headD 0)
  let u := s.turn
  decide (s.act = some (.seq 0)) && u.powered && (match u.streams 0 with
    | (t, st) :: _ => decide (st.pc.packet < 2 ^ 30) && (match u.codeItem (dieOf t.core) t.part t.kernel.desc (t.packetVa st.pc.packet) 12 with
      | some p => (match decodeStreamOp (p.word st.pc.slot) with
          | .ok x => decide (x = o)
          | .error _ => false) &&
        (match exec o.instr { u with cur := { u.cur with who := .stream t.id } } with
          | .next _ => true
          | _ => false)
      | none => false)
    | [] => false)
noncomputable def Sys2Proof.Fix.carderMet (o : CarderOp) : Bool :=
  let s := State.reset.loadCarder ((encode o.instr).headD 0)
  let u := s.turn
  decide (s.act = some (.carder 0)) && u.powered && (match (u.walksInOrder 0).find? (fun w => (u.walkTurn w).isSome) with
    | some w => (match u.team? w.team with
      | some t => (u.walkStop t w).isNone && (match u.sectionWord t w.pc with
        | .word n => decide (decodeCarderOp n = some o) && (let r := u.walkReady t w
          match exec o.instr { r with cur := { r.cur with who := .carder w.id } } with
          | .next v =>
            let z := { v with cur := Cur.none }
            let y := State.putCluster { z with eventPs := u.ps + 1 } 0 { z.cluster 0 with issuedAt := u.clk 0 + 1 }
            (u.meetings y (.carder 0)).all u.meetsInOrder
          | _ => false)
        | _ => false)
      | none => false)
    | none => false)
theorem witness_StepRunsDecoded : wordMet (.sAddN32 false 4 9) = true ∧ wordMet (.clause 0 0 1 1 0) = true ∧
    streamMet .mnop = true ∧ streamMet (.qli 5 7) = true ∧ carderMet .cnop = true ∧ carderMet (.cli 3 7) = true ∧
    mainMet ((State.reset.withFetchWord 32 0).putCode 0 (pkt0 (fetchHeader + (encode (.sAddN32 true 4 9)).headD 0 * 2 ^ 32 +
        (encode (.fnegF32 false 3 1)).headD 0 * 2 ^ 64))) (fun c v p =>
      nbit (p.word c.pc.slot) 31 && decide (fld (p.word c.pc.slot) 26 5 ≠ 20) && (match c.chainFrom v p 3 c.pc.slot with
        | .ok (l, b) => !b && decide (c.chainSub v l false = 0) && l.all (fun y => match c.chkFull v (flagSel y.instr) with
          | .ok _ => true
          | .error _ => false)
        | .error _ => false)) = true ∧
    { State.reset with agenda := [⟨0, .event .powerOff⟩] }.act = some (.event .powerOff) ∧
    { State.reset with agenda := [⟨0, .event .powerOff⟩] }.turn.powered = true ∧
    (let u := { State.reset with agenda := [⟨0, .event .primaryLinkDown⟩] }.turn
     match exec .primaryLinkDown u.happens with
      | .next v => (u.meetings v (.event .primaryLinkDown)).all u.meetsInOrder
      | _ => false) = true ∧
    (let u := { (sH (hw [] false)).putDie 0 { Die.fresh with rtbusy := some 0 } with agenda := [⟨0, .event (.headPoll 0)⟩] }.turn
     u.powered = true ∧ (match exec (.headPoll 0) u.happens with
      | .next v => (u.meetings v (.event (.headPoll 0))).all u.meetsInOrder &&
        ((u.meetings v (.event (.headPoll 0))).foldl State.meet v).held
      | _ => false) = true) ∧
    (let u := { State.reset with agenda := [⟨0, .event .primaryLinkDown⟩] }.turn
     match exec .primaryLinkDown u.happens with
      | .next v => !((u.meetings v (.event .primaryLinkDown)).foldl State.meet v).held
      | _ => false) = true ∧
    { State.reset with powered := false, agenda := [⟨0, .event .powerOn⟩] }.act = some (.event .powerOn) := by decide +kernel

theorem witness_MainRoundTrip : (∀ o : StreamOp, o.instr ≠ .sAddN32 false 4 9) ∧ (∀ o : CarderOp, o.instr ≠ .sAddN32 false 4 9) ∧
    (encode (.sAddN32 false 4 9)).headD 0 < 2 ^ 32 := by
  refine ⟨fun o => ?_, fun o => ?_, by decide⟩ <;> cases o <;> simp [StreamOp.instr, CarderOp.instr]
theorem witness_StreamAndCarderRoundTrip : (encode (.qli 5 7)).headD 0 < 2 ^ 32 ∧ (encode (.cli 3 7)).headD 0 < 2 ^ 32 := by decide
theorem witness_ResetValues : (63 : Nat) < 64 ∧ Config.dies - 1 < Config.dies ∧ (3 : Nat) < 4 ∧ (7 : Nat) < 8 ∧ (11 : Nat) < 12 ∧ (0 : Nat) < 4095 := by decide

theorem witness_StepKeepsCanonical : State.reset.canonical = true ∧ (st (team group) (row 5 1 2)).canonical = true ∧
    ∃ t, step State.reset = .next t := by
  refine ⟨by decide +kernel, by decide +kernel, _, rfl⟩
end

section
/-! SUPPORT. The first entry of a list that answers: how the turns of the agenda, the distributors and the Carders search. -/

namespace Sys2Proof.Machine

/-- A search answers what the first entry that has an answer gives. -/
theorem findSome?_of_find? {α β : Type} {f : α → Option β} {l : List α} {a : α} {b : β}
    (h : l.find? (fun x => (f x).isSome) = some a) (hb : f a = some b) : l.findSome? f = some b := by
  obtain ⟨-, before, rest, rfl, hno⟩ := List.find?_eq_some_iff_append.mp h
  exact List.findSome?_eq_some_iff.mpr ⟨before, a, rest, rfl, hb, fun x hx => by simpa using hno x hx⟩

/-- A search through the numbers below `n` answers at the first that has an answer. -/
theorem findSome?_range {β : Type} {f : Nat → Option β} {n p : Nat} {b : β} (hp : p < n) (hno : ∀ q < p, f q = none)
    (hb : f p = some b) : (List.range n).findSome? f = some b := by
  refine findSome?_of_find? (a := p) ?_ hb
  simpa [List.find?_range_eq_some, hb, hp] using hno

end Sys2Proof.Machine
end

section
/-! SUPPORT. A turn: which branch of `perform` and of a quadrant's plan it takes. -/

namespace Sys2Proof.Machine

open Sys2Proof

/-! ## Whose turn it is -/

theorem step_of_act {s : State} {a : Act} (h : s.act = some a) : step s = settled (perform a s.turn) := by
  simp [step, h]

theorem perform_issue {u : State} (core quad : Nat) (h : u.powered = true) :
    perform (.issue core quad) u = runPlan (u.planIssue core quad) := by simp [perform, h]

theorem perform_seq {u : State} (core : Nat) (h : u.powered = true) :
    perform (.seq core) u = closed (.next (u.runStreams (u.streams core))) := by simp [perform, h]

theorem perform_carder {u : State} (cluster : Nat) (h : u.powered = true) :
    perform (.carder cluster) u = closed (u.rotating (.carder cluster) (fun s => .next (s.runCarders cluster))) := by
  simp [perform, h]

/-- R374: without power only the power can come on. -/
theorem perform_event {u : State} {i : Instr} (h : u.powered = true ∨ i = .powerOn) :
    perform (.event i) u = heldBack u i (u.rotating (.event i) (fun s => exec i s.happens)) := by
  have hgo : ¬(u.powered = false ∧ Act.event i ≠ .event .powerOn) := by
    rcases h with h | rfl <;> simp [*]
  simp only [perform, if_neg hgo]

/-! ## A quadrant's turn -/

/-- The candidate that the scheduler picks looks at the word where it stands, once no boundary event and no running `inv` comes
before it and its packet has been fetched. -/
theorem State.planIssue_word {u : State} {core quad : Nat} {x : Seat} {c : Ctx} {p : CodeItem} (hx : u.pick core quad = some x)
    (hb : u.boundaryEvent x = none) (hi : ∀ k, x.c.wait ≠ .inv k) (hc : (u.seated x).ctx? = some c)
    (hp : c.packet (u.seated x) = .ok p) : u.planIssue core quad = (u.seated x).planWord x c p := by
  simp only [State.planIssue, hx, State.planSeat, hb, hc, hp]

theorem State.planWord_header {v : State} {x : Seat} {c : Ctx} {p : CodeItem} {i : Instr} (h : c.due v p = .ok (.header i)) :
    v.planWord x c p = .word v i := by simp only [State.planWord, h]

theorem State.planWord_word {v : State} {x : Seat} {c : Ctx} {p : CodeItem} {i : Instr} (h : c.due v p = .ok (.word i)) :
    v.planWord x c p = .word (v.countIssue x x.t.core x.g.quad) i := by simp only [State.planWord, h]

theorem State.planWord_chain {v : State} {x : Seat} {c : Ctx} {p : CodeItem} {l : List ChainWord}
    (h : c.due v p = .ok (.chain l)) : v.planWord x c p = .chain (v.countIssue x x.t.core x.g.quad) c l := by
  simp only [State.planWord, h]

theorem decodeSlot_ok {p : CodeItem} {slot : Nat} {i : Instr} (h : decodeMain slot (p.word slot) (p.word (slot + 1)) = .ok i) :
    decodeSlot p slot = .ok i := by simp [decodeSlot, h]

section
variable {c : Ctx} {v : State} {p : CodeItem} (hs : c.strayHeader p = false) (hcl : c.chkClause p = .ok ())
include hs hcl

/-- A word without a chain bit, or an `inv`, is taken alone; a header is not checked further. -/
theorem Ctx.due_alone {i : Instr} (ha : nbit (p.word c.pc.slot) 31 = false ∨ fld (p.word c.pc.slot) 26 5 = 20)
    (hd : decodeMain c.pc.slot (p.word c.pc.slot) (p.word (c.pc.slot + 1)) = .ok i) :
    c.due v p = if fld (p.word c.pc.slot) 26 5 = 31 then .ok (.header i) else (c.chkIssue v i).map (fun _ => .word i) := by
  simp only [Ctx.due, hs, hcl, if_pos ha, decodeSlot_ok hd, Bool.false_eq_true, if_false, ok_bind]
  split
  · rfl
  · cases c.chkIssue v i <;> rfl

/-- A word with a chain bit is taken with the words that follow it. -/
theorem Ctx.due_chain {l : List ChainWord} (hn : nbit (p.word c.pc.slot) 31 = true) (hm : fld (p.word c.pc.slot) 26 5 ≠ 20)
    (hl : c.chainFrom v p 3 c.pc.slot = .ok (l, false)) (hsub : c.chainSub v l false = 0)
    (hfull : ∀ y ∈ l, c.chkFull v (flagSel y.instr) = .ok ()) : c.due v p = .ok (.chain l) := by
  have ha : ¬(nbit (p.word c.pc.slot) 31 = false ∨ fld (p.word c.pc.slot) 26 5 = 20) := by simp [hn, hm]
  simp only [Ctx.due, hs, hcl, if_neg ha, hl, hsub, Bool.false_eq_true, if_false, ok_bind, ne_eq, not_true]
  split
  · next e he =>
    obtain ⟨y, hy, hye⟩ := List.exists_of_findSome?_eq_some he
    simp [hfull y hy] at hye
  · rfl

end

/-! ## The matrix streams and the Carders -/

/-- The sequencer runs a stream's word by the meaning that `exec` gives its instruction. -/
theorem runStream_eq_exec (o : StreamOp) (s : State) : runStream o s = exec o.instr s := by cases o <;> rfl

/-- A Carder runs a walk's word by the meaning that `exec` gives its instruction. -/
theorem runCarder_eq_exec (o : CarderOp) (s : State) : runCarder o s = exec o.instr s := by cases o <;> rfl

theorem State.streamWord_some {u : State} {t : Team} {st : Stream} {p : CodeItem} {o : StreamOp} (hpc : st.pc.packet < 2 ^ 30)
    (hp : u.codeItem (dieOf t.core) t.part t.kernel.desc (t.packetVa st.pc.packet) 12 = some p)
    (ho : decodeStreamOp (p.word st.pc.slot) = .ok o) :
    u.streamWord t st = ({ u with cur := { u.cur with who := .stream t.id } }, some o) := by
  simp only [State.streamWord, if_neg (not_le.mpr hpc), hp, ho]

/-- The first stream runs its word, and the next one has its turn where that one then waits. -/
theorem State.runStreams_first {u s1 v : State} {t : Team} {st : Stream} {o : StreamOp} (rest : List (Team × Stream))
    (h : u.streamWord t st = (s1, some o)) (hv : exec o.instr s1 = .next v) :
    u.runStreams ((t, st) :: rest) = if State.streamWaits { v with cur := Cur.none } t.id
      then State.runStreams { v with cur := Cur.none } rest
      else (State.tookUnit { v with cur := Cur.none } t.core 4).firstIssue t.id := by
  simp only [State.runStreams, h, runStream_eq_exec, hv, after]

/-- A walk that can move, and does not end, runs the word of its section. -/
theorem State.walkTurn_word {u v : State} {w : Walk} {t : Team} {n : Nat} {o : CarderOp} (hm : (u.walkTurn w).isSome = true)
    (ht : u.team? w.team = some t) (hstop : u.walkStop t w = none) (hn : u.sectionWord t w.pc = .word n)
    (ho : decodeCarderOp n = some o)
    (hv : exec o.instr { u.walkReady t w with cur := { (u.walkReady t w).cur with who := .carder w.id } } = .next v) :
    u.walkTurn w = some { v with cur := Cur.none } := by
  simp only [State.walkTurn, ht, hstop, hn, ho, runCarder_eq_exec, hv, after] at hm ⊢
  split_ifs at hm ⊢ with hout hwait
  · cases hm
  · cases hm
  · rfl

theorem State.runCarders_first {u v : State} {cluster : Nat} {w : Walk}
    (hw : (u.walksInOrder cluster).find? (fun w => (u.walkTurn w).isSome) = some w) (hv : u.walkTurn w = some v) :
    u.runCarders cluster = State.putCluster { v with eventPs := u.ps + 1 } cluster
      { v.cluster cluster with issuedAt := u.clk (cluster / 16) + 1 } := by
  simp only [State.runCarders, findSome?_of_find? hw hv]

/-! ## What meets in its order -/

/-- R100, R109: a turn that meets nothing out of the rotating orders stands as it is, and is noted in them. -/
theorem State.rotating_inOrder {u v : State} {a : Act} {f : State → Host.Outcome State Fault Refusal} (hv : f u = .next v)
    (h : (u.meetings v a).all u.meetsInOrder = true) : u.rotating a f = .next ((u.meetings v a).foldl State.meet v) := by
  simp only [State.rotating, hv, h, if_true]

/-- An event that is not held on its way has done what it does. -/
theorem heldBack_free {u v : State} {i : Instr} (h : v.held = false) :
    heldBack u i (.next v) = .next { v with cur := Cur.none } := by
  obtain ⟨⟩ := v
  obtain rfl : _ = false := h
  rfl

/-- An event that is held on its way leaves the state before it, and comes back in a later cycle. -/
theorem heldBack_held {u v : State} {i : Instr} (h : v.held = true) :
    heldBack u i (.next v) = closed (.next { u with agenda := u.agenda ++ [⟨625, .event i⟩] }) := by
  simp only [heldBack, h, if_true]

end Sys2Proof.Machine
end

section
/-! SUPPORT. What a step does, for each kind of turn; together they settle O57. -/

namespace Sys2Proof.Machine

open Sys2Proof

/-! ## A quadrant's turn -/

section
variable {s u v : State} {core quad : Nat} {x : Seat} {c : Ctx} {p : CodeItem} (hu : u = s.turn) (hv : v = u.seated x)
  (ha : s.act = some (.issue core quad)) (hpow : u.powered = true) (hx : u.pick core quad = some x)
  (hb : u.boundaryEvent x = none) (hi : ∀ k, x.c.wait ≠ .inv k) (hc : (u.seated x).ctx? = some c)
  (hp : c.packet (u.seated x) = .ok p)
include hu hv ha hpow hx hb hi hc hp

theorem step_issue_plan : step s = settled (runPlan (v.planWord x c p)) := by
  subst hv
  rw [step_of_act ha, ← hu, perform_issue core quad hpow, State.planIssue_word hx hb hi hc hp]

theorem step_issue_header {i : Instr} (hd : c.due v p = .ok (.header i)) : step s = settled (closed (exec i v)) := by
  rw [step_issue_plan hu hv ha hpow hx hb hi hc hp, State.planWord_header hd]; rfl

theorem step_issue_word {i : Instr} (hd : c.due v p = .ok (.word i)) :
    step s = settled (closed (exec i (v.countIssue x x.t.core x.g.quad))) := by
  rw [step_issue_plan hu hv ha hpow hx hb hi hc hp, State.planWord_word hd]; rfl

theorem step_issue_chain {l : List ChainWord} (hd : c.due v p = .ok (.chain l)) :
    step s = settled (closed (.next ((v.countIssue x x.t.core x.g.quad).runChain c l))) := by
  rw [step_issue_plan hu hv ha hpow hx hb hi hc hp, State.planWord_chain hd]; rfl

end

/-! ## The turns of the other units and of events -/

theorem step_seq {s u z : State} {core : Nat} (hu : u = s.turn) (ha : s.act = some (.seq core)) (hpow : u.powered = true)
    (hz : u.runStreams (u.streams core) = z) : step s = settled (closed (.next z)) := by
  rw [step_of_act ha, ← hu, perform_seq core hpow, hz]

theorem step_carder {s u y : State} {cl : Nat} (hu : u = s.turn) (ha : s.act = some (.carder cl)) (hpow : u.powered = true)
    (hy : u.runCarders cl = y) (hm : (u.meetings y (.carder cl)).all u.meetsInOrder = true) :
    step s = settled (closed (.next ((u.meetings y (.carder cl)).foldl State.meet y))) := by
  rw [step_of_act ha, ← hu, perform_carder cl hpow, State.rotating_inOrder (by rw [hy]) hm]

theorem step_event {s u v w : State} {i : Instr} (hu : u = s.turn) (ha : s.act = some (.event i))
    (hpow : u.powered = true ∨ i = .powerOn) (hv : exec i u.happens = .next v)
    (hm : (u.meetings v (.event i)).all u.meetsInOrder = true) (hw : w = (u.meetings v (.event i)).foldl State.meet v) :
    step s = settled (heldBack u i (.next w)) := by
  rw [step_of_act ha, ← hu, perform_event hpow, State.rotating_inOrder (f := fun s => exec i s.happens) hv hm, hw]

/-- Settles O57: each kind of turn by the lemma of its unit. -/
theorem stepRunsDecoded : Obligations.StepRunsDecoded := by
  unfold Obligations.StepRunsDecoded
  intro s u hu
  refine ⟨?quadrant, ?stream, ?carder, ?event⟩
  case quadrant =>
    intro core quad x c p ha hpow hx hb hi hc hp hs hcl w v hw hv
    subst hw
    refine ⟨fun i hone hd => ⟨fun hh => ?header, fun hh hk => ?word⟩, fun l hn hm hl hsub hfull => ?chain⟩
    case header =>
      exact step_issue_header hu hv ha hpow hx hb hi hc hp (by rw [Ctx.due_alone hs hcl hone hd, if_pos hh])
    case word =>
      exact step_issue_word hu hv ha hpow hx hb hi hc hp (by rw [Ctx.due_alone hs hcl hone hd, if_neg hh, hk]; rfl)
    case chain =>
      exact step_issue_chain hu hv ha hpow hx hb hi hc hp (Ctx.due_chain hs hcl hn hm hl hsub hfull)
  case stream =>
    intro core t st rest p o v ha hpow hst hpc hp ho hv z hz
    subst hz
    refine step_seq hu ha hpow ?_
    rw [hst, State.runStreams_first rest (State.streamWord_some hpc hp ho) hv]
  case carder =>
    intro cl w t n o v ha hpow hw ht hstop hn ho r z y hr hv hz hy hm
    subst hr hz hy
    have hturn := State.walkTurn_word (List.find?_some (p := fun w => (u.walkTurn w).isSome) hw) ht hstop hn ho hv
    exact step_carder hu ha hpow (State.runCarders_first hw hturn) hm
  case event =>
    intro i v ha hpow hv hm w hw
    have hstep := step_event hu ha hpow hv hm hw
    exact ⟨fun hfree => by rw [hstep, heldBack_free hfree], fun hheld => by rw [hstep, heldBack_held hheld]⟩

end Sys2Proof.Machine
end

section
/-! SUPPORT. The entry of a raised trap, the timer match and the SOFT event: what each answers under the conditions of its rule. -/

namespace Sys2Proof.Machine

open Sys2Proof

/-! ## The entry of a trap -/

/-- Reading a sound element of the trap frame changes nothing. -/
theorem State.readFrame_sound {s : State} {t : Team} {g : Group} {row i : Nat}
    (h : (palGet s.pal t.core (g.trapRow + row) i).ecc = .sound) : s.readFrame t g [(row, i)] = s := by
  simp only [State.readFrame, List.foldl_cons, List.foldl_nil, readElem_sound h]

theorem State.liveGroup?_of {s : State} {n m : Nat} {t : Team} {g : Group} (ht : s.team? n = some t) (hg : t.group? m = some g)
    (hk : t.status ≠ .killed) : s.liveGroup? n m = some g := by
  simp only [State.liveGroup?, ht, Option.bind_some, if_neg hk, hg]

section
variable {s : State} {n m : Nat} {t : Team} {g : Group} {r : TrapRec} (ht : s.team? n = some t) (hg : t.group? m = some g)
include ht hg

/-- A raised trap that nothing holds back is entered. -/
theorem State.tryEnter_enters (hr : g.trapping = some r) (hw : g.entryWaits r.slices = false) :
    s.tryEnter n m = s.enter t g r := by
  simp only [State.tryEnter, ht, hg, hr, hw, Bool.false_eq_true, if_false]

/-- R315: inside a handler a trap kills the team. -/
theorem State.enter_inHandler (hin : g.inprog = true) :
    s.enter t g r = s.kill n m 0x17 r.pc.word (g.trapcode % 256) r.info g.tick := by
  simp only [State.enter, if_pos hin, team?_id ht, group?_num hg]

/-- R310, R313: outside a handler, with its place in the handler table sound, a trap for which no user handler is registered goes to
the system handler. -/
theorem State.enter_noHandler (hin : g.inprog = false) (hh : s.handler t.core g r.code = none) (hk : t.status ≠ .killed)
    (hs : ∀ i, handlerPlace r.code = some i → (palGet s.pal t.core (g.trapRow + 9) i).ecc = .sound) {h : Group}
    (hsave : h = (s.inClauses t g).save r false) :
    s.enter t g r = ((s.writeFrame t.core h).putGroup n h).systemHandler t h r := by
  have hlive : s.liveGroup? n m = some g := State.liveGroup?_of ht hg hk
  have hnone : s.handler t.core (s.inClauses t g) r.code = none := hh
  subst hsave
  cases hp : handlerPlace r.code with
  | none => simp only [State.enter, hin, Bool.false_eq_true, if_false, hp, team?_id ht, group?_num hg, hlive, hnone]
  | some i =>
    simp only [State.enter, hin, Bool.false_eq_true, if_false, hp, State.readFrame_sound (hs i hp), team?_id ht, group?_num hg,
      hlive, hnone]

end

/-! ## The timer match -/

theorem Group.timerDue_disarmed (g : Group) : ({ g with tcmp := 0 } : Group).timerDue = false := by
  simp [Group.timerDue]

section
variable {s : State} {n m : Nat} {t : Team} {g : Group} (ht : s.team? n = some t) (hg : t.group? m = some g)
include ht hg

/-- R33: without a user handler a due match disarms the comparator. -/
theorem State.dropTimer_noHandler (hd : g.timerDue = true) (hh : s.handler t.core g 0x15 = none) :
    s.dropTimer n m = s.putGroup n { g with tcmp := 0 } := by
  simp only [State.dropTimer, ht, hg, hd, hh, Option.isNone_none, and_self, if_true]

/-- R33: with a user handler it is left to be taken. -/
theorem State.dropTimer_handler (hh : (s.handler t.core g 0x15).isSome = true) : s.dropTimer n m = s := by
  have hno : (s.handler t.core g 0x15).isNone = false := by simpa [← Option.not_isSome] using hh
  simp only [State.dropTimer, ht, hg, hno, Bool.false_eq_true, and_false, if_false]

/-- A match that is not due is not taken. -/
theorem State.takeTimer_notDue (hd : g.timerDue = false) : s.takeTimer n m = s := by
  simp only [State.takeTimer, ht, hg, hd, Bool.false_eq_true, false_and, if_false]
  split <;> rfl

/-- R33: a due match with a user handler is taken at the candidate's boundary, and traps at the next word. -/
theorem State.takeTimer_due {c : Cand} (hd : g.timerDue = true) (hh : (s.handler t.core g 0x15).isSome = true)
    (hrun : t.runs = true) (hc : s.timerCand t g = some c) {h : Group}
    (he : h = Group.endTwait { g with tcmp := 0 } c (t.phaseReached c.wait)) :
    s.takeTimer n m = (s.putGroup n h).raise n m ⟨0x15, 0, (h.slice (c.slices.headD 0)).pc, c.slices⟩ := by
  subst he
  simp only [State.takeTimer, ht, hg, hc, hd, hh, hrun, and_self, if_true]

/-- R364: a pending SOFT event is taken at the boundary of its candidate. -/
theorem State.takeSoft_at {c : Cand} (hc : s.softCand t g = some c) (hsub : g.soft.sub ≠ 0) (hl : g.noLane = false)
    (hrun : t.runs = true) : s.takeSoft n m = (s.putGroup n { g with soft := ⟨0, 0, 0, 0⟩ }).raise n m
      ⟨0x16, info43 g.soft.space 0 g.soft.sub g.soft.row g.soft.lanes.toNat, (g.slice (c.slices.headD 0)).pc, c.slices⟩ := by
  simp only [State.takeSoft, ht, hg, hc, if_pos (And.intro hsub (And.intro hl hrun)), State.softAt, team?_id ht, group?_num hg]

end

/-- The team that holds a group put back. -/
theorem State.team?_putGroup {s : State} {n : Nat} {t : Team} (ht : s.team? n = some t) (h : Group) :
    (s.putGroup n h).team? n = some (t.putGroup h) := by
  simp only [State.putGroup, ht]
  exact State.team?_putTeam ht ((Team.putGroup_id t h).trans (team?_id ht))

/-! ## The events -/

section
variable {s : State} {n m : Nat} {t : Team} {g : Group} (ht : s.team? n = some t) (hg : t.group? m = some g)
include ht hg

theorem execTrapDeadlane_enters {r : TrapRec} (hr : g.trapping = some r) (hw : g.entryWaits r.slices = false)
    (hcode : r.code = 0x14) : execTrapDeadlane n m s = .next (s.enter t g r) := by
  have hraised : (s.group? n m).bind (fun g => g.trapping) = some r := by simp [State.group?, ht, hg, hr]
  simp only [execTrapDeadlane, hraised, if_pos hcode, State.tryEnter_enters ht hg hr hw]

theorem execTimerMatch_noHandler (hd : g.timerDue = true) (hh : s.handler t.core g 0x15 = none) :
    execTimerMatch n m s = .next (s.putGroup n { g with tcmp := 0 }) := by
  rw [execTimerMatch, State.dropTimer_noHandler ht hg hd hh]
  exact congrArg _ (State.takeTimer_notDue (State.team?_putGroup ht _) (group?_putGroup hg (group?_num (g := g) hg))
    (Group.timerDue_disarmed g))

theorem execTimerMatch_handler {c : Cand} {h : Group} (hd : g.timerDue = true) (hh : (s.handler t.core g 0x15).isSome = true)
    (hrun : t.runs = true) (hc : s.timerCand t g = some c)
    (he : h = Group.endTwait { g with tcmp := 0 } c (t.phaseReached c.wait)) : execTimerMatch n m s =
      .next ((s.putGroup n h).raise n m ⟨0x15, 0, (h.slice (c.slices.headD 0)).pc, c.slices⟩) := by
  rw [execTimerMatch, State.dropTimer_handler ht hg hh, State.takeTimer_due ht hg hd hh hrun hc he]

end

/-- Settles O42: each event by the lemma of the operation that it is. -/
theorem trapEvents : Obligations.TrapEvents := by
  unfold Obligations.TrapEvents
  intro s n m t g ht hg _
  refine ⟨fun r hr hw => ⟨?systemHandler, ?inHandler, ?deadlane⟩, ?disarmed, ?timer, ?soft⟩
  case systemHandler =>
    intro hin hh hk hs h hsave
    rw [exec_trapEntry, execTrapEntry, State.tryEnter_enters ht hg hr hw, State.enter_noHandler ht hg hin hh hk hs hsave]
  case inHandler =>
    intro hin
    rw [exec_trapEntry, execTrapEntry, State.tryEnter_enters ht hg hr hw, State.enter_inHandler ht hg hin]
  case deadlane => exact execTrapDeadlane_enters ht hg hr hw
  case disarmed => exact execTimerMatch_noHandler ht hg
  case timer => exact fun c h hd hh hrun hc he => execTimerMatch_handler ht hg hd hh hrun hc he
  case soft =>
    intro c hc hsub hl hrun
    rw [exec_softEvent, execSoftEvent, State.takeSoft_at ht hg hc hsub hl hrun]

end Sys2Proof.Machine
end

section
/-! SUPPORT. Placement, stealing, retirement, the stop and the restore: what each event answers under the conditions of its rule. -/

namespace Sys2Proof.Machine

open Sys2Proof

/-! ## What a die's distributor does -/

/-- R306: the next team of a launch whose turn it is. -/
theorem State.placeFor_team {s u : State} {die p : Nat} {l v : Launch} (hl : s.nextLaunch p die = some l)
    (ht : s.itsTurn l die = true) (hc : l.coop = false) (hu : s.placeNext l die = some (u, v)) :
    s.placeFor die p = some u := by
  simp [State.placeFor, hl, ht, hc, hu]

/-- R306: a cooperative grid whose turn it is at every distributor. -/
theorem State.placeFor_grid {s u : State} {die p : Nat} {l : Launch} (hl : s.nextLaunch p die = some l)
    (ht : s.itsTurn l die = true) (hc : l.coop = true) (hd : ∀ d ∈ l.openDies, s.itsTurn l d = true)
    (hu : s.placeGrid l = some u) : s.placeFor die p = some u := by
  simpa [State.placeFor, hl, ht, hc, hu] using hd

/-- The first partition for which a die's distributor has something to place has it placed. -/
theorem execTeamPlacement_first {s u : State} {die p : Nat} (hp : p < 64) (hno : ∀ q < p, s.placeFor die q = none)
    (hu : s.placeFor die p = some u) : execTeamPlacement die s = .next u := by
  simp only [execTeamPlacement, findSome?_range hp hno hu, Option.getD_some]

/-- R307: a die with nothing to place and a core that could take a team of an untouched chunk takes the last chunk of the first
die in the round that holds two. -/
theorem State.steal_some {s : State} {die p d : Nat} {x : Launch × Chunk} (hown : (s.diesOf p).contains die = true)
    (hnone : s.nextLaunch p die = none)
    (hcan : ∃ b ∈ s.roundFrom p die, ∃ y ∈ s.untouched p b, (s.bestCore (coresOf die) y.1.need).isSome = true)
    (hd : (s.roundFrom p die).find? (fun d => decide (2 ≤ (s.untouched p d).length)) = some d)
    (hx : lastChunk (s.untouched p d) = some x) : s.steal die p = some x := by
  have hgo : ¬((s.diesOf p).contains die = false ∨ (s.nextLaunch p die).isSome = true) := by
    rw [hown, hnone]; decide
  have hroom : ¬((s.roundFrom p die).all (fun d => (s.untouched p d).all (fun x =>
      (s.bestCore (coresOf die) x.1.need).isNone)) = true) := by
    obtain ⟨b, hb, y, hy, hsome⟩ := hcan
    intro hall
    have hfull := List.all_eq_true.mp (List.all_eq_true.mp hall b hb) y hy
    simp [Option.isNone_iff_eq_none.mp hfull] at hsome
  simp only [State.steal, if_neg hgo, if_neg hroom, hd, Option.bind_some, hx]

theorem execStealRequest_first {s : State} {die p : Nat} {l : Launch} {c : Chunk} (hp : p < 64)
    (hno : ∀ q < p, s.steal die q = none) (hx : s.steal die p = some (l, c)) :
    execStealRequest die s = .next (s.putLaunch { l with
      chunks := l.chunks.map (fun x => if x.k = c.k then { x with die := die } else x) }) := by
  simp only [execStealRequest, findSome?_range hp hno hx]

/-! ## What a team does -/

section
variable {s : State} {n : Nat} {t : Team} (ht : s.team? n = some t)
include ht

theorem execTeamRetirement_may (h : s.mayRetire t = true) :
    execTeamRetirement n s = .next ((s.retire t).startWalks (clusterOf t.core)) := by
  simp only [execTeamRetirement, ht, h, if_true]

/-- R317: a team that has not begun to stop, and may, stops. -/
theorem execPreemptionStop_may (h1 : t.status ≠ .stopping) (h2 : t.status ≠ .stopped) (h3 : t.status ≠ .saving)
    (h : s.mayStop t = true) : execPreemptionStop n s = .next (s.stopUnit t) := by
  simp only [execPreemptionStop, ht, if_neg h1, if_neg h2, if_neg h3, h, if_true]

theorem execPreemptionStop_stopping (h : t.status = .stopping) (hd : s.drained t = true) :
    execPreemptionStop n s = .next (s.abortTeam t) := by
  simp only [execPreemptionStop, ht, h, hd, if_true]

theorem execPreemptionStop_stopped (h : t.status = .stopped) : execPreemptionStop n s = .next (s.beginSave t) := by
  simp [execPreemptionStop, ht, h]

theorem execPreemptionStop_saving {k : Nat} (h : t.status = .saving) (hk : t.saveSlot = some k) :
    execPreemptionStop n s = .next (s.saveTeam t k) := by
  simp [execPreemptionStop, ht, h, hk]

/-- R324, R383: a team that is wanted back, with none of its grid on its way out and nothing ahead of it or of its grid, is
restored. -/
theorem execTeamRestore_wanted {u : State} (hw : s.wantsBack t = true)
    (hg : t.coop = true → ∀ v ∈ s.teams, v.launch = t.launch → v.leaving = false)
    (hb : (s.restoreUnit t).all (fun v => !s.restoreBehind v) = true) (hu : s.restoreGrid (s.restoreUnit t) = some u) :
    execTeamRestore n s = .next u := by
  have hstay : s.gridLeaving t = false := by
    simpa [State.gridLeaving, ← imp_iff_not_or] using hg
  have hfirst : (s.restoreUnit t).any s.restoreBehind = false := by simpa using hb
  simp [execTeamRestore, ht, hw, hstay, hfirst, hu]

end

/-- Settles O44: each event by the lemma of the unit whose turn it is. -/
theorem placementEvents : Obligations.PlacementEvents := by
  unfold Obligations.PlacementEvents
  intro s n
  refine ⟨?start, ?place, ?steal, fun t ht => ⟨?retire, ?stop, ?abort, ?save, ?saved, ?restore⟩⟩
  case start =>
    intro hn hboot htime
    rw [exec_coreStart, execCoreStart, if_pos ⟨hn, hboot, htime⟩]
  case place =>
    intro p l hp hno hl hturn
    exact ⟨fun hc u v hu => execTeamPlacement_first hp hno (State.placeFor_team hl hturn hc hu),
      fun hc hd u hu => execTeamPlacement_first hp hno (State.placeFor_grid hl hturn hc hd hu)⟩
  case steal =>
    intro p d l c hp hno hown hnone hcan hd hx
    exact execStealRequest_first hp hno (State.steal_some hown hnone hcan hd hx)
  case retire => exact execTeamRetirement_may ht
  case stop => exact execPreemptionStop_may ht
  case abort => exact execPreemptionStop_stopping ht
  case save => exact execPreemptionStop_stopped ht
  case saved => exact fun k => execPreemptionStop_saving ht
  case restore => exact fun hw hg hb u hu => execTeamRestore_wanted ht hw hg hb hu

end Sys2Proof.Machine
end

section
/-! SUPPORT. The canonical form is kept: what holds of every operation that answers a state, be it alone, with a value, or where it may
answer none. -/

namespace Sys2Proof.Machine

open Sys2Proof

/-- `State.canonical` as a proposition of its own, so that the lemmas about it compose in the order of the operations. -/
def State.Canon (s : State) : Prop := s.canonical = true

/-- The state that a check, a search or a meaning answers, if it answers one, stands in canonical form. -/
def CanonOk {ε : Type} (x : Except ε State) : Prop := ∀ t, x = .ok t → t.Canon
def CanonSome (x : Option State) : Prop := ∀ t, x = some t → t.Canon
def CanonNext (r : Host.Outcome State Fault Refusal) : Prop := ∀ t, r = .next t → t.Canon

section

variable {s t : State} {α ε : Type}

theorem State.Canon.of_memStep (h : s.Canon) (m : s.MemStep t) : t.Canon := m.2.2.2 h

/-- A state that differs from a canonical one outside the four tables. -/
theorem State.Canon.of_with (h : s.Canon) (hp : t.pal = s.pal := by rfl) (hm : t.mem = s.mem := by rfl)
    (hq : t.poison = s.poison := by rfl) (ht : t.tags = s.tags := by rfl) : t.Canon := by
  unfold State.Canon State.canonical at h ⊢
  rw [hp, hm, hq, ht]
  exact h

/-- A canonical state given other Palettes in canonical form. -/
theorem State.Canon.withPal (h : s.Canon) {p : Sparse Elem} (hp : swf Elem.blank p = true) : State.Canon { s with pal := p } := by
  obtain ⟨hm, -, hq, ht⟩ := State.canonical_iff.mp h
  exact State.canonical_iff.mpr ⟨hm, hp, hq, ht⟩

theorem swf_palPut {p : Sparse Elem} {core row lane : Nat} {e : Elem} (h : swf Elem.blank p = true) :
    swf Elem.blank (palPut p core row lane e) = true := swf_sset _ _ _ h

/-- Elements put into a Palette one after another keep its canonical form, wherever each is put or none. -/
theorem swf_foldl {f : Sparse Elem → α → Sparse Elem} (hf : ∀ p a, swf Elem.blank p = true → swf Elem.blank (f p a) = true)
    {l : List α} {p : Sparse Elem} (h : swf Elem.blank p = true) : swf Elem.blank (l.foldl f p) = true := by
  induction l generalizing p with
  | nil => exact h
  | cons a r ih => exact ih (hf p a h)

theorem State.Canon.pal (h : s.Canon) : swf Elem.blank s.pal = true := (State.canonical_iff.mp h).2.1

theorem State.Canon.fst {p : State × α} {r : α} (e : p = (t, r)) (h : p.1.Canon) : t.Canon := by
  subst e; exact h

theorem State.Canon.snd {p : α × State} {r : α} (e : p = (r, t)) (h : p.2.Canon) : t.Canon := by
  subst e; exact h

theorem State.Canon.snd_snd {β : Type} {p : α × β × State} {r : α} {r' : β} (e : p = (r, r', t)) (h : p.2.2.Canon) :
    t.Canon := by
  subst e; exact h

theorem State.Canon.foldl {f : State → α → State} {l : List α} (hf : ∀ t a, t.Canon → (f t a).Canon) (h : s.Canon) :
    (l.foldl f s).Canon := by
  induction l generalizing s with
  | nil => exact h
  | cons a r ih => exact ih (hf s a h)

theorem State.Canon.foldl_fst {β : Type} {f : State × β → α → State × β} {l : List α} {p : State × β}
    (hf : ∀ p a, p.1.Canon → (f p a).1.Canon) (h : p.1.Canon) : (l.foldl f p).1.Canon := by
  induction l generalizing p with
  | nil => exact h
  | cons a r ih => exact ih (hf p a h)

theorem State.Canon.getD {x : Option State} (hx : CanonSome x) (h : s.Canon) : (x.getD s).Canon := by
  cases x with
  | none => exact h
  | some t => exact hx t rfl

theorem State.Canon.of_ok {x : Except ε State} (e : x = .ok t) (h : CanonOk x) : t.Canon := h t e
theorem State.Canon.of_some {x : Option State} (e : x = some t) (h : CanonSome x) : t.Canon := h t e
theorem State.Canon.of_next {r : Host.Outcome State Fault Refusal} (e : r = .next t) (h : CanonNext r) : t.Canon := h t e

theorem State.Canon.ite_fst {p : Prop} [Decidable p] {x y : State × α} (hx : x.1.Canon) (hy : y.1.Canon) :
    (if p then x else y).1.Canon := by
  split
  · exact hx
  · exact hy

theorem State.Canon.toOk (h : s.Canon) : CanonOk (.ok s : Except ε State) := by
  intro t e; cases e; exact h

theorem CanonOk.error {e : ε} : CanonOk (.error e : Except ε State) := by
  intro t h; cases h

theorem CanonOk.error_bind {e : ε} {f : α → Except ε State} : CanonOk (.error e >>= f) := by
  intro t h; cases h

theorem CanonOk.ite {p : Prop} [Decidable p] {x y : Except ε State} (hx : CanonOk x) (hy : CanonOk y) :
    CanonOk (if p then x else y) := by
  split
  · exact hx
  · exact hy

theorem CanonOk.bind {x : Except ε α} {f : α → Except ε State} (hf : ∀ a, x = .ok a → CanonOk (f a)) :
    CanonOk (x >>= f) := by
  intro t e
  cases x with
  | error a => cases e
  | ok a => exact hf a rfl t e

theorem State.Canon.toSome (h : s.Canon) : CanonSome (some s) := by
  intro t e; cases e; exact h

theorem CanonSome.none : CanonSome none := by
  intro t e; cases e

theorem CanonSome.findSome? {f : α → Option State} {l : List α} (hf : ∀ a, CanonSome (f a)) : CanonSome (l.findSome? f) := by
  intro t e
  obtain ⟨a, -, ha⟩ := List.exists_of_findSome?_eq_some e
  exact hf a t ha

theorem CanonSome.map {x : Option α} {f : α → State} (hf : ∀ a, x = .some a → (f a).Canon) : CanonSome (x.map f) := by
  intro t e
  obtain ⟨a, ha, rfl⟩ := Option.map_eq_some_iff.mp e
  exact hf a ha

theorem CanonSome.bind {x : Option α} {f : α → Option State} (hf : ∀ a, x = .some a → CanonSome (f a)) :
    CanonSome (x.bind f) := by
  intro t e
  obtain ⟨a, ha, h⟩ := Option.bind_eq_some_iff.mp e
  exact hf a ha t h

theorem State.Canon.toNext (h : s.Canon) : CanonNext (.next s) := by
  intro t e; cases e; exact h

theorem CanonNext.fault {x : Fault} : CanonNext (.fault x) := by
  intro t e; cases e

theorem CanonNext.refused {x : Refusal} : CanonNext (.refused x) := by
  intro t e; cases e

end

section

/-! What each operation keeps: one lemma per operation, in the order of the model's files, each from the lemmas about the operations it
calls. -/

variable {s : State}

/-! ## Machine/Access -/

theorem State.Canon.putCore {c : Nat} {v : Core} (h : s.Canon) : (s.putCore c v).Canon := h

theorem State.Canon.putCluster {c : Nat} {v : Cluster} (h : s.Canon) : (s.putCluster c v).Canon := h

theorem State.Canon.putDie {d : Nat} {v : Die} (h : s.Canon) : (s.putDie d v).Canon := h.of_memStep (s.putDie_memStep ..)

theorem State.Canon.putPart {p : Nat} {v : Part} (h : s.Canon) : (s.putPart p v).Canon := h.of_memStep (s.putPart_memStep ..)

theorem State.Canon.putKey {k : Nat} {v : KeySlot} (h : s.Canon) : (s.putKey k v).Canon := h

theorem State.Canon.putPort {k : Nat} {v : Port} (h : s.Canon) : (s.putPort k v).Canon := h

theorem State.Canon.putLink {d e m : Nat} {v : Link} (h : s.Canon) : (s.putLink d e m v).Canon := h

theorem State.Canon.putChan {d e i : Nat} {v : Chan} (h : s.Canon) : (s.putChan d e i v).Canon := h

theorem State.Canon.putTeam {t : Team} (h : s.Canon) : (s.putTeam t).Canon := h

theorem State.Canon.putGroup {team : Nat} {g : Group} (h : s.Canon) : (s.putGroup team g).Canon := by
  unfold State.putGroup
  split
  · exact h.putTeam
  · exact h

theorem State.Canon.modGroup {team n : Nat} {f : Group → Group} (h : s.Canon) : (s.modGroup team n f).Canon := by
  unfold State.modGroup
  split
  · exact h.putGroup
  · exact h

theorem State.Canon.modTeam {team : Nat} {f : Team → Team} (h : s.Canon) : (s.modTeam team f).Canon := by
  unfold State.modTeam
  split
  · exact h.putTeam
  · exact h

theorem State.Canon.tookUnit {core unit : Nat} (h : s.Canon) : (s.tookUnit core unit).Canon := h.putCore

/-! ## Machine/Mesh -/

theorem State.Canon.modLink {die edge m : Nat} {f : Link → Link} (h : s.Canon) : (s.modLink die edge m f).Canon := h.putLink

theorem State.Canon.modChan {die edge c : Nat} {f : Chan → Chan} (h : s.Canon) : (s.modChan die edge c f).Canon := h.putChan

theorem State.Canon.fly {die edge : Nat} {l : List Flit} (h : s.Canon) : (s.fly die edge l).Canon := by
  unfold State.fly
  refine .foldl ?_ h
  intro _ _ h2
  split
  · exact h2.modLink
  · exact h2

theorem State.Canon.flit {die edge chan : Nat} {load : List (Nat × Nat)} (h : s.Canon) : (s.flit die edge chan load).Canon :=
  h.of_memStep (s.flit_memStep ..)

theorem State.Canon.carry {chan : Nat} {l : List Nat} (h : s.Canon) : (s.carry chan l).Canon := .foldl (fun _ _ h0 => h0.flit) h

/-! ## Machine/Memory -/

theorem State.Canon.writeMem {tag pa : Nat} {b : List Byte} (h : s.Canon) : (s.writeMem tag pa b).Canon :=
  h.of_memStep (s.writeMem_memStep ..)

theorem State.Canon.setPoison {pa : Nat} {b : Bool} (h : s.Canon) : (s.setPoison pa b).Canon :=
  h.of_memStep (s.setPoison_memStep ..)

theorem State.Canon.noteHbmError {pa : Nat} (h : s.Canon) :
    (s.noteHbmError pa).Canon := h.of_memStep (s.noteHbmError_memStep ..)

theorem State.Canon.tmAdd {d off n : Nat} (h : s.Canon) : (s.tmAdd d off n).Canon := h.of_memStep (s.tmAdd_memStep ..)

theorem State.Canon.noteBytes {pa n : Nat} {wr : Bool} (h : s.Canon) : (s.noteBytes pa n wr).Canon :=
  h.of_memStep (s.noteBytes_memStep ..)

theorem State.Canon.access {part core pa n : Nat} {wr : Bool} (h : s.Canon) : (s.access part core pa n wr).Canon :=
  h.of_memStep (s.access_memStep ..)

theorem State.Canon.writeSector {tag : Nat} {b : List (Nat × Byte)} (h : s.Canon) : (s.writeSector tag b).Canon :=
  h.of_memStep (s.writeSector_memStep ..)

theorem State.Canon.tlbInstall {core : Nat} {e : TlbEntry} (h : s.Canon) : (s.tlbInstall core e).Canon :=
  h.of_memStep (s.tlbInstall_memStep ..)

theorem State.Canon.walked {core part va : Nat} (h : s.Canon) : (s.walked core part va).Canon :=
  h.of_memStep (s.walked_memStep ..)

theorem State.Canon.learn {core part va rights : Nat} (h : s.Canon) : (s.learn core part va rights).Canon :=
  h.of_memStep (s.learn_memStep ..)

theorem State.Canon.vseen {core part va n : Nat} (h : s.Canon) : (s.vseen core part va n).Canon :=
  h.of_memStep (s.vseen_memStep ..)

theorem State.Canon.vwrite {core part va : Nat} {b : List Byte} (h : s.Canon) : CanonOk (s.vwrite core part va b) :=
  fun _ e => h.of_memStep (State.vwrite_memStep e)

theorem State.Canon.writeFault {part core queue tick : Nat} {r : FaultRec} (h : s.Canon) :
    (s.writeFault part core queue tick r).Canon :=
  h.of_memStep (s.writeFault_memStep ..)

theorem State.Canon.tlbDrop {part lo size : Nat} (h : s.Canon) : (s.tlbDrop part lo size).Canon := by
  unfold State.tlbDrop
  dsimp only
  exact h

/-! ## Machine/Ops -/

theorem State.Canon.lanesDie {team n : Nat} {l : List Nat} (h : s.Canon) : (s.lanesDie team n l).Canon := by
  unfold State.lanesDie
  split
  · exact h
  · split
    · exact h
    · dsimp only
      split
      · exact h
      · exact h.putDie.putGroup

theorem State.Canon.putElem {core row lane : Nat} {e : Elem} (h : s.Canon) : (s.putElem core row lane e).Canon := by
  unfold State.putElem
  split
  · exact h.withPal (swf_palPut (swf_palPut h.pal))
  · exact h.withPal (swf_palPut h.pal)

theorem State.Canon.readElem {core row lane : Nat} (h : s.Canon) : (s.readElem core row lane).1.Canon := by
  unfold State.readElem
  dsimp only
  split
  · exact h
  · exact h.putDie.withPal (swf_palPut h.pal)
  · split
    · split
      · exact h.putDie
      · exact (h.withPal (swf_palPut h.pal)).putDie.withPal (swf_palPut (swf_palPut h.pal))
    · exact h.putDie

theorem State.Canon.settle1 {team n core : Nat} {r : ERef} (h : s.Canon) : (s.settle1 team n core r).Canon := by
  unfold State.settle1
  split
  · next e0 => exact .fst e0 h.readElem
  · next e1 =>
      dsimp only
      exact .modGroup (.fst e1 h.readElem)
  · next e2 =>
      split
      · exact .lanesDie (.fst e2 h.readElem)
      · dsimp only
        exact .modGroup (.putElem (.fst e2 h.readElem))

theorem State.Canon.abortOps {team : Nat} (h : s.Canon) : (s.abortOps team).Canon := h

theorem State.Canon.writeError {t : Team} {b : List Byte} {tick : Nat} (h : s.Canon) : (s.writeError t b tick).Canon := by
  unfold State.writeError
  dsimp only
  split
  · exact h
  · split
    · exact h.writeFault
    · next e2 => exact .putPart (.of_ok e2 h.vwrite)

theorem State.Canon.kill {team group cause whereAt arg info tick : Nat} (h : s.Canon) :
    (s.kill team group cause whereAt arg info tick).Canon := by
  unfold State.kill
  split
  · exact h
  · split
    · exact h
    · extract_lets s1 s2 mark
      have hs1 : s1.Canon := h.writeError
      have hs2 : s2.Canon := hs1.putTeam
      exact .abortOps hs2

theorem State.Canon.writeFrame {core : Nat} {g : Group} (h : s.Canon) : (s.writeFrame core g).Canon :=
  .foldl (fun _ _ h0 => h0.putElem) h

theorem State.Canon.readFrame {t : Team} {g : Group} {l : List (Nat × Nat)} (h : s.Canon) : (s.readFrame t g l).Canon := by
  unfold State.readFrame
  refine .foldl ?_ h
  intro _ _ h2
  split
  · next e3 => exact .fst e3 h2.readElem
  · next e4 => exact .modGroup (.fst e4 h2.readElem)
  · next e5 => exact .kill (.fst e5 h2.readElem)

theorem State.Canon.leaveTrap {t : Team} {g : Group} {fresh : Bool} (h : s.Canon) : (s.leaveTrap t g fresh).Canon := by
  unfold State.leaveTrap
  dsimp only
  split
  · exact h.readFrame
  · exact h.readFrame.putGroup

theorem State.Canon.readScal {t : Team} {g : Group} {n : Nat} (h : s.Canon) : (s.readScal t g n).Canon := by
  unfold State.readScal
  split
  · exact h.settle1
  · exact h

theorem State.Canon.putCode {die : Nat} {c : CodeItem} (h : s.Canon) : (s.putCode die c).Canon := by
  unfold State.putCode
  dsimp only
  exact h.putDie

theorem State.Canon.codeSeen {core part va n : Nat} (h : s.Canon) : (s.codeSeen core part va n).Canon :=
  h.of_memStep (s.codeSeen_memStep ..)

theorem State.Canon.codeFetch {t : Team} {va n tick : Nat} (h : s.Canon) : (s.codeFetch t va n tick).1.Canon := by
  unfold State.codeFetch
  split
  · exact h.codeSeen.writeFault
  · exact h.codeSeen.putCode

theorem State.Canon.registerHandler {t : Team} {g : Group} {code entry : Nat} (h : s.Canon) :
    (s.registerHandler t g code entry).Canon := by
  unfold State.registerHandler
  extract_lets put
  have hput : ∀ x0 x1, x0.Canon → (put x0 x1).Canon := by
    intro _ _ h2
    unfold put
    exact h2.putElem
  split
  · exact hput _ _ h
  · next s_5 _ _ _ =>
      have hs_5 : s_5.Canon := by
        unfold s_5
        split
        · exact h.codeFetch
        · exact h
      split
      · exact hput _ _ h.putElem
      · split
        · exact hput _ _ hs_5.putElem
        · exact hput _ _ hs_5

theorem State.Canon.systemHandler {t : Team} {g : Group} {r : TrapRec} (h : s.Canon) : (s.systemHandler t g r).Canon := by
  unfold State.systemHandler
  extract_lets lost
  have hlost : ∀ x0, x0.Canon → (lost x0).Canon := by
    intro _ h1
    unfold lost
    exact h1.kill
  split
  · exact h.leaveTrap
  · split
    · split
      · exact .leaveTrap (.registerHandler h.readScal.readScal)
      · exact hlost _ h.readScal.readScal
    · split
      · split
        · exact .kill h.readScal
        · exact hlost _ h.readScal
      · exact h.kill

theorem State.Canon.enter {t : Team} {g : Group} {r : TrapRec} (h : s.Canon) : (s.enter t g r).Canon := by
  unfold State.enter
  split
  · exact h.kill
  · dsimp only
    split
    · split
      · exact h.readFrame
      · exact h
    · split
      · refine .putGroup ?_
        refine .writeFrame ?_
        split
        · exact h.readFrame
        · exact h
      · refine .systemHandler ?_
        refine .putGroup ?_
        refine .writeFrame ?_
        split
        · exact h.readFrame
        · exact h

theorem State.Canon.tryEnter {team n : Nat} (h : s.Canon) : (s.tryEnter team n).Canon := by
  unfold State.tryEnter
  split
  · exact h
  · split
    · exact h
    · split
      · exact h
      · split
        · exact h
        · exact h.enter

theorem State.Canon.raise {team n : Nat} {r : TrapRec} (h : s.Canon) : (s.raise team n r).Canon := by
  unfold State.raise
  split
  · exact h
  · split
    · exact h
    · split
      · exact h
      · dsimp only
        split
        · exact h.putGroup.tryEnter
        · split
          · exact h.putGroup.tryEnter
          · exact h.putGroup

theorem State.Canon.regangCheck {team n : Nat} (h : s.Canon) : (s.regangCheck team n).Canon := by
  unfold State.regangCheck
  split
  · exact h
  · split
    · exact h
    · dsimp only
      split
      · exact h
      · split
        · exact h
        · split
          · exact h.putGroup
          · exact h.raise

/-- Memory, the error sectors and the key tags are the same: so it is with what settles elements, whatever Palette it finds. -/
def State.SameMem (s t : State) : Prop := t.mem = s.mem ∧ t.poison = s.poison ∧ t.tags = s.tags

theorem State.SameMem.refl (s : State) : s.SameMem s := ⟨rfl, rfl, rfl⟩

theorem State.SameMem.trans {s t u : State} (h : s.SameMem t) (k : t.SameMem u) : s.SameMem u :=
  ⟨k.1.trans h.1, k.2.1.trans h.2.1, k.2.2.trans h.2.2⟩

theorem State.putGroup_sameMem (s : State) (team : Nat) (g : Group) : s.SameMem (s.putGroup team g) := by
  unfold State.putGroup
  split <;> exact ⟨rfl, rfl, rfl⟩

theorem State.modGroup_sameMem (s : State) (team n : Nat) (f : Group → Group) : s.SameMem (s.modGroup team n f) := by
  unfold State.modGroup
  split
  · exact s.putGroup_sameMem ..
  · exact .refl s

theorem State.putElem_sameMem (s : State) (core row lane : Nat) (e : Elem) : s.SameMem (s.putElem core row lane e) := by
  unfold State.putElem
  split <;> exact ⟨rfl, rfl, rfl⟩

theorem State.lanesDie_sameMem (s : State) (team n : Nat) (l : List Nat) : s.SameMem (s.lanesDie team n l) := by
  unfold State.lanesDie
  split
  · exact .refl s
  · split
    · exact .refl s
    · dsimp only
      split
      · exact .refl s
      · exact State.putGroup_sameMem ..

theorem State.readElem_sameMem (s : State) (core row lane : Nat) : s.SameMem (s.readElem core row lane).1 := by
  unfold State.readElem
  dsimp only
  split
  · exact .refl s
  · exact ⟨rfl, rfl, rfl⟩
  · split
    · split <;> exact ⟨rfl, rfl, rfl⟩
    · exact ⟨rfl, rfl, rfl⟩

theorem State.settle1_sameMem (s : State) (team n core : Nat) (r : ERef) : s.SameMem (s.settle1 team n core r) := by
  have h := s.readElem_sameMem core r.row r.lane
  unfold State.settle1
  split
  · next e => rwa [e] at h
  · next e => rw [e] at h; exact h.trans (State.modGroup_sameMem ..)
  · next e =>
    rw [e] at h
    split
    · exact h.trans (State.lanesDie_sameMem ..)
    · exact (h.trans (State.putElem_sameMem ..)).trans (State.modGroup_sameMem ..)

/-- With the same memory and Palettes in canonical form. -/
theorem State.Canon.of_sameMem {t : State} (h : s.Canon) (m : s.SameMem t) (hp : swf Elem.blank t.pal = true) : t.Canon := by
  obtain ⟨hm, -, hq, ht⟩ := State.canonical_iff.mp h
  obtain ⟨em, eq, et⟩ := m
  exact State.canonical_iff.mpr ⟨em ▸ hm, hp, eq ▸ hq, et ▸ ht⟩

theorem State.settle1s_sameMem (s : State) (team n core : Nat) (l : List ERef) :
    s.SameMem (l.foldl (fun t r => t.settle1 team n core r) s) := by
  induction l generalizing s with
  | nil => exact .refl s
  | cons r l ih => exact (s.settle1_sameMem team n core r).trans (ih _)

/-- What is settled is put into the Palette element by element; the view it was settled in, of whatever form, does not come back. -/
theorem State.Canon.settle {team n core : Nat} {l : List ERef} (h : s.Canon) : (s.settle team n core l).Canon := by
  unfold State.settle
  extract_lets v s' keep mirrors s1
  split
  · exact h
  have hs1 : s1.Canon := by
    refine h.of_sameMem ((State.SameMem.refl s).trans (State.settle1s_sameMem { s with pal := v } team n core l)) ?_
    refine swf_foldl (fun p r hp => ?_) h.pal
    unfold keep
    split
    · exact swf_palPut hp
    · exact hp
  split
  · exact hs1
  · exact hs1.putDie

/-! ## Machine/Operands -/

theorem State.Canon.putRow {c : Ctx} {n : Nat} {f : Nat → Word} (h : s.Canon) : (s.putRow c n f).Canon :=
  .foldl (fun _ _ h0 => h0.putElem) h

theorem State.Canon.putScal {c : Ctx} {n : Nat} {v : Word} (h : s.Canon) : (s.putScal c n v).Canon := h.putElem

theorem State.Canon.putPair {c : Ctx} {n v : Nat} (h : s.Canon) : (s.putPair c n v).Canon := h.putScal.putScal

theorem State.Canon.modG {c : Ctx} {f : Group → Group} (h : s.Canon) : (s.modG c f).Canon := h.modGroup

theorem State.Canon.putPred {c : Ctx} {p : Nat} {f : Nat → Bool} (h : s.Canon) : (s.putPred c p f).Canon := h.modG

theorem State.Canon.adv {c : Ctx} {k : Nat} (h : s.Canon) : (s.adv c k).Canon := h.modG

theorem State.Canon.stopped {c : Ctx} {e : Stop} (h : s.Canon) : (s.stopped c e).Canon := by
  unfold State.stopped
  split
  · dsimp only
    split
    · exact h
    · refine .raise ?_
      split
      · exact h
      · exact h.writeFault
  · split
    · exact h
    · exact h.modG

theorem State.Canon.finish {c : Ctx} {r : Except Stop State} (h : s.Canon) (hr : CanonOk r) : CanonNext (s.finish c r) := by
  unfold State.finish
  split
  · next t =>
    have ht := hr t rfl
    split
    · exact ht.toNext
    · exact ht.tryEnter.toNext
  · dsimp only
    split
    · exact h.stopped.toNext
    · exact h.stopped.tryEnter.toNext

theorem wordFrom_canon {us : Ctx → List Use} {more : Ctx → List ERef} {body : Ctx → Ctx → State → Except Stop State}
    (h : s.Canon)
    (hb : ∀ c d t, t.Canon → CanonOk (body c d t)) : CanonNext (wordFrom s us more body) := by
  unfold wordFrom
  split
  · exact .fault
  · dsimp only
    split
    · exact .fault
    · exact h.settle.finish (hb _ _ _ h.settle)

theorem word_canon {us : Ctx → List Use} {more : Ctx → List ERef} {body : Ctx → State → Except Stop State} (h : s.Canon)
    (hb : ∀ c t, t.Canon → CanonOk (body c t)) : CanonNext (word s us more body) := wordFrom_canon h fun _ d => hb d

theorem direct_canon {us : List Use} {k : Nat} {act : Ctx → State → State} (h : s.Canon)
    (ha : ∀ c t, t.Canon → (act c t).Canon) : CanonNext (direct s us k act) :=
  word_canon h fun c t ht => .bind fun _ _ => (ha c t ht).adv.toOk

/-! ## Machine/Boundary -/

theorem State.Canon.softTeam {team space row : Nat} (h : s.Canon) : (s.softTeam team space row).Canon := h.modTeam

theorem State.Canon.readBarrier {t : Team} {n : Nat} (h : s.Canon) : (s.readBarrier t n).Canon := by
  unfold State.readBarrier
  refine .foldl ?_ h
  intro _ _ h2
  split
  · next e3 => exact .fst e3 h2.readElem
  · next e4 => exact .softTeam (.fst e4 h2.readElem)
  · next e5 => exact .kill (.fst e5 h2.readElem)

theorem State.Canon.dropTimer {team n : Nat} (h : s.Canon) : (s.dropTimer team n).Canon := by
  unfold State.dropTimer
  split
  · exact h
  · split
    · exact h
    · split
      · exact h.putGroup
      · exact h

theorem State.Canon.takeTimer {team n : Nat} (h : s.Canon) : (s.takeTimer team n).Canon := by
  unfold State.takeTimer
  split
  · exact h
  · split
    · exact h
    · split
      · exact h
      · split
        · dsimp only
          exact h.putGroup.raise
        · exact h

theorem State.Canon.softAt {t : Team} {g : Group} {c : Cand} (h : s.Canon) : (s.softAt t g c).Canon := by
  unfold State.softAt
  dsimp only
  exact h.putGroup.raise

theorem State.Canon.takeSoft {team n : Nat} (h : s.Canon) : (s.takeSoft team n).Canon := by
  unfold State.takeSoft
  split
  · exact h
  · split
    · exact h
    · split
      · exact h
      · split
        · exact h.softAt
        · exact h

theorem State.Canon.dropTimers (h : s.Canon) : (s.dropTimers).Canon := by
  unfold State.dropTimers
  refine .foldl ?_ h
  intro _ _ h2
  refine .foldl ?_ h2
  intro _ _ h5
  split
  · exact h5.dropTimer
  · exact h5

theorem State.Canon.stopTwait {t : Team} {g : Group} {c : Cand} {v : Bool} (h : s.Canon) : (s.stopTwait t g c v).Canon := by
  unfold State.stopTwait
  dsimp only
  split
  · split
    · exact h.readBarrier.modGroup
    · exact h.readBarrier
  · split
    · exact h.modGroup
    · exact h

theorem State.Canon.lapseTwaits (h : s.Canon) : (s.lapseTwaits).Canon := by
  unfold State.lapseTwaits
  refine .foldl ?_ h
  intro _ _ h2
  refine .foldl ?_ h2
  intro _ _ h5
  refine .foldl ?_ h5
  intro _ _ h8
  split
  · exact h8.stopTwait
  · exact h8

theorem State.Canon.endTwaits (h : s.Canon) : (s.endTwaits).Canon := by
  unfold State.endTwaits
  refine .foldl ?_ h
  intro _ _ h2
  refine .foldl ?_ h2
  intro _ _ h5
  split
  · split
    · split
      · exact h5.stopTwait
      · exact h5
    · exact h5
  · exact h5

theorem State.Canon.regangs (h : s.Canon) : (s.regangs).Canon := by
  unfold State.regangs
  refine .foldl ?_ h
  intro _ _ h2
  refine .foldl ?_ h2
  intro _ _ h5
  split
  · exact h5
  · exact h5.regangCheck

/-! ## Machine/Flags -/

theorem State.Canon.raiseFlag {c : Ctx} {fs : Nat} (h : s.Canon) : (s.raiseFlag c fs).Canon := by
  unfold State.raiseFlag
  split
  · exact h
  · exact h.modG

theorem State.Canon.lowerFlag {team group : Nat} {f : Option Nat} (h : s.Canon) : (s.lowerFlag team group f).Canon := by
  unfold State.lowerFlag
  split
  · exact h
  · exact h.modGroup

/-! ## Machine/Scalar -/

theorem scal2_canon {d b : Nat} {f : Word → Word → Word} (h : s.Canon) : CanonNext (scal2 s d b f) :=
  direct_canon h (fun _ _ h0 => h0.putScal)

theorem scal1_canon {d b : Nat} {f : Word → Word} (h : s.Canon) : CanonNext (scal1 s d b f) :=
  direct_canon h (fun _ _ h0 => h0.putScal)

theorem long2_canon {d b : Nat} {f : Long → Long → Long} (h : s.Canon) : CanonNext (long2 s d b f) :=
  direct_canon h (fun _ _ h0 => h0.putPair)

theorem longShift_canon {d b : Nat} {f : Long → Nat → Long} (h : s.Canon) : CanonNext (longShift s d b f) :=
  direct_canon h (fun _ _ h0 => h0.putPair)

theorem scalI_canon {d : Nat} {i : Imm} {v : Word} {f : Word → Word → Word} (h : s.Canon) : CanonNext (scalI s d i v f) :=
  direct_canon h (fun _ _ h0 => h0.putScal)

/-! ## Machine/Control -/

theorem State.Canon.gotoAll {c : Ctx} {packet : Nat} (h : s.Canon) : (s.gotoAll c packet).Canon := h.modG

theorem State.Canon.parted {c : Ctx} {f : Nat → Slice → Slice} (h : s.Canon) : (s.parted c f).Canon := h.modG.regangCheck

theorem execClause_canon {w a b l y : Nat} (h : s.Canon) : CanonNext (execClause w a b l y s) := by
  unfold execClause
  refine word_canon h fun _ _ h2 => ?_
  split
  · exact .error
  · split
    · exact .error
    · split
      · exact .error
      · exact h2.modG.toOk

theorem scalarBranch_canon {cnd a b : Nat} {o : Tgt} (h : s.Canon) : CanonNext (scalarBranch s cnd a b o) := by
  unfold scalarBranch
  dsimp only
  refine word_canon h fun _ _ h2 => .bind fun _ _ => .bind fun _ _ => ?_
  refine State.Canon.toOk ?_
  split
  · exact h2.gotoAll
  · exact h2.adv

theorem execBra_canon {_c : Bool} {p : Nat} {o : Tgt} (h : s.Canon) : CanonNext (execBra _c p o s) := by
  unfold execBra
  refine word_canon h fun _ _ h2 => .bind fun _ _ => .bind fun _ _ => ?_
  split
  · exact .error
  · exact h2.parted.toOk

theorem execBraU_canon {_c : Bool} {p : Nat} {o : Tgt} (h : s.Canon) : CanonNext (execBraU _c p o s) := by
  unfold execBraU
  refine word_canon h fun _ _ h2 => .bind fun _ _ => ?_
  split
  · exact .error
  · refine State.Canon.toOk ?_
    split
    · exact h2.gotoAll
    · exact h2.adv

theorem execMark_canon {_c : Bool} {o : Tgt} (h : s.Canon) : CanonNext (execMark _c o s) := by
  unfold execMark
  refine word_canon h fun _ _ h2 => .bind fun _ _ => ?_
  split
  · exact .error
  · dsimp only
    exact h2.modG.adv.toOk

theorem execJoin_canon {_c : Bool} (h : s.Canon) : CanonNext (execJoin _c s) := by
  unfold execJoin
  refine word_canon h fun _ _ h2 => ?_
  split
  · exact .error
  · exact h2.parted.toOk

theorem execBrk_canon {_c : Bool} {p n : Nat} (h : s.Canon) : CanonNext (execBrk _c p n s) := by
  unfold execBrk
  refine word_canon h fun _ _ h2 => .bind fun _ _ => ?_
  split
  · exact .error
  · exact h2.parted.toOk

theorem trapWord_canon {n : Nat} (h : s.Canon) : CanonNext (trapWord s n) := by
  unfold trapWord
  refine word_canon h fun _ _ h2 => ?_
  dsimp only
  refine State.Canon.toOk ?_
  split
  · exact h2
  · exact h2.raise

theorem execRte_canon {_c : Bool} (h : s.Canon) : CanonNext (execRte _c s) := by
  unfold execRte
  refine word_canon h fun _ _ h2 => ?_
  split
  · exact .error
  · split
    · exact .error
    · split
      · exact .error
      · dsimp only
        split
        · exact .bind (fun _ _ => h2.leaveTrap.toOk)
        · exact .bind (fun _ _ => h2.leaveTrap.toOk)

/-! ## Machine/Requests -/

theorem State.Canon.request {r : Req} (h : s.Canon) : (s.request r).Canon := h

theorem State.Canon.send {c : Ctx} {kind : ReqKind} {dst : Dst} {aux : Nat} {hold : List (Nat × Nat)} {fs : Nat}
    {after : List Nat} {ps : List Piece} (h : s.Canon) : (s.send c kind dst aux hold fs after ps).Canon := by
  unfold State.send
  dsimp only
  exact h.request.raiseFlag

theorem State.Canon.ask {c : Ctx} {r : Req} (h : s.Canon) : (s.ask c r).Canon := by
  unfold State.ask
  split
  · exact h
  · exact h.request.modG

theorem State.Canon.doneAsking {c : Ctx} {r : Req} {k : Nat} (h : s.Canon) : (s.doneAsking c r k).Canon := .adv h

theorem State.Canon.hold {c : Ctx} {w : Wait} (h : s.Canon) : (s.hold c w).Canon := h.modG

theorem State.Canon.sent {c : Ctx} {kind : ReqKind} {dst : Dst} {fs scope : Nat} {rel acq : Bool} {k : Nat}
    {ps : List Piece} (h : s.Canon) : (s.sent c kind dst fs scope rel acq k ps).Canon := by
  unfold State.sent
  split
  · exact h.adv
  · dsimp only
    split
    · exact h.adv.send.hold
    · exact h.adv.send

theorem State.Canon.sendOrdered {c : Ctx} {kind : ReqKind} {dst : Dst} {fs scope : Nat} {rel acq : Bool} {log z k : Nat}
    {ws : List (Access × Where)} (h : s.Canon) : CanonOk (s.sendOrdered c kind dst fs scope rel acq log z k ws) := by
  unfold State.sendOrdered
  dsimp only
  exact .bind (fun _ _ => h.sent.toOk)

theorem State.Canon.putReq {r : Req} (h : s.Canon) : (s.putReq r).Canon := h

theorem State.Canon.dropReq {id : Nat} (h : s.Canon) : (s.dropReq id).Canon := h

theorem State.Canon.answer {team n id : Nat} (h : s.Canon) : (s.answer team n id).Canon := h.modGroup

theorem State.Canon.reply {team n id k : Nat} {act : State → State} (h : s.Canon) (hact : ∀ t, t.Canon → (act t).Canon) :
    (s.reply team n id k act).Canon := by
  unfold State.reply
  split
  · exact h
  · split
    · exact h.answer
    · dsimp only
      exact .tryEnter (.answer ((hact _ h).modGroup))

theorem State.Canon.leave {l : List Nat} (h : s.Canon) : (s.leave l).Canon := h

theorem State.Canon.replyTrap {team n id code info : Nat} (h : s.Canon) : (s.replyTrap team n id code info).Canon := by
  unfold State.replyTrap
  split
  · exact h.leave
  · dsimp only
    split
    · exact h.leave.modGroup
    · exact h.leave.modGroup.raise.tryEnter

theorem State.Canon.laterTrap {team n id : Nat} {r : TrapRec} {f : Option FaultRec} (h : s.Canon) :
    (s.laterTrap team n id r f).Canon := by
  unfold State.laterTrap
  dsimp only
  refine .replyTrap ?_
  split
  · exact h.writeFault
  · exact h

theorem State.Canon.completeReq {r : Req} (h : s.Canon) : (s.completeReq r).Canon := h.dropReq.lowerFlag.answer.tryEnter

/-! ## Machine/MemWords -/

theorem loadRow_canon {fs z off d i b : Nat} (h : s.Canon) : CanonNext (loadRow s fs z off d i b) := by
  unfold loadRow
  dsimp only
  exact word_canon h (fun _ _ h0 => .bind (fun _ _ => h0.sendOrdered))

theorem storeRow_canon {z off d i b : Nat} (h : s.Canon) : CanonNext (storeRow s z off d i b) := by
  unfold storeRow
  dsimp only
  exact word_canon h (fun _ _ h0 => .bind (fun _ _ => h0.sendOrdered))

theorem execLdScalarAddress_canon {_c : Bool} {sz f ds o sc d a : Nat} (h : s.Canon) :
    CanonNext (execLdScalarAddress _c sz f ds o sc d a s) := by
  unfold execLdScalarAddress
  dsimp only
  exact word_canon h (fun _ _ h0 => .bind (fun _ _ => h0.sendOrdered))

theorem execStScalarAddress_canon {_c : Bool} {sz ds o sc d a : Nat} (h : s.Canon) :
    CanonNext (execStScalarAddress _c sz ds o sc d a s) := by
  unfold execStScalarAddress
  dsimp only
  exact word_canon h (fun _ _ h0 => .bind (fun _ _ => h0.sendOrdered))

theorem atomic_canon {op : AtomOp} {wide : Bool} {ord sc fs d u a : Nat} (h : s.Canon) :
    CanonNext (atomic s op wide ord sc fs d u a) := by
  unfold atomic
  dsimp only
  exact word_canon h (fun _ _ h0 => .bind (fun _ _ => h0.sendOrdered))

/-! ## Machine/MemEvents -/

theorem State.Canon.reqFault {r : Req} {f : FaultRec} (h : s.Canon) : (s.reqFault r f).Canon := h.writeFault

theorem State.Canon.performed {r : Req} {i : Nat} {p : Piece} (h : s.Canon) : (s.performed r i p).Canon := by
  unfold State.performed
  dsimp only
  split
  · exact h.putReq.answer.tryEnter
  · exact h.putReq

theorem State.Canon.walkNeed {t : Team} {g : Group} {c : Cand} {n : Need} {rest : List Need} (h : s.Canon) :
    (s.walkNeed t g c n rest).Canon := by
  unfold State.walkNeed
  dsimp only
  refine .modGroup ?_
  split
  · exact h.walked.tlbInstall
  · exact h.writeFault

theorem execTranslationWalk_canon {team group slice : Nat} (h : s.Canon) :
    CanonNext (execTranslationWalk team group slice s) := by
  unfold execTranslationWalk
  split
  · exact h.toNext
  · split
    · exact h.toNext
    · split
      · exact h.toNext
      · split
        · exact h.walkNeed.toNext
        · exact h.toNext

theorem State.Canon.windowRead {r : Req} {va n : Nat} (h : s.Canon) : (s.windowRead r va n).2.Canon := by
  unfold State.windowRead
  split
  · exact h
  · dsimp only
    split
    · exact h.learn.access.noteHbmError
    · exact h.learn.access

theorem State.Canon.statUpdate {r : Req} {stat k : Nat} (h : s.Canon) : (s.statUpdate r stat k).Canon := by
  unfold State.statUpdate
  split
  · exact h
  · exact h.reqFault
  · dsimp only
    split
    · exact h.learn.access.noteHbmError
    · exact h.learn.access.writeMem.noteBytes

theorem State.Canon.windowElem {r : Req} {w : Window} {k : Nat} (h : s.Canon) : (s.windowElem r w k).2.2.Canon := by
  unfold State.windowElem
  split
  · next e0 => exact .snd e0 h.windowRead
  · next e1 =>
      split
      · exact .snd e1 h.windowRead
      · split
        · next e2 => exact .snd e2 (.windowRead (.snd e1 h.windowRead))
        · next e3 => exact .snd e3 (.windowRead (.snd e1 h.windowRead))

theorem State.Canon.serveWindow {r : Req} {w : Window} {lost : Option Nat} {p : Piece} (h : s.Canon) :
    (s.serveWindow r w lost p).1.Canon := by
  unfold State.serveWindow
  dsimp only
  refine .foldl_fst ?_ h
  intro _ _ h2
  split
  · next e3 => exact .snd_snd e3 h2.windowElem
  · next e4 =>
      refine .statUpdate ?_
      split
      · split
        · exact .snd_snd e4 h2.windowElem
        · exact .reqFault (.snd_snd e4 h2.windowElem)
      · exact .snd_snd e4 h2.windowElem

theorem State.Canon.readPiece {p : Piece} (h : s.Canon) : (s.readPiece p).1.Canon := by
  unfold State.readPiece
  split
  · exact h
  · split
    · exact h.noteHbmError
    · exact h.noteBytes

theorem execPseudoChannelRead_canon {req i : Nat} (h : s.Canon) : CanonNext (execPseudoChannelRead req i s) := by
  unfold execPseudoChannelRead
  split
  · exact h.toNext
  · split
    · exact h.toNext
    · dsimp only
      refine State.Canon.toNext ?_
      refine .performed ?_
      split
      · exact h.serveWindow
      · exact h.readPiece

theorem execPseudoChannelWrite_canon {req i : Nat} (h : s.Canon) : CanonNext (execPseudoChannelWrite req i s) := by
  unfold execPseudoChannelWrite
  split
  · exact h.toNext
  · split
    · exact h.toNext
    · dsimp only
      exact h.writeSector.noteBytes.performed.toNext

theorem State.Canon.applyAtoms {op : AtomOp} {tag : Nat} {l : List LaneAcc} (h : s.Canon) :
    (s.applyAtoms op tag l).1.Canon := by
  unfold State.applyAtoms
  refine .foldl_fst ?_ h
  intro _ _ h2
  split
  · exact h2.noteHbmError
  · dsimp only
    exact h2.writeMem.noteBytes.noteBytes

theorem execPseudoChannelAtomic_canon {req i : Nat} (h : s.Canon) : CanonNext (execPseudoChannelAtomic req i s) := by
  unfold execPseudoChannelAtomic
  split
  · exact h.toNext
  · split
    · split
      · exact h.toNext
      · split
        · next e4 => exact State.Canon.toNext (.performed (.fst e4 h.applyAtoms))
    · exact h.toNext

theorem State.Canon.acknowledge {r : Req} {i : Nat} {p : Piece} (h : s.Canon) : (s.acknowledge r i p).Canon := by
  unfold State.acknowledge
  dsimp only
  split
  · exact h.putReq.completeReq
  · exact h.putReq

theorem execWriteAcknowledge_canon {req i : Nat} (h : s.Canon) : CanonNext (execWriteAcknowledge req i s) := by
  unfold execWriteAcknowledge
  split
  · exact h.toNext
  · split
    · exact h.acknowledge.toNext
    · exact h.toNext

theorem execFlushingReadCompletion_canon {req : Nat} (h : s.Canon) : CanonNext (execFlushingReadCompletion req s) := by
  unfold execFlushingReadCompletion
  split
  · exact h.toNext
  · dsimp only
    split
    · refine State.Canon.toNext ?_
      split
      · exact h.putReq.completeReq
      · exact h.putReq
    · exact h.toNext

theorem execPrefetchIssue_canon {die sector : Nat} (h : s.Canon) : CanonNext (execPrefetchIssue die sector s) := by
  unfold execPrefetchIssue
  dsimp only
  split
  · exact h.putDie.tmAdd.toNext
  · exact h.toNext

theorem State.Canon.landLane {core : Nat} {g : Group} {d z v l : Nat} (h : s.Canon) : (s.landLane core g d z v l).Canon := by
  unfold State.landLane
  dsimp only
  split
  · exact h.putElem.putElem
  · exact h.putElem

theorem State.Canon.landScal {core : Nat} {g : Group} {d z v : Nat} (h : s.Canon) : (s.landScal core g d z v).Canon := by
  unfold State.landScal
  dsimp only
  split
  · exact h.putElem.putElem
  · exact h.putElem

theorem State.Canon.loseScal {team core : Nat} {g : Group} {d k : Nat} (h : s.Canon) : (s.loseScal team core g d k).Canon := by
  unfold State.loseScal
  dsimp only
  exact .modGroup (.foldl (fun _ _ h0 => h0.putElem) h)

theorem State.Canon.landPiece {r : Req} {p : Piece} (h : s.Canon) : (s.landPiece r p).Canon := by
  unfold State.landPiece
  split
  · exact h
  · split
    · exact h
    · split
      · exact h.loseScal
      · exact .foldl (fun _ _ h5 => h5.landScal) h
    · split
      · exact h.lanesDie
      · exact .foldl (fun _ _ h8 => .foldl (fun _ _ h9 => h9.landLane) h8) h

theorem State.Canon.landed {r : Req} {i : Nat} {p : Piece} (h : s.Canon) : (s.landed r i p).Canon := by
  unfold State.landed
  dsimp only
  split
  · exact h.landPiece.putReq.completeReq
  · exact h.landPiece.putReq

theorem execLoadSectorLanding_canon {req i : Nat} (h : s.Canon) : CanonNext (execLoadSectorLanding req i s) := by
  unfold execLoadSectorLanding
  split
  · exact h.toNext
  · split
    · exact h.landed.toNext
    · exact h.toNext

/-! ## Machine/Convert -/

theorem State.Canon.putCvt {core row code pos l v : Nat} (h : s.Canon) : (s.putCvt core row code pos l v).Canon := by
  unfold State.putCvt
  split
  · exact h.putElem
  · exact h.putElem

theorem State.Canon.cvtEffect {r : Req} (h : s.Canon) : (s.cvtEffect r).Canon := by
  unfold State.cvtEffect
  split
  · exact .foldl (fun _ _ h2 => h2.putCvt) h
  · exact h

theorem execCvt_canon {_c : Bool} {src dst rnd : Nat} {x : Option Nat} {d a : Nat} (h : s.Canon) :
    CanonNext (execCvt _c src dst rnd x d a s) := by
  unfold execCvt
  dsimp only
  refine word_canon h fun _ _ h2 => ?_
  split
  · refine State.Canon.toOk ?_
    split
    · exact h2.cvtEffect.doneAsking
    · exact h2
  · refine .bind fun _ _ => ?_
    split
    · exact State.Canon.toOk (.adv (.foldl (fun _ _ h9 => h9.putCvt) h2))
    · exact .bind (fun _ _ => .bind (fun _ _ => h2.ask.toOk))

theorem State.Canon.putRecords {r : Req} {base slot : Nat} {l : List LaneAcc} (h : s.Canon) :
    (s.putRecords r base slot l).Canon := by
  unfold State.putRecords
  refine .foldl ?_ h
  intro _ _ h2
  dsimp only
  split
  · exact h2
  · exact h2.reqFault
  · exact h2.learn.writeSector.access

theorem State.Canon.listAtomic {r : Req} {p : Piece} (h : s.Canon) : (s.listAtomic r p).1.Canon := by
  unfold State.listAtomic
  split
  · exact h
  · split
    · exact h.noteHbmError
    · dsimp only
      split
      · exact h.noteBytes
      · split
        · exact h.noteBytes.writeMem.noteBytes.putRecords
        · exact h.noteBytes

/-! ## Machine/QueueOps -/

theorem State.Canon.queueFault {part q va : Nat} {e : Nat × Nat} {wr : Bool} (h : s.Canon) :
    (s.queueFault part q va e wr).Canon :=
  h.writeFault

theorem State.Canon.qread {part q va n : Nat} (h : s.Canon) : (s.qread part q va n).1.Canon := h.of_memStep (s.qread_memStep ..)

theorem State.Canon.qentry {part q : Nat} (h : s.Canon) : (s.qentry part q).1.Canon := h.of_memStep (s.qentry_memStep ..)

theorem State.Canon.qwrite {part q va : Nat} {b : List Byte} (h : s.Canon) : (s.qwrite part q va b).Canon :=
  h.of_memStep (s.qwrite_memStep ..)

theorem State.Canon.setOnErr {part q : Nat} {on err : Bool} (h : s.Canon) : (s.setOnErr part q on err).Canon := h.qwrite

theorem State.Canon.setStatus {part q status : Nat} (h : s.Canon) : (s.setStatus part q status).Canon := h.qwrite

theorem State.Canon.setRdidx {part q n : Nat} (h : s.Canon) : (s.setRdidx part q n).Canon := h.qwrite

theorem State.Canon.submit {part q : Nat} {e : QEntry} {words : List Nat} (h : s.Canon) : (s.submit part q e words).Canon :=
  h.of_memStep (s.submit_memStep ..)

theorem State.Canon.setSlotState {t : Team} {slot v : Nat} (h : s.Canon) : (s.setSlotState t slot v).Canon := by
  unfold State.setSlotState
  dsimp only
  split
  · next e0 => exact .of_ok e0 h.vwrite
  · exact h.writeFault

theorem State.Canon.firstIssue {team : Nat} (h : s.Canon) : (s.firstIssue team).Canon := by
  unfold State.firstIssue
  split
  · exact h
  · split
    · exact h
    · exact h.setSlotState.putTeam

/-! ## Machine/Lists -/

theorem State.Canon.bumpEffect {r : Req} (h : s.Canon) : (s.bumpEffect r).Canon := by
  unfold State.bumpEffect
  split
  · refine .foldl ?_ h
    intro _ _ h5
    dsimp only
    exact .modGroup (.foldl (fun _ _ h6 => h6.putElem.putElem) h5)
  · exact h

theorem execBump_canon {_c : Bool} {p d a : Nat} (h : s.Canon) : CanonNext (execBump _c p d a s) := by
  unfold execBump
  dsimp only
  refine word_canon h fun _ _ h2 => ?_
  split
  · refine State.Canon.toOk ?_
    split
    · exact h2.bumpEffect.doneAsking
    · exact h2
  · refine .bind fun _ _ => .bind fun _ _ => .bind fun _ _ => ?_
    split
    · exact .bind (fun _ _ => h2.adv.toOk)
    · exact .bind (fun _ _ => .bind (fun _ _ => .bind (fun _ _ => .bind (fun _ _ => h2.ask.toOk))))

theorem State.Canon.bumpAtomic {r : Req} {p : Piece} (h : s.Canon) : (s.bumpAtomic r p).1.Canon := by
  unfold State.bumpAtomic
  split
  · exact h
  · split
    · exact h.noteHbmError
    · dsimp only
      split
      · exact h.noteBytes.writeMem.noteBytes
      · exact h.noteBytes

theorem append_canon {wide : Bool} {fs p d a : Nat} (h : s.Canon) : CanonNext (append s wide fs p d a) := by
  unfold append
  dsimp only
  refine word_canon h fun _ _ h2 => .bind fun _ _ => .bind fun _ _ => .bind fun _ _ => .bind fun _ _ => .bind fun _ _ =>
    .bind fun _ _ => .bind fun _ _ => ?_
  split
  · exact h2.adv.toOk
  · exact .bind (fun _ _ => .bind (fun _ _ => .bind (fun _ _ => .bind (fun _ _ => .bind (fun _ _ => .bind (fun _ _ =>
      h2.adv.send.toOk))))))

theorem State.Canon.chunkWrite {r : Req} {va : Nat} {b : List Byte} (h : s.Canon) : (s.chunkWrite r va b).1.Canon := by
  unfold State.chunkWrite
  split
  · exact h
  · exact h.reqFault
  · exact h.learn.writeSector.access

theorem State.Canon.chunkCount {r : Req} {chunk : Nat} (h : s.Canon) : (s.chunkCount r chunk).Canon := by
  unfold State.chunkCount
  split
  · exact h.chunkWrite
  · exact h.noteBytes.chunkWrite

theorem State.Canon.chunkFor {r : Req} {q : Pool} {poolPa poolTag cap : Nat} {a : Appending} (h : s.Canon) :
    (s.chunkFor r q poolPa poolTag cap a).1.Canon := by
  unfold State.chunkFor
  split
  · exact h
  · split
    · exact h
    · split
      · exact h
      · dsimp only
        split
        · next e1 => exact .fst e1 h.writeMem.noteBytes.chunkWrite
        · next e2 =>
            split
            · exact .fst e2 h.writeMem.noteBytes.chunkWrite
            · exact .chunkWrite (.fst e2 h.writeMem.noteBytes.chunkWrite)

theorem State.Canon.appendValue {r : Req} {z v : Nat} {a : Appending} (h : s.Canon) : (s.appendValue r z v a).1.Canon := by
  unfold State.appendValue
  split
  · next e0 => exact .fst e0 h.chunkWrite
  · next e1 =>
      dsimp only
      exact .chunkCount (.fst e1 h.chunkWrite)

theorem State.Canon.appendValues {r : Req} {q : Pool} {poolPa poolTag cap z : Nat} {vals : List Nat} {a : Appending}
    (h : s.Canon) : (s.appendValues r q poolPa poolTag cap z vals a).1.Canon := by
  unfold State.appendValues
  refine .foldl_fst ?_ h
  intro _ _ h2
  split
  · exact h2
  · dsimp only
    split
    · exact h2.chunkFor
    · exact h2.chunkFor.appendValue

theorem State.Canon.putList {tag pa old dropped : Nat} {a : Appending} (h : s.Canon) :
    (s.putList tag pa old dropped a).Canon := by
  unfold State.putList
  dsimp only
  exact h.writeMem

theorem State.Canon.appendLost {r : Req} {p : Piece} (h : s.Canon) : (s.appendLost r p).Canon := h.modGroup

theorem State.Canon.appendList {r : Req} {p : Piece} {wide : Bool} {tag pa : Nat} (h : s.Canon) :
    (s.appendList r p wide tag pa).Canon := by
  unfold State.appendList
  dsimp only
  split
  · exact h.noteHbmError.appendLost
  · split
    all_goals
      split
      · exact h.noteBytes.noteBytes.noteBytes.putList
      · split
        · exact h.noteBytes.noteBytes.noteBytes.appendLost.putList
        · exact h.noteBytes.noteBytes.noteBytes.reqFault.putList
        · split
          · exact h.noteBytes.noteBytes.noteBytes.learn.access.noteHbmError.appendLost.putList
          · exact h.noteBytes.noteBytes.noteBytes.learn.access.appendValues.putList

theorem execAppendApply_canon {req : Nat} (h : s.Canon) : CanonNext (execAppendApply req s) := by
  unfold execAppendApply
  split
  · exact h.toNext
  · split
    · split
      · exact h.toNext
      · exact h.appendList.putReq.toNext
    · exact h.toNext

theorem State.Canon.ready {c : Ctx} (h : s.Canon) : (s.ready c).Canon := by
  unfold State.ready
  split
  · exact h
  · exact h.hold

theorem State.Canon.offer {c : Ctx} {p : Nat} {l : List Nat} (h : s.Canon) : CanonOk (s.offer c p l) := by
  unfold State.offer
  dsimp only
  split
  · exact .error
  · split
    · split
      · split
        · exact .error
        · refine State.Canon.toOk ?_
          refine .ready ?_
          refine .adv ?_
          split
          · exact h.qentry.submit
          · exact h.qentry.submit.putPred
      · split
        · exact .error
        · refine State.Canon.toOk ?_
          refine .ready ?_
          refine .adv ?_
          split
          · exact h.qentry
          · exact h.qentry.putPred
    · split
      · split
        · exact .error
        · exact h.qentry.hold.toOk
      · exact h.qentry.putPred.adv.ready.toOk

theorem State.Canon.windowPacket {c : Ctx} {w : Window} {va : Nat} (h : s.Canon) : (s.windowPacket c w va).1.Canon := by
  unfold State.windowPacket
  dsimp only
  exact h.serveWindow

theorem State.Canon.packetRead {t : Team} {pa : Nat} (h : s.Canon) : (s.packetRead t pa).Canon := by
  unfold State.packetRead
  dsimp only
  split
  · exact h.access.noteHbmError
  · exact h.access

theorem CanonOk.firstWhere {ε : Type} {ws : List (Access × Where)} {f : Nat → Nat → Except ε State}
    {g : Window → Except ε State}
    {z : Except ε State} (hf : ∀ pa tag, CanonOk (f pa tag)) (hg : ∀ w, CanonOk (g w)) (hz : CanonOk z) :
    CanonOk (match ws with
      | (_, .at_ pa tag) :: _ => f pa tag
      | (_, .window w) :: _ => g w
      | _ => z) := by
  rcases ws with _ | ⟨⟨_, w⟩, _⟩
  · exact hz
  · cases w with
    | at_ => exact hf _ _
    | window => exact hg _
    | fail => exact hz
    | miss => exact hz

theorem enqueue_canon {p a : Nat} (h : s.Canon) : CanonNext (enqueue s p a) := by
  refine word_canon h fun c s h => ?_
  split
  · exact h.offer
  · refine .bind fun _ _ => .ite .error <| .bind fun _ _ => .bind fun _ _ => .bind fun ws _ => .ite .error ?_
    refine .firstWhere (fun _ _ => h.packetRead.offer) (fun w => ?_) h.offer
    split
    next e => exact (State.Canon.fst e h.windowPacket).offer

theorem execEnqRoomRetry_canon {team group slice : Nat} (h : s.Canon) : CanonNext (execEnqRoomRetry team group slice s) := by
  unfold execEnqRoomRetry
  split
  · exact h.toNext
  · split
    · exact h.toNext
    · split
      · split
        · exact h.modGroup.toNext
        · exact h.qentry.toNext
      · exact h.toNext

/-! ## Machine/Barrier -/

theorem State.Canon.unhold {team n : Nat} (h : s.Canon) : (s.unhold team n).Canon := h

theorem State.Canon.setBarrier {t : Team} {n : Nat} {f : Barrier → Barrier} (h : s.Canon) : (s.setBarrier t n f).Canon := by
  unfold State.setBarrier
  dsimp only
  split
  · exact h.modTeam
  · exact h.modTeam.unhold

theorem State.Canon.modBarrier {team n : Nat} {f : Barrier → Barrier} (h : s.Canon) : (s.modBarrier team n f).Canon := by
  unfold State.modBarrier
  split
  · exact h
  · exact h.readBarrier.setBarrier

theorem State.Canon.modBar {team : Nat} {bar : Option Nat} {f : Barrier → Barrier} (h : s.Canon) :
    (s.modBar team bar f).Canon := by
  unfold State.modBar
  split
  · exact h
  · exact h.modBarrier

theorem State.Canon.fences {c : Ctx} {scope : Nat} (h : s.Canon) : (s.fences c scope).Canon := by
  unfold State.fences
  split
  · exact h.modG
  · exact h

theorem execBinit_canon {_c : Bool} {n a : Nat} (h : s.Canon) : CanonNext (execBinit _c n a s) := by
  unfold execBinit
  refine word_canon h fun _ _ h2 => .bind fun _ _ => .bind fun _ _ => ?_
  dsimp only
  split
  · exact .error
  · split
    · exact h2.readBarrier.stopped.toOk
    · exact h2.readBarrier.setBarrier.adv.toOk

theorem execBread_canon {_c : Bool} {n d : Nat} (h : s.Canon) : CanonNext (execBread _c n d s) := by
  unfold execBread
  dsimp only
  exact word_canon h (fun _ _ h0 => .bind (fun _ _ => .bind (fun _ _ => h0.readBarrier.putPair.putPair.adv.toOk)))

theorem execTwait_canon {_c : Bool} {p n a : Nat} (h : s.Canon) : CanonNext (execTwait _c p n a s) := by
  unfold execTwait
  refine word_canon h fun _ _ h2 => .bind fun _ _ => .bind fun _ _ => ?_
  dsimp only
  split
  · exact h2.readBarrier.putPred.adv.ready.toOk
  · split
    · exact h2.readBarrier.putPred.adv.ready.toOk
    · exact h2.readBarrier.stopped.toOk

theorem execTwaitTimeout_canon {team group slice : Nat} (h : s.Canon) : CanonNext (execTwaitTimeout team group slice s) := by
  unfold execTwaitTimeout
  split
  · exact h.toNext
  · split
    · exact h.stopTwait.toNext
    · exact h.toNext

theorem execCbatch_canon {_c : Bool} {d : Nat} (h : s.Canon) : CanonNext (execCbatch _c d s) := by
  unfold execCbatch
  refine word_canon h fun _ _ h2 => .bind fun _ _ => ?_
  dsimp only
  split
  · split
    · exact .error_bind
    · exact .bind (fun _ _ => h2.putScal.modG.adv.toOk)
  · exact .bind (fun _ _ => h2.putScal.modG.adv.toOk)

theorem waitBatch_canon {a : Nat} {act : Ctx → Bool → State → State}
    (h : s.Canon) (hact : ∀ x y t, t.Canon → (act x y t).Canon) : CanonNext (waitBatch s a act) := by
  unfold waitBatch
  refine word_canon h fun _ _ h2 => .bind fun _ _ => ?_
  dsimp only
  split
  · exact .error
  · split
    · exact .error
    · exact ((hact _ _ _ h2).adv).toOk

/-! ## Machine/Swatch -/

theorem execExportSwatch_canon {_c : Bool} {ix : Nat} (h : s.Canon) : CanonNext (execExportSwatch _c ix s) := by
  refine word_canon h fun c s h => .bind fun v _ => .ite .error_bind <| .bind fun _ _ =>
    .ite (.bind fun _ _ => ?_) (.bind fun _ _ => ?_)
  all_goals
    refine .bind fun _ _ => .ite .error_bind <| .bind fun _ _ => .ite .error_bind <| .bind fun _ _ =>
      .ite .error_bind <| .bind fun _ _ => .bind fun _ _ => .ite .error_bind <| .bind fun _ _ =>
        .ite .error_bind <| .bind fun _ _ => ?_
    exact (State.Canon.of_with h).putPair.adv.toOk

theorem State.Canon.exchangeRows {core a b : Nat} (h : s.Canon) : (s.exchangeRows core a b).Canon := by
  unfold State.exchangeRows
  extract_lets swapIn p
  have hswap : ∀ q x y, swf Elem.blank q = true → swf Elem.blank (swapIn q x y) = true := fun q x y hq =>
    swf_foldl (fun _ _ hr => swf_palPut (swf_palPut hr)) hq
  split
  · exact h.withPal (hswap _ _ _ (hswap _ _ _ h.pal))
  · exact h.withPal (hswap _ _ _ h.pal)

theorem State.Canon.swapBanks {e : SwEntry} (h : s.Canon) : (s.swapBanks e).Canon := by
  unfold State.swapBanks
  extract_lets s1 flip
  have hs1 : s1.Canon := by
    unfold s1
    split
    · exact .foldl (fun _ _ h1 => h1.exchangeRows) h
    · exact h
  exact hs1

theorem execSwap_canon {_c : Bool} {n : Nat} (h : s.Canon) : CanonNext (execSwap _c n s) := by
  unfold execSwap
  refine word_canon h fun _ _ h2 => .bind fun _ _ => ?_
  dsimp only
  split
  · exact .error
  · exact State.Canon.toOk (.adv (.foldl (fun _ _ h7 => h7.swapBanks) h2))

theorem State.Canon.askSwatch {c : Ctx} {r : SwReq} (h : s.Canon) : (s.askSwatch c r).Canon := by
  unfold State.askSwatch
  split
  · exact h
  · exact .hold h

theorem State.Canon.swCounts {r : SwReq} (h : s.Canon) : (s.swCounts r).Canon := by
  unfold State.swCounts
  dsimp only
  split
  · refine .modBar ?_
    split
    · exact h.modGroup
    · exact h
  · split
    · exact h.modGroup
    · exact h

theorem State.Canon.putSwreq {r : SwReq} (h : s.Canon) : (s.putSwreq r).Canon := h

theorem State.Canon.dropSwreq {id : Nat} (h : s.Canon) : (s.dropSwreq id).Canon := h

theorem swatch_canon {op : SwOp} {far : Bool} {fs d h n : Nat} (hs : s.Canon) : CanonNext (swatch s op far fs d h n) := by
  unfold swatch
  dsimp only
  refine word_canon hs fun _ _ h2 => ?_
  split
  · refine State.Canon.toOk ?_
    split
    · exact h2.putSwreq.swCounts.adv
    · exact h2
  · refine .bind fun _ _ => .bind fun _ _ => .bind fun _ _ => ?_
    split
    all_goals
      refine .bind fun _ _ => .bind fun _ _ => .bind fun _ _ => .bind fun _ _ => .bind fun _ _ => .bind fun _ _ => ?_
      split
      · exact .error_bind
      · refine .bind fun _ _ => ?_
        split
        · exact h2.adv.toOk
        · refine .bind fun _ _ => ?_
          split
          · exact h2.askSwatch.toOk
          · exact State.Canon.toOk h2.modBar.adv

theorem execSwldB32_canon {_c : Bool} {f d h : Nat} (hs : s.Canon) : CanonNext (execSwldB32 _c f d h s) := swatch_canon hs

theorem execSwstB32_canon {_c : Bool} {d h n : Nat} (hs : s.Canon) : CanonNext (execSwstB32 _c d h n s) := swatch_canon hs

theorem execSwatomAddN32_canon {_c : Bool} {f d h n : Nat} (hs : s.Canon) : CanonNext (execSwatomAddN32 _c f d h n s) :=
  swatch_canon hs

theorem execSwatomCasB32_canon {_c : Bool} {f d h n : Nat} (hs : s.Canon) : CanonNext (execSwatomCasB32 _c f d h n s) :=
  swatch_canon hs

theorem execSwredAddN32_canon {_c : Bool} {d h n : Nat} (hs : s.Canon) :
    CanonNext (execSwredAddN32 _c d h n s) := swatch_canon hs

theorem execSwredOrB32_canon {_c : Bool} {d h n : Nat} (hs : s.Canon) : CanonNext (execSwredOrB32 _c d h n s) := swatch_canon hs

theorem execSwldB32Far_canon {_c : Bool} {f d h : Nat} (hs : s.Canon) : CanonNext (execSwldB32Far _c f d h s) := swatch_canon hs

theorem execSwstB32Far_canon {_c : Bool} {d h n : Nat} (hs : s.Canon) : CanonNext (execSwstB32Far _c d h n s) := swatch_canon hs

theorem execSwatomAddN32Far_canon {_c : Bool} {f d h n : Nat} (hs : s.Canon) : CanonNext (execSwatomAddN32Far _c f d h n s) :=
  swatch_canon hs

theorem execSwatomCasB32Far_canon {_c : Bool} {f d h n : Nat} (hs : s.Canon) : CanonNext (execSwatomCasB32Far _c f d h n s) :=
  swatch_canon hs

theorem execSwredAddN32Far_canon {_c : Bool} {d h n : Nat} (hs : s.Canon) : CanonNext (execSwredAddN32Far _c d h n s) :=
  swatch_canon hs

theorem execSwredOrB32Far_canon {_c : Bool} {d h n : Nat} (hs : s.Canon) : CanonNext (execSwredOrB32Far _c d h n s) :=
  swatch_canon hs

theorem State.Canon.swSoft {e : SwEntry} {num lane : Nat} {repaired : Bool} (h : s.Canon) :
    (s.swSoft e num lane repaired).Canon := by
  unfold State.swSoft
  split
  · exact h
  · split
    · exact h.softTeam
    · exact h.modGroup

theorem State.Canon.swApply {w : SwEntry} {num : Nat} {op : SwOp} {core row : Nat} {ln : Nat × Word × Word} (h : s.Canon) :
    (s.swApply w num op core row ln).1.Canon := by
  unfold State.swApply
  split
  · exact h.putElem
  · split
    · next e1 => exact .fst e1 h.readElem
    · next e2 =>
        dsimp only
        split
        · exact .swSoft (.fst e2 h.readElem)
        · exact .putElem (.swSoft (.fst e2 h.readElem))

theorem State.Canon.swPerform {r : SwReq} {e : SwEntry} (h : s.Canon) : (s.swPerform r e).1.Canon := by
  unfold State.swPerform
  split
  · exact h
  · dsimp only
    split
    · exact .foldl_fst (fun _ _ h3 => h3.swApply) h
    · exact .modBar (.foldl_fst (fun _ _ h4 => h4.swApply) h)

theorem State.Canon.swFar {r : SwReq} (h : s.Canon) : (s.swFar r).1.Canon := by
  unfold State.swFar
  dsimp only
  exact h

theorem State.Canon.swRefuse {r : SwReq} {code : Nat} (h : s.Canon) : (s.swRefuse r code).Canon := by
  unfold State.swRefuse
  dsimp only
  split
  · exact h.dropSwreq.replyTrap
  · exact h.dropSwreq.modBar

theorem State.Canon.swAccept {r : SwReq} {out : State × List (Nat × Elem)} (h : s.Canon) (hout : out.1.Canon) :
    (s.swAccept r out).Canon := by
  unfold State.swAccept
  split
  · dsimp only
    exact hout.putSwreq.reply (fun _ h1 => h1.swCounts)
  · exact h.putSwreq

theorem State.Canon.swPoison {r : SwReq} (h : s.Canon) : (s.swPoison r).Canon := by
  unfold State.swPoison
  split
  · exact h.swAccept h
  · exact h.dropSwreq.modBar

theorem State.Canon.swCarry {r : SwReq} (h : s.Canon) : (s.swCarry r).Canon := h.carry

theorem execSwatchLanding_canon {req : Nat} (h : s.Canon) : CanonNext (execSwatchLanding req s) := by
  unfold execSwatchLanding
  split
  · exact h.toNext
  · split
    · exact h.toNext
    · split
      · split
        · split
          · exact h.toNext
          · exact h.swPerform.dropSwreq.modBar.toNext
        · exact h.dropSwreq.modBar.toNext
      · exact h.dropSwreq.modBar.toNext

theorem execSwatchReplyLanding_canon {req : Nat} (h : s.Canon) : CanonNext (execSwatchReplyLanding req s) := by
  unfold execSwatchReplyLanding
  split
  · exact h.toNext
  · split
    · exact h.toNext
    · dsimp only
      refine State.Canon.toNext ?_
      refine .dropSwreq ?_
      split
      · refine .modBar ?_
        refine .lowerFlag ?_
        refine .lanesDie ?_
        split
        · exact .foldl (fun _ _ h4 => h4.putElem) h
        · exact h
      · refine .lowerFlag ?_
        refine .lanesDie ?_
        split
        · exact .foldl (fun _ _ h7 => h7.putElem) h
        · exact h

/-! ## Machine/Asked -/

theorem State.Canon.askedApply {r : Req} {p : Piece} (h : s.Canon) : (s.askedApply r p).1.Canon := by
  unfold State.askedApply
  split
  · exact h.listAtomic
  · exact h.bumpAtomic
  · exact h

/-- The state in which a partner has taken effect stands in canonical form. -/
def CanonPartner (p : Partner) : Prop := ∀ t, p = .go t → t.Canon

theorem State.Canon.toGo (h : s.Canon) : CanonPartner (.go s) := by
  intro t e; cases e; exact h

theorem CanonPartner.none : CanonPartner .none := by
  intro t e; cases e

theorem CanonPartner.wait : CanonPartner .wait := by
  intro t e; cases e

theorem CanonPartner.trap {code info : Nat} : CanonPartner (.trap code info) := by
  intro t e; cases e

theorem State.Canon.reqPartner {q : Req} (h : s.Canon) : CanonPartner (s.reqPartner q) := by
  unfold State.reqPartner
  split
  · exact .none
  · split
    · exact .trap
    · dsimp only
      refine State.Canon.toGo ?_
      split
      · exact h.askedApply.putReq.lanesDie
      · exact h.askedApply.putReq

theorem State.Canon.swPartner {q : SwReq} (h : s.Canon) : CanonPartner (s.swPartner q) := by
  unfold State.swPartner
  extract_lets done code
  have hdone : ∀ x : State × List (Nat × Elem), x.1.Canon → CanonPartner (done x) := fun x hx => hx.putSwreq.toGo
  split
  · exact hdone _ h.swFar
  · split
    · exact .wait
    · exact hdone _ h
    · split
      · split
        · exact .trap
        · split
          · exact .wait
          · exact hdone _ h.swPerform
      · exact .trap

theorem State.Canon.partner {team n id : Nat} (h : s.Canon) : CanonPartner (s.partner team n id) := by
  unfold State.partner
  split
  · exact h.reqPartner
  · split
    · exact h.swPartner
    · exact .none

theorem State.Canon.withPartner {team n id : Nat} {act : State → State} (h : s.Canon) (hact : ∀ t, t.Canon → (act t).Canon) :
    (s.withPartner team n id act).Canon := by
  unfold State.withPartner
  split
  · exact hact _ h
  · exact h
  · exact h.replyTrap
  · next e => exact hact _ (h.partner _ e)

theorem State.Canon.unlessPartner {team n id : Nat} {act : State → State} (h : s.Canon) (hact : ∀ t, t.Canon → (act t).Canon) :
    (s.unlessPartner team n id act).Canon := by
  unfold State.unlessPartner
  split
  · exact h.replyTrap
  · exact hact _ h

theorem State.Canon.askedAt {r : Req} {p : Piece} (h : s.Canon) : (s.askedAt r p).Canon := by
  unfold State.askedAt
  extract_lets act
  have hact : ∀ x0, x0.Canon → (act x0).Canon := by
    intro _ h1
    unfold act
    split
    · next e2 => exact .putReq (.fst e2 h1.askedApply)
  split
  · exact hact _ h
  · split
    · exact h.unlessPartner (fun _ h4 => hact _ h4)
    · exact h.withPartner (fun _ h5 => hact _ h5)

theorem execOutlierListRequest_canon {req : Nat} (h : s.Canon) : CanonNext (execOutlierListRequest req s) := by
  unfold execOutlierListRequest
  split
  · exact h.toNext
  · split
    · exact h.toNext
    · exact h.askedAt.toNext

theorem execBumpApply_canon {req : Nat} (h : s.Canon) : CanonNext (execBumpApply req s) := by
  unfold execBumpApply
  split
  · exact h.toNext
  · split
    · exact h.toNext
    · exact h.askedAt.toNext

theorem State.Canon.askedReply {r : Req} {act : State → State} (h : s.Canon) (hact : ∀ t, t.Canon → (act t).Canon) :
    (s.askedReply r act).Canon := by
  unfold State.askedReply
  split
  · exact h.laterTrap
  · exact h.answer
  · exact hact _ h

theorem execOutlierReply_canon {req : Nat} (h : s.Canon) : CanonNext (execOutlierReply req s) := by
  unfold execOutlierReply
  split
  · exact h.toNext
  · dsimp only
    split
    · exact h.toNext
    · split
      · exact h.putReq.replyTrap.toNext
      · refine State.Canon.toNext ?_
        refine .askedReply h.putReq fun _ h3 => ?_
        refine .reply ?_ (fun _ h4 => h4.cvtEffect)
        split
        · exact h3.lanesDie
        · exact h3

theorem State.Canon.bumpReply {r : Req} {p : Piece} (h : s.Canon) : (s.bumpReply r p).Canon := by
  unfold State.bumpReply
  dsimp only
  split
  · exact h.putReq.replyTrap
  · refine .askedReply h.putReq fun _ h1 => ?_
    split
    · exact h1.lanesDie.reply (fun _ h3 => h3)
    · exact h1.reply (fun _ h4 => h4.bumpEffect)

theorem execAtomicReplyLanding_canon {req i : Nat} (h : s.Canon) : CanonNext (execAtomicReplyLanding req i s) := by
  unfold execAtomicReplyLanding
  split
  · exact h.toNext
  · split
    · exact h.toNext
    · split
      · exact h.landed.toNext
      · exact h.bumpReply.toNext
      · exact h.toNext

theorem State.Canon.swTurned {r : SwReq} {code : Nat} (h : s.Canon) : (s.swTurned r code).Canon := by
  unfold State.swTurned
  split
  · exact h.unlessPartner (fun _ h0 => h0.swRefuse)
  · exact h.swRefuse

theorem State.Canon.swPasses {r : SwReq} {act : State → State} (h : s.Canon) (hact : ∀ t, t.Canon → (act t).Canon) :
    (s.swPasses r act).Canon := by
  unfold State.swPasses
  split
  · exact h.dropSwreq.laterTrap
  · exact h.putSwreq.answer
  · split
    · exact h.withPartner (fun _ h4 => hact _ h4)
    · exact hact _ h

theorem execSwatchAccessArrival_canon {req : Nat} (h : s.Canon) : CanonNext (execSwatchAccessArrival req s) := by
  unfold execSwatchAccessArrival
  split
  · exact h.toNext
  · split
    · exact h.toNext
    · split
      · split
        · exact h.swTurned.toNext
        · split
          · exact h.toNext
          · split
            · exact h.swTurned.toNext
            · split
              · next e4 =>
                  refine State.Canon.toNext ?_
                  split
                  · exact .swTurned (.fst e4 h.swFar)
                  · exact .swPasses (.fst e4 h.swFar) (fun _ h5 => h5.swAccept h5)
      · split
        · exact h.toNext
        · exact (h.swPasses (fun _ h8 => h8.swPoison)).toNext
        · split
          · split
            · exact h.swCarry.swTurned.toNext
            · split
              · exact h.toNext
              · refine State.Canon.toNext ?_
                refine .swPasses h.swCarry fun _ h12 => ?_
                refine .swAccept h12 ?_
                split
                · exact h12.swPerform
                · exact h12
          · exact h.swCarry.swTurned.toNext

/-! ## Machine/Vector -/

theorem vec2_canon {d a bs b : Nat} {f : Word → Word → Word} (h : s.Canon) : CanonNext (vec2 s d a bs b f) :=
  direct_canon h (fun _ _ h0 => h0.putRow)

theorem vecI_canon {d a : Nat} {i : Imm} {v : Word} {f : Word → Word → Word} (h : s.Canon) : CanonNext (vecI s d a i v f) :=
  direct_canon h (fun _ _ h0 => h0.putRow)

/-! ## Machine/FloatWords -/

theorem float2_canon {d a bs b : Nat} {f : Nat → Word → Word → Word} (h : s.Canon) : CanonNext (float2 s d a bs b f) :=
  direct_canon h (fun _ _ h0 => h0.putRow)

theorem float3_canon {d a bs b : Nat} {f : Nat → Word → Word → Word → Word} (h : s.Canon) : CanonNext (float3 s d a bs b f) :=
  direct_canon h (fun _ _ h0 => h0.putRow)

theorem float1_canon {d a : Nat} {f : Nat → Word → Word} (h : s.Canon) : CanonNext (float1 s d a f) :=
  direct_canon h (fun _ _ h0 => h0.putRow)

/-! ## Machine/Engine -/

theorem State.Canon.putOp {o : Op} (h : s.Canon) : (s.putOp o).Canon := h

theorem State.Canon.launch {c : Ctx} {o : Op} {locks : List Lock} {sectors : Nat} (h : s.Canon) :
    (s.launch c o locks sectors).Canon := by
  unfold State.launch
  dsimp only
  exact .modG (.modBar h)

theorem State.Canon.finishOp {o : Op} (h : s.Canon) : (s.finishOp o).Canon := .modGroup h

theorem State.Canon.unitsEnd {o : Op} {units : List Nat} {n : Nat} (h : s.Canon) : (s.unitsEnd o units n).Canon := by
  unfold State.unitsEnd
  dsimp only
  refine .modBar ?_
  split
  · exact h.finishOp
  · exact h.putOp

theorem State.Canon.noteOp {o : Op} {code finfo : Nat} (h : s.Canon) : (s.noteOp o code finfo).Canon := h.modBar

theorem State.Canon.opFault {o : Op} {f : FaultRec} (h : s.Canon) : (s.opFault o f).Canon := by
  unfold State.opFault
  split
  · exact h.writeFault
  · exact h

theorem State.Canon.engineWrite {t : Team} {va : Nat} {a : Nat × Nat} {b : List Byte} (h : s.Canon) :
    (s.engineWrite t va a b).Canon :=
  h.writeSector.learn.access

theorem State.Canon.noteSector {t : Team} {va : Nat} (h : s.Canon) : (s.noteSector t va).Canon := by
  unfold State.noteSector
  split
  · split
    · exact h
    · dsimp only
      split
      · exact h.learn.access.noteHbmError
      · exact h.learn.access
  · exact h

theorem State.Canon.engineElem {o : Op} {core row lane space num : Nat} (h : s.Canon) :
    (s.engineElem o core row lane space num).1.Canon := by
  unfold State.engineElem
  split
  · next e0 => exact .modGroup (.fst e0 h.readElem)
  · next e1 => exact .fst e1 h.readElem
  · next e2 => exact .fst e2 h.readElem

theorem State.Canon.engineElems {o : Op} {core row space num : Nat} {lanes : List Nat} (h : s.Canon) :
    (s.engineElems o core row space num lanes).1.Canon := by
  unfold State.engineElems
  refine .foldl_fst ?_ h
  intro _ _ h2
  split
  · next e3 => exact .fst e3 h2.engineElem

theorem State.Canon.engineRow {core row : Nat} {l : List (Nat × Word)} (h : s.Canon) : (s.engineRow core row l).Canon :=
  .foldl (fun _ _ h0 => h0.putElem) h

/-! ## Machine/Copy -/

theorem copy_canon {k : OpKind} {op scope : Nat} {cb : Bool} {w d a n : Nat} (h : s.Canon) :
    CanonNext (copy s k op scope cb w d a n) := by
  unfold copy
  dsimp only
  refine word_canon h fun _ _ h2 => ?_
  split
  · exact .error_bind
  · refine .bind fun _ _ => .bind fun _ _ => .bind fun _ _ => .bind fun _ _ => .bind fun _ _ => ?_
    split
    all_goals
      split
      · exact .error_bind
      · exact .bind (fun _ _ => .bind (fun _ _ => .bind (fun _ _ => .bind (fun _ _ => .bind (fun _ _ => h2.launch.adv.toOk)))))

/-- The state that a unit of a copy leaves, whether it lands or fails. -/
def CanonUnit (x : Except (State × SecFault) (State × Option SecFault)) : Prop :=
  (∀ t f, x = .ok (t, f) → t.Canon) ∧ ∀ t f, x = .error (t, f) → t.Canon

theorem State.Canon.lands {f : Option SecFault} (h : s.Canon) : CanonUnit (.ok (s, f)) := by
  constructor
  · intro t g e
    cases e
    exact h
  · intro t g e
    cases e

theorem State.Canon.fails {f : SecFault} (h : s.Canon) : CanonUnit (.error (s, f)) := by
  constructor
  · intro t g e
    cases e
  · intro t g e
    cases e
    exact h

theorem State.Canon.copyUnit {o : Op} {t : Team} {u : Nat} (h : s.Canon) : CanonUnit (s.copyUnit o t u) := by
  unfold State.copyUnit
  extract_lets _ va
  split
  extract_lets row
  split
  · split
    · exact h.fails
    · exact h.noteSector.engineRow.lands
  · split
    · exact h.fails
    · exact (State.Canon.foldl (fun _ _ h0 => h0.engineRow) h.noteSector).lands
  · split
    · exact h.fails
    · exact h.fails
    · exact h.noteSector.noteSector.engineRow.lands
  · generalize e : State.engineElems .. = r
    obtain ⟨s1, ws⟩ := r
    have hs1 := State.Canon.fst e h.engineElems
    dsimp only
    split
    · exact hs1.fails
    · split
      · split
        · exact hs1.fails
        · exact hs1.engineWrite.lands
      · split
        · exact hs1.fails
        · exact hs1.fails
        · exact hs1.engineWrite.engineWrite.lands

theorem execCopySectorLanding_canon {op u : Nat} (h : s.Canon) : CanonNext (execCopySectorLanding op u s) := by
  unfold execCopySectorLanding
  split
  · exact h.toNext
  · split
    · exact h.toNext
    · next e => exact (h.copyUnit.1 _ _ e).unitsEnd.toNext
    · next e => exact (h.copyUnit.1 _ _ e).noteOp.unitsEnd.toNext

theorem execCopySectorFault_canon {op u : Nat} (h : s.Canon) : CanonNext (execCopySectorFault op u s) := by
  unfold execCopySectorFault
  split
  · exact h.toNext
  · split
    · exact h.toNext
    · next s1 f e =>
      have hs1 : s1.Canon := h.copyUnit.2 _ _ e
      extract_lets s2
      have hs2 : s2.Canon := by
        unfold s2
        split
        · exact hs1.opFault
        · split
          · exact hs1
          · exact hs1.noteSector
      exact hs2.noteOp.unitsEnd.toNext

theorem execCopySwatch_canon {cb : Bool} {w d a n : Nat} (h : s.Canon) : CanonNext (execCopySwatch cb w d a n s) := by
  unfold execCopySwatch
  dsimp only
  refine word_canon h fun _ _ h2 => ?_
  split
  · exact .error_bind
  · refine .bind fun _ _ => .bind fun _ _ => .bind fun _ _ => .bind fun _ _ => .bind fun _ _ => ?_
    split
    all_goals
      split
      · exact .error_bind
      · exact .bind (fun _ _ => .bind (fun _ _ => .bind (fun _ _ => h2.launch.adv.toOk)))

theorem State.Canon.destEnds {o : Op} {i : Nat} {d : Dest} (h : s.Canon) : (s.destEnds o i d).Canon := h.unitsEnd

theorem State.Canon.farCode (h : s.Canon) : (s.farCode).1.Canon := h

theorem State.Canon.destCarry {o : Op} {t : Team} {d : Dest} (h : s.Canon) : (s.destCarry o t d).Canon := by
  unfold State.destCarry
  split
  · exact .foldl (fun _ _ h1 => h1.carry) h
  · exact h

theorem State.Canon.destFails {o : Op} {i : Nat} {d : Dest} {code : Nat} (h : s.Canon) : (s.destFails o i d code).Canon :=
  h.noteOp.destEnds

theorem execSwatchDeliveryArrival_canon {op i : Nat} (h : s.Canon) : CanonNext (execSwatchDeliveryArrival op i s) := by
  unfold execSwatchDeliveryArrival
  split
  · exact h.toNext
  · split
    · exact h.toNext
    · split
      · exact h.opFault.destFails.toNext
      · split
        · exact h.destFails.toNext
        · split
          · exact h.toNext
          · dsimp only
            split
            · split
              · exact h.destCarry.putOp.toNext
              · exact h.destCarry.noteOp.destEnds.toNext
            · split
              · split
                · exact h.destCarry.putOp.toNext
                · exact h.destCarry.noteOp.destEnds.toNext
              · split
                · exact h.destCarry.farCode.putOp.toNext
                · exact h.destCarry.farCode.noteOp.destEnds.toNext

theorem State.Canon.deliver {o : Op} {t : Team} {e : SwEntry} (h : s.Canon) : (s.deliver o t e).1.Canon := by
  refine State.Canon.foldl_fst (fun acc u h => ?_) h
  extract_lets r lanes
  split
  next e1 =>
    have h1 := State.Canon.fst e1 h.engineElems
    split
    · exact h1.noteOp
    · split
      · exact h1.engineRow
      · exact h1

theorem execSwatchDeliveryLanded_canon {op i : Nat} (h : s.Canon) : CanonNext (execSwatchDeliveryLanded op i s) := by
  unfold execSwatchDeliveryLanded
  split
  · exact h.toNext
  · split
    · exact h.toNext
    · split
      · exact h.destEnds.toNext
      · split
        · exact h.destEnds.toNext
        · split
          · next e4 => exact State.Canon.toNext (.destEnds (.modBar (.fst e4 h.deliver)))

/-! ## Machine/Gather -/

theorem State.Canon.readIndex {o : Op} {t : Team} {f : GatherForm} {n : Nat} (h : s.Canon) : (s.readIndex o t f n).1.Canon := by
  unfold State.readIndex
  refine .foldl_fst ?_ h
  intro _ _ h2
  dsimp only
  split
  · next e3 => exact .fst e3 h2.engineElem
  · next e4 => exact .fst e4 h2.engineElem

theorem State.Canon.readSource {o : Op} {t : Team} {f : GatherForm} {n : Nat} (h : s.Canon) :
    (s.readSource o t f n).1.Canon := by
  unfold State.readSource
  dsimp only
  exact .foldl_fst (fun _ _ h0 => h0.engineElem) h

theorem gatherWord_canon {scat : Bool} {sub : Nat} {cb : Bool} {ix : Nat} (h : s.Canon) :
    CanonNext (gatherWord s scat sub cb ix) := by
  unfold gatherWord
  dsimp only
  refine word_canon h fun _ _ h2 => .bind fun _ _ => ?_
  split
  · exact .error_bind
  · refine .bind fun _ _ => ?_
    split
    · exact .error_bind
    · refine .bind fun _ _ => .bind fun _ _ => .bind fun _ _ => .bind fun _ _ => .bind fun _ _ => ?_
      split
      · exact .error_bind
      · refine .bind fun _ _ => .bind fun _ _ => .bind fun _ _ => .bind fun _ _ => .bind fun _ _ => .bind fun _ _ => ?_
        refine State.Canon.toOk ?_
        refine .adv ?_
        refine .launch ?_
        split
        · exact h2.readIndex.readSource
        · exact h2.readIndex

theorem State.Canon.posFault {o : Op} {k code : Nat} {f : Option FaultRec} (h : s.Canon) : (s.posFault o k code f).1.Canon := by
  unfold State.posFault
  dsimp only
  refine .noteOp ?_
  split
  · exact h.opFault
  · exact h

theorem State.Canon.putMask {o : Op} {t : Team} (h : s.Canon) : (s.putMask o t).Canon := h.engineRow

theorem State.Canon.positionsEnd {o : Op} {t : Team} {new : List Nat} (h : s.Canon) : (s.positionsEnd o t new).Canon := by
  unfold State.positionsEnd
  dsimp only
  split
  · exact h.putMask.finishOp.modBar
  · exact h.putOp.modBar

theorem State.Canon.gatherPos {o : Op} {t : Team} {k : Nat} (h : s.Canon) : (s.gatherPos o t k).1.Canon := by
  unfold State.gatherPos
  split
  · split
    · next e1 => exact .fst e1 h.posFault
  · split
    · split
      · next e3 => exact .fst e3 h.posFault
    · exact h

theorem execGatherEngineRequest_canon {op sector : Nat} (h : s.Canon) : CanonNext (execGatherEngineRequest op sector s) := by
  unfold execGatherEngineRequest
  split
  · exact h.toNext
  · split
    · exact h.toNext
    · dsimp only
      split
      · exact h.toNext
      · refine State.Canon.toNext ?_
        refine .putOp ?_
        refine .foldl_fst (fun _ _ h4 => h4.gatherPos) ?_
        split
        · exact h.noteSector.noteSector
        · exact h

theorem State.Canon.landPos {o : Op} {t : Team} {k v : Nat} (h : s.Canon) : (s.landPos o t k v).Canon := by
  unfold State.landPos
  dsimp only
  exact .foldl (fun _ _ h0 => h0.putElem) h

theorem State.Canon.landReplies {o : Op} {t : Team} {ks : List Nat} (h : s.Canon) : (s.landReplies o t ks).Canon := by
  unfold State.landReplies
  split
  · next e0 => exact .positionsEnd (.fst e0 (.foldl_fst (fun _ _ h1 => h1.landPos) h))

theorem execGatherReplyLanding_canon {op : Nat} (h : s.Canon) : CanonNext (execGatherReplyLanding op s) := by
  unfold execGatherReplyLanding
  split
  · exact h.toNext
  · split
    · exact h.toNext
    · dsimp only
      split
      · exact h.toNext
      · exact h.landReplies.toNext

theorem State.Canon.scatterPos {o : Op} {t : Team} {k : Nat} (h : s.Canon) : (s.scatterPos o t k).1.Canon := by
  unfold State.scatterPos
  refine .ite_fst h.posFault <| .ite_fst h.posFault ?_
  split
  · exact h.posFault
  · refine .ite_fst h.posFault <| .ite_fst h.learn.access.noteHbmError.posFault ?_
    split
    · exact h.learn.access.writeMem.noteBytes
    · exact h.learn.access.writeMem

theorem execScatterPositionApply_canon {op k : Nat} (h : s.Canon) : CanonNext (execScatterPositionApply op k s) := by
  unfold execScatterPositionApply
  split
  · exact h.toNext
  · split
    · exact h.toNext
    · split
      · exact h.toNext
      · split
        · next e5 => exact State.Canon.toNext (.positionsEnd (.fst e5 h.scatterPos))

theorem execShbind_canon {_c : Bool} {ix : Nat} (h : s.Canon) : CanonNext (execShbind _c ix s) := by
  unfold execShbind
  dsimp only
  refine word_canon h fun _ _ h2 => .bind fun _ _ => ?_
  split
  · exact .error_bind
  · refine .bind fun _ _ => .bind fun _ _ => ?_
    split
    · exact .error_bind
    · refine .bind fun _ _ => .bind fun _ _ => .bind fun _ _ => .bind fun _ _ => ?_
      refine State.Canon.toOk ?_
      refine .adv ?_
      refine .putPart ?_
      split
      · exact h2.writeSector.access
      · exact h2

theorem execShbindOff_canon {_c : Bool} {ix : Nat} (h : s.Canon) : CanonNext (execShbindOff _c ix s) := by
  unfold execShbindOff
  dsimp only
  refine word_canon h fun _ _ h2 => .bind fun _ _ => ?_
  split
  · exact .error_bind
  · refine .bind fun _ _ => .bind fun _ _ => ?_
    split
    · exact .error_bind
    · exact .bind (fun _ _ => h2.putPart.adv.toOk)

/-! ## Machine/Lane -/

theorem State.Canon.putTouches {c : Ctx} {ts : List Touch} {f : Nat → Word} (h : s.Canon) : (s.putTouches c ts f).Canon :=
  .foldl (fun _ _ h0 => h0.putElem) h

theorem execVgetB32_canon {_c : Bool} {d i w j : Nat} (h : s.Canon) : CanonNext (execVgetB32 _c d i w j s) := by
  unfold execVgetB32
  dsimp only
  exact word_canon h (fun _ _ h0 => .bind (fun _ _ => h0.putRow.adv.toOk))

theorem execVputB32_canon {_c : Bool} {d i w j : Nat} (h : s.Canon) : CanonNext (execVputB32 _c d i w j s) := by
  unfold execVputB32
  dsimp only
  exact word_canon h (fun _ _ h0 => .bind (fun _ _ => h0.putTouches.adv.toOk))

theorem execXreadB32_canon {_c : Bool} {d i w j : Nat} (h : s.Canon) : CanonNext (execXreadB32 _c d i w j s) := by
  unfold execXreadB32
  dsimp only
  exact wordFrom_canon h (fun _ _ _ h0 => .bind (fun _ _ => h0.putRow.putPred.adv.toOk))

theorem execXwriteB32_canon {_c : Bool} {d i w j : Nat} (h : s.Canon) : CanonNext (execXwriteB32 _c d i w j s) := by
  unfold execXwriteB32
  dsimp only
  exact word_canon h (fun _ _ h0 => .bind (fun _ _ => .bind (fun _ _ => h0.putTouches.adv.toOk)))

theorem shuffle_canon {d i : Nat} {idx : List Use} {src : Ctx → Nat → Int} {illegal bounds : Ctx → List (Option Stop)}
    (h : s.Canon) : CanonNext (shuffle s d i idx src illegal bounds) := by
  unfold shuffle
  dsimp only
  exact wordFrom_canon h (fun _ _ _ h0 => .bind (fun _ _ => .bind (fun _ _ => h0.putRow.putPred.adv.toOk)))

/-! ## Machine/Inv -/

theorem execInv_canon {chain : Bool} {ix : Nat} (h : s.Canon) : CanonNext (execInv chain ix s) := by
  unfold execInv
  dsimp only
  refine word_canon h fun _ _ h2 => .bind fun _ _ => .bind fun _ _ => .bind fun _ _ => .bind fun _ _ => .bind fun _ _ =>
    .bind fun _ _ => ?_
  split
  · exact .error_bind
  · exact .bind (fun _ _ => State.Canon.toOk (.modG h2))

theorem State.Canon.evalLane {core : Nat} {g : Group} {f : InvForm} {iv : InvState} {rs : List Rout} {l m : Nat}
    (h : s.Canon) : (s.evalLane core g f iv rs l m).1.Canon := by
  unfold State.evalLane
  dsimp only
  exact .foldl (fun _ _ h0 => h0.putElem) h.putElem

theorem State.Canon.laneRound {core : Nat} {g : Group} {f : InvForm} {iv : InvState} {rs : List Rout} {st : InvLane}
    (h : s.Canon) : (s.laneRound core g f iv rs st).1.Canon := by
  unfold State.laneRound
  dsimp only
  split
  · split
    · split
      · exact h.evalLane
      · exact h.evalLane.putElem
    · refine .putElem ?_
      split
      · exact h.evalLane
      · exact h.evalLane.putElem
  · split
    all_goals
      split
      · split
        · exact h.evalLane
        · exact h.evalLane.putElem
      · refine .putElem ?_
        split
        · exact h.evalLane
        · exact h.evalLane.putElem

theorem State.Canon.invEnds {team n : Nat} {g : Group} {f : InvForm} {iv : InvState} (h : s.Canon) :
    (s.invEnds team n g f iv).Canon := by
  unfold State.invEnds
  dsimp only
  split
  · exact .tryEnter (.putGroup h)
  · split
    · exact .tryEnter (.raise (.putGroup h))
    · exact .tryEnter (.putGroup h)

theorem State.Canon.invRound {t : Team} {group : Nat} {iv0 : InvState} (h : s.Canon) : (s.invRound t group iv0).Canon := by
  unfold State.invRound
  dsimp only
  split
  · split
    · exact h.settle
    · exact h
  · split
    · split
      · exact h.settle
      · exact h
    · split
      · split
        · refine .invEnds ?_
          refine .foldl_fst ?_ h.settle
          intro _ _ h12
          split
          · exact h12
          · exact h12.laneRound
        · refine .putGroup ?_
          refine .foldl_fst ?_ h.settle
          intro _ _ h16
          split
          · exact h16
          · exact h16.laneRound
      · split
        · refine .invEnds ?_
          refine .foldl_fst ?_ h
          intro _ _ h22
          split
          · exact h22
          · exact h22.laneRound
        · refine .putGroup ?_
          refine .foldl_fst ?_ h
          intro _ _ h26
          split
          · exact h26
          · exact h26.laneRound

theorem execInvRound_canon {team group slice : Nat} (h : s.Canon) : CanonNext (execInvRound team group slice s) := by
  unfold execInvRound
  split
  · exact h.toNext
  · split
    · exact h.toNext
    · split
      · exact h.toNext
      · split
        · exact h.toNext
        · exact h.invRound.toNext

/-! ## Machine/Stream -/

theorem State.Canon.modStream {team : Nat} {f : Stream → Stream} (h : s.Canon) : (s.modStream team f).Canon := h.modTeam

theorem State.Canon.streamTrap {team : Nat} {pc : Pc} {code info : Nat} (h : s.Canon) :
    (s.streamTrap team pc code info).Canon :=
  h.kill

theorem State.Canon.streamEnds {c : SCtx} {r : Except StreamStop State} (h : s.Canon) (hr : CanonOk r) :
    (s.streamEnds c r).Canon := by
  unfold State.streamEnds
  split
  · exact .of_ok rfl hr
  · exact h.streamTrap
  · exact h.modStream

theorem sword_canon {body : SCtx → Except StreamStop State} (h : s.Canon) (hbody : ∀ x, CanonOk (body x)) :
    CanonNext (sword s body) := by
  unfold sword
  split
  · exact .fault
  · exact (h.streamEnds (hbody _)).toNext

theorem State.Canon.snext {c : SCtx} (h : s.Canon) : (s.snext c).Canon := h.modStream

theorem State.Canon.sgoto {c : SCtx} {off : Nat} (h : s.Canon) : (s.sgoto c off).Canon := h.modStream

theorem State.Canon.putQ {c : SCtx} {n v : Nat} (h : s.Canon) : (s.putQ c n v).Canon := h.modStream

theorem qword_canon {d a b : Nat} {f : Nat → Nat → Nat} (h : s.Canon) : CanonNext (qword s d a b f) :=
  sword_canon h (fun _ => .bind (fun _ _ => h.putQ.snext.toOk))

theorem execQlih_canon {d i : Nat} (h : s.Canon) : CanonNext (execQlih d i s) := by
  unfold execQlih
  refine sword_canon h fun _ => ?_
  dsimp only
  exact h.putQ.snext.toOk

theorem execQrd_canon {d w l : Nat} (h : s.Canon) : CanonNext (execQrd d w l s) := by
  unfold execQrd
  refine sword_canon h fun _ => ?_
  dsimp only
  refine .bind fun _ _ => ?_
  split
  · exact .error_bind
  · refine .bind fun _ _ => ?_
    split
    · next e6 =>
        refine State.Canon.toOk ?_
        refine .snext ?_
        refine .modStream ?_
        split
        · exact .softTeam (.fst e6 h.readElem)
        · exact .fst e6 h.readElem
    · next e8 => exact State.Canon.toOk (.snext (.modStream (.fst e8 h.readElem)))

theorem execMwait_canon {n k : Nat} (h : s.Canon) : CanonNext (execMwait n k s) := by
  unfold execMwait
  refine sword_canon h fun _ => .bind fun _ _ => .bind fun _ _ => ?_
  dsimp only
  split
  · exact h.readBarrier.snext.toOk
  · exact h.readBarrier.modStream.toOk

theorem execMarrive_canon {n : Nat} (h : s.Canon) : CanonNext (execMarrive n s) := by
  unfold execMarrive
  refine sword_canon h fun _ => .bind fun _ _ => ?_
  split
  · exact h.modBarrier.snext.toOk
  · exact .error

theorem execMloop_canon {d o : Nat} (h : s.Canon) : CanonNext (execMloop d o s) := by
  unfold execMloop
  refine sword_canon h fun _ => .bind fun _ _ => ?_
  dsimp only
  refine State.Canon.toOk ?_
  split
  · exact h.putQ.snext
  · exact h.putQ.sgoto

theorem execMkeep_canon {d o : Nat} (h : s.Canon) : CanonNext (execMkeep d o s) := by
  unfold execMkeep
  refine sword_canon h fun _ => .bind fun _ _ => ?_
  split
  · exact h.sgoto.toOk
  · dsimp only
    exact h.putQ.putQ.modStream.snext.toOk

theorem srising_map {f : Nat × Elem → Nat × Elem} (hf : ∀ e, (f e).1 = e.1) {p : Sparse Elem} (h : srising p = true) :
    srising (p.map f) = true := by
  induction p with
  | nil => rfl
  | cons e r ih =>
    simp only [srising, Bool.and_eq_true, List.all_eq_true] at h
    simp only [List.map_cons, srising, Bool.and_eq_true, List.all_eq_true, List.mem_map, forall_exists_index, and_imp,
      forall_apply_eq_imp_iff₂, hf]
    exact ⟨h.1, ih h.2⟩

/-- Rows wiped keep their keys, and what then reads as an element that nothing has written leaves the list. -/
theorem swf_wipeRows {p : Sparse Elem} {core lo n : Nat} (h : swf Elem.blank p = true) :
    swf Elem.blank (wipeRows p core lo n) = true := by
  obtain ⟨hk, -⟩ : srising p = true ∧ p.all (fun e => decide (e.2 ≠ Elem.blank)) = true := by simpa [swf] using h
  simp only [swf, wipeRows, Bool.and_eq_true, List.all_eq_true]
  refine ⟨srising_filter _ (srising_map (fun e => ?_) hk), fun e he => (List.mem_filter.mp he).2⟩
  split <;> rfl

theorem State.Canon.mapTile {t : Team} {n k : Nat} (h : s.Canon) : (s.mapTile t n k).Canon :=
  (h.withPal (swf_wipeRows h.pal)).modTeam

theorem execMacq_canon {t q : Nat} (h : s.Canon) : CanonNext (execMacq t q s) := by
  unfold execMacq
  refine sword_canon h fun _ => .bind fun _ _ => ?_
  split
  · exact h.mapTile.putQ.snext.toOk
  · exact .error

theorem execMrel_canon {t : Nat} (h : s.Canon) : CanonNext (execMrel t s) := by
  unfold execMrel
  refine sword_canon h fun _ => .bind fun _ _ => ?_
  split
  · exact .error
  · exact h.modTeam.snext.toOk

theorem State.Canon.macqEnds {t : Team} {q v : Nat} (h : s.Canon) : (s.macqEnds t q v).Canon := h.modStream

theorem execMacqDeadlockFail_canon {core : Nat} (h : s.Canon) : CanonNext (execMacqDeadlockFail core s) := by
  unfold execMacqDeadlockFail
  split
  · exact h.toNext
  · dsimp only
    split
    · exact h.toNext
    · split
      · exact h.macqEnds.toNext
      · exact h.toNext

theorem execMmask_canon {q : Nat} (h : s.Canon) : CanonNext (execMmask q s) := by
  unfold execMmask
  refine sword_canon h fun _ => .bind fun _ _ => ?_
  dsimp only
  exact .bind (fun _ _ => h.modStream.snext.toOk)

theorem State.Canon.fetchMain {t : Team} {g : Group} {slice va n : Nat} (h : s.Canon) : (s.fetchMain t g slice va n).Canon := by
  unfold State.fetchMain
  split
  · next e0 => exact .modGroup (.fst e0 h.codeFetch)

theorem State.Canon.fetchStream {t : Team} {st : Stream} {va n : Nat} (h : s.Canon) : (s.fetchStream t st va n).Canon := by
  unfold State.fetchStream
  split
  · next e0 => exact .modStream (.fst e0 h.codeFetch)
  · next e1 => exact .streamTrap (.fst e1 h.codeFetch)

theorem execCodeFetchReturn_canon {team group slice : Nat} (h : s.Canon) :
    CanonNext (execCodeFetchReturn team group slice s) := by
  unfold execCodeFetchReturn
  split
  · exact h.toNext
  · split
    · split
      · split
        · split
          · exact h.toNext
          · exact h.fetchStream.toNext
        · exact h.toNext
      · exact h.toNext
    · split
      · exact h.toNext
      · split
        · split
          · exact h.toNext
          · exact h.fetchMain.toNext
        · exact h.toNext

/-! ## Machine/Matrix -/

theorem State.Canon.startLong {c : SCtx} {kind : OpKind} {bar : Option Nat} {word pool total : Nat} {snap : List Nat}
    {tile : Nat} {memory : Bool} {locks : List Lock} (h : s.Canon) :
    (s.startLong c kind bar word pool total snap tile memory locks).Canon := by
  unfold State.startLong
  dsimp only
  exact h

theorem State.Canon.longEnds {o : Op} (h : s.Canon) : (s.longEnds o).Canon := h.finishOp.modBar

theorem execMma_canon {i : Nat} (h : s.Canon) : CanonNext (execMma i s) := by
  unfold execMma
  refine sword_canon h fun _ => .bind fun _ _ => ?_
  dsimp only
  split
  · exact .bind (fun _ _ => .bind (fun _ _ => .bind (fun _ _ => .bind (fun _ _ => .bind (fun _ _ => .bind (fun _ _ =>
      .bind (fun _ _ => .bind (fun _ _ => .bind (fun _ _ => .bind (fun _ _ => h.putCore.startLong.snext.toOk))))))))))
  · exact .error_bind

theorem State.Canon.matRead {t : Team} {r : MRef} (h : s.Canon) : (s.matRead t r).1.Canon := by
  unfold State.matRead
  split
  · next e0 => exact .fst e0 h.readElem
  · next e1 =>
      split
      · exact .modGroup (.fst e1 h.readElem)
      · exact .fst e1 h.readElem

theorem State.Canon.firstBad {t : Team} {seg : Nat} {l : List MRef} (h : s.Canon) : (s.firstBad t seg l).1.Canon := by
  induction l generalizing s with
  | nil => exact h
  | cons r rest ih =>
    unfold State.firstBad
    split
    · next e => exact .fst e h.matRead
    · next e =>
      have hs1 := State.Canon.fst e h.matRead
      split
      · exact ih hs1
      · exact hs1

theorem State.Canon.noteScales {t : Team} {x : Side} {klen b : Nat} (h : s.Canon) : (s.noteScales t x klen b).Canon := by
  unfold State.noteScales
  split
  · exact .foldl (fun _ _ h0 => h0.noteSector) h
  · exact h

theorem State.Canon.applySegment {t : Team} {o : Op} {seg : Nat} (h : s.Canon) : (s.applySegment t o seg).Canon := by
  unfold State.applySegment
  dsimp only
  refine .foldl ?_ h
  intro _ _ h2
  refine .foldl ?_ h2
  intro _ _ h5
  split
  · exact h5
  · exact h5.putElem

theorem State.Canon.segmentFault {t : Team} {o : Op} {seg : Nat} (h : s.Canon) : (s.segmentFault t o seg).1.Canon := by
  unfold State.segmentFault
  dsimp only
  split
  · next e0 => exact .fst e0 h.firstBad
  · next e1 =>
      split
      · exact .noteSector (.fst e1 h.firstBad)
      · split
        · exact .noteSector (.fst e1 h.firstBad)
        · exact .noteScales (.noteScales (.fst e1 h.firstBad))

theorem execMmaSegment_canon {op : Nat} (h : s.Canon) : CanonNext (execMmaSegment op s) := by
  unfold execMmaSegment
  split
  · exact h.toNext
  · split
    · exact h.toNext
    · dsimp only
      split
      · exact h.toNext
      · split
        · exact h.putCore.toNext
        · split
          · next e5 =>
              refine State.Canon.toNext ?_
              refine .longEnds ?_
              refine .noteOp ?_
              split
              · exact .opFault (.fst e5 h.putCore.segmentFault)
              · exact .fst e5 h.putCore.segmentFault
          · next e6 =>
              refine State.Canon.toNext ?_
              split
              · exact .putOp (.applySegment (.fst e6 h.putCore.segmentFault))
              · exact .longEnds (.applySegment (.fst e6 h.putCore.segmentFault))

theorem execArrayPowerGate_canon {core quad : Nat} (h : s.Canon) : CanonNext (execArrayPowerGate core quad s) := by
  unfold execArrayPowerGate
  dsimp only
  split
  · exact h.putCore.toNext
  · exact h.toNext

theorem execMzero_canon {t : Nat} (h : s.Canon) : CanonNext (execMzero t s) := by
  unfold execMzero
  refine sword_canon h fun _ => .bind fun _ _ => ?_
  dsimp only
  exact .bind (fun _ _ => h.startLong.snext.toOk)

theorem execMload_canon {t v q n : Nat} (h : s.Canon) : CanonNext (execMload t v q n s) := by
  unfold execMload
  refine sword_canon h fun _ => .bind fun _ _ => ?_
  dsimp only
  exact .bind (fun _ _ => .bind (fun _ _ => .bind (fun _ _ => .bind (fun _ _ => .bind (fun _ _ => h.startLong.snext.toOk)))))

theorem execMstore_canon {t v q n : Nat} (h : s.Canon) : CanonNext (execMstore t v q n s) := by
  unfold execMstore
  refine sword_canon h fun _ => .bind fun _ _ => ?_
  dsimp only
  exact .bind (fun _ _ => .bind (fun _ _ => .bind (fun _ _ => .bind (fun _ _ => .bind (fun _ _ => .bind (fun _ _ =>
    .bind (fun _ _ => h.startLong.snext.toOk)))))))

theorem State.Canon.zeroTile {t : Team} {tile : Nat} (h : s.Canon) : (s.zeroTile t tile).Canon :=
  .foldl (fun _ _ h0 => .foldl (fun _ _ h1 => h1.putElem) h0) h

theorem State.Canon.loadTile {t : Team} {o : Op} (h : s.Canon) : (s.loadTile t o).Canon := by
  unfold State.loadTile
  dsimp only
  exact .foldl (fun _ _ h0 => .foldl (fun _ _ h1 => h1.putElem) h0) h

theorem State.Canon.noteLong {o : Op} {code finfo : Nat} (h : s.Canon) : (s.noteLong o code finfo).Canon := h.noteOp.putOp

theorem State.Canon.takeSlot {t : Team} {va index value : Nat} (h : s.Canon) : (s.takeSlot t va index value).s.Canon := by
  unfold State.takeSlot
  split
  · exact h
  · dsimp only
    split
    · exact h.noteSector
    · split
      · exact h.noteSector
      · split
        · exact h.noteSector.writeMem.access
        · exact h.noteSector.writeMem.access.engineWrite

theorem State.Canon.storeCode {t : Team} {o : Op} {i j : Nat} (h : s.Canon) : (s.storeCode t o i j).1.Canon := by
  simp only [State.storeCode]
  generalize hr : s.takeSlot .. = r
  have h1 : r.s.Canon := hr ▸ h.takeSlot
  clear hr
  generalize storeElem .. = n
  generalize narrow .. = m
  obtain ⟨s1, listed, note⟩ := r
  cases n with
  | code => exact h
  | outlier =>
    refine .ite_fst ?_ ?_
    · rcases note with _ | ⟨code, fi, _ | f⟩
      · exact h1
      · exact h1.noteLong
      · exact h1.opFault.noteLong
    · cases m
      all_goals
        rcases note with _ | ⟨code, fi, _ | f⟩
        · exact h1
        · exact h1.noteLong
        · exact h1.opFault.noteLong

theorem State.Canon.storeTile {t : Team} {o : Op} (h : s.Canon) : (s.storeTile t o).Canon := by
  unfold State.storeTile
  dsimp only
  exact .foldl (fun _ _ h0 => .foldl (fun _ _ h1 => .putElem (.foldl_fst (fun _ _ h2 => h2.storeCode) h1)) h0) h

theorem State.Canon.tileEffect {t : Team} {o : Op} (h : s.Canon) : (s.tileEffect t o).Canon := by
  unfold State.tileEffect
  dsimp only
  split
  · next e0 => exact .noteLong (.fst e0 h.firstBad)
  · next e1 =>
      split
      · exact .loadTile (.fst e1 h.firstBad)
      · exact .storeTile (.fst e1 h.firstBad)
      · exact .zeroTile (.fst e1 h.firstBad)

theorem State.Canon.pathEnds {o : Op} {now : Nat} (h : s.Canon) : (s.pathEnds o now).Canon := h

theorem execTileWordCompletion_canon {op : Nat} (h : s.Canon) : CanonNext (execTileWordCompletion op s) := by
  unfold execTileWordCompletion
  split
  · exact h.toNext
  · split
    · exact h.toNext
    · split
      · dsimp only
        exact h.tileEffect.longEnds.pathEnds.toNext
      · exact h.toNext

theorem execMacqGrant_canon {team : Nat} (h : s.Canon) : CanonNext (execMacqGrant team s) := by
  unfold execMacqGrant
  split
  · exact h.toNext
  · dsimp only
    split
    · exact h.toNext
    · split
      · exact h.toNext
      · split
        · exact h.mapTile.macqEnds.tookUnit.firstIssue.toNext
        · exact h.toNext

/-! ## Machine/Carder -/

theorem State.Canon.putWalk {w : Walk} (h : s.Canon) : (s.putWalk w).Canon := h

theorem State.Canon.walkFill {t : Team} {o : Op} (h : s.Canon) : (s.walkFill t o).Canon := by
  unfold State.walkFill
  dsimp only
  split
  · exact .foldl (fun _ _ h1 => h1.engineRow) h
  · exact h

theorem State.Canon.startWalk {t : Team} {o : Op} {ctx : Nat} (h : s.Canon) : (s.startWalk t o ctx).Canon := by
  unfold State.startWalk
  dsimp only
  exact h

theorem State.Canon.startWalks {cluster : Nat} (h : s.Canon) : (s.startWalks cluster).Canon := by
  unfold State.startWalks
  refine .foldl ?_ h
  intro _ _ h2
  split
  · exact h2
  · split
    · exact h2
    · split
      · exact h2
      · split
        · exact h2.startWalk
        · exact h2

theorem execWalk_canon {cb : Bool} {w d a n : Nat} (h : s.Canon) : CanonNext (execWalk cb w d a n s) := by
  unfold execWalk
  dsimp only
  refine word_canon h fun _ _ h2 => ?_
  split
  · exact .error_bind
  · refine .bind fun _ _ => .bind fun _ _ => .bind fun _ _ => ?_
    split
    · exact .error_bind
    · refine .bind fun _ _ => .bind fun _ _ => .bind fun _ _ => .bind fun _ _ => .bind fun _ _ => .bind fun _ _ => ?_
      split
      · exact .error
      · exact h2.launch.startWalk.adv.toOk

theorem State.Canon.walkEnds {w : Walk} {fault : Option (Nat × Nat)} (h : s.Canon) : (s.walkEnds w fault).Canon := by
  unfold State.walkEnds
  dsimp only
  split
  · exact h
  · refine .startWalks ?_
    refine .modBar ?_
    refine .finishOp ?_
    split
    · exact .noteOp h
    · exact h

theorem execWalkStepLimit_canon {walk : Nat} (h : s.Canon) : CanonNext (execWalkStepLimit walk s) := by
  unfold execWalkStepLimit
  split
  · exact h.toNext
  · split
    · exact h.toNext
    · split
      · exact h.walkEnds.toNext
      · exact h.toNext

theorem cword_canon {op : CarderOp} {act : KCtx → Walk → State} (h : s.Canon) (hact : ∀ x y, (act x y).Canon) :
    CanonNext (cword s op act) := by
  unfold cword
  split
  · exact .fault
  · split
    · exact h.toNext
    · exact (hact _ _).toNext

theorem calu_canon {op : CarderOp} {d : Nat} {f : KCtx → Nat} (h : s.Canon) : CanonNext (calu s op d f) :=
  cword_canon h (fun _ _ => h.putWalk)

theorem cread_canon {op : CarderOp} {z d a i : Nat} (h : s.Canon) : CanonNext (cread s op z d a i) := by
  unfold cread
  refine cword_canon h fun _ _ => ?_
  dsimp only
  split
  · exact h.opFault.walkEnds
  · split
    · exact h.walkEnds
    · exact h.putWalk

theorem execCarderReadReturn_canon {walk rd : Nat} (h : s.Canon) : CanonNext (execCarderReadReturn walk rd s) := by
  unfold execCarderReadReturn
  split
  · exact h.toNext
  · split
    · split
      · exact h.toNext
      · split
        · exact h.noteSector.putWalk.toNext
        · dsimp only
          refine State.Canon.toNext ?_
          refine .walkEnds ?_
          split
          · exact h.opFault
          · exact h.noteSector
    · exact h.toNext

theorem State.Canon.emitOver {o : Op} {core row num lane z : Nat} (h : s.Canon) :
    (s.emitOver o core row num lane z).1.Canon := by
  unfold State.emitOver
  split
  · exact h
  · split
    · next e1 => exact .modGroup (.fst e1 h.readElem)
    · next e2 => exact .fst e2 h.readElem

theorem cemit_canon {op : CarderOp} {z a b : Nat} (h : s.Canon) : CanonNext (cemit s op z a b) := by
  unfold cemit
  refine cword_canon h fun _ _ => ?_
  dsimp only
  split
  · exact h.walkEnds
  · split
    · next e2 => exact .walkEnds (.fst e2 h.emitOver)
    · next e3 => exact .putWalk (.putElem (.fst e3 h.emitOver))

theorem cbranch_canon {op : CarderOp} {target : Nat} {taken : KCtx → Bool} (h : s.Canon) :
    CanonNext (cbranch s op target taken) := by
  unfold cbranch
  refine cword_canon h fun _ _ => ?_
  split
  · exact h.putWalk
  · split
    · exact h.walkEnds
    · exact h.putWalk

/-! ## Machine/Compare -/

theorem vcmp_canon {cc t p a bs b : Nat} (h : s.Canon) : CanonNext (vcmp s cc t p a bs b) :=
  direct_canon h (fun _ _ h0 => h0.putPred)

theorem pred2_canon {d a b : Nat} {f : Bool → Bool → Bool} (h : s.Canon) : CanonNext (pred2 s d a b f) :=
  direct_canon h (fun _ _ h0 => h0.putPred)

/-! ## Machine/Links -/

theorem State.Canon.modEnds {die edge m : Nat} {f : Link → Link} (h : s.Canon) : (s.modEnds die edge m f).Canon := by
  unfold State.modEnds
  dsimp only
  split
  · exact h.modLink.modLink
  · exact h.modLink

theorem State.Canon.moveChannel {die edge chan m : Nat} (h : s.Canon) : (s.moveChannel die edge chan m).Canon := by
  unfold State.moveChannel
  extract_lets move
  have hmove : ∀ x0 x1 x2, x0.Canon → (move x0 x1 x2).Canon := by
    intro _ _ _ h3
    unfold move
    dsimp only
    exact h3
  split
  · exact hmove _ _ _ (hmove _ _ _ h)
  · exact h

theorem State.Canon.placePieces {l : List (Nat × Nat)} {place : Nat} (h : s.Canon) : (s.placePieces l place).Canon := h

theorem execFlitSend_canon {die edge chan : Nat} (h : s.Canon) : CanonNext (execFlitSend die edge chan s) := by
  unfold execFlitSend
  dsimp only
  split
  · exact h.toNext
  · exact State.Canon.toNext (.flit (.foldl (fun _ _ h0 => h0.flit) h.placePieces))

theorem State.Canon.replay {die edge chan : Nat} (h : s.Canon) : (s.replay die edge chan).Canon := by
  unfold State.replay
  dsimp only
  split
  · exact h
  · exact h.putChan.fly.modLink

theorem State.Canon.freeBefore {die edge chan e : Nat} (h : s.Canon) : (s.freeBefore die edge chan e).Canon := by
  unfold State.freeBefore
  dsimp only
  split
  · exact h.putChan
  · exact h

theorem State.Canon.resume {die edge chan : Nat} (h : s.Canon) : (s.resume die edge chan).Canon := by
  unfold State.resume
  split
  · exact h.freeBefore.replay
  · exact h

theorem State.Canon.resumeBoth {die edge chan : Nat} (h : s.Canon) : (s.resumeBoth die edge chan).Canon := by
  unfold State.resumeBoth
  split
  · exact h.resume.resume
  · exact h

theorem State.Canon.linkTimeout {die edge chan : Nat} (h : s.Canon) : (s.linkTimeout die edge chan).Canon := by
  unfold State.linkTimeout
  dsimp only
  split
  · exact h.replay
  · exact h

theorem State.Canon.startRetrain {die edge m : Nat} {x32 : Bool} (h : s.Canon) : (s.startRetrain die edge m x32).Canon :=
  h.modEnds

theorem State.Canon.rehome {die edge chan : Nat} (h : s.Canon) : (s.rehome die edge chan).Canon := by
  unfold State.rehome
  dsimp only
  split
  · split
    · exact h.moveChannel.resumeBoth
    · exact h.moveChannel
  · split
    · exact h.modChan.modChan
    · exact h.modChan

theorem State.Canon.linkDown {die edge m : Nat} (h : s.Canon) : (s.linkDown die edge m).Canon := by
  unfold State.linkDown
  dsimp only
  refine .foldl ?_ h.modEnds
  intro _ _ h2
  split
  · exact h2.rehome
  · exact h2

theorem State.Canon.linkUp {die edge m : Nat} (h : s.Canon) : (s.linkUp die edge m).Canon := by
  unfold State.linkUp
  dsimp only
  refine .foldl ?_ h.modEnds
  intro _ _ h2
  split
  · split
    · refine .resumeBoth ?_
      split
      · exact h2.moveChannel.modChan.modChan
      · exact h2.moveChannel.modChan
    · exact h2.moveChannel
  · split
    · refine .resumeBoth ?_
      split
      · exact h2.modChan.modChan
      · exact h2.modChan
    · exact h2

theorem State.Canon.linkTrained {die edge m : Nat} {ok laneFail : Bool} (h : s.Canon) :
    (s.linkTrained die edge m ok laneFail).Canon := by
  unfold State.linkTrained
  dsimp only
  split
  · exact h
  · split
    · exact h.modEnds.linkUp
    · split
      · exact h.modEnds.linkDown
      · split
        · exact h.modEnds.startRetrain
        · exact h.modEnds

theorem execWiden_canon {die edge m : Nat} (h : s.Canon) : CanonNext (execWiden die edge m s) := by
  unfold execWiden
  split
  · exact h.startRetrain.modEnds.toNext
  · exact h.toNext

theorem execClr_canon {die edge m : Nat} (h : s.Canon) : CanonNext (execClr die edge m s) := by
  unfold execClr
  split
  · exact h.toNext
  · exact h.modLink.toNext

theorem execLinkOff_canon {die edge m value : Nat} (h : s.Canon) : CanonNext (execLinkOff die edge m value s) := by
  unfold execLinkOff
  dsimp only
  split
  · exact h.toNext
  · split
    · exact h.modLink.linkDown.toNext
    · split
      · refine State.Canon.toNext ?_
        split
        · exact h.modLink
        · exact h.modLink.modEnds
      · exact h.toNext

theorem State.Canon.poisonPieces {p : Req → Nat → Piece → Bool} (h : s.Canon) : (s.poisonPieces p).Canon := h

theorem State.Canon.edgeExpires {die edge : Nat} (h : s.Canon) : (s.edgeExpires die edge).Canon := by
  unfold State.edgeExpires
  split
  · exact h
  · dsimp only
    refine .foldl ?_ h.poisonPieces
    intro _ _ h3
    split
    · exact h3.modChan
    · exact h3

theorem State.Canon.control {die edge chan type aseq : Nat} (h : s.Canon) : (s.control die edge chan type aseq).Canon := h.fly

theorem State.Canon.sendAck {die edge chan : Nat} (h : s.Canon) : (s.sendAck die edge chan).Canon := by
  unfold State.sendAck
  dsimp only
  exact h.putChan.control

theorem State.Canon.sendNak {die edge chan : Nat} (h : s.Canon) : (s.sendNak die edge chan).Canon := by
  unfold State.sendNak
  dsimp only
  split
  · exact h
  · exact h.putChan.control

theorem State.Canon.takeFlit {t : State} {f : Flit} {die edge m : Nat} (h : s.Canon) (e : s.takeFlit die edge m = some (f, t)) :
    t.Canon := by
  unfold State.takeFlit at e
  dsimp only at e
  split at e
  · cases e
  · split at e
    · cases e; exact h.putLink
    · cases e

theorem State.Canon.badCrc {die edge m : Nat} {nak : Option Nat} (h : s.Canon) : (s.badCrc die edge m nak).Canon := by
  unfold State.badCrc
  dsimp only
  split
  · exact h.putLink.startRetrain
  · split
    · exact h.putLink.sendNak
    · exact h.putLink

theorem State.Canon.accept {die edge : Nat} {f : Flit} (h : s.Canon) : (s.accept die edge f).Canon := by
  unfold State.accept
  dsimp only
  split
  · exact h.placePieces.putChan.sendAck
  · exact h.placePieces.putChan

theorem State.Canon.receive {die edge m type : Nat} {crcOk : Bool} {act : Flit → State → State} (h : s.Canon)
    (hact : ∀ x t, t.Canon → (act x t).Canon) : (s.receive die edge m type crcOk act).Canon := by
  unfold State.receive
  split
  · exact h
  · next f s1 e =>
    have hs1 : s1.Canon := h.takeFlit e
    split
    · exact hact f s1 hs1
    · split
      · exact hs1
      · split
        · split
          · exact hs1.startRetrain
          · exact hs1.badCrc
        · exact h

theorem execDataFlitReceive_canon {die edge m : Nat} {crcOk : Bool} (h : s.Canon) :
    CanonNext (execDataFlitReceive die edge m crcOk s) := by
  unfold execDataFlitReceive
  refine State.Canon.toNext ?_
  refine .receive h fun _ _ h2 => ?_
  dsimp only
  split
  · exact h2.badCrc
  · split
    · exact h2.accept
    · split
      · exact h2.modLink.sendAck
      · split
        · exact h2.sendNak
        · exact h2.startRetrain

theorem State.Canon.linkAck {die edge m : Nat} {crcOk : Bool} (h : s.Canon) : (s.linkAck die edge m crcOk).Canon := by
  unfold State.linkAck
  refine .receive h fun _ _ h2 => ?_
  split
  · exact h2.freeBefore
  · exact h2.badCrc

theorem State.Canon.linkNak {die edge m : Nat} {crcOk : Bool} (h : s.Canon) : (s.linkNak die edge m crcOk).Canon := by
  unfold State.linkNak
  refine .receive h fun _ _ h2 => ?_
  split
  · exact h2.badCrc
  · split
    · exact h2.freeBefore.replay
    · exact h2

theorem State.Canon.linkAckDelay {die edge chan : Nat} (h : s.Canon) : (s.linkAckDelay die edge chan).Canon := by
  unfold State.linkAckDelay
  dsimp only
  split
  · exact h.sendAck
  · exact h

theorem execRtswap_canon {die value : Nat} (h : s.Canon) : CanonNext (execRtswap die value s) := by
  unfold execRtswap
  dsimp only
  split
  · exact h.putDie.toNext
  · exact h.toNext

theorem execRouteSwapComplete_canon {die : Nat} (h : s.Canon) : CanonNext (execRouteSwapComplete die s) := by
  unfold execRouteSwapComplete
  dsimp only
  split
  · exact h.toNext
  · split
    · exact h.toNext
    · exact h.putDie.toNext

/-! ## Machine/Optical -/

theorem State.Canon.modPort {k : Nat} {f : Port → Port} (h : s.Canon) : (s.modPort k f).Canon := h.putPort

theorem State.Canon.sendS {k : Nat} (h : s.Canon) : CanonSome (s.sendS k) := by
  unfold State.sendS
  extract_lets p hold sent
  have hsent : ∀ x0 x1, x0.Canon → (sent x0 x1).Canon := by
    intro _ _ h2
    unfold sent
    exact h2.putPort
  split
  · exact .none
  · split
    · dsimp only
      split
      · exact .none
      · exact h.placePieces.putPort.toSome
    · split
      · exact (hsent _ _ h.putSwreq).toSome
      · exact .map (fun _ _ => hsent _ _ h.putOp)

theorem State.Canon.sendL {o : Op} {d : Dest} {i : Nat} (h : s.Canon) : (s.sendL o d i).Canon := by
  unfold State.sendL
  split
  · exact h
  · next e1 =>
      extract_lets b rows
      split
      · next e2 =>
          extract_lets s2 o1
          have hs2 : s2.Canon := by
            unfold s2
            split
            · refine .noteOp ?_
              refine .fst e2 ?_
              refine .foldl_fst ?_ h
              intro _ _ h6
              split
              · next e7 => exact .fst e7 h6.engineElems
            · refine .fst e2 ?_
              refine .foldl_fst ?_ h
              intro _ _ h10
              split
              · next e11 => exact .fst e11 h10.engineElems
          split
          · exact hs2.destEnds
          · exact hs2.putOp

theorem execOpticalBlockSend_canon {k : Nat} (h : s.Canon) : CanonNext (execOpticalBlockSend k s) := by
  unfold execOpticalBlockSend
  dsimp only
  split
  · exact h.toNext
  · split
    · exact h.toNext
    · next e2 _ => exact State.Canon.toNext (.of_some e2 h.putPort.sendS)
    · exact h.putPort.sendL.toNext
    · next e6 _ =>
        split
        · exact h.putPort.sendL.toNext
        · exact State.Canon.toNext (.of_some e6 h.putPort.sendS)

theorem State.Canon.acceptS {k : Nat} (h : s.Canon) : (s.acceptS k).Canon := by
  unfold State.acceptS
  dsimp only
  split
  · exact h.modPort.placePieces
  · exact h.modPort

theorem execClassSBlockReceive_canon {k seq : Nat} {crcOk : Bool} (h : s.Canon) :
    CanonNext (execClassSBlockReceive k seq crcOk s) := by
  unfold execClassSBlockReceive
  dsimp only
  split
  · exact h.toNext
  · split
    · exact h.putPort.toNext
    · split
      · exact h.putPort.acceptS.toNext
      · split
        · exact h.putPort.toNext
        · split
          · exact h.putPort.toNext
          · exact h.putPort.toNext

theorem State.Canon.portAck {k n : Nat} {crcOk : Bool} (h : s.Canon) : (s.portAck k n crcOk).Canon := by
  unfold State.portAck
  dsimp only
  split
  · exact h
  · exact h.putPort

theorem State.Canon.portNak {k e : Nat} {crcOk : Bool} (h : s.Canon) : (s.portNak k e crcOk).Canon := by
  unfold State.portNak
  dsimp only
  split
  · exact h
  · split
    · exact h.putPort
    · split
      · exact h.putPort
      · exact h.putPort

theorem atEdge_canon {die edge : Nat} {port : Nat → State} {link : State}
    (hs : s.Canon) (hport : ∀ x, (port x).Canon) (hlink : link.Canon) : CanonNext (atEdge die edge s port link) := by
  unfold atEdge
  refine State.Canon.toNext ?_
  split
  · exact .getD (.map (fun _ _ => hport _)) hs
  · exact hlink

theorem execReplayTimeout_canon {die edge chan : Nat} (h : s.Canon) : CanonNext (execReplayTimeout die edge chan s) := by
  unfold execReplayTimeout
  refine atEdge_canon h ?_ h.linkTimeout
  intro _
  dsimp only
  split
  · exact h.putPort
  · exact h

theorem execAckDelayExpiry_canon {die edge chan : Nat} (h : s.Canon) : CanonNext (execAckDelayExpiry die edge chan s) := by
  unfold execAckDelayExpiry
  refine atEdge_canon h ?_ h.linkAckDelay
  intro _
  dsimp only
  split
  · exact h.putPort
  · exact h

theorem State.Canon.portDown {k : Nat} (h : s.Canon) : (s.portDown k).Canon := by
  unfold State.portDown
  dsimp only
  exact .putPort h

theorem execOpticalPortDown_canon {k : Nat} (h : s.Canon) : CanonNext (execOpticalPortDown k s) := by
  unfold execOpticalPortDown
  split
  · exact h.toNext
  · exact h.portDown.toNext

theorem State.Canon.portTrained {k : Nat} {ok : Bool} {out : Nat} (h : s.Canon) : (s.portTrained k ok out).Canon := by
  unfold State.portTrained
  dsimp only
  split
  · exact h
  · split
    · exact h.putPort
    · split
      · exact h.putPort.portDown
      · exact h.putPort

theorem execRetrainComplete_canon {die edge m : Nat} {ok laneFail : Bool} (h : s.Canon) :
    CanonNext (execRetrainComplete die edge m ok laneFail s) := by
  unfold execRetrainComplete
  split
  · split
    · exact h.portTrained.toNext
    · exact h.toNext
  · exact h.linkTrained.toNext

theorem State.Canon.portExpires {k : Nat} (h : s.Canon) : (s.portExpires k).Canon := by
  unfold State.portExpires
  dsimp only
  exact .foldl (fun _ _ h0 => h0.swPoison) h.poisonPieces

theorem execEdgeHoldExpiry_canon {die edge : Nat} (h : s.Canon) : CanonNext (execEdgeHoldExpiry die edge s) := by
  unfold execEdgeHoldExpiry
  split
  · split
    · exact h.portExpires.toNext
    · exact h.toNext
  · exact h.edgeExpires.toNext

theorem State.Canon.endLDel {d : LDelivery} (h : s.Canon) : (s.endLDel d).Canon := by
  unfold State.endLDel
  extract_lets core got s1 s2 rest
  have hs1 : s1.Canon := by
    unfold s1
    refine .foldl ?_ h
    intro _ _ h2
    split
    · exact h2
    · exact h2.engineRow
  have hs2 : s2.Canon := .foldl (fun _ _ h4 => h4.engineRow) hs1
  exact .modBar hs2

theorem State.Canon.landBlock {d : LDelivery} {b : LBlock} (h : s.Canon) : (s.landBlock d b).Canon := by
  unfold State.landBlock
  dsimp only
  split
  · exact .endLDel (.foldl (fun _ _ h1 => h1.engineRow) h)
  · exact .foldl (fun _ _ h2 => h2.engineRow) h

theorem State.Canon.newLDel {k : Nat} {b : LBlock} (h : s.Canon) : (s.newLDel k b).Canon := by
  unfold State.newLDel
  extract_lets refuse
  have hrefuse : ∀ x0, x0.Canon → (refuse x0).Canon := by
    intro _ h1
    unfold refuse
    extract_lets s1
    have hs1 : s1.Canon := h1.modPort
    split
    · exact hs1
    · exact hs1
  split
  · exact hrefuse _ h
  · split
    · exact hrefuse _ h
    · split
      · exact hrefuse _ h
      · dsimp only
        exact .landBlock h

theorem State.Canon.lateBlock {d : LDelivery} {b : Nat} (h : s.Canon) : (s.lateBlock d b).Canon := by
  unfold State.lateBlock
  dsimp only
  exact h

theorem execClassLBlockArrival_canon {k : Nat} {b : LBlock} {crcOk : Bool} (h : s.Canon) :
    CanonNext (execClassLBlockArrival k b crcOk s) := by
  unfold execClassLBlockArrival
  split
  · exact h.toNext
  · split
    · exact h.modPort.toNext
    · split
      · exact h.toNext
      · dsimp only
        split
        · split
          · exact h.lateBlock.toNext
          · exact h.landBlock.toNext
        · exact h.newLDel.toNext

theorem execClassLTimeout_canon {id : Nat} (h : s.Canon) : CanonNext (execClassLTimeout id s) := by
  unfold execClassLTimeout
  split
  · exact h.toNext
  · dsimp only
    split
    · exact h.toNext
    · exact h.endLDel.modPort.toNext

theorem State.Canon.stopLDels {team : Nat} (h : s.Canon) : (s.stopLDels team).Canon := .foldl (fun _ _ h0 => h0.endLDel) h

/-! ## Machine/Queue -/

theorem State.Canon.putSlot {i : Nat} {h : Option HwSlot} (hs : s.Canon) : (s.putSlot i h).Canon := hs

theorem State.Canon.park {h : HwSlot} (hs : s.Canon) : (s.park h).Canon := hs

theorem State.Canon.unpark {part q : Nat} (h : s.Canon) : (s.unpark part q).Canon := h

theorem State.Canon.unmap {i : Nat} (h : s.Canon) : (s.unmap i).Canon := by
  unfold State.unmap
  split
  · exact h
  · exact h.park.putSlot

theorem State.Canon.mapQueue {i part q : Nat} (h : s.Canon) : (s.mapQueue i part q).Canon := by
  unfold State.mapQueue
  dsimp only
  exact h.unmap.unpark.putSlot

theorem State.Canon.entryLost {part q : Nat} (h : s.Canon) : (s.entryLost part q).Canon := by
  unfold State.entryLost
  dsimp only
  split
  · exact h.qwrite.unpark.putSlot
  · exact h.qwrite.unpark

theorem State.Canon.letGo {part q : Nat} (h : s.Canon) : (s.letGo part q).Canon := by
  unfold State.letGo
  split
  · exact h.putSlot
  · exact h

theorem State.Canon.stopQueue {part q status : Nat} (h : s.Canon) : (s.stopQueue part q status).Canon := by
  unfold State.stopQueue
  split
  · next e0 => exact .entryLost (.fst e0 h.qentry)
  · next e1 => exact .letGo (.setStatus (.setOnErr (.fst e1 h.qentry)))

theorem State.Canon.refuse {i : Nat} {h : HwSlot} {status : Nat} (hs : s.Canon) : (s.refuse i h status).Canon :=
  hs.putSlot.stopQueue

theorem State.Canon.readFor {i : Nat} {h : HwSlot} {va n : Nat} {k : State → Nat → State}
    (hs : s.Canon) (hk : ∀ t y, t.Canon → (k t y).Canon) : (s.readFor i h va n k).Canon := by
  unfold State.readFor
  split
  · next e0 => exact .refuse (.fst e0 hs.qread)
  · next e1 => exact hk _ _ (.fst e1 hs.qread)

theorem State.Canon.takeUp {part q i : Nat} {pending : Bool} (h : s.Canon) : (s.takeUp part q i pending).Canon := by
  unfold State.takeUp
  dsimp only
  split
  · next e0 =>
      refine .unpark ?_
      refine .fst e0 ?_
      refine .qentry ?_
      split
      · exact h.qwrite
      · exact h
  · next e2 =>
      split
      · refine .park ?_
        split
        · refine .fst e2 ?_
          refine .qentry ?_
          split
          · exact h.qwrite
          · exact h
        · refine .stopQueue ?_
          refine .fst e2 ?_
          refine .qentry ?_
          split
          · exact h.qwrite
          · exact h
      · split
        · refine .park ?_
          refine .fst e2 ?_
          refine .qentry ?_
          split
          · exact h.qwrite
          · exact h
        · split
          · next e7 =>
              refine .park ?_
              refine .stopQueue ?_
              refine .fst e7 ?_
              refine .qread ?_
              refine .fst e2 ?_
              refine .qentry ?_
              split
              · exact h.qwrite
              · exact h
          · next e9 =>
              split
              · refine .mapQueue ?_
                refine .fst e9 ?_
                refine .qread ?_
                refine .fst e2 ?_
                refine .qentry ?_
                split
                · exact h.qwrite
                · exact h
              · split
                · split
                  · refine .unpark ?_
                    refine .fst e9 ?_
                    refine .qread ?_
                    refine .fst e2 ?_
                    refine .qentry ?_
                    split
                    · exact h.qwrite
                    · exact h.qwrite
                  · refine .fst e9 ?_
                    refine .qread ?_
                    refine .fst e2 ?_
                    refine .qentry ?_
                    split
                    · exact h.qwrite
                    · exact h.qwrite
                · split
                  · refine .unpark ?_
                    refine .fst e9 ?_
                    refine .qread ?_
                    refine .fst e2 ?_
                    refine .qentry ?_
                    split
                    · exact h.qwrite
                    · exact h
                  · refine .fst e9 ?_
                    refine .qread ?_
                    refine .fst e2 ?_
                    refine .qentry ?_
                    split
                    · exact h.qwrite
                    · exact h

theorem execPendingScan_canon {part q : Nat} (h : s.Canon) : CanonNext (execPendingScan part q s) := by
  unfold execPendingScan
  dsimp only
  split
  · exact h.toNext
  · split
    · next e0 => exact State.Canon.toNext (.fst e0 h.qread)
    · next e1 =>
        split
        · exact State.Canon.toNext (.fst e1 h.qread)
        · split
          · exact State.Canon.toNext (.fst e1 h.qread)
          · exact State.Canon.toNext (.takeUp (.fst e1 h.qread))

theorem State.Canon.consume {i : Nat} {h : HwSlot} {e : QEntry} (hs : s.Canon) : (s.consume i h e).Canon := by
  unfold State.consume
  dsimp only
  exact hs.qwrite.putSlot.setRdidx

theorem State.Canon.complete {i : Nat} {h : HwSlot} {e : QEntry} (hs : s.Canon) : (s.complete i h e).Canon := hs.consume

theorem State.Canon.poll {i : Nat} {h : HwSlot} (hs : s.Canon) : (s.poll i h).Canon := by
  unfold State.poll
  split
  · next e0 => exact .entryLost (.fst e0 hs.qentry)
  · next e1 =>
      split
      · exact .unmap (.stopQueue (.fst e1 hs.qentry))
      · split
        · exact .fst e1 hs.qentry
        · split
          · split
            · exact .refuse (.fst e1 hs.qentry)
            · exact .fst e1 hs.qentry
          · dsimp only
            refine .readFor (.fst e1 hs.qentry) fun _ _ h6 => ?_
            split
            · exact h6.putSlot
            · split
              · exact h6.consume
              · refine .readFor h6 fun _ _ h10 => ?_
                split
                · exact h10.refuse
                · exact h10.putSlot

theorem execHeadPoll_canon {slot : Nat} (h : s.Canon) : CanonNext (execHeadPoll slot s) := by
  unfold execHeadPoll
  split
  · exact h.toNext
  · split
    · exact h.toNext
    · exact h.poll.toNext

theorem State.Canon.evict {die : Nat} (h : s.Canon) : (s.evict die).Canon := by
  unfold State.evict
  dsimp only
  exact h.putDie

theorem State.Canon.launchedOn {die part desc v : Nat} (h : s.Canon) : (s.launchedOn die part desc v).Canon := by
  unfold State.launchedOn
  dsimp only
  exact h.putCode.putDie.evict

theorem State.Canon.launchKernel {h : HwSlot} {cls : Nat} {p : KernelPacket} {k : Kernel} {args : List Nat} {v : Nat}
    (hs : s.Canon) : (s.launchKernel h cls p k args v).Canon := by
  unfold State.launchKernel
  dsimp only
  split
  · exact hs
  · exact .foldl (fun _ _ h1 => h1.launchedOn) hs

theorem State.Canon.descriptor {i : Nat} {h : HwSlot} {desc : Nat} {k : State → Nat → State}
    (hs : s.Canon) (hk : ∀ t y, t.Canon → (k t y).Canon) : (s.descriptor i h desc k).Canon := by
  unfold State.descriptor
  split
  · exact hk _ _ hs
  · exact hs.readFor (fun _ _ h2 => hk _ _ h2)

theorem execKernel_canon {slot : Nat} (h : s.Canon) : CanonNext (execKernel slot s) := by
  unfold execKernel
  split
  · exact h.toNext
  · dsimp only
    split
    · exact h.refuse.toNext
    · refine State.Canon.toNext ?_
      refine .descriptor h fun _ _ h5 => ?_
      split
      · split
        · exact h5.refuse
        · exact h5.launchKernel.consume
      · refine .readFor h5 fun _ _ h8 => ?_
        split
        · exact h8.refuse
        · exact h8.launchKernel.consume

theorem execCond_canon {slot : Nat} (h : s.Canon) : CanonNext (execCond slot s) := by
  unfold execCond
  split
  · exact h.toNext
  · dsimp only
    split
    · exact h.refuse.toNext
    · exact (h.readFor (fun _ _ h3 => h3.complete)).toNext

theorem execWait_canon {slot : Nat} (h : s.Canon) : CanonNext (execWait slot s) := by
  unfold execWait
  split
  · exact h.toNext
  · split
    · exact h.refuse.toNext
    · refine State.Canon.toNext ?_
      refine .readFor h fun _ _ h5 => ?_
      split
      · exact h5.complete
      · exact h5.putSlot

theorem execTokenWaitSatisfied_canon {slot : Nat} (h : s.Canon) : CanonNext (execTokenWaitSatisfied slot s) := by
  unfold execTokenWaitSatisfied
  split
  · exact h.toNext
  · split
    · exact h.toNext
    · refine State.Canon.toNext ?_
      refine .readFor h fun _ _ h5 => ?_
      split
      · exact h5.complete
      · exact h5

theorem execSignal_canon {slot : Nat} (h : s.Canon) : CanonNext (execSignal slot s) := by
  unfold execSignal
  split
  · exact h.toNext
  · dsimp only
    split
    · exact h.refuse.toNext
    · split
      · exact h.vseen.queueFault.refuse.toNext
      · exact h.writeMem.learn.access.noteBytes.complete.toNext

theorem execCompact_canon {slot : Nat} (h : s.Canon) : CanonNext (execCompact slot s) := by
  unfold execCompact
  split
  · exact h.toNext
  · dsimp only
    split
    · exact h.refuse.toNext
    · refine State.Canon.toNext ?_
      refine .readFor h fun _ _ h5 => ?_
      split
      · exact h5
      · refine .readFor h5 fun _ _ h9 => ?_
        split
        · exact h9.refuse
        · exact h9.consume

theorem execBarrier_canon {slot : Nat} (h : s.Canon) : CanonNext (execBarrier slot s) := by
  unfold execBarrier
  split
  · exact h.toNext
  · split
    · exact h.complete.toNext
    · exact h.refuse.toNext

theorem execSliceExpiry_canon {slot : Nat} (h : s.Canon) : CanonNext (execSliceExpiry slot s) := by
  unfold execSliceExpiry
  split
  · exact h.toNext
  · split
    · exact h.toNext
    · split
      · exact h.unmap.toNext
      · exact h.putSlot.toNext

/-! ## Machine/Place -/

theorem execCoreStart_canon {core : Nat} (h : s.Canon) : CanonNext (execCoreStart core s) := by
  unfold execCoreStart
  split
  · exact h.putCore.toNext
  · exact h.toNext

theorem State.Canon.clearRows {core : Nat} {l : List (Nat × Nat)} (h : s.Canon) : (s.clearRows core l).Canon :=
  h.withPal (swf_foldl (fun _ _ hp => swf_wipeRows hp) h.pal)

theorem State.Canon.freshRows {core lo n : Nat} (h : s.Canon) : (s.freshRows core lo n).Canon :=
  h.withPal (swf_filter _ _ h.pal)

theorem State.Canon.sectionRead {part core queue desc va : Nat} (h : s.Canon) :
    (s.sectionRead part core queue desc va).1.Canon := by
  unfold State.sectionRead
  split
  · exact h
  · dsimp only
    split
    · exact h.codeSeen.writeFault
    · exact h.codeSeen.putCode

theorem State.Canon.readSection {part core queue desc va n : Nat} (h : s.Canon) :
    (s.readSection part core queue desc va n).1.Canon := by
  induction n with
  | zero => exact h
  | succ n ih => exact ih.sectionRead

theorem State.Canon.enterSection {core part queue : Nat} {k : Kernel} (h : s.Canon) :
    (s.enterSection core part queue k).Canon := by
  unfold State.enterSection
  dsimp only
  split
  · exact h
  · split
    · exact h.putCluster
    · exact h.readSection.putCluster

theorem State.Canon.leaveSection {core part : Nat} {k : Kernel} (h : s.Canon) : (s.leaveSection core part k).Canon := by
  unfold State.leaveSection
  dsimp only
  split
  · exact h
  · exact h.putCluster

theorem State.Canon.trimMirrors {core : Nat} (h : s.Canon) : (s.trimMirrors core).Canon := by
  unfold State.trimMirrors
  dsimp only
  exact h.putCore

theorem swf_writeArgs {p : Sparse Elem} {core : Nat} {g : Group} {args : List Nat} (h : swf Elem.blank p = true) :
    swf Elem.blank (writeArgs p core g args) = true := swf_foldl (fun _ _ hp => swf_palPut hp) h

theorem State.Canon.placeTeam {l : Launch} {teamid core : Nat} {at_ : List Nat} (h : s.Canon) :
    (s.placeTeam l teamid core at_).Canon := by
  unfold State.placeTeam
  extract_lets k frames r now group groups n tiles t s1 s2 pal
  have hs2 : s2.Canon := h.enterSection.clearRows.freshRows
  have hs : State.Canon { s2 with pal := pal } := hs2.withPal (swf_foldl (fun _ _ hp => swf_writeArgs hp) hs2.pal)
  exact State.Canon.trimMirrors (.of_with hs)

theorem State.Canon.putLaunch {l : Launch} (h : s.Canon) : (s.putLaunch l).Canon := h

theorem State.Canon.placeNext {t : State} {l v : Launch} {die : Nat} (h : s.Canon) (e : s.placeNext l die = some (t, v)) :
    t.Canon := by
  unfold State.placeNext at e
  obtain ⟨c, -, hc⟩ := Option.bind_eq_some_iff.mp e
  obtain ⟨b, -, hb⟩ := Option.map_eq_some_iff.mp hc
  cases hb
  exact h.placeTeam.putLaunch

theorem State.Canon.placeGrid {l : Launch} (h : s.Canon) : CanonSome (s.placeGrid l) := by
  have hfold : ∀ (dies : List Nat) (a : Option (State × Launch)), (∀ x, a = some x → x.1.Canon) →
      ∀ x, dies.foldl (fun (a : Option (State × Launch)) d => a.bind (fun x => x.1.placeNext x.2 d))
        a = some x → x.1.Canon := by
    intro dies
    induction dies with
    | nil => exact fun _ ha => ha
    | cons d dies ih =>
      refine fun a ha => ih _ fun x e => ?_
      obtain ⟨y, hy, hx⟩ := Option.bind_eq_some_iff.mp e
      exact (ha y hy).placeNext hx
  refine CanonSome.map fun x e => hfold _ _ ?_ x e
  intro y e; cases e; exact h

theorem State.Canon.placeNext_map {l : Launch} {die : Nat} (h : s.Canon) :
    CanonSome ((s.placeNext l die).map (fun x => x.1)) := .map fun _ e => h.placeNext e

theorem State.Canon.placeFor {part die : Nat} (h : s.Canon) : CanonSome (s.placeFor part die) := by
  refine .bind fun l _ => ?_
  split
  · exact .none
  · split
    · split
      · exact h.placeGrid
      · exact .none
    · exact h.placeNext_map

theorem execTeamPlacement_canon {die : Nat} (h : s.Canon) : CanonNext (execTeamPlacement die s) :=
  State.Canon.toNext (.getD (.findSome? (fun _ => h.placeFor)) h)

theorem execStealRequest_canon {die : Nat} (h : s.Canon) : CanonNext (execStealRequest die s) := by
  unfold execStealRequest
  split
  · exact h.putLaunch.toNext
  · exact h.toNext

theorem State.Canon.freeTeam {t : Team} (h : s.Canon) : (s.freeTeam t).Canon := by
  unfold State.freeTeam
  extract_lets free c mine s1
  have hs1 : s1.Canon := by
    unfold s1
    split
    · exact h.putCore.leaveSection
    · exact h
  exact .evict hs1

theorem State.Canon.restartTimer {part q : Nat} (h : s.Canon) : (s.restartTimer part q).Canon := by
  unfold State.restartTimer
  split
  · exact h
  · exact h.putSlot

theorem State.Canon.kernelEnds {id : Nat} (h : s.Canon) : (s.kernelEnds id).Canon := by
  unfold State.kernelEnds
  split
  · exact h
  · dsimp only
    split
    · exact h
    · split
      · exact .stopQueue (.restartTimer h)
      · exact .restartTimer h

theorem State.Canon.retire {t : Team} (h : s.Canon) : (s.retire t).Canon := by
  unfold State.retire
  dsimp only
  exact .kernelEnds h.firstIssue.freeTeam

theorem execTeamRetirement_canon {team : Nat} (h : s.Canon) : CanonNext (execTeamRetirement team s) := by
  unfold execTeamRetirement
  split
  · exact h.toNext
  · split
    · exact h.retire.startWalks.toNext
    · exact h.toNext

/-! ## Machine/Preempt -/

theorem State.Canon.slotsRead {part : Nat} (h : s.Canon) : (s.slotsRead part).Canon := .foldl (fun _ _ h0 => h0.vseen) h

theorem State.Canon.landGathers {team : Nat} (h : s.Canon) : (s.landGathers team).Canon := by
  unfold State.landGathers
  refine .foldl ?_ h
  intro _ _ h2
  split
  · exact h2.landReplies
  · exact h2

theorem State.Canon.stopTeam {t : Team} (h : s.Canon) : (s.stopTeam t).Canon := h.putTeam.stopLDels

theorem State.Canon.abortTeam {t : Team} (h : s.Canon) : (s.abortTeam t).Canon := by
  unfold State.abortTeam
  dsimp only
  exact .startWalks h.putTeam.landGathers

theorem State.Canon.stopUnit {t : Team} (h : s.Canon) : (s.stopUnit t).Canon := by
  unfold State.stopUnit
  refine .foldl ?_ h
  intro _ _ h2
  split
  · exact h2.stopTeam
  · exact h2

theorem State.Canon.voidElem {core row lane : Nat} (h : s.Canon) : (s.voidElem core row lane).Canon :=
  h.withPal (swf_palPut h.pal)

theorem State.Canon.settleSave {team core : Nat} {k : RowKind} {row lane : Nat} (h : s.Canon) :
    (s.settleSave team core k row lane).1.Canon := by
  unfold State.settleSave
  split
  · next e0 => exact .modGroup (.fst e0 h.readElem)
  · next e1 => exact .modGroup (.fst e1 h.readElem)
  · next e2 => exact .modGroup (.fst e2 h.readElem)
  · next e3 => exact .softTeam (.fst e3 h.readElem)
  · next e4 => exact .softTeam (.fst e4 h.readElem)
  · next e5 _ _ _ _ _ => exact .fst e5 h.readElem
  · next e6 => exact .voidElem (.lanesDie (.fst e6 h.readElem))
  · next e7 => exact .modGroup (.voidElem (.fst e7 h.readElem))
  · next e8 => exact .voidElem (.fst e8 h.readElem)
  · next e9 => exact .voidElem (.fst e9 h.readElem)
  · next e10 _ _ _ _ => exact .fst e10 h.readElem

theorem State.Canon.settleAll {t : Team} (h : s.Canon) : (s.settleAll t).1.Canon := by
  unfold State.settleAll
  refine .foldl_fst ?_ h
  intro _ _ h2
  split
  · next e3 => exact .fst e3 h2.settleSave

theorem State.Canon.writeSlot {core part n va : Nat} {b : List Byte} (h : s.Canon) :
    CanonOk (s.writeSlot core part n va b) := by
  induction n generalizing s va b with
  | zero => exact h.toOk
  | succ n ih =>
    unfold State.writeSlot
    split
    · exact .error
    · next e => exact ih (.of_ok e h.vwrite)

theorem State.Canon.readImage {core part va n : Nat} (h : s.Canon) : (s.readImage core part va n).1.Canon := by
  induction n with
  | zero => exact h
  | succ n ih =>
    unfold State.readImage
    split
    · next e => exact .fst e ih
    · next e => exact (State.Canon.fst e ih).vseen

theorem State.Canon.leaveCore {t : Team} (h : s.Canon) : (s.leaveCore t).Canon := by
  unfold State.leaveCore
  extract_lets c mine s1
  have hs1 : s1.Canon := h.putCore
  exact .leaveSection hs1

theorem State.Canon.saveFails {t : Team} {slot : Nat} {e : Nat × Nat × Nat} (h : s.Canon) : (s.saveFails t slot e).Canon :=
  h.setSlotState.writeFault.kill

theorem State.Canon.beginSave {t : Team} (h : s.Canon) : (s.beginSave t).Canon := by
  unfold State.beginSave
  dsimp only
  split
  · exact h.slotsRead
  · split
    · exact h.slotsRead
    · split
      · exact h.slotsRead.firstIssue.putTeam.saveFails
      · next e3 => exact .of_ok e3 h.slotsRead.firstIssue.putTeam.writeSlot

theorem State.Canon.saveTeam {t : Team} {slot : Nat} (h : s.Canon) : (s.saveTeam t slot).Canon := by
  unfold State.saveTeam
  split
  · next e0 => exact .kill (.setSlotState (.fst e0 h.settleAll))
  · next e1 =>
      split
      · exact .fst e1 h.settleAll
      · dsimp only
        split
        · exact .saveFails (.fst e1 h.settleAll)
        · next e5 => exact .evict (.putTeam (.leaveCore (.of_ok e5 (State.Canon.writeSlot (.fst e1 h.settleAll)))))

theorem execPreemptionStop_canon {team : Nat} (h : s.Canon) : CanonNext (execPreemptionStop team s) := by
  unfold execPreemptionStop
  split
  · exact h.toNext
  · split
    · split
      · exact h.abortTeam.toNext
      · exact h.toNext
    · split
      · exact h.beginSave.toNext
      · split
        · split
          · exact h.saveTeam.toNext
          · exact h.toNext
        · split
          · exact h.stopUnit.toNext
          · exact h.toNext

theorem State.Canon.killOut {t : Team} {cause : Nat} {keep : Bool} (h : s.Canon) : (s.killOut t cause keep).Canon := by
  unfold State.killOut
  extract_lets s1 s2 mark
  have hs1 : s1.Canon := h.writeError
  have hs2 : s2.Canon := by
    unfold s2
    split
    · split
      · exact hs1
      · exact hs1.setSlotState
    · exact hs1
  exact .retire hs2

theorem State.Canon.killAny {t : Team} {cause : Nat} (h : s.Canon) : (s.killAny t cause).Canon := by
  unfold State.killAny
  split
  · exact h.kill
  · exact h.killOut

theorem swf_loadRows {p : Sparse Elem} {img : List Nat} {core row rows masks n : Nat} (h : swf Elem.blank p = true) :
    swf Elem.blank (loadRows p img core row rows masks n) = true :=
  swf_foldl (fun _ _ hp => swf_foldl (fun _ _ hp => swf_palPut hp) hp) h

theorem swf_loadTeam {p : Sparse Elem} {img : List Nat} {t : Team} {neng : Nat} (h : swf Elem.blank p = true) :
    swf Elem.blank (loadTeam p img t neng) = true :=
  swf_foldl (fun _ _ hp => swf_loadRows hp) (swf_loadRows (swf_foldl (fun _ _ hp => swf_loadRows hp) h))

theorem State.Canon.bringBack {t : Team} {slot core : Nat} {at_ img : List Nat} (h : s.Canon) :
    (s.bringBack t slot core at_ img).Canon := by
  unfold State.bringBack
  extract_lets engines longs t1 s1 s2 s3 mine locks s4
  have hs2 : s2.Canon := h.enterSection.clearRows.freshRows.putTeam
  have hs3 : s3.Canon := .of_with (hs2.withPal (swf_loadTeam hs2.pal))
  have hs4 : s4.Canon := .of_with hs3
  exact hs4.setSlotState.trimMirrors.startWalks

theorem State.Canon.restore1 {t : Team} (h : s.Canon) : CanonSome (s.restore1 t) := by
  unfold State.restore1
  split
  · refine .bind fun _ _ => ?_
    split
    · next e3 => exact State.Canon.toSome (.killOut (.writeFault (.fst e3 h.readImage)))
    · next e4 =>
        split
        · exact State.Canon.toSome (.bringBack (.fst e4 h.readImage))
        · exact .none
  · exact .none

theorem State.Canon.restoreGrid {l : List Team} (h : s.Canon) : CanonSome (s.restoreGrid l) := by
  suffices hfold : ∀ a : Option State, CanonSome a → CanonSome (l.foldl (fun (a : Option State) t => a.bind (fun s =>
      match s.team? t.id with
      | some u => s.restore1 u
      | none => some s)) a) from hfold _ h.toSome
  induction l with
  | nil => exact fun _ ha => ha
  | cons t l ih =>
    refine fun a ha => ih _ (.bind fun u e => ?_)
    split
    · exact (ha u e).restore1
    · exact (ha u e).toSome

theorem execTeamRestore_canon {team : Nat} (h : s.Canon) : CanonNext (execTeamRestore team s) := by
  unfold execTeamRestore
  split
  · exact h.toNext
  · dsimp only
    split
    · exact h.toNext
    · exact State.Canon.toNext (.getD h.restoreGrid h)

/-! ## Machine/Reliable -/

theorem execPaletteSoftError_canon {core row lane : Nat} {fatal : Bool} (h : s.Canon) :
    CanonNext (execPaletteSoftError core row lane fatal s) := by
  unfold execPaletteSoftError
  extract_lets e
  split
  · exact (h.withPal (swf_palPut h.pal)).toNext
  · exact h.toNext

theorem execHbmUncorrectableError_canon {sector : Nat} (h : s.Canon) : CanonNext (execHbmUncorrectableError sector s) := by
  unfold execHbmUncorrectableError
  split
  · exact h.setPoison.toNext
  · exact h.toNext

theorem State.Canon.copyRow {core src dst : Nat} (h : s.Canon) : (s.copyRow core src dst).Canon := by
  refine State.Canon.foldl (fun s _ h => ?_) h
  split
  next e => 
    have h1 := State.Canon.fst e h.readElem
    exact h1.withPal (swf_palPut h1.pal)

theorem execMirrorBuild_canon {core row : Nat} (h : s.Canon) : CanonNext (execMirrorBuild core row s) := by
  unfold execMirrorBuild
  split
  · exact h.toNext
  · split
    · exact h.toNext
    · split
      · exact h.toNext
      · dsimp only
        exact State.Canon.toNext (.putCore (.foldl (fun _ _ h4 => h4.copyRow) h))

theorem State.Canon.eachQueue {part : Nat} {f : State → Nat → QEntry → State}
    (h : s.Canon) (hf : ∀ t y z, t.Canon → (f t y z).Canon) : (s.eachQueue part f).Canon := by
  unfold State.eachQueue
  refine .foldl ?_ h
  intro _ _ h2
  split
  · next e3 => exact hf _ _ _ (.fst e3 h2.qentry)
  · next e4 => exact .fst e4 h2.qentry

theorem State.Canon.dropHeads {part : Nat} (h : s.Canon) : (s.dropHeads part).Canon := h

theorem State.Canon.resetTeam {id : Nat} (h : s.Canon) : (s.resetTeam id).Canon := by
  unfold State.resetTeam
  split
  · exact h
  · split
    · exact h.setSlotState.freeTeam
    · exact h.stopLDels.kill.firstIssue

theorem State.Canon.beginReset {part : Nat} {sw : Bool} {queue : Option Nat} (h : s.Canon) :
    (s.beginReset part sw queue).Canon := by
  unfold State.beginReset
  dsimp only
  exact .foldl (fun _ _ h0 => h0.resetTeam) (((h.eachQueue (fun _ _ _ h1 => h1.setOnErr.setStatus)).dropHeads).putPart)

theorem execWatchdogExpiry_canon {slot : Nat} (h : s.Canon) : CanonNext (execWatchdogExpiry slot s) := by
  unfold execWatchdogExpiry
  split
  · exact h.toNext
  · split
    · exact h.toNext
    · exact h.beginReset.toNext

theorem execWdctlReset_canon {part value : Nat} (h : s.Canon) : CanonNext (execWdctlReset part value s) := by
  unfold execWdctlReset
  split
  · exact h.toNext
  · dsimp only
    split
    · exact h.putPart.beginReset.toNext
    · exact h.putPart.toNext

theorem State.Canon.sweepTeam {t : Team} (h : s.Canon) : (s.sweepTeam t).Canon := by
  unfold State.sweepTeam
  dsimp only
  exact .freeTeam (.foldl (fun _ _ h0 => h0.freshRows) h)

theorem execResetComplete_canon {part : Nat} (h : s.Canon) : CanonNext (execResetComplete part s) := by
  unfold execResetComplete
  dsimp only
  split
  · exact h.toNext
  · exact State.Canon.toNext (.foldl (fun _ _ h0 => h0.startWalks) (.putPart (.foldl (fun _ _ h1 => h1.sweepTeam) h)))

/-! ## Machine/Security -/

theorem State.Canon.partWrite {part : Nat} {f : Part → Part} (h : s.Canon) : (s.partWrite part f).Canon := by
  unfold State.partWrite
  split
  · exact h.putPart
  · exact h

theorem State.Canon.regWrite {f : Regs → Regs} (h : s.Canon) : (s.regWrite f).Canon := by
  unfold State.regWrite
  split
  · exact h
  · exact h

theorem execQcfgWrite_canon {part value : Nat} (h : s.Canon) : CanonNext (execQcfgWrite part value s) := by
  unfold execQcfgWrite
  dsimp only
  split
  · exact h.toNext
  · exact h.partWrite.toNext

theorem State.Canon.onRead {part : Nat} (h : s.Canon) : (s.onRead part).Canon := .foldl (fun _ _ h0 => h0.vseen) h

theorem execPtrootWrite_canon {part value : Nat} (h : s.Canon) : CanonNext (execPtrootWrite part value s) := by
  unfold execPtrootWrite
  dsimp only
  split
  · exact h.onRead.toNext
  · exact h.onRead.partWrite.tlbDrop.toNext

theorem execShbaseWrite_canon {part value : Nat} (h : s.Canon) : CanonNext (execShbaseWrite part value s) := by
  unfold execShbaseWrite
  dsimp only
  split
  · exact h.onRead.partWrite.toNext
  · exact h.onRead.toNext

theorem execShsizeWrite_canon {part value : Nat} (h : s.Canon) : CanonNext (execShsizeWrite part value s) := by
  unfold execShsizeWrite
  dsimp only
  split
  · exact h.onRead.partWrite.toNext
  · exact h.onRead.toNext

theorem execTlbinv_canon {part value : Nat} (h : s.Canon) : CanonNext (execTlbinv part value s) := by
  unfold execTlbinv
  dsimp only
  split
  · exact h.toNext
  · exact h.tlbDrop.partWrite.toNext

theorem execTlbinvComplete_canon {part : Nat} (h : s.Canon) : CanonNext (execTlbinvComplete part s) := by
  unfold execTlbinvComplete
  dsimp only
  split
  · exact h.toNext
  · exact h.tlbDrop.putPart.toNext

theorem execCluownWrite_canon {c value : Nat} (h : s.Canon) : CanonNext (execCluownWrite c value s) := by
  unfold execCluownWrite
  dsimp only
  split
  · exact h.toNext
  · exact h.regWrite.toNext

theorem State.Canon.keyWrite {k : Nat} {f : KeySlot → KeySlot} (h : s.Canon) : (s.keyWrite k f).Canon := by
  unfold State.keyWrite
  split
  · exact h.putKey
  · exact h

theorem execKsctlWrite_canon {k value : Nat} (h : s.Canon) : CanonNext (execKsctlWrite k value s) := h.keyWrite.toNext

theorem execKskey1Write_canon {k value : Nat} (h : s.Canon) : CanonNext (execKskey1Write k value s) := by
  unfold execKskey1Write
  split
  · exact h.toNext
  · exact h.keyWrite.toNext

theorem execKskey2Write_canon {k value : Nat} (h : s.Canon) : CanonNext (execKskey2Write k value s) := by
  unfold execKskey2Write
  split
  · exact h.toNext
  · exact h.keyWrite.toNext

theorem State.Canon.raiseAlarm {source die part : Nat} (h : s.Canon) : (s.raiseAlarm source die part).Canon := h

theorem State.Canon.logAlarm {source die : Nat} (h : s.Canon) : (s.logAlarm source die).Canon := by
  unfold State.logAlarm
  dsimp only
  exact h

theorem State.Canon.quiesce {part : Nat} (h : s.Canon) : (s.quiesce part).Canon := by
  unfold State.quiesce
  dsimp only
  refine .foldl ?_ ?_
  · intro _ _ h2
    split
    · exact h2
    · split
      · exact h2.stopUnit
      · exact h2
  · refine .eachQueue h fun _ _ _ h8 => ?_
    split
    · exact h8.setOnErr
    · exact h8

theorem State.Canon.erase (h : s.Canon) : s.erase.Canon := by
  unfold State.erase
  extract_lets cause s0 s1 s2 left
  have hs1 : s1.Canon := by
    refine State.Canon.foldl (fun t id h1 => ?_) h
    split
    · exact h1
    · exact h1.killAny
  have hs2 : s2.Canon := .foldl (fun _ _ h2 => (h2.eachQueue fun _ _ _ h3 => h3.stopQueue).dropHeads) hs1
  exact .of_with (hs2.withPal (p := []) rfl)

theorem State.Canon.alarm {source die part : Nat} (h : s.Canon) : (s.alarm source die part).Canon := by
  unfold State.alarm
  dsimp only
  split
  · exact h.logAlarm
  · split
    · exact h.logAlarm
    · split
      · exact h.logAlarm.quiesce
      · exact .foldl (fun _ _ h4 => h4.quiesce) h.logAlarm
    · exact h.logAlarm.erase

theorem execAlarmEvent_canon {source die part : Nat} (h : s.Canon) : CanonNext (execAlarmEvent source die part s) := by
  unfold execAlarmEvent
  split
  · exact h.alarm.toNext
  · exact h.toNext

theorem execAlarmpolWrite_canon {value : Nat} (h : s.Canon) : CanonNext (execAlarmpolWrite value s) := by
  unfold execAlarmpolWrite
  split
  · exact h.toNext
  · exact h.regWrite.toNext

theorem execAlarmraise_canon {value : Nat} (h : s.Canon) : CanonNext (execAlarmraise value s) := by
  unfold execAlarmraise
  split
  · exact h.raiseAlarm.toNext
  · exact h.toNext

theorem execBootgo_canon {value : Nat} (h : s.Canon) : CanonNext (execBootgo value s) := by
  unfold execBootgo
  dsimp only
  split
  · exact h.toNext
  · exact h.regWrite.toNext

theorem State.Canon.imageRead (h : s.Canon) : (s.imageRead).Canon := by
  unfold State.imageRead
  refine .foldl ?_ h
  intro _ _ h2
  dsimp only
  split
  · exact h2.noteBytes.noteHbmError
  · exact h2.noteBytes

theorem execBootCheckComplete_canon (h : s.Canon) : CanonNext (execBootCheckComplete s) := by
  unfold execBootCheckComplete
  split
  · exact h.toNext
  · dsimp only
    split
    · exact State.Canon.toNext h.imageRead
    · exact State.Canon.toNext (.raiseAlarm h.imageRead)

theorem execAttcmdGo_canon {value : Nat} (h : s.Canon) : CanonNext (execAttcmdGo value s) := by
  unfold execAttcmdGo
  split
  · exact h.regWrite.toNext
  · exact h.toNext

theorem execAttestationReportWritten_canon {ok : Bool} (h : s.Canon) : CanonNext (execAttestationReportWritten ok s) := by
  unfold execAttestationReportWritten
  split
  · exact h.toNext
  · extract_lets good s1
    have hs1 : s1.Canon := by
      unfold s1
      split
      · exact h.writeMem
      · exact h
    exact State.Canon.toNext hs1

theorem execModidWrite_canon {value : Nat} (h : s.Canon) : CanonNext (execModidWrite value s) := by
  unfold execModidWrite
  split
  · exact h.regWrite.toNext
  · exact h.toNext

theorem execOptltoWrite_canon {part value : Nat} (h : s.Canon) : CanonNext (execOptltoWrite part value s) := by
  unfold execOptltoWrite
  split
  · exact h.toNext
  · exact h.partWrite.toNext

theorem execPowerOff_canon (h : s.Canon) : CanonNext (execPowerOff s) := by
  obtain ⟨hm, -, hq, ht⟩ := State.canonical_iff.mp h
  exact State.Canon.toNext (State.canonical_iff.mpr ⟨swf_filter _ _ hm, rfl, swf_filter _ _ hq, rfl⟩)

theorem execPowerOn_canon (h : s.Canon) : CanonNext (execPowerOn s) := by
  obtain ⟨hm, -, hq, -⟩ := State.canonical_iff.mp h
  unfold execPowerOn
  split
  · exact h.toNext
  · exact State.Canon.toNext (State.canonical_iff.mpr ⟨hm, rfl, hq, rfl⟩)

/-! ## Machine/Power -/

theorem State.Canon.clocks {f : Die → Nat} (h : s.Canon) : (s.clocks f).Canon := .foldl (fun _ _ h0 => h0.putDie) h

theorem execPowerThrottle_canon {draw : Nat} (h : s.Canon) : CanonNext (execPowerThrottle draw s) := by
  unfold execPowerThrottle
  dsimp only
  split
  · exact h.toNext
  · split
    · exact State.Canon.toNext h
    · split
      · exact State.Canon.toNext (.clocks h)
      · split
        · exact State.Canon.toNext (.clocks h)
        · exact State.Canon.toNext h

theorem execDieTemperature_canon {die temp : Nat} (h : s.Canon) : CanonNext (execDieTemperature die temp s) := by
  unfold execDieTemperature
  split
  · exact h.toNext
  · dsimp only
    refine State.Canon.toNext ?_
    split
    · exact h.putDie.raiseAlarm
    · exact h.putDie

theorem execAgeingMeasurement_canon {cluster margin index : Nat} (h : s.Canon) :
    CanonNext (execAgeingMeasurement cluster margin index s) := by
  unfold execAgeingMeasurement
  dsimp only
  split
  · exact h.toNext
  · split
    · exact h.putCluster.toNext
    · exact h.putCluster.toNext

theorem execTmsnapGo_canon {die value : Nat} (h : s.Canon) : CanonNext (execTmsnapGo die value s) := by
  unfold execTmsnapGo
  split
  · exact h.toNext
  · dsimp only
    exact h.putDie.toNext

theorem execFrozenWrite_canon {die value : Nat} (h : s.Canon) : CanonNext (execFrozenWrite die value s) := by
  unfold execFrozenWrite
  split
  · exact h.toNext
  · exact h.putDie.toNext

/-! ## Machine/HostEvents -/

theorem State.Canon.draw {n : Nat} (h : s.Canon) : (s.draw n).1.Canon := h

theorem State.Canon.hostNotes {off n : Nat} (h : s.Canon) : (s.hostNotes off n).Canon := by
  unfold State.hostNotes
  split
  · exact h
  · refine .foldl ?_ h
    intro _ _ h3
    dsimp only
    split
    · exact h3
    · split
      · exact h3.noteHbmError
      · exact h3.noteBytes

theorem State.Canon.hostRead {off n : Nat} (h : s.Canon) : (s.hostRead off n).Canon := by
  refine State.Canon.of_with (State.Canon.foldl_fst (fun acc i h => ?_) h.hostNotes)
  extract_lets pa d
  split
  · exact h
  · exact h.draw (n := 8)

theorem State.Canon.hostWrite {off : Nat} {data : List Nat} (h : s.Canon) : (s.hostWrite off data).Canon := by
  unfold State.hostWrite
  dsimp only
  split
  · exact h
  · refine .foldl ?_ h
    intro _ _ h3
    split
    · exact h3
    · exact h3.writeSector.noteBytes

theorem execHostAccess_canon {off len : Nat} {data : List Nat} (h : s.Canon) : CanonNext (execHostAccess off len data s) := by
  unfold execHostAccess
  split
  · exact h.toNext
  · split
    · exact h.hostRead.toNext
    · exact h.hostWrite.toNext

theorem CanonNext.ite {p : Prop} [Decidable p] {x y : Host.Outcome State Fault Refusal} (hx : CanonNext x) (hy : CanonNext y) :
    CanonNext (if p then x else y) := by
  split
  · exact hx
  · exact hy

theorem State.Canon.withReply {l : List Nat} (h : s.Canon) : State.Canon { s with hostReply := l } := h

theorem execHostAtomicop_canon {off x n : Nat} {op : HostAtomic} {wide : Bool} (h : s.Canon) :
    CanonNext (execHostAtomicop off op x n wide s) := by
  simp only [execHostAtomicop]
  exact .ite h.toNext (.ite h.hostNotes.draw.withReply.toNext h.writeMem.noteBytes.noteBytes.withReply.toNext)

theorem State.Canon.oneOf {α : Type} {l : List α} (h : s.Canon) : (s.oneOf l).1.Canon := by
  unfold State.oneOf
  split
  · exact h
  · exact h

theorem State.Canon.hostWindow {r : Req} {i : Nat} {p : Piece} {w : Window} (h : s.Canon) : (s.hostWindow r i p w).Canon := by
  unfold State.hostWindow
  split
  · exact h
  · next e1 =>
      split
      · exact h
      · split
        · next e2 =>
            dsimp only
            split
            · exact .performed (.fst e2 (.serveWindow (.reqFault (.fst e1 h.oneOf))))
            · exact .performed (.fst e2 (.serveWindow (.reqFault (.fst e1 h.oneOf))))

theorem State.Canon.hostPiece {r : Req} {i : Nat} {p : Piece} (h : s.Canon) : (s.hostPiece r i p).Canon := by
  unfold State.hostPiece
  split
  · exact h.hostWindow
  · split
    · exact h
    · extract_lets fault q
      have hfault : ∀ x0, (fault x0).Canon := by
        intro _
        unfold fault
        exact h.reqFault
      split
      · split
        · exact (hfault _).performed
        · exact h
      · split
        · exact (hfault _).performed
        · exact h
      · split
        · exact (hfault _).putReq
        · exact h
      · split
        · split
          · exact .completeReq (.putReq (hfault _))
          · exact .putReq (hfault _)
        · exact h
      · exact h

theorem State.Canon.hostSector {o : Op} {t : Team} {u : Nat} (h : s.Canon) : (s.hostSector o t u).Canon := by
  unfold State.hostSector
  split
  · exact h
  · split
    · next e0 =>
        refine .putOp ?_
        refine .fst e0 ?_
        refine .foldl_fst ?_ h.opFault
        intro _ _ h3
        split
        · next e4 => exact .fst e4 h3.posFault

theorem State.Canon.hostUnit {o : Op} {t : Team} {u : Nat} (h : s.Canon) : (s.hostUnit o t u).Canon := by
  unfold State.hostUnit
  split
  · exact h
  · split
    · exact h.hostSector
    · dsimp only
      split
      · exact h
      · split
        · exact h
        · exact h.opFault.noteOp.longEnds
    · dsimp only
      split
      all_goals
        split
        · exact h
        · exact h.opFault.noteOp.unitsEnd

theorem State.Canon.hostWalkRead {w : Walk} {rd : CRead} (h : s.Canon) : (s.hostWalkRead w rd).Canon := by
  unfold State.hostWalkRead
  split
  · split
    · exact h.opFault.walkEnds
    · exact h
  · exact h

theorem State.Canon.hostHead {slot : Nat} (h : s.Canon) : (s.hostHead slot).Canon := by
  unfold State.hostHead
  split
  · exact h
  · split
    · exact h
    · dsimp only
      split
      · exact h
      · next e5 => exact .refuse (.writeFault (.fst e5 h.oneOf))

theorem State.Canon.hostFails {req piece : Nat} (h : s.Canon) : (s.hostFails req piece).Canon := by
  unfold State.hostFails
  split
  · exact h.hostHead
  · split
    · exact h.hostPiece
    · split
      · split
        · exact h.hostUnit
        · exact h
      · split
        · exact h.hostWalkRead
        · exact h

/-! ## Machine/Reduce -/

theorem State.Canon.putRed {c : Ctx} {bs d : Nat} {v : Word} (h : s.Canon) : (s.putRed c bs d v).Canon := by
  unfold State.putRed
  split
  · exact h.putRow
  · exact h.putScal

theorem reduce_canon {d a bs ident : Nat} {op : Nat → Nat → Nat → Nat} (h : s.Canon) : CanonNext (reduce s d a bs ident op) :=
  direct_canon h (fun _ _ h0 => h0.putRed)

theorem reduceLm_canon {d a bs m : Nat} {res : Ctx → Nat} (h : s.Canon) : CanonNext (reduceLm s d a bs m res) := by
  unfold reduceLm
  dsimp only
  exact word_canon h (fun _ _ h0 => .bind (fun _ _ => .bind (fun _ _ => .bind (fun _ _ => .bind (fun _ _ => .bind (fun _ _ =>
    h0.putRed.putRed.adv.toOk))))))

/-! ## Machine/Registers -/

theorem nextOr_canon {o : Host.Outcome State Fault Refusal} (h : s.Canon) (ho : CanonNext o) : (nextOr s o).Canon := by
  unfold nextOr
  split
  · exact .of_next rfl ho
  · exact h
  · exact h

theorem State.Canon.dieWrite {d : Nat} {f : Die → Die} (h : s.Canon) : (s.dieWrite d f).Canon := by
  unfold State.dieWrite
  split
  · exact h.putDie
  · exact h

theorem State.Canon.lnkctlWrite {d e m v : Nat} (h : s.Canon) : (s.lnkctlWrite d e m v).Canon := by
  unfold State.lnkctlWrite
  dsimp only
  refine nextOr_canon ?_ ?_
  · split
    · refine nextOr_canon ?_ ?_
      · split
        · exact nextOr_canon h (execClr_canon h)
        · exact h
      · refine execWiden_canon ?_
        split
        · exact nextOr_canon h (execClr_canon h)
        · exact h
    · split
      · exact nextOr_canon h (execClr_canon h)
      · exact h
  · refine execLinkOff_canon ?_
    split
    · refine nextOr_canon ?_ ?_
      · split
        · exact nextOr_canon h (execClr_canon h)
        · exact h
      · refine execWiden_canon ?_
        split
        · exact nextOr_canon h (execClr_canon h)
        · exact h
    · split
      · exact nextOr_canon h (execClr_canon h)
      · exact h

theorem State.Canon.rtdataWrite {d v : Nat} (h : s.Canon) : (s.rtdataWrite d v).Canon := by
  unfold State.rtdataWrite
  dsimp only
  split
  · exact h
  · exact h

theorem State.Canon.setReg {r : BarReg} {v : Nat} (h : s.Canon) : (s.setReg r v).Canon := by
  unfold State.setReg
  split
  · exact h.partWrite
  · exact h.partWrite
  · exact nextOr_canon h (execQcfgWrite_canon h)
  · exact h.partWrite
  · exact h.partWrite
  · exact h.partWrite
  · exact h
  · exact nextOr_canon h (execPtrootWrite_canon h)
  · exact nextOr_canon h (execShbaseWrite_canon h)
  · exact nextOr_canon h (execShsizeWrite_canon h)
  · exact nextOr_canon h (execTlbinv_canon h)
  · exact h.partWrite
  · exact h
  · exact nextOr_canon h (execCluownWrite_canon h)
  · exact h.regWrite
  · exact nextOr_canon h (execBootgo_canon h)
  · exact h
  · exact h.regWrite
  · exact h.regWrite
  · exact nextOr_canon h (execAttcmdGo_canon h)
  · exact h
  · exact h.regWrite
  · exact nextOr_canon h (execAlarmpolWrite_canon h)
  · exact nextOr_canon h (execAlarmraise_canon h)
  · exact h
  · exact h
  · exact nextOr_canon h (execKsctlWrite_canon h)
  · exact nextOr_canon h (execKskey1Write_canon h)
  · exact nextOr_canon h (execKskey2Write_canon h)
  · exact h
  · exact h.lnkctlWrite
  · split
    · exact h.modLink
    · exact h
  · exact h
  · exact h
  · exact h.dieWrite
  · exact h.rtdataWrite
  · exact nextOr_canon h (execRtswap_canon h)
  · exact h
  · exact h
  · exact h
  · split
    · exact h.modPort
    · exact h
  · exact h
  · exact h.regWrite
  · exact nextOr_canon h (execModidWrite_canon h)
  · exact h.partWrite
  · exact nextOr_canon h (execOptltoWrite_canon h)
  · exact h.partWrite
  · exact nextOr_canon h (execWdctlReset_canon h)
  · exact h
  · exact h.dieWrite
  · exact h
  · exact h
  · split
    · exact nextOr_canon h (execTmsnapGo_canon h)
    · exact nextOr_canon h (execFrozenWrite_canon h)
  · exact h
  · exact h
  · exact h.regWrite
  · exact h

theorem State.Canon.regWrites {fuel off size v : Nat} (h : s.Canon) : (State.regWrites fuel off size v s).Canon := by
  induction fuel generalizing s off size v with
  | zero => exact h
  | succ fuel ih =>
    unfold State.regWrites
    split
    · exact h
    · split
      · exact ih h
      · exact ih h.setReg

theorem execRegisterWrite_canon {off size value : Nat} (h : s.Canon) : CanonNext (execRegisterWrite off size value s) := by
  unfold execRegisterWrite
  split
  · exact h.regWrites.toNext
  · exact h.toNext

/-! ## Machine/System -/

theorem execSgetScalar_canon {_c : Bool} {r d : Nat} (h : s.Canon) : CanonNext (execSgetScalar _c r d s) := by
  unfold execSgetScalar
  split
  · exact direct_canon h (fun _ _ h1 => h1.putPair)
  · exact direct_canon h (fun _ _ h2 => h2.putScal)

theorem execSgetVector_canon {_c : Bool} {r d : Nat} (h : s.Canon) : CanonNext (execSgetVector _c r d s) := by
  unfold execSgetVector
  split
  · exact direct_canon h (fun _ _ h1 => h1.putRow.putRow)
  · exact direct_canon h (fun _ _ h2 => h2.putRow)

theorem execSput_canon {_c : Bool} {r d : Nat} (h : s.Canon) : CanonNext (execSput _c r d s) := by
  unfold execSput
  dsimp only
  refine word_canon h fun _ _ h2 => .bind fun _ _ => ?_
  split
  · exact .error
  · exact h2.modG.adv.dropTimer.toOk

/-! ## Machine/Traps -/

theorem execTrapDeadlane_canon {team group : Nat} (h : s.Canon) : CanonNext (execTrapDeadlane team group s) := by
  unfold execTrapDeadlane
  split
  · split
    · exact h.tryEnter.toNext
    · exact h.toNext
  · exact h.toNext

/-! ## Machine/Dispatch -/

theorem exec_canon (i : Instr) (h : s.Canon) : CanonNext (exec i s) := by
  unfold exec
  cases i with
  | clause => exact execClause_canon h
  | nop => exact word_canon h (fun _ _ h0 => h0.adv.toOk)
  | sMovB32 | sNotB32 => exact scal1_canon h
  | sAddN32 | sSubN32 | sMulN32 | sMulhiN32 | sMulhiS32 | sAndB32 | sOrB32 | sXorB32 | sShlB32 | sShrN32 | sShrS32 | sMinN32
  | sMinS32 | sMaxN32 | sMaxS32 => exact scal2_canon h
  | sMovB64 | siMovB64 | siAddN64 => exact direct_canon h (fun _ _ h0 => h0.putPair)
  | sAddN64 | sSubN64 | sMulN64 | sAndB64 | sOrB64 | sXorB64 => exact long2_canon h
  | sShlB64 | sShrN64 | sShrS64 => exact longShift_canon h
  | siMovB32 | ballotB32 => exact direct_canon h (fun _ _ h0 => h0.putScal)
  | siAddN32 | siMulN32 | siAndB32 | siOrB32 | siXorB32 | siShlB32 | siShrN32 | siShrS32 => exact scalI_canon h
  | beq | bne | bltS32 | bgeS32 | bltN32 | bgeN32 => exact scalarBranch_canon h
  | vAddN32 | vSubN32 | vMulN32 | vMulhiN32 | vMulhiS32 | vAndB32 | vOrB32 | vXorB32 | vShlB32 | vShrN32 | vShrS32 | vMinN32
  | vMinS32 | vMaxN32 | vMaxS32 | vAddsatS32 => exact vec2_canon h
  | viAddN32 | viSubN32 | viMulN32 | viMulhiN32 | viMulhiS32 | viAndB32 | viOrB32 | viXorB32 | viShlB32 | viShrN32
  | viShrS32 | viMinN32 | viMinS32 | viMaxN32 | viMaxS32 => exact vecI_canon h
  | faddF32 | fsubF32 | fmulF32 | fminF32 | fmaxF32 | fcpsgnF32 | faddF16 | fsubF16 | fmulF16 | faddBf16 | fsubBf16
  | fmulBf16 | fminF16 | fmaxF16 | fminBf16 | fmaxBf16 => exact float2_canon h
  | fabsF32 | fnegF32 | rcpF32 | rsqrtF32 | sqrtF32 | exp2F32 | log2F32 | sinpiF32 | cospiF32 | tanhF32 | sigmF32
  | erfF32 => exact float1_canon h
  | fmaF32 | fnmaF32 | fmaF16 | fmaBf16 => exact float3_canon h
  | vcmpEq | vcmpNe | vcmpLt | vcmpLe | vcmpGt | vcmpGe => exact vcmp_canon h
  | pand | por | pxor | pnot => exact pred2_canon h
  | cvt => exact execCvt_canon h
  | vgetB32 => exact execVgetB32_canon h
  | vputB32 => exact execVputB32_canon h
  | xreadB32 => exact execXreadB32_canon h
  | xwriteB32 => exact execXwriteB32_canon h
  | shflIdxB32 | shflUpB32 | shflDownB32 | shflXorB32 => exact shuffle_canon h
  | voteAny | voteAll | ptestB32 => exact direct_canon h (fun _ _ h0 => h0.putPred)
  | pmovB32 => exact direct_canon h (fun _ _ h0 => h0.putRow)
  | ldB8 | ldB16 | ldB32 | ldB8Fa | ldB16Fa | ldB32Fa | ldB8Fb | ldB16Fb | ldB32Fb => exact loadRow_canon h
  | stB8 | stB16 | stB32 => exact storeRow_canon h
  | ldScalarAddress => exact execLdScalarAddress_canon h
  | stScalarAddress => exact execStScalarAddress_canon h
  | atomAddN32 | atomAddN64 | atomAddF32 | atomMinS32 | atomMinN32 | atomMaxS32 | atomMaxN32 | atomAndB32 | atomOrB32
  | atomXorB32 | atomXchgB32 | atomCasB32 | atomXchgB64 | atomCasB64 => exact atomic_canon h
  | swldB32 => exact execSwldB32_canon h
  | swstB32 => exact execSwstB32_canon h
  | swatomAddN32 => exact execSwatomAddN32_canon h
  | swatomCasB32 => exact execSwatomCasB32_canon h
  | swredAddN32 => exact execSwredAddN32_canon h
  | swredOrB32 => exact execSwredOrB32_canon h
  | swldB32Far => exact execSwldB32Far_canon h
  | swstB32Far => exact execSwstB32Far_canon h
  | swatomAddN32Far => exact execSwatomAddN32Far_canon h
  | swatomCasB32Far => exact execSwatomCasB32Far_canon h
  | swredAddN32Far => exact execSwredAddN32Far_canon h
  | swredOrB32Far => exact execSwredOrB32Far_canon h
  | exportSwatch => exact execExportSwatch_canon h
  | copyRows | copyCol | copyRowsX24 | copyOutTeam | copyOutClu | copyOutDie | copyOutMod | copyOutSys | copyOutC24Team
  | copyOutC24Clu | copyOutC24Die | copyOutC24Mod | copyOutC24Sys => exact copy_canon h
  | copySwatch => exact execCopySwatch_canon h
  | walk => exact execWalk_canon h
  | gather | scatter => exact gatherWord_canon h
  | shbind => exact execShbind_canon h
  | shbindOff => exact execShbindOff_canon h
  | arrive => exact word_canon h (fun _ _ h0 => .bind (fun _ _ => .bind (fun _ _ => h0.modBarrier.adv.toOk)))
  | binit => exact execBinit_canon h
  | bread => exact execBread_canon h
  | twait => exact execTwait_canon h
  | swap => exact execSwap_canon h
  | fence => exact word_canon h (fun _ _ h0 => .bind (fun _ _ => h0.fences.adv.toOk))
  | cbatch => exact execCbatch_canon h
  | waitb => exact waitBatch_canon h (fun _ _ _ h0 => h0)
  | waitbPred => exact waitBatch_canon h (fun _ _ _ h0 => h0.putPred)
  | bra => exact execBra_canon h
  | braU => exact execBraU_canon h
  | call =>
    exact word_canon h (fun _ _ h0 => .bind (fun _ _ => .bind (fun _ _ => .bind (fun _ _ => h0.putScal.gotoAll.toOk))))
  | ret => exact word_canon h (fun _ _ h0 => .bind (fun _ _ => .bind (fun _ _ => h0.gotoAll.toOk)))
  | exit => exact word_canon h (fun _ _ h0 => h0.parted.toOk)
  | mark => exact execMark_canon h
  | join => exact execJoin_canon h
  | brk => exact execBrk_canon h
  | regang => exact word_canon h (fun _ _ h0 => h0.modG.regangCheck.toOk)
  | sgetScalar => exact execSgetScalar_canon h
  | sgetVector => exact execSgetVector_canon h
  | sput => exact execSput_canon h
  | trap | trapRegisterHandler | trapKillService => exact trapWord_canon h
  | rte => exact execRte_canon h
  | inv => exact execInv_canon h
  | vredAddF32 | vredAddN32 | vredMinF32 | vredMaxF32 | vredMinS32 | vredMaxS32 | vredAndB32 | vredOrB32 =>
    exact reduce_canon h
  | vredLmF32 | vredLmBf16 => exact reduceLm_canon h
  | bump => exact execBump_canon h
  | appendB32 | appendB64 => exact append_canon h
  | enq | enqPred => exact enqueue_canon h
  | mnop => exact sword_canon h (fun _ => h.snext.toOk)
  | qmov | qadd | qsub | qmul | qand | qor | qshl | qshr => exact qword_canon h
  | qli => exact sword_canon h (fun _ => h.putQ.snext.toOk)
  | qlih => exact execQlih_canon h
  | qrd => exact execQrd_canon h
  | mwait => exact execMwait_canon h
  | marrive => exact execMarrive_canon h
  | mloop => exact execMloop_canon h
  | mkeep => exact execMkeep_canon h
  | mjmp => exact sword_canon h (fun _ => h.sgoto.toOk)
  | mend => exact sword_canon h (fun _ => h.snext.modStream.toOk)
  | mma => exact execMma_canon h
  | mzero => exact execMzero_canon h
  | mload => exact execMload_canon h
  | mstore => exact execMstore_canon h
  | macq => exact execMacq_canon h
  | mrel => exact execMrel_canon h
  | mmask => exact execMmask_canon h
  | cnop => exact cword_canon h (fun _ _ => h.putWalk)
  | cmov | cli | cadd | csub | cmul | cand | cor | caddi | cshli | cshri => exact calu_canon h
  | crd8 | crd16 | crd32 | crd64 => exact cread_canon h
  | cemit8 | cemit16 | cemit32 => exact cemit_canon h
  | cbeq | cbne | cblt | cbge | cjmp => exact cbranch_canon h
  | cend => exact cword_canon h (fun _ _ => h.walkEnds)
  | carderReadReturn => exact execCarderReadReturn_canon h
  | walkStepLimit => exact execWalkStepLimit_canon h
  | powerOn => exact execPowerOn_canon h
  | coreStart => exact execCoreStart_canon h
  | teamPlacement => exact execTeamPlacement_canon h
  | stealRequest => exact execStealRequest_canon h
  | teamRetirement => exact execTeamRetirement_canon h
  | trapEntry => exact h.tryEnter.toNext
  | timerMatch => exact h.dropTimer.takeTimer.toNext
  | twaitTimeout => exact execTwaitTimeout_canon h
  | softEvent => exact h.takeSoft.toNext
  | trapDeadlane => exact execTrapDeadlane_canon h
  | mirrorBuild => exact execMirrorBuild_canon h
  | codeFetchReturn => exact execCodeFetchReturn_canon h
  | translationWalk => exact execTranslationWalk_canon h
  | pseudoChannelRead => exact execPseudoChannelRead_canon h
  | pseudoChannelWrite => exact execPseudoChannelWrite_canon h
  | pseudoChannelAtomic => exact execPseudoChannelAtomic_canon h
  | writeAcknowledge => exact execWriteAcknowledge_canon h
  | prefetchIssue => exact execPrefetchIssue_canon h
  | loadSectorLanding => exact execLoadSectorLanding_canon h
  | atomicReplyLanding => exact execAtomicReplyLanding_canon h
  | copySectorLanding => exact execCopySectorLanding_canon h
  | copySectorFault => exact execCopySectorFault_canon h
  | gatherEngineRequest => exact execGatherEngineRequest_canon h
  | gatherReplyLanding => exact execGatherReplyLanding_canon h
  | scatterPositionApply => exact execScatterPositionApply_canon h
  | appendApply => exact execAppendApply_canon h
  | bumpApply => exact execBumpApply_canon h
  | outlierListRequest => exact execOutlierListRequest_canon h
  | outlierReply => exact execOutlierReply_canon h
  | swatchAccessArrival => exact execSwatchAccessArrival_canon h
  | swatchLanding => exact execSwatchLanding_canon h
  | swatchReplyLanding => exact execSwatchReplyLanding_canon h
  | swatchDeliveryArrival => exact execSwatchDeliveryArrival_canon h
  | swatchDeliveryLanded => exact execSwatchDeliveryLanded_canon h
  | mmaSegment => exact execMmaSegment_canon h
  | tileWordCompletion => exact execTileWordCompletion_canon h
  | macqGrant => exact execMacqGrant_canon h
  | macqDeadlockFail => exact execMacqDeadlockFail_canon h
  | arrayPowerGate => exact execArrayPowerGate_canon h
  | preemptionStop => exact execPreemptionStop_canon h
  | teamRestore => exact execTeamRestore_canon h
  | pendingScan => exact execPendingScan_canon h
  | headPoll => exact execHeadPoll_canon h
  | kernel => exact execKernel_canon h
  | cond => exact execCond_canon h
  | wait => exact execWait_canon h
  | tokenWaitSatisfied => exact execTokenWaitSatisfied_canon h
  | signal => exact execSignal_canon h
  | compact => exact execCompact_canon h
  | barrier => exact execBarrier_canon h
  | sliceExpiry => exact execSliceExpiry_canon h
  | enqRoomRetry => exact execEnqRoomRetry_canon h
  | watchdogExpiry => exact execWatchdogExpiry_canon h
  | resetComplete => exact execResetComplete_canon h
  | wdctlReset => exact execWdctlReset_canon h
  | hostAccess => exact execHostAccess_canon h
  | hostAtomicop => exact execHostAtomicop_canon h
  | hostCompletionError | completionTimeout => exact h.hostFails.toNext
  | primaryLinkDown | primaryLinkReturn => exact State.Canon.toNext h
  | registerWrite => exact execRegisterWrite_canon h
  | qcfgWrite => exact execQcfgWrite_canon h
  | ptrootWrite => exact execPtrootWrite_canon h
  | shbaseWrite => exact execShbaseWrite_canon h
  | shsizeWrite => exact execShsizeWrite_canon h
  | tlbinv => exact execTlbinv_canon h
  | tlbinvComplete => exact execTlbinvComplete_canon h
  | cluownWrite => exact execCluownWrite_canon h
  | ksctlWrite => exact h.keyWrite.toNext
  | kskey1Write => exact execKskey1Write_canon h
  | kskey2Write => exact execKskey2Write_canon h
  | bootgo => exact execBootgo_canon h
  | bootCheckComplete => exact execBootCheckComplete_canon h
  | attcmdGo => exact execAttcmdGo_canon h
  | attestationReportWritten => exact execAttestationReportWritten_canon h
  | alarmpolWrite => exact execAlarmpolWrite_canon h
  | alarmraise => exact execAlarmraise_canon h
  | alarmEvent => exact execAlarmEvent_canon h
  | modidWrite => exact execModidWrite_canon h
  | optltoWrite => exact execOptltoWrite_canon h
  | clr => exact execClr_canon h
  | widen => exact execWiden_canon h
  | linkOff => exact execLinkOff_canon h
  | flitSend => exact execFlitSend_canon h
  | dataFlitReceive => exact execDataFlitReceive_canon h
  | ackReceive => exact atEdge_canon h (fun _ => h.portAck) h.linkAck
  | nakReceive => exact atEdge_canon h (fun _ => h.portNak) h.linkNak
  | replayTimeout => exact execReplayTimeout_canon h
  | ackDelayExpiry => exact execAckDelayExpiry_canon h
  | retrainComplete => exact execRetrainComplete_canon h
  | edgeHoldExpiry => exact execEdgeHoldExpiry_canon h
  | rtswap => exact execRtswap_canon h
  | routeSwapComplete => exact execRouteSwapComplete_canon h
  | classSBlockReceive => exact execClassSBlockReceive_canon h
  | opticalPortDown => exact execOpticalPortDown_canon h
  | classLBlockArrival => exact execClassLBlockArrival_canon h
  | classLTimeout => exact execClassLTimeout_canon h
  | powerThrottle => exact execPowerThrottle_canon h
  | dieTemperature => exact execDieTemperature_canon h
  | ageingMeasurement => exact execAgeingMeasurement_canon h
  | tmsnapGo => exact execTmsnapGo_canon h
  | frozenWrite => exact execFrozenWrite_canon h
  | powerOff => exact execPowerOff_canon h
  | paletteSoftError => exact execPaletteSoftError_canon h
  | hbmUncorrectableError => exact execHbmUncorrectableError_canon h
  | invRound => exact execInvRound_canon h
  | flushingReadCompletion => exact execFlushingReadCompletion_canon h
  | opticalBlockSend => exact execOpticalBlockSend_canon h

/-! ## Machine/Chain -/

theorem chainStep_canon {c : Ctx} {acc : State × List Met} {w : ChainWord} (h : acc.1.Canon) : (chainStep c acc w).1.Canon := by
  unfold chainStep
  extract_lets s
  have hs : s.Canon := h.modG
  split
  · next e => exact .of_next e (exec_canon _ hs)
  · exact hs

theorem State.Canon.unchain (h : s.Canon) : (s.unchain).Canon := h

theorem State.Canon.askFirst {c : Ctx} {m : Met} {p : Probe} (h : s.Canon) : (s.askFirst c m p).Canon := by
  unfold State.askFirst
  extract_lets wait
  have hwait : ∀ x0, x0.Canon → (wait x0).Canon := by
    intro _ h1
    unfold wait
    exact h1.hold
  split
  · exact hwait _ h.request
  · exact hwait _ h
  · exact h

theorem State.Canon.chainTrap {c : Ctx} {r : TrapRec} {f : Option FaultRec} (h : s.Canon) : (s.chainTrap c r f).Canon := by
  unfold State.chainTrap
  dsimp only
  refine .tryEnter ?_
  refine .raise ?_
  split
  · exact h.leave.writeFault
  · exact h.leave

theorem State.Canon.offered {c : Ctx} {w : Wait} (h : s.Canon) : (s.offered c w).Canon := by
  unfold State.offered
  split
  · exact h.qentry
  · exact h

theorem State.Canon.chainHold {c : Ctx} {w : Wait} (h : s.Canon) : (s.chainHold c w).Canon := by
  unfold State.chainHold
  dsimp only
  exact h.modG

theorem State.Canon.endChain {s0 : State} {c : Ctx} {s1 : State} {met : List Met} (hs0 : s0.Canon) (hs1 : s1.Canon) :
    (State.endChain s0 c s1 met).Canon := by
  unfold State.endChain
  dsimp only
  split
  · split
    · exact hs0.askFirst.tryEnter
    · exact hs0.chainTrap
  · exact hs0.offered.chainHold.tryEnter
  · split
    · split
      · exact hs1.unchain.modG.raise.tryEnter
      · exact hs1.unchain.modG.modG.tryEnter
      · exact hs1.unchain.modG.tryEnter
    · exact hs0.askFirst.tryEnter
    · exact hs0.askFirst.tryEnter

theorem State.Canon.runChain {c : Ctx} {l : List ChainWord} (h : s.Canon) : (s.runChain c l).Canon := by
  unfold State.runChain
  dsimp only
  exact h.endChain (.foldl_fst (fun _ _ h0 => chainStep_canon h0) h)

/-! ## Machine/Run -/

theorem runStream_canon {o : StreamOp} (h : s.Canon) : CanonNext (runStream o s) := runStream_eq_exec o s ▸ exec_canon _ h

theorem runCarder_canon {o : CarderOp} (h : s.Canon) : CanonNext (runCarder o s) := runCarder_eq_exec o s ▸ exec_canon _ h

/-! ## Machine/Pick -/

theorem State.Canon.seated {x : Seat} (h : s.Canon) : (s.seated x).Canon := by
  unfold State.seated
  dsimp only
  exact h.modGroup

theorem State.Canon.countIssue {x : Seat} {core quad : Nat} (h : s.Canon) : (s.countIssue x core quad).Canon := by
  unfold State.countIssue
  dsimp only
  exact .firstIssue (.tmAdd (.tookUnit (.modGroup (.foldl (fun _ _ h0 => h0.modGroup) h))))

theorem after_canon {r : Host.Outcome State Fault Refusal} (h : s.Canon) (hr : CanonNext r) : (after s r).Canon := by
  unfold after
  split
  · exact .of_next rfl hr
  · exact h

theorem State.Canon.boundaryEvent {x : Seat} (h : s.Canon) : CanonSome (s.boundaryEvent x) := by
  unfold State.boundaryEvent
  dsimp only
  split
  · exact h.softAt.toSome
  · split
    · exact h.takeTimer.toSome
    · exact .none

theorem State.Canon.invCycle {x : Seat} {k : Nat} (h : s.Canon) : (s.invCycle x k).Canon := h.countIssue.modGroup

theorem State.Canon.streamWord {t : Team} {st : Stream} (h : s.Canon) : (s.streamWord t st).1.Canon := by
  unfold State.streamWord
  split
  · exact h.streamTrap
  · split
    · exact h.modStream
    · split
      · exact h.streamTrap
      · exact h

theorem State.Canon.runStreams {l : List (Team × Stream)} (h : s.Canon) : (s.runStreams l).Canon := by
  induction l generalizing s with
  | nil => exact h
  | cons x rest ih =>
    obtain ⟨t, st⟩ := x
    unfold State.runStreams
    extract_lets s1
    have h1 : s1.Canon := by
      unfold s1
      split
      · next e => exact .fst e h.streamWord
      · next e =>
        have h2 := State.Canon.fst e h.streamWord
        exact .of_with (after_canon h2 (runStream_canon h2))
    split
    · exact ih h1
    · exact h1.tookUnit.firstIssue

theorem State.Canon.walkReady {t : Team} {w : Walk} (h : s.Canon) : (s.walkReady t w).Canon := by
  unfold State.walkReady
  split
  · split
    · exact h.walkFill
    · exact h
  · exact h

theorem State.Canon.walkTurn {w : Walk} (h : s.Canon) : CanonSome (s.walkTurn w) := by
  unfold State.walkTurn
  split
  · exact .none
  · split
    · exact .none
    · split
      · split
        · exact h.walkReady.walkEnds.toSome
        · exact .none
      · split
        · split
          · split
            · exact .none
            · dsimp only
              exact State.Canon.toSome (after_canon h.walkReady (runCarder_canon h.walkReady))
          · exact .none
        · exact .none

theorem State.Canon.runCarders {cluster : Nat} (h : s.Canon) : (s.runCarders cluster).Canon := by
  unfold State.runCarders
  split
  · next t e => exact State.Canon.putCluster (State.Canon.of_with (.of_some e (.findSome? fun _ => h.walkTurn)))
  · exact h

/-! ## Machine/Time -/

theorem State.Canon.countCore {cycles core : Nat} (h : s.Canon) : (s.countCore cycles core).Canon := by
  unfold State.countCore
  dsimp only
  split
  · exact h.tmAdd.tmAdd.tmAdd
  · exact h.tmAdd.tmAdd

theorem State.Canon.dieAfter {ps d : Nat} (h : s.Canon) : (s.dieAfter ps d).Canon := by
  unfold State.dieAfter
  dsimp only
  split
  · exact h
  · exact h.putDie

theorem State.Canon.passes {dps : Nat} (h : s.Canon) : (s.passes dps).Canon := by
  unfold State.passes
  split
  · exact h
  · dsimp only
    exact .lapseTwaits (.endTwaits (.dropTimers (.foldl (fun _ _ h1 => h1.dieAfter) (.foldl (fun _ _ h2 => h2.countCore) h))))

/-! ## Machine/Rotate -/

theorem State.Canon.meet {x : Meeting} (h : s.Canon) : (s.meet x).Canon := by
  unfold State.meet
  dsimp only
  exact h

theorem State.Canon.rotating {a : Act} {f : State → Host.Outcome State Fault Refusal}
    (h : s.Canon) (hf : ∀ t, t.Canon → CanonNext (f t)) : CanonNext (s.rotating a f) := by
  unfold State.rotating
  split
  · next e0 =>
      dsimp only
      split
      · exact State.Canon.toNext (.foldl (fun _ _ h2 => h2.meet) (.of_next e0 (hf _ h)))
      · split
        · next e3 => exact State.Canon.toNext (.foldl (fun _ _ h4 => h4.meet) (.of_next e3 (hf _ h.passes)))
        · exact .fault
        · exact .refused
  · exact .fault
  · exact .refused

/-! ## Machine/Step -/

theorem State.Canon.awaits {a : Act} (h : s.Canon) : (s.awaits a).Canon := by
  unfold State.awaits
  split
  · exact h
  · exact h.passes

theorem State.Canon.turn (h : s.Canon) : (s.turn).Canon := by
  unfold State.turn
  split
  · exact h.passes
  · exact .awaits (.passes h)

theorem closed_canon {r : Host.Outcome State Fault Refusal} (h : CanonNext r) : CanonNext (closed r) := by
  cases r with
  | next t => exact State.Canon.toNext (.of_with (h t rfl))
  | fault _ => exact .fault
  | refused _ => exact .refused

/-- The states that a turn hands to what comes next. -/
def Plan.Canon (p : Plan) : Prop :=
  match p with
  | .done s => s.Canon
  | .word s _ => s.Canon
  | .chain s _ _ => s.Canon

/-! ## Machine/Pick -/

theorem State.Canon.planWord {x : Seat} {c : Ctx} {i : CodeItem} (h : s.Canon) : (s.planWord x c i).Canon := by
  unfold State.planWord
  split
  · exact after_canon h (h.finish .error)
  · exact h
  · exact h.countIssue
  · exact h.countIssue

theorem State.Canon.planSeat {x : Seat} (h : s.Canon) : (s.planSeat x).Canon := by
  unfold State.planSeat
  split
  · next e => exact State.Canon.of_some e h.boundaryEvent
  · split
    · exact h.invCycle
    · extract_lets s1
      have h1 : s1.Canon := h.seated
      split
      · exact h
      · split
        · exact after_canon h1 (h1.finish .error)
        · exact h1.planWord

theorem State.Canon.planIssue {core quad : Nat} (h : s.Canon) : (s.planIssue core quad).Canon := by
  unfold State.planIssue
  split
  · exact h
  · exact h.planSeat

/-! ## Machine/Step -/

theorem runPlan_canon {p : Plan} (h : p.Canon) : CanonNext (runPlan p) := by
  cases p with
  | done s => exact closed_canon (State.Canon.toNext h)
  | word s i => exact closed_canon (exec_canon i h)
  | chain s c l => exact closed_canon (State.Canon.runChain h).toNext

theorem heldBack_canon {i : Instr} {r : Host.Outcome State Fault Refusal} (h : s.Canon) (hr : CanonNext r) :
    CanonNext (heldBack s i r) := by
  cases r with
  | next t =>
    refine closed_canon (State.Canon.toNext ?_)
    split
    · exact h
    · exact hr t rfl
  | fault _ => exact .fault
  | refused _ => exact .refused

theorem perform_canon {a : Act} (h : s.Canon) : CanonNext (perform a s) := by
  unfold perform
  split
  · exact h.toNext
  · cases a with
    | issue core quad => exact runPlan_canon h.planIssue
    | seq core => exact closed_canon h.runStreams.toNext
    | carder cluster => exact closed_canon (h.rotating fun _ h1 => h1.runCarders.toNext)
    | event i => exact heldBack_canon h (h.rotating fun _ h1 => exec_canon i h1)
    | alarm source die part => exact closed_canon h.alarm.toNext

theorem settled_canon {r : Host.Outcome State Fault Refusal} (hr : CanonNext r) : CanonNext (settled r) := by
  cases r with
  | next t => exact (hr t rfl).regangs.endTwaits.toNext
  | fault _ => exact .fault
  | refused _ => exact .refused

theorem step_canon (h : s.Canon) : CanonNext (step s) := by
  unfold step
  split
  · exact h.turn.toNext
  · exact settled_canon (perform_canon h.turn)

end

/-- Settles O60: no operation of a step leaves the canonical form, by the lemmas above in the order of the model's operations. -/
theorem stepKeepsCanonical : Obligations.StepKeepsCanonical := by
  unfold Obligations.StepKeepsCanonical
  exact fun s t h e => State.Canon.of_next e (step_canon h)

end Sys2Proof.Machine
end

section
/-! SUPPORT. Exporting rows, R48, R49, R269, where nothing of R48 stands in its way. -/

namespace Sys2Proof.Machine

open Sys2Proof

/-- A check that has passed goes on. -/
theorem bind_eq_of_ok {α β : Type} {x : Except Stop α} {a : α} {f : α → Except Stop β} {r : Except Stop β} (hx : x = .ok a)
    (h : f a = r) : x >>= f = r := by rw [hx, ok_bind, h]

/-- A refusal that does not apply goes on. -/
theorem guard_eq_of_not {α : Type} {p : Prop} [Decidable p] {e : Stop} {f : Unit → Except Stop α} {r : Except Stop α} (hp : ¬p)
    (h : f () = r) : (if p then Except.error e >>= f else Except.ok () >>= f) = r := by rw [if_neg hp, ok_bind, h]

/-- Settles O25: with every check of R48 passed, the entry and the handle are what the word leaves. -/
theorem exportResults : Obligations.ExportResults := by
  unfold Obligations.ExportResults
  rintro s c k ix v f hi hv rfl hok hbar hr hrows hcount hlap hroom hlock e rfl
  obtain ⟨hbound, -, hpend, -⟩ := chk4 hr
  have hb {f : Unit → Except Stop State} {r : Except Stop State} (h : f () = r) :
      (if (exportForm v).hasb = true then c.chkBar (exportForm v).bn >>= f else Except.ok () >>= f) = r := by
    split
    · next hasb => rw [chkBar_ok (hbar hasb), ok_bind, h]
    · rw [ok_bind, h]
  have hl : ¬((exportForm v).dbl = true ∧ s.lockRoom c.t.core 1 = false) := by
    rintro ⟨hd, hn⟩
    simp [hlock hd] at hn
  rw [exec_exportSwatch]
  refine word_calm hi (refs_ready hi (us := []) rfl) ?_ (calm_adv (calm_putPair (calm_of_teams hi.calm ?_) ..) 1)
  · refine bind_eq_of_ok hv <| guard_eq_of_not (by simp [hok]) <| hb <| bind_eq_of_ok hbound <| guard_eq_of_not (by omega) <|
      guard_eq_of_not (by omega) <| guard_eq_of_not (by simp [hlap]) <| bind_eq_of_ok hpend <| guard_eq_of_not (by simp [hroom]) <|
      guard_eq_of_not hl ?_
    rfl
  · rfl

end Sys2Proof.Machine
end

section
/-! SUPPORT. Indexed rows and lane exchange, R248, R249, R363: the words whose indices are in bounds and whose touches are reachable. -/

namespace Sys2Proof.Machine

open Sys2Proof

section

variable {s : State} {c : Ctx} {d i w j : Nat}

/-- What a touch of a row reaches is that element. -/
theorem touched_idxLoc (w n l e : Nat) : c.touched ⟨l, idxLoc w n, e⟩ = c.elem (idxLoc w n) e := by
  unfold idxLoc
  split <;> rfl

theorem calm_putTouches {t : State} (h : t.calm c) (ts : List Touch) (f : Nat → Word) : (t.putTouches c ts f).calm c :=
  calm_of_teams h (putTouches_teams ..)

theorem vget_next (hi : s.issues c)
    (hb : ∀ l ∈ c.lanes, 0 ≤ c.idxRow i (sext 7 j) l ∧ c.idxRow i (sext 7 j) l < (c.idxLim w : Int))
    (hr : c.ready s [rdV i 0, wrV d] = true)
    (ht : ∀ l ∈ c.lanes, c.reachable s false ⟨l, idxLoc w (c.idxRow i (sext 7 j) l).toNat, l⟩ = true) (k : Bool) :
    exec (.vgetB32 k d i w j) s =
      .next ((s.putRow c d (fun l => (c.elem (idxLoc w (c.idxRow i (sext 7 j) l).toNat) l).val)).adv c 1) := by
  have hts : ∀ t ∈ c.ownTouches w i (sext 7 j), c.reachable s false t = true := by
    rw [own_eq hb]
    exact List.forall_mem_map.mpr ht
  have hrow : s.putRow c d (fun l => (c.touchVal (c.ownTouches w i (sext 7 j)) l).getD 0) =
      s.putRow c d (fun l => (c.elem (idxLoc w (c.idxRow i (sext 7 j) l).toNat) l).val) := by
    refine putRow_congr fun l hl => ?_
    unfold Ctx.ownTouches
    rw [touchVal_eq hl _ (fun k t e => by split at e <;> cases e; rfl), if_pos (hb l hl)]
    simp only [Option.map_some, Option.getD_some, touched_idxLoc]
  rw [exec_vgetB32]
  refine word_calm hi (touchRefs_sound hi hr hts) ?_ (calm_adv (calm_putRow hi.calm ..) 1)
  exact bind_eq_of_ok (chkIndexed_ok hr (by simp [rowBound_none hb]) hts) (by rw [hrow])

theorem vput_next (hi : s.issues c)
    (hb : ∀ l ∈ c.lanes, 0 ≤ c.idxRow i (sext 7 j) l ∧ c.idxRow i (sext 7 j) l < (c.idxLim w : Int))
    (hr : c.ready s [rdV i 0, rdV d 2] = true)
    (ht : ∀ l ∈ c.lanes, c.reachable s true ⟨l, idxLoc w (c.idxRow i (sext 7 j) l).toNat, l⟩ = true) (k : Bool) :
    exec (.vputB32 k d i w j) s =
      .next ((s.putTouches c (c.lanes.map (fun l => ⟨l, idxLoc w (c.idxRow i (sext 7 j) l).toNat, l⟩)) (c.vec d)).adv c 1) := by
  have hts : ∀ t ∈ c.ownTouches w i (sext 7 j), c.reachable s true t = true := by
    rw [own_eq hb]
    exact List.forall_mem_map.mpr ht
  rw [exec_vputB32]
  refine word_calm hi (refs_ready hi hr) ?_ (calm_adv (calm_putTouches hi.calm ..) 1)
  exact bind_eq_of_ok (chkIndexed_ok hr (by simp [rowBound_none hb]) hts) (by rw [own_eq hb])

/-- Of lanes whose indices are in bounds, each lane's touch of a cross-lane word. -/
theorem cross_lane (g : Group) (live : Bool) (hb : ∀ l ∈ c.lanes, (c.vec i l).toNat < c.idxLim w) {l : Nat} (hl : l ∈ c.lanes) :
    c.touchVal (c.crossTouches g w i j live) l = if live = false ∨ g.live (c.laneOf j l) = true then
      some (c.elem (idxLoc w (c.vec i l).toNat) (c.laneOf j l)).val else none := by
  unfold Ctx.crossTouches
  rw [touchVal_eq hl _ (fun k t e => by dsimp only at e; split at e <;> cases e; rfl)]
  simp only [hb l hl, true_and]
  split
  · rw [Option.map_some, touched_idxLoc]
  · rfl

/-- Every lane writes, live or not its source. -/
theorem cross_all (g : Group) (hb : ∀ l ∈ c.lanes, (c.vec i l).toNat < c.idxLim w) :
    c.crossTouches g w i j false = c.lanes.map (fun l => ⟨l, idxLoc w (c.vec i l).toNat, c.laneOf j l⟩) := by
  unfold Ctx.crossTouches
  rw [← List.filterMap_eq_map]
  refine List.filterMap_congr fun l hl => ?_
  simp [hb l hl]

/-- The touches of the lanes that are in bounds and whose source lives. -/
theorem mem_cross {g : Group} {t : Touch} (h : t ∈ c.crossTouches g w i j true) :
    ∃ l ∈ c.lanes, g.live (c.laneOf j l) = true ∧ t = ⟨l, idxLoc w (c.vec i l).toNat, c.laneOf j l⟩ := by
  obtain ⟨l, hl, ht⟩ := List.mem_filterMap.mp h
  dsimp only at ht
  split at ht
  · next hp =>
    cases ht
    exact ⟨l, hl, by simpa using hp.2, rfl⟩
  · cases ht

/-- In bounds: rows and lanes. -/
theorem crossBounds_none (hb : ∀ l ∈ c.lanes, (c.vec i l).toNat < c.idxLim w ∧ (c.vec j l).toNat < (if c.t.prot then 16 else 32))
    (wr : Bool) : ∀ x ∈ [c.rowBound wr w i 0, c.laneBound j], x = none := by
  have hrow : c.rowBound wr w i 0 = none := rowBound_none fun l hl => by
    have := (hb l hl).1
    unfold Ctx.idxRow
    omega
  simp [hrow, laneBound_none fun l hl => (hb l hl).2]

theorem xread_next (hi : s.issues c)
    (hb : ∀ l ∈ c.lanes, (c.vec i l).toNat < c.idxLim w ∧ (c.vec j l).toNat < (if c.t.prot then 16 else 32))
    (hr : c.ready s [rdV i 0, rdV j 1, wrV d] = true)
    (ht : ∀ l ∈ c.lanes, c.g.live (c.laneOf j l) = true →
      c.reachable s false ⟨l, idxLoc w (c.vec i l).toNat, c.laneOf j l⟩ = true) (k : Bool) :
    exec (.xreadB32 k d i w j) s =
      .next (((s.putRow c d (fun l => if c.g.live (c.laneOf j l) then (c.elem (idxLoc w (c.vec i l).toNat) (c.laneOf j l)).val
        else 0)).putPred c 6 (fun l => !c.g.live (c.laneOf j l))).adv c 1) := by
  have hts : ∀ t ∈ c.crossTouches c.g w i j true, c.reachable s false t = true := fun t h => by
    obtain ⟨l, hl, hlive, rfl⟩ := mem_cross h
    exact ht l hl hlive
  have hv {l : Nat} (hl : l ∈ c.lanes) := cross_lane (j := j) c.g true (fun l hl => (hb l hl).1) hl
  have hrow : s.putRow c d (fun l => (c.touchVal (c.crossTouches c.g w i j true) l).getD 0) =
      s.putRow c d (fun l => if c.g.live (c.laneOf j l) then (c.elem (idxLoc w (c.vec i l).toNat) (c.laneOf j l)).val else 0) := by
    refine putRow_congr fun l hl => ?_
    rw [hv hl]
    simp only [Bool.true_eq_false, false_or]
    split <;> rfl
  have hpred (t : State) : t.putPred c 6 (fun l => (c.touchVal (c.crossTouches c.g w i j true) l).isNone) =
      t.putPred c 6 (fun l => !c.g.live (c.laneOf j l)) := by
    refine putPred_congr fun l hl => ?_
    rw [hv hl]
    cases c.g.live (c.laneOf j l) <;> rfl
  rw [exec_xreadB32, execXreadB32]
  obtain ⟨g, hg, h0⟩ := calm_adv (calm_putPred (calm_putRow hi.calm d (fun l => if c.g.live (c.laneOf j l) then
    (c.elem (idxLoc w (c.vec i l).toNat) (c.laneOf j l)).val else 0)) 6 (fun l => !c.g.live (c.laneOf j l))) 1
  refine wordFrom_next (us := fun _ => [rdV i 0, rdV j 1, wrV d]) (more := fun c => c.touchRefs (c.crossTouches c.g w i j true)) hi
    (touchRefs_sound hi hr hts) ?_ hg h0
  exact bind_eq_of_ok (chkIndexed_ok hr (crossBounds_none hb false) hts) (by simp only [hrow, hpred])

theorem xwrite_next (hi : s.issues c)
    (hb : ∀ l ∈ c.lanes, (c.vec i l).toNat < c.idxLim w ∧ (c.vec j l).toNat < (if c.t.prot then 16 else 32))
    (hr : c.ready s [rdV i 0, rdV j 1, rdV d 2] = true)
    (ht : ∀ l ∈ c.lanes, c.reachable s true ⟨l, idxLoc w (c.vec i l).toNat, c.laneOf j l⟩ = true)
    (hij : c.agrees (fun l => (c.vec i l, c.vec j l)) = true) (hd : c.agrees (c.vec d) = true) (k : Bool) :
    exec (.xwriteB32 k d i w j) s =
      .next ((s.putTouches c (c.lanes.map (fun l => ⟨l, idxLoc w (c.vec i l).toNat, c.laneOf j l⟩)) (c.vec d)).adv c 1) := by
  have hall := cross_all (j := j) c.g fun l hl => (hb l hl).1
  have hts : ∀ t ∈ c.crossTouches c.g w i j false, c.reachable s true t = true := by
    rw [hall]
    exact List.forall_mem_map.mpr ht
  rw [exec_xwriteB32]
  refine word_calm hi (refs_ready hi hr) ?_ (calm_adv (calm_putTouches hi.calm ..) 1)
  refine bind_eq_of_ok (chkIndexed_ok hr (crossBounds_none hb true) hts) (bind_eq_of_ok (firstStop_ok ?_) (by rw [hall]))
  simp [shadow_none hij, shadow_none (f := fun l => c.vec d l) hd]

end

/-- Settles O6: each lane's touch is its own element of the row its index names. -/
theorem indexedRowResults : Obligations.IndexedRowResults := by
  unfold Obligations.IndexedRowResults
  exact fun s c k d i w j hi hb => ⟨fun hr ht => vget_next hi hb hr ht k, fun hr ht => vput_next hi hb hr ht k⟩

/-- Settles O7: a lane's touch is the lane it names, and none where that lane is dead. -/
theorem crossLaneResults : Obligations.CrossLaneResults := by
  unfold Obligations.CrossLaneResults
  exact fun s c k d i w j hi hb => ⟨fun hr ht => xread_next hi hb hr ht k, fun hr ht hij hd => xwrite_next hi hb hr ht hij hd k⟩

end Sys2Proof.Machine
end

section
/-! SUPPORT. The frame of the words that write only registers and predicates, put together from those of their writes. -/

namespace Sys2Proof.Machine

open Sys2Proof

section

variable {s t u : State} {c : Ctx}

/-! ## Writes to the Palette -/

/-- From `s` to `t` only elements under `keys` may change, and nothing else does. -/
def State.PalFrame (s t : State) (keys : Nat → Prop) : Prop :=
  t = { s with pal := t.pal } ∧ ∀ k, keys k ∨ sget Elem.blank t.pal k = sget Elem.blank s.pal k

theorem State.PalFrame.ownKey {keys : Nat → Prop} (h : s.PalFrame t keys) (core row lane k : Nat) :
    t.ownKey core row lane k = s.ownKey core row lane k := by
  rw [h.1]
  rfl

theorem State.PalFrame.scalKey {keys : Nat → Prop} (h : s.PalFrame t keys) (c : Ctx) (d k : Nat) : c.scalKey t d k = c.scalKey s d k :=
  h.ownKey ..

theorem State.PalFrame.rowKey {keys : Nat → Prop} (h : s.PalFrame t keys) (c : Ctx) (d k : Nat) : c.rowKey t d k = c.rowKey s d k := by
  unfold Ctx.rowKey
  simp only [h.ownKey]

theorem State.PalFrame.refl (s : State) (keys : Nat → Prop) : s.PalFrame s keys := ⟨rfl, fun _ => .inr rfl⟩

theorem State.PalFrame.mono {keys keys' : Nat → Prop} (h : s.PalFrame t keys) (hk : ∀ k, keys k → keys' k) : s.PalFrame t keys' :=
  ⟨h.1, fun k => (h.2 k).imp_left (hk k)⟩

theorem State.PalFrame.trans {keys : Nat → Prop} (h : s.PalFrame t keys) (h' : t.PalFrame u keys) : s.PalFrame u keys := by
  refine ⟨h'.1.trans (by rw [h.1]), fun k => ?_⟩
  rcases h'.2 k with hk | hk
  · exact .inl hk
  · exact (h.2 k).imp_right hk.trans

/-- An element is written under its key, and its mirror under the mirror's. -/
theorem State.putElem_frame (s : State) (core row lane : Nat) (e : Elem) :
    s.PalFrame (s.putElem core row lane e) (s.ownKey core row lane) := by
  unfold State.putElem
  dsimp only
  split
  · next m hm =>
    refine ⟨rfl, fun k => ?_⟩
    by_cases h1 : k = palKey core row lane
    · exact .inl (.inl h1)
    · by_cases h2 : k = palKey core m lane
      · exact .inl (.inr ⟨m, hm, h2⟩)
      · exact .inr ((sget_sset_other _ _ _ h2).trans (sget_sset_other _ _ _ h1))
  · refine ⟨rfl, fun k => ?_⟩
    by_cases h1 : k = palKey core row lane
    · exact .inl (.inl h1)
    · exact .inr (sget_sset_other _ _ _ h1)

/-- Writes one after another, each of which keeps to the keys. -/
theorem State.PalFrame.foldl {α : Type} {keys : Nat → Prop} {f : State → α → State} {l : List α} (h : s.PalFrame t keys)
    (hf : ∀ u, s.PalFrame u keys → ∀ a ∈ l, u.PalFrame (f u a) keys) : s.PalFrame (l.foldl f t) keys := by
  induction l generalizing t with
  | nil => exact h
  | cons a r ih => exact ih (h.trans (hf t h a (by simp))) fun u hu b hb => hf u hu b (by simp [hb])

theorem State.putScal_frame (s : State) (c : Ctx) (d : Nat) (v : Word) : s.PalFrame (s.putScal c d v) (c.scalKey s d) :=
  s.putElem_frame ..

theorem State.putPair_frame (s : State) (c : Ctx) (d v : Nat) : s.PalFrame (s.putPair c d v) (c.pairKey s d) := by
  have h1 := s.putScal_frame c d (BitVec.ofNat 32 v)
  have h2 := (s.putScal c d (BitVec.ofNat 32 v)).putScal_frame c (d + 1) (BitVec.ofNat 32 (v / 2 ^ 32))
  refine (h1.mono fun _ => .inl).trans (h2.mono fun k hk => .inr ?_)
  exact (h1.ownKey ..).mp hk

theorem State.putRow_frame (s : State) (c : Ctx) (d : Nat) (f : Nat → Word) : s.PalFrame (s.putRow c d f) (c.rowKey s d) :=
  (State.PalFrame.refl s _).foldl fun u hu l hl => (u.putElem_frame ..).mono fun _ hk => ⟨l, hl, (hu.ownKey ..).mp hk⟩

theorem State.putTouches_frame (s : State) (c : Ctx) (ts : List Touch) (f : Nat → Word) :
    s.PalFrame (s.putTouches c ts f) (c.touchKey s ts) :=
  (State.PalFrame.refl s _).foldl fun u hu x hx => (u.putElem_frame ..).mono fun _ hk => ⟨x, hx, (hu.ownKey ..).mp hk⟩

theorem State.putRed_frame (s : State) (c : Ctx) (bs d : Nat) (v : Word) : s.PalFrame (s.putRed c bs d v) (c.redKey s bs d) := by
  unfold State.putRed Ctx.redKey
  split
  · exact s.putRow_frame ..
  · exact s.putScal_frame ..

theorem State.putCvt_frame (s : State) (core row code pos l v : Nat) :
    s.PalFrame (s.putCvt core row code pos l v) (s.ownKey core row l) := by
  unfold State.putCvt
  split
  · exact s.putElem_frame ..
  · exact s.putElem_frame ..

/-! ## Writes to the group -/

theorem find_other {α : Type} (key : α → Nat) {l : List α} {id : Nat} {u : α} (hu : key u ≠ id) :
    (l.map (fun x => if key x == key u then u else x)).find? (fun x => key x == id) = l.find? (fun x => key x == id) := by
  induction l with
  | nil => rfl
  | cons a r ih =>
    by_cases ha : key a = key u
    · have hne : key a ≠ id := fun h => hu (ha.symm.trans h)
      simpa [ha, hu, hne] using ih
    · have : (key a == key u) = false := by simpa using ha
      rw [List.map_cons, this, List.find?_cons, List.find?_cons, ih]
      rfl

theorem State.team?_putTeam_other {a : Team} {n : Nat} (hn : a.id ≠ n) : (s.putTeam a).team? n = s.team? n :=
  find_other Team.id hn

theorem group?_putGroup_other {a : Team} {g : Group} {m : Nat} (hm : g.num ≠ m) : (a.putGroup g).group? m = a.group? m :=
  find_other Group.num hm

/-- What a word may change of its group: predicates, program counters of its slices, its candidates. -/
def Ctx.GroupFrame (c : Ctx) (g h : Group) (preds : Nat → Nat → Prop) : Prop :=
  h = { g with preds := h.preds, slices := h.slices, cands := h.cands } ∧ (∀ p l, preds p l ∨ h.pred p l = g.pred p l) ∧
    (∀ i, i ∉ c.sl → h.slice i = g.slice i) ∧ ∀ i, h.slice i = { g.slice i with pc := (h.slice i).pc }

theorem Ctx.GroupFrame.trans {g h k : Group} {preds preds' : Nat → Nat → Prop} (h1 : c.GroupFrame g h preds)
    (h2 : c.GroupFrame h k preds') : c.GroupFrame g k (fun p l => preds p l ∨ preds' p l) := by
  obtain ⟨e1, p1, o1, s1⟩ := h1
  obtain ⟨e2, p2, o2, s2⟩ := h2
  refine ⟨by rw [e2, e1], fun p l => ?_, fun i hi => (o2 i hi).trans (o1 i hi), fun i => by rw [s2, s1]⟩
  rcases p1 p l with hp | hp
  · exact .inl (.inl hp)
  · exact (p2 p l).imp .inr (fun e => e.trans hp)

theorem Group.slice_setPc (g : Group) (sl : List Nat) (pc : Pc) (i : Nat) :
    (g.setPc sl pc).slice i = if i < g.slices.length ∧ i ∈ sl then { g.slice i with pc := pc } else g.slice i := by
  unfold Group.setPc Group.slice
  rw [List.getD_eq_getElem?_getD, List.getElem?_mapIdx, List.getD_eq_getElem?_getD]
  by_cases hi : i < g.slices.length
  · by_cases hm : i ∈ sl
    · simp [hi, hm]
    · simp [hi, hm]
  · simp [hi]

theorem Group.complete_frame (c : Ctx) (g : Group) (pc : Pc) : c.GroupFrame g (g.complete c.sl pc) (fun _ _ => False) := by
  have hs (i : Nat) : (g.complete c.sl pc).slice i = _ := g.slice_setPc c.sl pc i
  refine ⟨rfl, fun _ _ => .inr rfl, fun i hi => ?_, fun i => ?_⟩
  · rw [hs, if_neg (by simp [hi])]
  · rw [hs]
    split
    · rfl
    · rfl

/-- The bits of a predicate row that are written are those of the lanes. -/
theorem getLsbD_setBits {lanes : List Nat} {f : Nat → Bool} {l : Nat} (hl : l ∉ lanes) (r : BitVec 32) :
    (lanes.foldl (fun a l => if f l then a ||| BitVec.ofNat 32 (2 ^ l) else a &&& ~~~ BitVec.ofNat 32 (2 ^ l)) r).getLsbD l =
      r.getLsbD l := by
  induction lanes generalizing r with
  | nil => rfl
  | cons a rest ih =>
    obtain ⟨hne, hrest⟩ : l ≠ a ∧ l ∉ rest := by simpa using hl
    have hbit : (BitVec.ofNat 32 (2 ^ a)).getLsbD l = false := by
      rw [BitVec.getLsbD_ofNat, Nat.testBit_two_pow]
      simp [Ne.symm hne]
    rw [List.foldl_cons, ih hrest]
    split
    · rw [BitVec.getLsbD_or, hbit, Bool.or_false]
    · rw [BitVec.getLsbD_and, BitVec.getLsbD_not, hbit]
      by_cases h32 : l < 32
      · simp [h32]
      · simp [BitVec.getLsbD_of_ge _ _ (Nat.le_of_not_lt h32)]

theorem Group.setPred_pred (g : Group) (d : Nat) (lanes : List Nat) (f : Nat → Bool) {p l : Nat} (h : p = d → l ∉ lanes) :
    (g.setPred d lanes f).pred p l = g.pred p l := by
  unfold Group.pred Group.setPred
  rw [List.getD_eq_getElem?_getD, List.getElem?_modify, List.getD_eq_getElem?_getD]
  cases g.preds[p]? with
  | none => rfl
  | some r =>
    by_cases hp : d = p
    · simp only [hp, if_true, Option.map_eq_map, Option.map_some, Option.getD_some, getLsbD_setBits (h hp.symm)]
    · simp [hp]

theorem Group.setPred_frame (c : Ctx) (g : Group) (d : Nat) (f : Nat → Bool) :
    c.GroupFrame g (g.setPred d c.lanes f) (fun p l => p = d ∧ l ∈ c.lanes) := by
  refine ⟨rfl, fun p l => ?_, fun _ _ => rfl, fun _ => rfl⟩
  by_cases h : p = d ∧ l ∈ c.lanes
  · exact .inl h
  · exact .inr (g.setPred_pred d c.lanes f fun hp hl => h ⟨hp, hl⟩)

/-! ## The frame of a word -/

theorem State.PalFrame.teams {keys : Nat → Prop} (h : s.PalFrame t keys) : t.teams = s.teams := by rw [h.1]

theorem State.PalFrame.wordFrame {keys : Nat → Prop} (h : s.PalFrame t keys) (hi : s.issues c) :
    WordFrame s t c keys (fun _ _ => False) := by
  obtain ⟨hteam, hgroup, -, -⟩ := hi.group
  obtain ⟨he, hk⟩ := h
  have ht (n : Nat) : t.team? n = s.team? n := by rw [he]; rfl
  refine ⟨?_, ?_, hk, fun n _ => ht n, c.t, c.g, (ht _).trans hteam, rfl, fun _ _ => rfl, hgroup, rfl, fun _ _ => .inr rfl,
    fun _ _ => rfl, fun _ => rfl⟩
  · rw [he]
  · rw [he]
    exact fun _ _ => rfl

/-- A change of the group, after what the word has written. -/
theorem WordFrame.modG {keys : Nat → Prop} {preds preds' : Nat → Nat → Prop} {f : Group → Group} (h : WordFrame s t c keys preds)
    (hf : ∀ g, c.GroupFrame g (f g) preds') : WordFrame s (t.modG c f) c keys (fun p l => preds p l ∨ preds' p l) := by
  obtain ⟨he, hmem, hk, hother, u, g, hu, hut, hug, hg, hgt, hp, ho, hs⟩ := h
  obtain ⟨fe, fp, fo, fs⟩ := Ctx.GroupFrame.trans ⟨hgt, hp, ho, hs⟩ (hf g)
  have hid : (u.putGroup (f g)).id = c.t.id := by rw [Team.putGroup_id, hut]
  have hnum : (f g).num = c.g.num := by rw [fe]
  have hmod : t.modG c f = t.putTeam (u.putGroup (f g)) := by
    simp only [State.modG, State.modGroup, State.group?, hu, hg, Option.bind_some, State.putGroup]
  rw [hmod]
  refine ⟨?_, ?_, hk, fun n hn => (State.team?_putTeam_other (hid.trans_ne hn.symm)).trans (hother n hn), u.putGroup (f g), f g,
    State.team?_putTeam hu hid, ?_, fun m hm => (group?_putGroup_other (hnum.trans_ne hm.symm)).trans (hug m hm),
    group?_putGroup hg hnum, fe, fp, fo, fs⟩
  · unfold State.putTeam
    rw [he]
  · exact hmem
  · unfold Team.putGroup
    rw [hut]

theorem WordFrame.adv {keys : Nat → Prop} {preds : Nat → Nat → Prop} (h : WordFrame s t c keys preds) (k : Nat) :
    WordFrame s (t.adv c k) c keys preds := by
  have := h.modG (f := fun g => g.complete c.sl (c.pc.add k)) fun g => g.complete_frame c (c.pc.add k)
  simp only [or_false] at this
  exact this

theorem WordFrame.putPred {keys : Nat → Prop} (h : WordFrame s t c keys (fun _ _ => False)) (d : Nat) (f : Nat → Bool) :
    WordFrame s (t.putPred c d f) c keys (fun p l => p = d ∧ l ∈ c.lanes) := by
  have := h.modG (f := fun g => g.setPred d c.lanes f) fun g => g.setPred_frame c d f
  simp only [false_or] at this
  exact this

end

end Sys2Proof.Machine
end

section
/-! SUPPORT. The frames of the words, by the way they answer. -/

namespace Sys2Proof.Machine

open Sys2Proof

section

variable {s t : State} {c : Ctx}

/-- A direct word that writes only the Palette. -/
theorem direct_frame (hi : s.issues c) {us : List Use} {k : Nat} {act : Ctx → State → State} {keys : Nat → Prop}
    (hr : c.ready s us = true) (h : s.PalFrame (act c s) keys) :
    ∃ u, direct s us k act = .next u ∧ WordFrame s u c keys (fun _ _ => False) :=
  ⟨_, direct_write hi hr h.teams, (h.wordFrame hi).adv k⟩

/-- A direct word that writes a predicate. -/
theorem directPred_frame (hi : s.issues c) {us : List Use} {p k : Nat} (hr : c.ready s us = true) (v : Ctx → Nat → Bool) :
    ∃ u, direct s us k (fun c s => s.putPred c p (v c)) = .next u ∧
      WordFrame s u c (fun _ => False) (fun q l => q = p ∧ l ∈ c.lanes) :=
  ⟨_, directPred_next hi hr v, (((State.PalFrame.refl s _).wordFrame hi).putPred p (v c)).adv k⟩

/-- Direct words that write a scalar, a pair or a row of the context. -/
theorem directScal_frame (hi : s.issues c) {us : List Use} {d k : Nat} (hr : c.ready s us = true) (v : Ctx → Word) :
    ∃ u, direct s us k (fun c s => s.putScal c d (v c)) = .next u ∧ WordFrame s u c (c.scalKey s d) (fun _ _ => False) :=
  direct_frame hi hr (s.putScal_frame ..)

theorem directPair_frame (hi : s.issues c) {us : List Use} {d k : Nat} (hr : c.ready s us = true) (v : Ctx → Nat) :
    ∃ u, direct s us k (fun c s => s.putPair c d (v c)) = .next u ∧ WordFrame s u c (c.pairKey s d) (fun _ _ => False) :=
  direct_frame hi hr (s.putPair_frame ..)

theorem directRow_frame (hi : s.issues c) {us : List Use} {d k : Nat} (hr : c.ready s us = true) (v : Ctx → Nat → Word) :
    ∃ u, direct s us k (fun c s => s.putRow c d (v c)) = .next u ∧ WordFrame s u c (c.rowKey s d) (fun _ _ => False) :=
  direct_frame hi hr (s.putRow_frame ..)

theorem directRed_frame (hi : s.issues c) {us : List Use} {bs d k : Nat} (hr : c.ready s us = true) (v : Ctx → Word) :
    ∃ u, direct s us k (fun c s => s.putRed c bs d (v c)) = .next u ∧ WordFrame s u c (c.redKey s bs d) (fun _ _ => False) :=
  direct_frame hi hr (s.putRed_frame ..)

/-- A shuffle whose distance is legal, whose lanes are in bounds and whose touches are reachable. -/
theorem shuffle_frame (hi : s.issues c) {d i : Nat} {idx : List Use} {src : Ctx → Nat → Int}
    {illegal bounds : Ctx → List (Option Stop)} (hr : c.ready s (⟨.v i, 0, false, false⟩ :: idx ++ [wrV d]) = true)
    (hill : ∀ x ∈ illegal c, x = none) (hb : ∀ x ∈ bounds c, x = none)
    (hedge : ∀ l ∈ c.lanes, (src c l < 0 ∨ 31 < src c l) → c.reachable s false ⟨l, .v i, l⟩ = true)
    (hlive : ∀ l ∈ c.lanes, ¬(src c l < 0 ∨ 31 < src c l) → c.g.live (src c l).toNat = true →
      c.reachable s false ⟨l, .v i, (src c l).toNat⟩ = true) :
    ∃ u, shuffle s d i idx src illegal bounds = .next u ∧ WordFrame s u c (c.rowKey s d) (fun q l => q = 6 ∧ l ∈ c.lanes) := by
  have hts : ∀ t ∈ c.shflTouches c.g i (src c), c.reachable s false t = true := fun t ht => by
    obtain ⟨l, hl, h⟩ := List.mem_filterMap.mp ht
    split at h
    · next he => cases h; exact hedge l hl he
    · next he =>
      split at h
      · next hv => cases h; exact hlive l hl he hv
      · cases h
  obtain ⟨g, hg, h0⟩ := calm_adv (calm_putPred (calm_putRow hi.calm d fun l => (c.touchVal (c.shflTouches c.g i (src c)) l).getD 0)
    6 fun l => (c.touchVal (c.shflTouches c.g i (src c)) l).isNone) 1
  unfold shuffle
  refine ⟨_, wordFrom_next hi (touchRefs_sound hi hr hts) ?_ hg h0, (((s.putRow_frame ..).wordFrame hi).putPred 6 _).adv 1⟩
  exact bind_eq_of_ok (firstStop_ok hill) (bind_eq_of_ok (chkIndexed_ok hr hb hts) rfl)

theorem distOk_none {j : Nat} (h : c.t.prot = true → j < 16) : ∀ x ∈ c.distOk j, x = none := by
  have : ¬(c.t.prot = true ∧ 16 ≤ j) := fun ⟨hp, hj⟩ => absurd (h hp) (by omega)
  simp [Ctx.distOk, this]

theorem chkPend_ok {us : List Use} (h : ∀ u ∈ us, c.settled s u.loc = true) : c.chkPend s us = .ok () :=
  firstStop_ok (List.forall_mem_map.mpr fun u hu => Ctx.pend_none (h u hu))

theorem chkLock_ok {us : List Use} (h : ∀ u ∈ us, c.unlocked s u = true) : c.chkLock s us = .ok () :=
  firstStop_ok (List.forall_mem_map.mpr fun u hu => Ctx.locked_none (h u hu))

/-- A loss-masked sum, which reads A only where the mask has a 1. -/
theorem reduceLm_frame (hi : s.issues c) {d a bs m : Nat} {res : Ctx → Nat}
    (hr : c.ready s [⟨.v a, 0, false, false⟩, rdS m 1, redDst bs d, redDst bs (d + 1)] = true) (hd : bs = 0 → d ≠ 127)
    (hv : ∀ l ∈ c.lanes, (c.scal m).getLsbD l = true → (c.elem (.v a) l).good = true) (hl : c.unlocked s (rdV a 0) = true) :
    ∃ u, reduceLm s d a bs m res = .next u ∧
      WordFrame s u c (fun y => c.redKey s bs d y ∨ c.redKey s bs (d + 1) y) (fun _ _ => False) := by
  have hgood (l : Nat) (h : l ∈ c.lmLanes m) : (c.elem (.v a) l).good = true := by
    obtain ⟨h1, h2⟩ := List.mem_filter.mp h
    exact hv l h1 h2
  have hus := Ctx.ready_iff.mp hr
  have hrd : ∀ u ∈ (if (c.lmLanes m).isEmpty then [⟨.v a, 0, false, false⟩, rdS m 1, redDst bs d, redDst bs (d + 1)]
      else [rdV a 0, ⟨.v a, 0, false, false⟩, rdS m 1, redDst bs d, redDst bs (d + 1)]),
      c.settled s u.loc = true ∧ c.unlocked s u = true := by
    have hin := fun u hu => (hus u hu).2.2
    split
    · exact hin
    · exact List.forall_mem_cons.mpr ⟨⟨(hin _ (List.mem_cons_self ..)).1, hl⟩, hin⟩
  have hframe : s.PalFrame ((s.putRed c bs d (BitVec.ofNat 32 (res c))).putRed c bs (d + 1)
      (BitVec.ofNat 32 (c.lmParts m).length)) (fun y => c.redKey s bs d y ∨ c.redKey s bs (d + 1) y) := by
    have h1 := s.putRed_frame c bs d (BitVec.ofNat 32 (res c))
    refine (h1.mono fun _ => .inl).trans ((State.putRed_frame ..).mono fun k hk => .inr ?_)
    rwa [Ctx.redKey, h1.rowKey, h1.scalKey] at hk
  unfold reduceLm
  refine ⟨_, word_calm hi ?_ ?_ (calm_adv (calm_of_teams hi.calm hframe.teams) 1), (hframe.wordFrame hi).adv 1⟩
  · intro r hm
    rcases List.mem_append.mp hm with hm | hm
    · exact Ctx.refs_sound hi.group.2.2.2 hr r hm
    · obtain ⟨l, hl, rfl⟩ := List.mem_map.mp hm
      simpa [Ctx.elem, Ctx.rowOf, hi.group.2.2.2] using (Elem.good_iff.mp (hgood l hl)).1
  · have hbad : (c.lmLanes m).filter (fun l => !(c.elem (.v a) l).valid) = [] :=
      List.filter_eq_nil_iff.mpr fun l h => by simp [(Elem.good_iff.mp (hgood l h)).2]
    have hm : c.uninit (rdS m 1) = none := Ctx.uninit_none (hus _ (by simp)).2.1
    refine bind_eq_of_ok (firstStop_ok ?_) <| bind_eq_of_ok (chk4 hr).1 <| bind_eq_of_ok (firstStop_ok ?_) <|
      bind_eq_of_ok (chkPend_ok fun u hu => (hrd u hu).1) <| bind_eq_of_ok (chkLock_ok fun u hu => (hrd u hu).2) rfl
    · simpa using hd
    · simp [hbad, hm]

/-- A conversion none of whose lanes meets an outlier. -/
theorem cvt_frame (hi : s.issues c) {src dst rnd : Nat} {y : Option Nat} {d a : Nat}
    (hr : c.ready s ((cvtForm src dst rnd y).uses d a) = true) (hn : s.answerOf c (fun q => decide (q = .olist)) = none)
    (ho : ∀ l ∈ c.lanes, c.cvtLane (cvtForm src dst rnd y) a l ≠ .outlier) (k : Bool) :
    ∃ u, exec (.cvt k src dst rnd y d a) s = .next u ∧ WordFrame s u c (c.rowKey s d) (fun _ _ => False) := by
  have hframe : s.PalFrame (((c.lanes.map (fun l => (l, c.cvtLane (cvtForm src dst rnd y) a l))).map (fun e => (e.1, e.2.written))).foldl
      (fun s e => s.putCvt c.t.core (c.g.vecRow d) dst (cvtForm src dst rnd y).pos e.1 e.2) s) (c.rowKey s d) := by
    refine (State.PalFrame.refl s _).foldl fun u hu e he => (u.putCvt_frame ..).mono fun k hk => ⟨e.1, ?_, (hu.ownKey ..).mp hk⟩
    simp only [List.map_map, List.mem_map] at he
    obtain ⟨l, hl, rfl⟩ := he
    exact hl
  have houts : ((c.lanes.map (fun l => (l, c.cvtLane (cvtForm src dst rnd y) a l))).filter (fun e => decide (e.2 = .outlier))).map
      (fun e => e.1) = [] := by
    simpa [List.filter_eq_nil_iff] using ho
  rw [exec_cvt]
  unfold execCvt
  refine ⟨_, word_calm hi (refs_ready hi hr) ?_ (calm_adv (calm_of_teams hi.calm hframe.teams) (if y.isSome then 2 else 1)),
    (hframe.wordFrame hi).adv (if y.isSome then 2 else 1)⟩
  rw [hn]
  refine bind_eq_of_ok (Ctx.check_ok hr) ?_
  dsimp only
  rw [if_pos (by rw [houts]; rfl)]

end

/-- Settles O51: each word answers in one of the ways above, and its writes keep to its destination. -/
theorem registerFrames : Obligations.RegisterFrames := by
  unfold Obligations.RegisterFrames
  rintro s c k t p d a bs b w x j i none_ hi rfl
  refine ⟨?scal2, ?scal1, ?mov64, ?long2, ?shift64, ?scalI, ?scalFresh, ?immMov64, ?immAdd64, ?vec2, ?float3, ?vec1, ?vcmp, ?preds,
    ?pmov, ?ptest, fun hb => ⟨fun hr ht => ?vget, ?vput⟩, fun hb => ⟨fun hr ht => ?xread, ?xwrite⟩, ?shuffles, ?reds, ?lms, ?cvt⟩
  case scal2 | scal1 | scalI | scalFresh =>
    intro hr e he
    fin_cases he
    all_goals exact directScal_frame hi hr _
  case mov64 | immMov64 | immAdd64 => exact fun hr => directPair_frame hi hr _
  case long2 | shift64 =>
    intro hr e he
    fin_cases he
    all_goals exact directPair_frame hi hr _
  case vec2 | float3 | vec1 =>
    intro hr e he
    fin_cases he
    all_goals exact directRow_frame hi hr _
  case vcmp =>
    intro hr e he
    fin_cases he
    all_goals exact directPred_frame hi hr _
  case preds =>
    intro e he
    fin_cases he
    all_goals exact directPred_frame hi (us := []) rfl _
  case pmov => exact fun hr => directRow_frame hi hr _
  case ptest => exact fun hr => directPred_frame hi hr _
  case vget => exact ⟨_, vget_next hi hb hr ht k, ((s.putRow_frame ..).wordFrame hi).adv 1⟩
  case vput =>
    rintro hr ts rfl ht
    exact ⟨_, vput_next hi hb hr (by simpa using ht) k, ((s.putTouches_frame ..).wordFrame hi).adv 1⟩
  case xread => exact ⟨_, xread_next hi hb hr ht k, (((s.putRow_frame ..).wordFrame hi).putPred 6 _).adv 1⟩
  case xwrite =>
    rintro hr hij hd ts rfl ht
    exact ⟨_, xwrite_next hi hb hr (by simpa using ht) hij hd k, ((s.putTouches_frame ..).wordFrame hi).adv 1⟩
  case shuffles =>
    intro hr e he hidx hdist hedge hlive
    fin_cases he
    · obtain ⟨hj, hlane⟩ := hidx rfl
      have hrj : c.ready s [⟨.v x, 0, false, false⟩, rdV j 1, wrV d] = true := by
        simp only [Ctx.ready, List.all_cons, Bool.and_eq_true] at hr hj ⊢
        exact ⟨hr.1, hj.1, hr.2⟩
      exact shuffle_frame (idx := [rdV j 1]) hi hrj nofun (by simpa using laneBound_none hlane) hedge hlive
    all_goals exact shuffle_frame (idx := []) hi hr (distOk_none (hdist rfl)) nofun hedge hlive
  case reds =>
    intro hr e he
    fin_cases he
    all_goals exact directRed_frame hi hr _
  case lms =>
    intro hr hd hv hl e he
    fin_cases he
    all_goals exact reduceLm_frame hi hr hd hv hl
  case cvt => exact fun src dst rnd y hr hn ho => cvt_frame hi hr hn ho k

end Sys2Proof.Machine
end

section
/-! SUPPORT. The arrivals and landings of swatch accesses and of deliveries, R51, R88, R89, R113, R268. -/

namespace Sys2Proof.Machine

open Sys2Proof

section

variable {s : State} {r : SwReq} {n i : Nat}

/-- R51: what an access meets at its home die. -/
theorem State.swCode_eq (s : State) (r : SwReq) :
    s.swCode r = s.swDecide r.handle r.row 1 r.team r.core (r.op = .st) r.op.isAtom := rfl

/-- An access with no partner is turned away by itself. -/
theorem State.swTurned_alone (h : s.partner r.team r.group r.id = .none) (code : Nat) : s.swTurned r code = s.swRefuse r code := by
  unfold State.swTurned State.unlessPartner
  rw [h]
  split
  · rfl
  · rfl

/-- An access of its own with no partner takes effect by itself. -/
theorem State.swPasses_alone (hp : r.probe = .none) (h : s.partner r.team r.group r.id = .none) (act : State → State) :
    s.swPasses r act = act s := by
  unfold State.swPasses State.withPartner
  rw [hp, h]
  dsimp only
  split
  · rfl
  · rfl

/-- An access whose turn it is at its home die (R109). -/
structure State.SwTurn (s : State) (n : Nat) (r : SwReq) : Prop where
  found : s.swreq? n = some r
  first : r.stage = 0
  room : s.flagRoom r = true
  here : r.module = s.regs.modid
  way : s.swWay r = .go
  own : r.probe = .none
  alone : (s.swCarry r).partner r.team r.group r.id = .none

theorem execSwatchAccessArrival_stale (h : s.SwTurn n r) (hf : s.swFind r.handle = none) :
    execSwatchAccessArrival n s = .next ((s.swCarry r).swRefuse r (s.swCode r)) := by
  obtain ⟨hfound, hfirst, hroom, hhere, hway, -, halone⟩ := h
  simp only [execSwatchAccessArrival, hfound, hfirst, hroom, hhere, hway, hf, State.swTurned_alone halone]
  simp

theorem execSwatchAccessArrival_refused {e : SwEntry} (h : s.SwTurn n r) (hf : s.swFind r.handle = some e) (hk : s.swCode r ≠ 0) :
    execSwatchAccessArrival n s = .next ((s.swCarry r).swRefuse r (s.swCode r)) := by
  obtain ⟨hfound, hfirst, hroom, hhere, hway, -, halone⟩ := h
  simp only [execSwatchAccessArrival, hfound, hfirst, hroom, hhere, hway, hf, State.swTurned_alone halone]
  simp [hk]

theorem execSwatchAccessArrival_accepted {e : SwEntry} (h : s.SwTurn n r) (hf : s.swFind r.handle = some e) (hk : s.swCode r = 0)
    (hready : s.swReady r = true) : execSwatchAccessArrival n s = .next ((s.swCarry r).swAccept r
      (if r.op.reads then (s.swCarry r).swPerform r e else (s.swCarry r, []))) := by
  obtain ⟨hfound, hfirst, hroom, hhere, hway, hown, halone⟩ := h
  simp only [execSwatchAccessArrival, hfound, hfirst, hroom, hhere, hway, hf, State.swPasses_alone hown halone]
  simp [hk, hready]

theorem State.swReady_of {e : SwEntry} (hf : s.swFind r.handle = some e)
    (h : r.op.reads = true → s.swBehind r = false ∧ (r.op.isAtom = true → s.swReleased r e.scope = true)) : s.swReady r = true := by
  unfold State.swReady
  rw [hf]
  cases hr : r.op.reads with
  | false => rfl
  | true =>
    obtain ⟨hb, ha⟩ := h hr
    cases hatom : r.op.isAtom with
    | false => simp [hb]
    | true => simp [hb, ha hatom]

theorem execSwatchLanding_lands {e : SwEntry} (h : s.swreq? n = some r) (hs : r.stage = 1) (hw : r.op.reads = false)
    (hb : s.swBehind r = false) (hm : r.module = s.regs.modid) (hf : s.swFind r.handle = some e)
    (hrel : s.swReleased r e.scope = true) : execSwatchLanding n s =
      .next (((s.swPerform r e).1.dropSwreq r.id).modBar r.team r.bar (fun b => b.leave 4)) := by
  simp only [execSwatchLanding, h, hs, hw, hb, hf, hm, hrel, ne_eq, not_true_eq_false, Bool.false_eq_true, Bool.true_eq_false,
    or_self, if_false, if_true]

theorem execSwatchReplyLanding_lands {g : Group} (h : s.swreq? n = some r) (hs : r.stage = 2) (hr : r.op.reads = true)
    (hg : s.group? r.team r.group = some g) : ∀ u, u = ((r.replies.filter (fun (e : Nat × Elem) => e.2.valid)).foldl
          (fun (s : State) (e : Nat × Elem) => s.putElem r.core (g.vecRow r.dst) e.1 (Elem.of e.2.val)) s) →
      ∀ v, v = (u.lanesDie r.team r.group ((r.replies.filter (fun e => decide (e.2.ecc = .uncorrectable))).map
          (fun e => e.1))).lowerFlag r.team r.group r.flag →
    execSwatchReplyLanding n s =
      .next ((if r.op.isAtom then v.modBar r.team r.bar (fun b => b.leave 4) else v).dropSwreq r.id) := by
  rintro u rfl v rfl
  simp only [execSwatchReplyLanding, h, hs, hr, hg, ne_eq, not_true_eq_false, Bool.true_eq_false, or_self, if_false]

end

/-- Settles O38: each event by what it does where nothing holds it. -/
theorem swatchEvents : Obligations.SwatchEvents := by
  unfold Obligations.SwatchEvents
  intro s q i r o d t
  refine ⟨?arrival, ?landing, ?reply, ?delivery, ?delivered⟩
  case arrival =>
    rintro hfound hfirst hroom hhere hway hown u rfl halone k rfl
    have h : s.SwTurn q r := ⟨hfound, hfirst, hroom, hhere, hway, hown, halone⟩
    refine ⟨fun hf => execSwatchAccessArrival_stale h hf, fun e hf hk => ?_⟩
    rw [exec_swatchAccessArrival, ← State.swCode_eq] at *
    split
    · next hne => exact execSwatchAccessArrival_refused h hf hne
    · next heq => exact execSwatchAccessArrival_accepted h hf (not_not.mp heq) (State.swReady_of hf fun hr => hk hr (not_not.mp heq))
  case landing => exact fun h hs hw hb hm e hf hrel => execSwatchLanding_lands h hs hw hb hm hf hrel
  case reply => exact fun h hs hr g hg => execSwatchReplyLanding_lands h hs hr hg
  case delivery =>
    rintro h hs hl hready hm hlost hdead hheld u rfl k rfl
    rw [exec_swatchDeliveryArrival]
    simp only [execSwatchDeliveryArrival, h, hs, hl, hready, hlost, hdead, hheld, hm, ne_eq, not_true_eq_false, Bool.false_eq_true,
      Bool.true_eq_false, or_self, if_false, if_true]
    split
    · rfl
    · rfl
  case delivered =>
    intro h hs hm e hf
    rw [exec_swatchDeliveryLanded]
    simp only [execSwatchDeliveryLanded, h, hs, hm, hf, ne_eq, not_true_eq_false, if_false]

end Sys2Proof.Machine
end

section
/-! SUPPORT. Words that trap: the trap that an operand, an address or a control word leaves (R43, R235, R256, R258, R310). -/

namespace Sys2Proof.Machine

open Sys2Proof

section

variable {s : State} {c : Ctx} {us : List Use} {code info : Nat}

/-! ## How a trap leaves a word -/

theorem bind_eq_of_error {α β : Type} {x : Except Stop α} {e : Stop} {f : α → Except Stop β} (hx : x = .error e) :
    x >>= f = .error e := by
  rw [hx]
  rfl

theorem guard_eq_of {α : Type} {p : Prop} [Decidable p] {e : Stop} {x : Except Stop α} (hp : p) :
    (if p then Except.error e else x) = .error e := if_pos hp

/-- The record of a fault, where a trap carries one (R332). -/
def State.faulted (s : State) (c : Ctx) : Option FaultRec → State
  | none => s
  | some f => s.writeFault c.t.part c.t.core c.t.queue c.g.tick f

/-- A word whose body traps leaves the trap, after the record of its fault. -/
theorem word_stops (hi : s.issues c) {us : Ctx → List Use} {more : Ctx → List ERef} {body : Ctx → State → Except Stop State}
    {f : Option FaultRec} (hs : ∀ r ∈ c.refs (us c) ++ more c, (palGet (s.view c.t.core) c.t.core r.row r.lane).ecc = .sound)
    (hb : body c s = .error (.trap code info f)) : word s us more body = .next ((s.faulted c f).trapped c code info) := by
  have hset : s.settle c.t.id c.g.num c.t.core (c.refs (us c) ++ more c) = s := State.settle_sound hs
  simp only [word, wordFrom, hi.1, hset, hb, State.finish, State.stopped, hi.2.1, Bool.false_eq_true, if_false, State.trapped]
  cases f <;> rfl

theorem word_traps (hi : s.issues c) {us : Ctx → List Use} {more : Ctx → List ERef} {body : Ctx → State → Except Stop State}
    (hs : ∀ r ∈ c.refs (us c) ++ more c, (palGet (s.view c.t.core) c.t.core r.row r.lane).ecc = .sound)
    (hb : body c s = .error (.t code info)) : word s us more body = .next (s.trapped c code info) := word_stops hi hs hb

/-- What sound operands read is sound. -/
theorem refs_of_sound (hi : s.issues c) (hs : ∀ u ∈ us, u.rd = true → c.sound u.loc = true) :
    ∀ r ∈ c.refs us ++ noMore c, (palGet (s.view c.t.core) c.t.core r.row r.lane).ecc = .sound := by
  intro r hr
  rw [show noMore c = [] from rfl, List.append_nil, Ctx.refs, List.mem_flatMap] at hr
  obtain ⟨u, hu, hr⟩ := hr
  split at hr
  · simp at hr
  · next hrd =>
    obtain ⟨h1, h2⟩ : u.rd = true ∧ c.inRange u.loc = true := by simpa using hrd
    have h := hs u hu h1
    rw [← hi.group.2.2.2]
    unfold Ctx.sound at h
    rw [h2] at h
    cases hloc : u.loc with
    | s n =>
      rw [hloc] at h hr
      obtain rfl := List.mem_singleton.mp hr
      simp only [Bool.not_true, Bool.false_or, decide_eq_true_eq] at h
      exact h
    | v n | w n =>
      rw [hloc] at h hr
      obtain ⟨l, hl, rfl⟩ := List.mem_map.mp hr
      simp only [Bool.not_true, Bool.false_or, List.all_eq_true, decide_eq_true_eq] at h
      exact h l hl

/-! ## The operands in the order of R235 -/

/-- The first operand that a check refuses decides. -/
theorem firstStop_map_error {f : Use → Option Stop} {l r : List Use} {u : Use} {e : Stop} (hl : ∀ v ∈ l, f v = none)
    (hu : f u = some e) : firstStop ((l ++ u :: r).map f) = .error e := by
  have : ((l ++ u :: r).map f).findSome? id = some e := by
    rw [List.map_append, List.findSome?_append, List.findSome?_eq_none_iff.mpr (by simpa using hl)]
    simp [hu]
  rw [firstStop, this]

theorem chkBound_ok (h : ∀ u ∈ us, c.inRange u.loc = true) : c.chkBound us = .ok () :=
  firstStop_ok (List.forall_mem_map.mpr fun u hu => if_pos (h u hu))

theorem Ctx.uninit_of_lacks {u : Use} (h : u.rd = true → c.lacks u.loc = []) : c.uninit u = none := by
  obtain ⟨loc, opnd, rd, wr⟩ := u
  cases rd with
  | false => rfl
  | true =>
    have h := h rfl
    cases loc with
    | s n =>
      dsimp only [Ctx.lacks] at h
      split at h
      · next hv => exact if_pos hv
      · cases h
    | v n | w n => simpa [Ctx.uninit, Ctx.lacks] using h

theorem Ctx.uninit_lacks {u : Use} (hr : u.rd = true) (h : c.lacks u.loc ≠ []) :
    c.uninit u = some (.t 4 (info43 u.loc.space u.opnd 0 u.loc.num (c.lackMask u.loc))) := by
  obtain ⟨loc, opnd, rd, wr⟩ := u
  obtain rfl : rd = true := hr
  cases loc with
  | s n =>
    dsimp only [Ctx.lacks] at h
    split at h
    · exact absurd rfl h
    · next hv => exact if_neg hv
  | v n | w n => exact if_neg (show ¬(c.invalid _).isEmpty = true from fun he => h (List.isEmpty_iff.mp he))

theorem chkUninit_ok (h : ∀ u ∈ us, u.rd = true → c.lacks u.loc = []) : c.chkUninit us = .ok () :=
  firstStop_ok (List.forall_mem_map.mpr fun u hu => Ctx.uninit_of_lacks (h u hu))

theorem Ctx.pend_unsettled {u : Use} (h : c.settled s u.loc = false) :
    c.pend s u = some (.t 5 (info43 u.loc.space u.opnd 1 u.loc.num c.mask)) := by
  obtain ⟨loc, opnd, rd, wr⟩ := u
  cases loc with
  | v n | s n => simpa [Ctx.pend, Ctx.settled] using h
  | w n => cases h

/-- The lock check of a use is its subcode. -/
theorem Ctx.locked_eq (u : Use) : c.locked s u =
    if c.lockSub s u = 0 then none else some (.t 6 (info43 u.loc.space u.opnd (c.lockSub s u) u.loc.num c.mask)) := by
  obtain ⟨loc, opnd, rd, wr⟩ := u
  cases loc with
  | s n => rfl
  | v n | w n =>
    simp only [Ctx.locked, Ctx.lockSub]
    cases c.lanes.isEmpty
    · cases s.destLocked c.t.core (c.rowOf _) <;> cases rd <;> cases wr <;> cases s.srcLocked c.t.core (c.rowOf _) <;> rfl
    · rfl

theorem Ctx.locked_of_sub {u : Use} (h : c.lockSub s u = 0) : c.locked s u = none := by rw [locked_eq, if_pos h]

theorem Ctx.locked_sub {u : Use} (h : c.lockSub s u ≠ 0) :
    c.locked s u = some (.t 6 (info43 u.loc.space u.opnd (c.lockSub s u) u.loc.num c.mask)) := by rw [locked_eq, if_neg h]

/-- An operand that offends stops the word at the check of its kind. -/
inductive Ctx.StopsAt (c : Ctx) (s : State) (us : List Use) : Nat → Stop → Prop
  | bound {e : Stop} (h : c.chkBound us = .error e) : c.StopsAt s us 7 e
  | uninit {e : Stop} (hb : c.chkBound us = .ok ()) (h : c.chkUninit us = .error e) : c.StopsAt s us 4 e
  | pend {e : Stop} (hb : c.chkBound us = .ok ()) (hu : c.chkUninit us = .ok ()) (h : c.chkPend s us = .error e) : c.StopsAt s us 5 e
  | lock {e : Stop} (hb : c.chkBound us = .ok ()) (hu : c.chkUninit us = .ok ()) (hp : c.chkPend s us = .ok ())
      (h : c.chkLock s us = .error e) : c.StopsAt s us 6 e

theorem Ctx.offends.stopsAt (h : c.offends s us code info) : c.StopsAt s us code (.t code info) := by
  obtain ⟨l, u, r, sub, lanes, rfl, rfl, h⟩ := h
  rcases h with ⟨rfl, rfl, rfl, hl, hu⟩ | ⟨hb, h⟩
  · exact .bound (firstStop_map_error (fun v hv => if_pos (hl v hv)) (if_neg (by simp [hu])))
  · have hb := chkBound_ok hb
    rcases h with ⟨rfl, rfl, rfl, hl, hr, hu⟩ | ⟨hun, h⟩
    · exact .uninit hb (firstStop_map_error (fun v hv => Ctx.uninit_of_lacks (hl v hv)) (Ctx.uninit_lacks hr hu))
    · have hun := chkUninit_ok hun
      rcases h with ⟨rfl, rfl, rfl, hl, hu⟩ | ⟨hp, rfl, rfl, rfl, hl, hu⟩
      · exact .pend hb hun (firstStop_map_error (fun v hv => Ctx.pend_none (hl v hv)) (Ctx.pend_unsettled hu))
      · exact .lock hb hun (chkPend_ok hp) (firstStop_map_error (fun v hv => Ctx.locked_of_sub (hl v hv)) (Ctx.locked_sub hu))

theorem Ctx.StopsAt.check {e : Stop} (h : c.StopsAt s us code e) : c.check s us = .error e := by
  cases h with
  | bound h => exact bind_eq_of_error h
  | uninit hb h => exact bind_eq_of_ok hb (bind_eq_of_error h)
  | pend hb hu h => exact bind_eq_of_ok hb (bind_eq_of_ok hu (bind_eq_of_error h))
  | lock hb hu hp h => exact bind_eq_of_ok hb (bind_eq_of_ok hu (bind_eq_of_ok hp h))

/-- A direct word with an operand that offends. -/
theorem direct_traps (hi : s.issues c) (hs : ∀ u ∈ us, u.rd = true → c.sound u.loc = true) (ho : c.offends s us code info)
    {k : Nat} {act : Ctx → State → State} : direct s us k act = .next (s.trapped c code info) :=
  word_traps hi (refs_of_sound hi hs) (bind_eq_of_error ho.stopsAt.check)

/-! ## The order of R256 -/

theorem Ctx.StopsAt.memCheck {e : Stop} (hi : s.issues c) (h : c.StopsAt s us code e) (hc : code ≠ 6) {fs : Nat}
    (hf : c.flagFree fs = true) (sh : List (Option Stop)) (q : Asks) : c.memCheck s fs us sh q = .error e := by
  refine bind_eq_of_ok (chkFlag_ok hf) (bind_eq_of_ok (chkFull_ok hi hf) ?_)
  cases h with
  | bound h => exact bind_eq_of_error h
  | uninit hb h => exact bind_eq_of_ok hb (bind_eq_of_error h)
  | pend hb hu h => exact bind_eq_of_ok hb (bind_eq_of_ok hu (bind_eq_of_error h))
  | lock hb hu hp h => exact absurd rfl hc

/-- With its operands ready, what a memory word meets lies in its addresses. -/
theorem memCheck_ready (hi : s.issues c) {fs : Nat} (hf : c.flagFree fs = true) (hr : c.ready s us = true)
    (sh : List (Option Stop)) (q : Asks) : c.memCheck s fs us sh q = (do
      chkAlign q.wr q.z q.accs
      c.chkMemLock s q.wr q.scalar q.z q.accs
      firstStop sh
      c.translateAll s q.wr q.host q.z q.rights q.accs) := by
  obtain ⟨hb, hu, hp, hl⟩ := chk4 hr
  unfold Ctx.memCheck
  rw [chkFlag_ok hf, ok_bind, chkFull_ok hi hf, ok_bind, hb, ok_bind, hu, ok_bind, hp, ok_bind, hl]
  rfl

/-! ## The addresses of a word (R256) -/

section
variable {f : Nat → Access} {va : Nat → Nat} (hl : ∀ l, (f l).lane = l) (hv : ∀ l, (f l).va = va l)
include hl hv

theorem chkAlign_error {wr : Bool} {z l : Nat} (h : c.lanes.find? (fun l => decide (va l % z ≠ 0)) = some l) :
    chkAlign wr z (c.lanes.map f) = .error (.t 0x0E (info258 wr l (va l))) := by
  have : (c.lanes.map f).find? (fun a => decide (a.va % z ≠ 0)) = some (f l) := by
    simp only [List.find?_map, Function.comp_def, hv, h, Option.map_some]
  rw [chkAlign, this]
  simp only [hl, hv]

theorem chkMemLock_error {wr : Bool} {z l : Nat} {m : List Nat}
    (h : c.lanes.filter (fun l => decide (s.memLockSub c.t.id (va l) z wr ≠ 0)) = l :: m) :
    c.chkMemLock s wr false z (c.lanes.map f) =
      .error (.t 0x06 (info43 0 0 (s.memLockSub c.t.id (va l) z wr) 0 (lanesMask (l :: m)))) := by
  have : (c.lanes.map f).filter (fun a => decide (s.memLockSub c.t.id a.va z wr ≠ 0)) = f l :: m.map f := by
    simp only [List.filter_map, Function.comp_def, hv, h, List.map_cons]
  rw [Ctx.chkMemLock, this]
  simp [hl, hv, Function.comp_def]

end

/-- The trap of a code by which an access that may reach host memory fails where it lies. -/
def Where.failsAs (wr : Bool) (code : Nat) (a : Access) : Where → Option Stop
  | .fail cause level fresh => if xlateCode cause = code then some (failStop wr a cause level fresh) else none
  | _ => none

/-- With every translation at hand, the first access that fails otherwise than for a right decides, else the first that fails. -/
theorem Ctx.translateAll_error {wr : Bool} {z rights : Nat} {l : List Access} {e : Stop}
    (hmiss : ∀ y ∈ l, ∀ n, c.locate s y.va z rights ≠ .miss n)
    (h : l.findSome? (fun a => (c.locate s a.va z rights).failsAs wr 0x0D a) = some e ∨
      l.findSome? (fun a => (c.locate s a.va z rights).failsAs wr 0x0D a) = none ∧
        l.findSome? (fun a => (c.locate s a.va z rights).failsAs wr 0x0F a) = some e) :
    c.translateAll s wr true z rights l = .error e := by
  unfold Ctx.translateAll
  simp only [List.findSome?_map, List.filterMap_map, Function.comp_def]
  rw [if_neg]
  · have same : ∀ {g : Access → Option Stop} {o : Option Stop} (code : Nat), l.findSome? g = o →
        (∀ a, (c.locate s a.va z rights).failsAs wr code a = g a) →
        l.findSome? (fun a => (c.locate s a.va z rights).failsAs wr code a) = o :=
      fun code h hg => (congrArg l.findSome? (funext hg)).trans h
    split
    · next x hx =>
      have hx := same 0x0D hx fun a => by cases c.locate s a.va z rights <;> simp [Where.failsAs]
      rcases h with h | ⟨h, -⟩
      · rw [Option.some.inj (hx.symm.trans h)]
      · cases hx.symm.trans h
    · next hx =>
      have hx := same 0x0D hx fun a => by cases c.locate s a.va z rights <;> simp [Where.failsAs]
      obtain ⟨-, h⟩ := h.resolve_left fun h => nomatch hx.symm.trans h
      split
      · next y hy =>
        have hy := same 0x0F hy fun a => by cases c.locate s a.va z rights <;> simp [Where.failsAs, Where.barred]
        rw [Option.some.inj (hy.symm.trans h)]
      · next hy =>
        have hy := same 0x0F hy fun a => by cases c.locate s a.va z rights <;> simp [Where.failsAs, Where.barred]
        cases hy.symm.trans h
  · rw [List.filterMap_eq_nil_iff.mpr fun y hy => ?_]
    · simp
    · have := hmiss y hy
      split
      · next hn => exact absurd hn (this _)
      · rfl

/-- The code of a failed translation. -/
theorem Where.failsAs_fail (wr : Bool) (a : Access) (cause level : Nat) (fresh : Bool) :
    (Where.fail cause level fresh).failsAs wr (if cause = 3 then 15 else 13) a = some (failStop wr a cause level fresh) := if_pos rfl

theorem Where.failsAs_none {wr : Bool} {code : Nat} {a : Access} {w : Where}
    (h : ∀ i j x, w = .fail i j x → xlateCode i ≠ code) : w.failsAs wr code a = none := by
  cases w with
  | fail i j x => exact if_neg (h i j x rfl)
  | _ => rfl

/-- The lane that decides which translation fails. -/
theorem Ctx.translateAll_fail {wr : Bool} {z rights cause level l : Nat} {fresh : Bool} {f : Nat → Access} {va : Nat → Nat}
    (hv : ∀ l, (f l).va = va l) (hmiss : ∀ l ∈ c.lanes, ∀ n, c.locate s (va l) z rights ≠ .miss n)
    (hx : c.locate s (va l) z rights = .fail cause level fresh)
    (hfirst : ∃ a b, c.lanes = a ++ l :: b ∧ ∀ m ∈ a, ∀ x y w, c.locate s (va m) z rights = .fail x y w →
      cause ≠ 3 ∧ x = 3)
    (hperm : cause = 3 → ∀ m ∈ c.lanes, ∀ x y w, c.locate s (va m) z rights = .fail x y w → x = 3) :
    c.translateAll s wr true z rights (c.lanes.map f) = .error (failStop wr (f l) cause level fresh) := by
  obtain ⟨a, b, hl, ha⟩ := hfirst
  have find : ∀ code, code = (if cause = 3 then 15 else 13) →
      (c.lanes.map f).findSome? (fun a => (c.locate s a.va z rights).failsAs wr code a) =
        some (failStop wr (f l) cause level fresh) := by
    rintro code rfl
    rw [hl, List.map_append, List.findSome?_append, List.findSome?_eq_none_iff.mpr (List.forall_mem_map.mpr fun m hm => ?_)]
    · rw [List.map_cons, List.findSome?_cons, hv, hx, Where.failsAs_fail]
      rfl
    · rw [hv]
      refine Where.failsAs_none fun i j x h => ?_
      obtain ⟨hc, rfl⟩ := ha m hm i j x h
      simp [xlateCode, hc]
  refine translateAll_error (List.forall_mem_map.mpr fun m hm => by rw [hv]; exact hmiss m hm) ?_
  by_cases hc : cause = 3
  · refine .inr ⟨List.findSome?_eq_none_iff.mpr (List.forall_mem_map.mpr fun m hm => ?_), find 15 (if_pos hc).symm⟩
    rw [hv]
    refine Where.failsAs_none fun i j x h => ?_
    rw [hperm hc m hm i j x h]
    simp [xlateCode]
  · exact .inl (find 13 (if_neg hc).symm)

/-- The traps of the addresses of a word that asks for one access in each lane, and traps wherever its check does. -/
theorem addressTraps_of (hi : s.issues c) {fs z rights : Nat} (hf : c.flagFree fs = true) (hr : c.ready s us = true)
    {sh : List (Option Stop)} (hsh : firstStop sh = .ok ()) {wr : Bool} {e : Instr} {f : Nat → Access} {va : Nat → Nat}
    (hl : ∀ l, (f l).lane = l) (hv : ∀ l, (f l).va = va l)
    (he : ∀ code info r, c.memCheck s fs us sh ⟨wr, true, z, rights, false, c.lanes.map f⟩ = .error (.trap code info r) →
      exec e s = .next ((s.faulted c r).trapped c code info)) : AddressTraps s c e wr z rights va := by
  rw [memCheck_ready hi hf hr] at he
  refine ⟨fun l h => he _ _ none (bind_eq_of_error (chkAlign_error hl hv h)), fun ha => ?_⟩
  have ha : chkAlign wr z (c.lanes.map f) = .ok () := chkAlign_ok (List.forall_mem_map.mpr fun l hm => by rw [hv]; exact ha l hm)
  refine ⟨fun l m h => he _ _ none (bind_eq_of_ok ha (bind_eq_of_error (chkMemLock_error hl hv h))), ?_⟩
  rintro hm l cause level fresh code hx rfl hfirst hperm
  have hml : c.chkMemLock s wr false z (c.lanes.map f) = .ok () :=
    chkMemLock_ok (List.forall_mem_map.mpr fun l hl => by rw [hv]; exact (hm l hl).1)
  have := he _ _ _ (bind_eq_of_ok ha (bind_eq_of_ok hml (bind_eq_of_ok hsh
    (Ctx.translateAll_fail hv (fun l hl => (hm l hl).2) hx hfirst hperm))))
  rw [this, hl, hv]
  cases fresh <;> rfl

/-! ## The indexed loads and stores (R260) -/

theorem loadRow_stops (hi : s.issues c) {fs z off d i b : Nat} {r : Option FaultRec}
    (hs : ∀ r ∈ c.refs [rdS b 0, rdS (b + 1) 0, rdV i 0, wrV d] ++ noMore c,
      (palGet (s.view c.t.core) c.t.core r.row r.lane).ecc = .sound)
    (h : c.memCheck s fs [rdS b 0, rdS (b + 1) 0, rdV i 0, wrV d] [] ⟨false, true, z, rightsR, false,
      c.lanes.map (fun l => ⟨l, c.idxVa b i z off l, 0, 0, [l]⟩)⟩ = .error (.trap code info r)) :
    loadRow s fs z off d i b = .next ((s.faulted c r).trapped c code info) :=
  word_stops hi hs (bind_eq_of_error h)

theorem storeRow_stops (hi : s.issues c) {z off d i b : Nat} {r : Option FaultRec}
    (hs : ∀ r ∈ c.refs [rdS b 0, rdS (b + 1) 0, rdV i 0, rdV d 1] ++ noMore c,
      (palGet (s.view c.t.core) c.t.core r.row r.lane).ecc = .sound)
    (h : c.memCheck s 0 [rdS b 0, rdS (b + 1) 0, rdV i 0, rdV d 1]
      [c.shadow 1 (c.idxVa b i z off), c.shadow 2 (fun l => (c.vec d l).toNat % 2 ^ (8 * z))] ⟨true, true, z, rightsW, false,
      c.lanes.map (fun l => ⟨l, c.idxVa b i z off l, (c.vec d l).toNat % 2 ^ (8 * z), 0, []⟩)⟩ = .error (.trap code info r)) :
    storeRow s z off d i b = .next ((s.faulted c r).trapped c code info) :=
  word_stops hi hs (bind_eq_of_error h)

/-- What a load meets: an operand that offends, then its addresses. -/
theorem loadRow_traps (hi : s.issues c) {e : Instr} {fs z off d i b : Nat} (hf : c.flagFree fs = true)
    (he : exec e s = loadRow s fs z off d i b) :
    ((∀ u ∈ [rdS b 0, rdS (b + 1) 0, rdV i 0, wrV d], u.rd = true → c.sound u.loc = true) → ∀ code info, code ≠ 6 →
      c.offends s [rdS b 0, rdS (b + 1) 0, rdV i 0, wrV d] code info → exec e s = .next (s.trapped c code info)) ∧
    (c.ready s [rdS b 0, rdS (b + 1) 0, rdV i 0, wrV d] = true → ∀ va, va = c.idxVa b i z off →
      AddressTraps s c e false z rightsR va) := by
  refine ⟨fun hs code info hc ho => ?_, ?_⟩
  · rw [he]
    exact loadRow_stops hi (refs_of_sound hi hs) (ho.stopsAt.memCheck hi hc hf [] _)
  · rintro hr va rfl
    refine addressTraps_of hi hf hr (firstStop_ok (List.forall_mem_nil _)) (f := fun l => ⟨l, c.idxVa b i z off l, 0, 0, [l]⟩)
      (fun _ => rfl) (fun _ => rfl) fun code info r h => ?_
    rw [he]
    exact loadRow_stops hi (refs_ready hi hr) h

/-- What a store meets: in protected mode its lanes must agree before its addresses are translated. -/
theorem storeRow_traps (hi : s.issues c) {e : Instr} {z off d i b : Nat} (he : exec e s = storeRow s z off d i b) :
    ((∀ u ∈ [rdS b 0, rdS (b + 1) 0, rdV i 0, rdV d 1], u.rd = true → c.sound u.loc = true) → ∀ code info, code ≠ 6 →
      c.offends s [rdS b 0, rdS (b + 1) 0, rdV i 0, rdV d 1] code info → exec e s = .next (s.trapped c code info)) ∧
    (c.ready s [rdS b 0, rdS (b + 1) 0, rdV i 0, rdV d 1] = true → c.agrees (c.idxVa b i z off) = true →
      c.agrees (fun l => (c.vec d l).toNat % 2 ^ (8 * z)) = true → ∀ va, va = c.idxVa b i z off →
      AddressTraps s c e true z rightsW va) := by
  refine ⟨fun hs code info hc ho => ?_, ?_⟩
  · rw [he]
    exact storeRow_stops hi (refs_of_sound hi hs) (ho.stopsAt.memCheck hi hc rfl _ _)
  · rintro hr hva hlow va rfl
    have hsh : firstStop [c.shadow 1 (c.idxVa b i z off), c.shadow 2 (fun l => (c.vec d l).toNat % 2 ^ (8 * z))] = .ok () :=
      firstStop_ok (by simpa using ⟨shadow_none hva, shadow_none hlow⟩)
    refine addressTraps_of hi (fs := 0) rfl hr hsh
      (f := fun l => ⟨l, c.idxVa b i z off l, (c.vec d l).toNat % 2 ^ (8 * z), 0, []⟩)
      (fun _ => rfl) (fun _ => rfl) fun code info r h => ?_
    rw [he]
    exact storeRow_stops hi (refs_ready hi hr) h

/-! ## The control words -/

/-- A target outside the code (R217). -/
theorem Ctx.chkTarget_outside {p : Int} (h : p < 0 ∨ 2 ^ 30 ≤ p) :
    c.chkTarget s p = .error (.trap 0x0D 0 (some ⟨wrap 64 ((c.t.kernel.code : Int) + 12 * p), 7, 4, 6, false⟩)) := if_pos h

/-- A target that starts no clause. -/
theorem Ctx.chkTarget_clause {p : Int} (h0 : 0 ≤ p) (h1 : p < 2 ^ 30) {x : CodeItem}
    (hx : s.codeItem (dieOf c.t.core) c.t.part c.t.kernel.desc (c.t.packetVa p.toNat) 12 = some x) (hf : fld (x.word 0) 26 5 ≠ 31) :
    c.chkTarget s p = .error (.t 0x03 (infoSub 1)) := by
  have hfetch : c.fetch s (c.t.packetVa p.toNat) 12 = .ok x := by
    unfold Ctx.fetch
    rw [hx]
  unfold Ctx.chkTarget
  rw [if_neg (by omega)]
  exact bind_eq_of_ok hfetch (if_neg hf)

/-- The words that check a target trap where it does. -/
theorem targetWords_stop (hi : s.issues c) {a b : Nat} (hr : c.ready s [rdS a 0, rdS b 1] = true) (k : Bool) (p : Nat) (o : Tgt)
    {e : Instr × Nat} (he : e ∈ [(Instr.beq k a b o, 6), (.bne k a b o, 6), (.bltS32 k a b o, 6), (.bgeS32 k a b o, 6),
      (.bltN32 k a b o, 6), (.bgeN32 k a b o, 6), (.bra k p o, 14), (.braU k p o, 14), (.mark k o, 14)]) {f : Option FaultRec}
    (hb : c.chkTarget s (c.target e.2 o) = .error (.trap code info f)) : exec e.1 s = .next ((s.faulted c f).trapped c code info) := by
  have compare : c.chkTarget s (c.target 6 o) = .error (.trap code info f) → ∀ cnd,
      scalarBranch s cnd a b o = .next ((s.faulted c f).trapped c code info) := fun hb cnd =>
    word_stops hi (refs_ready hi hr) (bind_eq_of_ok (Ctx.check_ok hr) (bind_eq_of_error hb))
  fin_cases he
  · exact compare hb 0
  · exact compare hb 1
  · exact compare hb 2
  · exact compare hb 3
  · exact compare hb 4
  · exact compare hb 5
  · rw [exec_bra, execBra]; exact word_stops hi refs_nil (bind_eq_of_error hb)
  · rw [exec_braU, execBraU]; exact word_stops hi refs_nil (bind_eq_of_error hb)
  · rw [exec_mark, execMark]; exact word_stops hi refs_nil (bind_eq_of_error hb)

theorem braU_disagrees (hi : s.issues c) {p : Nat} {o : Tgt} (ht : c.canEnter s (c.target 14 o) = true)
    (h : c.anyLane p = true ∧ c.allLane p = false) (k : Bool) :
    exec (.braU k p o) s = .next (s.trapped c 8 (info43 0 0 0 0 (c.ballot p))) := by
  rw [exec_braU, execBraU]
  exact word_traps hi refs_nil (bind_eq_of_ok (chkTarget_ok ht) (guard_eq_of h))

theorem mark_full (hi : s.issues c) {o : Tgt} (ht : c.canEnter s (c.target 14 o) = true)
    (h : ∃ x ∈ c.sl, 16 ≤ (c.g.slice x).stack.length) (k : Bool) : exec (.mark k o) s = .next (s.trapped c 9 (infoSub 1)) := by
  rw [exec_mark, execMark]
  exact word_traps hi refs_nil (bind_eq_of_ok (chkTarget_ok ht) (guard_eq_of (by simpa using h)))

/-- What a predicate agrees on in each pair is not refused (R369). -/
theorem shadow_agrees {p : Nat} (h : c.agrees (fun l => c.g.pred p l) = true) :
    firstStop [c.shadow 3 (fun l => c.g.pred p l)] = .ok () := firstStop_ok (by simpa using shadow_none h)

theorem bra_full (hi : s.issues c) {p : Nat} {o : Tgt} (ht : c.canEnter s (c.target 14 o) = true)
    (hp : c.agrees (fun l => c.g.pred p l) = true)
    (h : ∃ x ∈ c.sl, (c.g.slice x).branchFull (c.g.predNibble p x) = true) (k : Bool) :
    exec (.bra k p o) s = .next (s.trapped c 9 (infoSub 1)) := by
  rw [exec_bra, execBra]
  exact word_traps hi refs_nil (bind_eq_of_ok (chkTarget_ok ht) (bind_eq_of_ok (shadow_agrees hp) (guard_eq_of (by simpa using h))))

theorem join_empty (hi : s.issues c) (h : ∃ x ∈ c.sl, (c.g.slice x).stack = []) (k : Bool) :
    exec (.join k) s = .next (s.trapped c 9 (infoSub 2)) := by
  rw [exec_join, execJoin]
  exact word_traps hi refs_nil (guard_eq_of (by simpa using h))

/-- There is no MARK for `brk n` where the stack holds at most n of them (R68). -/
theorem brkStack_none (b : BitVec 4) : ∀ (l : List Token) (n : Nat), (l.filter (fun t => t.isMark)).length ≤ n →
    brkStack b n l = none
  | [], _, _ => by unfold brkStack; rfl
  | t :: r, n, h => by
    unfold brkStack
    cases ht : t.isMark
    · rw [if_pos rfl, brkStack_none b r n (by simpa [List.filter_cons, ht] using h)]
      rfl
    · rw [if_neg Bool.true_eq_false_eq_False]
      cases n with
      | zero => simp [ht] at h
      | succ m =>
        dsimp only
        rw [brkStack_none b r m (by simpa [List.filter_cons, ht] using h)]
        rfl

theorem brk_without_mark (hi : s.issues c) {p n : Nat} (hp : c.agrees (fun l => c.g.pred p l) = true)
    (h : ∃ x ∈ c.sl, ((c.g.slice x).stack.filter (fun y => y.isMark)).length ≤ n) (k : Bool) :
    exec (.brk k p n) s = .next (s.trapped c 9 (infoSub 3)) := by
  obtain ⟨x, hx, hn⟩ := h
  rw [exec_brk, execBrk]
  refine word_traps hi refs_nil (bind_eq_of_ok (shadow_agrees hp) (guard_eq_of (List.any_eq_true.mpr ⟨x, hx, ?_⟩)))
  rw [brkStack_none 0 _ n hn]
  rfl

theorem rte_outside (hi : s.issues c) (h : c.g.inprog = false) (k : Bool) : exec (.rte k) s = .next (s.trapped c 15 0) := by
  rw [exec_rte, execRte]
  exact word_traps hi refs_nil (guard_eq_of h)

/-- The registers that `sput` may not write (R229). -/
theorem sputAllowed_other {g : Group} {r : Nat} (h7 : r ≠ 7) (h9 : r ≠ 9) (h11 : r = 11 → g.inprog = false) (h12 : r ≠ 12) :
    sputAllowed g r = false := by
  unfold sputAllowed
  split
  · exact absurd rfl h7
  · exact absurd rfl h9
  · exact h11 rfl
  · exact absurd rfl h12
  · rfl

/-- A register that is one scalar and may not be written. -/
theorem sput_protected (hi : s.issues c) {r d : Nat} (hr : c.ready s [rdS d 0] = true) (hp : sysPair r = false)
    (ha : sputAllowed c.g r = false) (k : Bool) : exec (.sput k r d) s = .next (s.trapped c 15 0) := by
  have hus : (if sysPair r = true then [rdS d 0, rdS (d + 1) 0] else [rdS d 0]) = [rdS d 0] := by rw [hp]; rfl
  rw [exec_sput, execSput, hus]
  exact word_traps hi (refs_ready hi hr) (bind_eq_of_ok (Ctx.check_ok hr) (guard_eq_of ha))

/-- R73: a complete set that does not agree. -/
theorem State.regangCheck_disagrees {g : Group} {i0 n0 d0 : Nat} {rest : List (Nat × Nat × Nat)} (hch : s.cur.chain = false)
    (hg : s.group? c.t.id c.g.num = some g) (hw : g.regangs = (i0, n0, d0) :: rest) (hl : rest.length + 1 = g.liveSlices.length)
    (hbad : rest.filter (fun e => e.2.1 != n0 || e.2.2 != d0) ≠ []) : s.regangCheck c.t.id c.g.num =
      s.raise c.t.id c.g.num ⟨10, info43 0 0 (if rest.any (fun e => e.2.1 != n0) then 1 else 2) 0
        (lanesMask ((rest.filter (fun e => e.2.1 != n0 || e.2.2 != d0)).flatMap (fun e => List.range' (4 * e.1) 4))),
        (g.slice i0).pc, ((g.cand? i0).map (fun c => c.slices)).getD [i0]⟩ := by
  obtain ⟨t, ht, hg⟩ : ∃ t, s.team? c.t.id = some t ∧ t.group? c.g.num = some g := by
    simpa [State.group?, Option.bind_eq_some_iff] using hg
  have hall : ¬rest.all (fun e => e.2.1 == n0 && e.2.2 == d0) = true := by
    simpa [List.filter_eq_nil_iff] using hbad
  unfold State.regangCheck
  rw [if_neg (by simp [hch])]
  simp only [ht, hg, Option.bind_some, Option.map_some, hw]
  rw [if_neg (by simp [hl]), if_neg hall]

end

/-! ## The statement -/

section

variable {s : State} {c : Ctx} {us : List Use} {code info : Nat} (hi : s.issues c)
  (hs : ∀ u ∈ us, u.rd = true → c.sound u.loc = true) (ho : c.offends s us code info)
include hi hs ho

theorem directScal_traps {k d : Nat} (v : Ctx → Word) :
    direct s us k (fun c s => s.putScal c d (v c)) = .next (s.trapped c code info) := direct_traps hi hs ho

theorem directPair_traps {k d : Nat} (v : Ctx → Nat) :
    direct s us k (fun c s => s.putPair c d (v c)) = .next (s.trapped c code info) := direct_traps hi hs ho

theorem directRow_traps {k d : Nat} (v : Ctx → Nat → Word) :
    direct s us k (fun c s => s.putRow c d (v c)) = .next (s.trapped c code info) := direct_traps hi hs ho

theorem directRed_traps {k bs d : Nat} (v : Ctx → Word) :
    direct s us k (fun c s => s.putRed c bs d (v c)) = .next (s.trapped c code info) := direct_traps hi hs ho

theorem directPred_traps {k p : Nat} (v : Ctx → Nat → Bool) :
    direct s us k (fun c s => s.putPred c p (v c)) = .next (s.trapped c code info) := direct_traps hi hs ho

end

/-- Settles O53: an operand that offends stops the word at the check of its kind, an address at the check of its lane, a control word
at its own condition. -/
theorem operandTraps : Obligations.OperandTraps := by
  unfold Obligations.OperandTraps
  rintro s c k t p d a bs b n r f i o hi
  refine ⟨?operands, ?loads, ?stores, fun ht => ⟨?braU, ?mark, ?bra⟩, fun h => join_empty hi h k,
    fun hp h => brk_without_mark hi hp h k, ?regang, fun hr e he => ⟨?outside, ?clause⟩, fun h => rte_outside hi h k, ?sput⟩
  case operands =>
    intro us ws h hs code info ho e he
    simp only [List.mem_cons, Prod.mk.injEq, List.not_mem_nil, or_false] at h
    rcases h with ⟨rfl, rfl⟩ | ⟨rfl, rfl⟩ | ⟨rfl, rfl⟩ | ⟨rfl, rfl⟩ | ⟨rfl, rfl⟩ | ⟨rfl, rfl⟩ | ⟨rfl, rfl⟩ | ⟨rfl, rfl⟩ | ⟨rfl, rfl⟩ |
      ⟨rfl, rfl⟩ | ⟨rfl, rfl⟩ | ⟨rfl, rfl⟩ | ⟨rfl, rfl⟩ | ⟨rfl, rfl⟩ | ⟨rfl, rfl⟩ | ⟨rfl, rfl⟩
    · fin_cases he <;> exact directScal_traps hi hs ho _
    · fin_cases he <;> exact directScal_traps hi hs ho _
    · obtain rfl := List.mem_singleton.mp he; exact directPair_traps hi hs ho _
    · fin_cases he <;> exact directPair_traps hi hs ho _
    · fin_cases he <;> exact directPair_traps hi hs ho _
    · fin_cases he <;> exact directScal_traps hi hs ho _
    · fin_cases he <;> exact directScal_traps hi hs ho _
    · obtain rfl := List.mem_singleton.mp he; exact directPair_traps hi hs ho _
    · obtain rfl := List.mem_singleton.mp he; exact directPair_traps hi hs ho _
    · fin_cases he <;> exact directRow_traps hi hs ho _
    · fin_cases he <;> exact directRow_traps hi hs ho _
    · fin_cases he <;> exact directRow_traps hi hs ho _
    · fin_cases he <;> exact directPred_traps hi hs ho _
    · obtain rfl := List.mem_singleton.mp he; exact directRow_traps hi hs ho _
    · obtain rfl := List.mem_singleton.mp he; exact directPred_traps hi hs ho _
    · fin_cases he <;> exact directRed_traps hi hs ho _
  case loads =>
    rintro us rfl e he hf
    fin_cases he <;> exact loadRow_traps hi hf rfl
  case stores =>
    rintro us rfl e he
    fin_cases he <;> exact storeRow_traps hi rfl
  case braU => exact fun h h' => braU_disagrees hi ht ⟨h, h'⟩ k
  case mark => exact fun h => mark_full hi ht h k
  case bra =>
    rintro hp ⟨x, hx, hfull, hin, hout⟩
    exact bra_full hi ht hp ⟨x, hx, by simpa [Slice.branchFull, hfull] using ⟨hin, hout⟩⟩ k
  case regang =>
    rintro u g i0 n0 d0 rest rfl hg hw hl bad rfl hbad
    have hch := State.modG_cur s c (fun g => g.modCand c.sl (fun d => { d with wait := .regang n }))
    rw [exec_regang, execRegang]
    refine (word_enters hi refs_nil rfl ?_).trans ?_
    · rw [State.regangCheck_cur, hch]
      exact hi.2.1
    · rw [State.regangCheck_disagrees (by rw [hch]; exact hi.2.1) hg hw hl hbad]
  case outside => exact fun h => targetWords_stop hi hr k p o he (Ctx.chkTarget_outside h)
  case clause => exact fun h0 h1 x hx hf => targetWords_stop hi hr k p o he (Ctx.chkTarget_clause h0 h1 hx hf)
  case sput =>
    intro hr h8 h9 h12 h7 h11
    exact sput_protected hi hr (by simp [sysPair, h8, h9, h12]) (sputAllowed_other h7 h9 h11 h12) k

end Sys2Proof.Machine
end

section
/-! SUPPORT. Branches and token words, R63 to R73, R215: what each answers once its checks have passed. -/

namespace Sys2Proof.Machine

open Sys2Proof

section

variable {s : State} {c : Ctx} (hi : s.issues c)

/-! ## What the words' own conditions come to -/

/-- R63: lanes that all hold one value of the predicate do not disagree. -/
theorem Ctx.not_disagree {p : Nat} (h : (∀ l ∈ c.lanes, c.g.pred p l = true) ∨ ∀ l ∈ c.lanes, c.g.pred p l = false) :
    ¬(c.anyLane p = true ∧ c.allLane p = false) := by
  rintro ⟨hany, hall⟩
  rcases h with h | h
  · have : c.allLane p = true := List.all_eq_true.mpr h
    simp [this] at hall
  · obtain ⟨l, hl, hp⟩ := List.any_eq_true.mp hany
    simp [h l hl] at hp

/-- R64: a stack with room for a token is not full for a branch. -/
theorem Slice.branchFull_of_room {x : Slice} (h : x.stack.length < 16) (t : BitVec 4) : x.branchFull t = false := by
  simp [Slice.branchFull, h]

/-! ## Words that move the candidate together -/

theorem calm_moved (h : s.calm c) (p : Prop) [Decidable p] (packet k : Nat) :
    (if p then s.gotoAll c packet else s.adv c k).calm c := by
  split
  · exact calm_gotoAll h packet
  · exact calm_adv h k

theorem calm_mapSlices (h : s.calm c) (sl : List Nat) (f : Nat → Slice → Slice) :
    (s.modG c (fun g => g.mapSlices sl f)).calm c := calm_modG h (fun _ => rfl) (fun _ => rfl)

include hi

/-- R215: a comparison whose operands are ready and whose target may be entered. -/
theorem scalarBranch_next {a b : Nat} {o : Tgt} (hr : c.ready s [rdS a 0, rdS b 1] = true)
    (ht : c.canEnter s (c.target 6 o) = true) (cnd : Nat) :
    scalarBranch s cnd a b o = .next (if scalarCond cnd (c.scal a) (c.scal b) = true then s.gotoAll c (c.target 6 o).toNat
      else s.adv c (tgtSlots o)) :=
  word_calm hi (refs_ready hi hr) (bind_eq_of_ok (Ctx.check_ok hr) (bind_eq_of_ok (chkTarget_ok ht) rfl))
    (calm_moved hi.calm ..)

theorem braU_next {p : Nat} {o : Tgt} (ht : c.canEnter s (c.target 14 o) = true)
    (h : (∀ l ∈ c.lanes, c.g.pred p l = true) ∨ ∀ l ∈ c.lanes, c.g.pred p l = false) (k : Bool) :
    exec (.braU k p o) s = .next (if c.anyLane p = true then s.gotoAll c (c.target 14 o).toNat else s.adv c (tgtSlots o)) := by
  rw [exec_braU, execBraU]
  exact word_calm hi refs_nil (bind_eq_of_ok (chkTarget_ok ht) (if_neg (Ctx.not_disagree h))) (calm_moved hi.calm ..)

theorem mark_next {o : Tgt} (ht : c.canEnter s (c.target 14 o) = true)
    (hroom : ∀ i ∈ c.sl, (c.g.slice i).stack.length < 16) (k : Bool) :
    exec (.mark k o) s = .next ((s.modG c (fun g => g.mapSlices c.sl (fun _ x =>
      { x with stack := ⟨true, (c.target 14 o).toNat, x.mask⟩ :: x.stack }))).adv c (tgtSlots o)) := by
  rw [exec_mark, execMark]
  exact word_calm hi refs_nil (bind_eq_of_ok (chkTarget_ok ht) (if_neg (by simpa using hroom)))
    (calm_adv (calm_mapSlices hi.calm ..) _)

/-! ## Words after which the candidate parts (R71) -/

/-- A word whose slices move and part: a slice that ends may complete a `regang` that traps (R221), and the trap is entered. -/
theorem word_parts {f : Nat → Slice → Slice} {body : Ctx → State → Except Stop State} (hb : body c s = .ok (s.parted c f)) :
    word s (fun _ => []) noMore body = .next ((s.parted c f).tryEnter c.t.id c.g.num) :=
  word_enters hi refs_nil hb (by rw [State.parted_cur]; exact hi.2.1)

theorem bra_next {p : Nat} {o : Tgt} (ht : c.canEnter s (c.target 14 o) = true)
    (hp : c.agrees (fun l => c.g.pred p l) = true) (hroom : ∀ i ∈ c.sl, (c.g.slice i).stack.length < 16) (k : Bool) :
    exec (.bra k p o) s = .next ((s.parted c (fun i x =>
      x.branch (c.g.predNibble p i) (c.target 14 o).toNat (tgtSlots o))).tryEnter c.t.id c.g.num) := by
  have hfull : ¬c.sl.any (fun i => (c.g.slice i).branchFull (c.g.predNibble p i)) = true := by
    rw [Bool.not_eq_true, List.any_eq_false]
    exact fun i hm => Bool.eq_false_iff.mp (Slice.branchFull_of_room (hroom i hm) _)
  rw [exec_bra, execBra]
  exact word_parts hi (bind_eq_of_ok (chkTarget_ok ht) (bind_eq_of_ok (shadow_agrees hp) (if_neg hfull)))

theorem join_next (h : ∀ i ∈ c.sl, 0 < (c.g.slice i).stack.length) (k : Bool) :
    exec (.join k) s = .next ((s.parted c (fun _ x => ({ x with mask := 0 } : Slice).unwind)).tryEnter c.t.id c.g.num) := by
  rw [exec_join, execJoin]
  exact word_parts hi (if_neg (by simpa [List.length_pos_iff] using h))

theorem brk_next {p n : Nat} (hp : c.agrees (fun l => c.g.pred p l) = true)
    (h : ∀ i ∈ c.sl, n < ((c.g.slice i).stack.filter (fun t => t.isMark)).length) (k : Bool) :
    exec (.brk k p n) s = .next ((s.parted c (fun i x => x.leave (c.g.predNibble p i) n)).tryEnter c.t.id c.g.num) := by
  have hmark : ¬c.sl.any (fun i => (brkStack 0 n (c.g.slice i).stack).isNone) = true := by
    rw [Bool.not_eq_true, List.any_eq_false]
    intro i hm
    simpa [Option.isSome_iff_ne_none] using brkStack_some 0 _ n (h i hm)
  rw [exec_brk, execBrk]
  exact word_parts hi (bind_eq_of_ok (shadow_agrees hp) (if_neg hmark))

theorem exit_next (k : Bool) :
    exec (.exit k) s = .next ((s.parted c (fun _ x => x.finish)).tryEnter c.t.id c.g.num) := by
  rw [exec_exit, execExit]
  exact word_parts hi rfl

/-! ## The word that waits (R73) -/

theorem regang_next (n : Nat) (k : Bool) :
    exec (.regang k n) s = .next (((s.modG c (fun g => g.modCand c.sl (fun d =>
      { d with wait := .regang n }))).regangCheck c.t.id c.g.num).tryEnter c.t.id c.g.num) := by
  rw [exec_regang, execRegang]
  refine word_enters hi refs_nil rfl ?_
  rw [State.regangCheck_cur, State.modG_cur]
  exact hi.2.1

end

/-! ## The statements -/

/-- Settles O12: the six comparisons are one branch under six conditions, and `bra.u` goes where its predicate holds in a lane. -/
theorem branchResults : Obligations.BranchResults := by
  unfold Obligations.BranchResults
  intro s c k a b p o hi
  refine ⟨fun hr ht e he => ?compare, fun ht hp => braU_next hi ht hp k⟩
  case compare =>
    fin_cases he
    · exact scalarBranch_next hi hr ht 0
    · exact scalarBranch_next hi hr ht 1
    · exact scalarBranch_next hi hr ht 2
    · exact scalarBranch_next hi hr ht 3
    · exact scalarBranch_next hi hr ht 4
    · exact scalarBranch_next hi hr ht 5

/-- Settles O13: with room in every stack no push of a token traps, and `Slice.branch` takes the case of R64 in each
slice. -/
theorem divergentBranchResults : Obligations.DivergentBranchResults := by
  unfold Obligations.DivergentBranchResults
  intro s c k p o hi ht hp hroom
  exact bra_next hi ht hp (by simpa using hroom) k

/-- Settles O14: each word by the lemma of what it answers. -/
theorem tokenResults : Obligations.TokenResults := by
  unfold Obligations.TokenResults
  intro s c k p n o hi
  exact ⟨fun ht hroom => mark_next hi ht (by simpa using hroom) k, fun h => join_next hi (by simpa using h) k,
    fun hp h => brk_next hi hp (by simpa using h) k, exit_next hi k, regang_next hi n k⟩

end Sys2Proof.Machine
end

section
/-! SUPPORT. Fences and batches: what each word answers when its conditions hold (R79, R106, R107, R266). -/

namespace Sys2Proof.Machine

open Sys2Proof

section

variable {s : State} {c : Ctx}

theorem chkFence_ok {k : Nat} (h : s.outstanding (s.ownEarlier c.t.id c.g.num c.sl k) = false) : c.chkFence s k = .ok () := by
  simp [Ctx.chkFence, h]

/-- R79: with its slices' earlier accesses performed a fence passes on. -/
theorem fence_next (hi : s.issues c) {n : Nat} (h : s.outstanding (s.ownEarlier c.t.id c.g.num c.sl n) = false) (k : Bool) :
    exec (.fence k n) s = .next ((s.fences c n).adv c 1) := by
  rw [exec_fence, execFence]
  exact word_calm hi refs_nil (bind_eq_of_ok (chkFence_ok h) rfl) (calm_adv (calm_fences hi.calm n) 1)

theorem calm_closeBatch (h : s.calm c) : (s.modG c Group.closeBatch).calm c := calm_modG h (fun _ => rfl) (fun _ => rfl)

/-- R106: with fewer than 16 incomplete batches `cbatch` closes the open one and gives its number. -/
theorem cbatch_next (hi : s.issues c) {d : Nat} (hr : c.ready s [wrS d] = true) (hb : c.g.openBatches.length < 16) (k : Bool) :
    exec (.cbatch k d) s =
      .next (((s.putScal c d (BitVec.ofNat 32 c.g.nextBatch)).modG c Group.closeBatch).adv c 1) := by
  rw [exec_cbatch, execCbatch]
  refine word_calm hi (refs_ready hi hr) (bind_eq_of_ok (Ctx.check_ok hr) ?room) (calm_adv (calm_closeBatch (calm_putScal hi.calm ..)) 1)
  case room =>
    cases ho : c.g.openBatches with
    | nil => rfl
    | cons b rest =>
      rw [ho, List.length_cons] at hb
      exact guard_eq_of_not (Nat.not_le.mpr hb) rfl

/-- R107: a batch that lies behind the newest and is complete with those before it is waited for no more. -/
theorem waitBatch_next (hi : s.issues c) {a : Nat} {act : Ctx → Bool → State → State} (hr : c.ready s [rdS a 0] = true)
    (hage : batchAge ((c.g.nextBatch + 65535) % 65536) ((c.scal a).toNat % 65536) < 32768)
    (hdone : c.g.batchDone ((c.scal a).toNat % 65536) = true)
    (hc : (act c (c.g.batchClean ((c.scal a).toNat % 65536)) s).calm c) :
    waitBatch s a act = .next ((act c (c.g.batchClean ((c.scal a).toNat % 65536)) s).adv c 1) := by
  refine word_calm hi (refs_ready hi hr) (bind_eq_of_ok (Ctx.check_ok hr) ?passes) (calm_adv hc 1)
  case passes =>
    dsimp only
    rw [if_neg (Nat.not_le.mpr hage), if_neg (by simp [hdone])]

end

/-- Settles O20: each word passes its checks, and its effect leaves the group calm. -/
theorem batchResults : Obligations.BatchResults := by
  unfold Obligations.BatchResults
  intro s c k n p hi
  refine ⟨fun h => fence_next hi h k, fun hr hb => cbatch_next hi hr hb k, fun hr hage hdone => ⟨?wait, ?pred⟩⟩
  case wait =>
    rw [exec_waitb, execWaitb]
    exact waitBatch_next (act := fun _ _ s => s) hi hr hage hdone hi.calm
  case pred =>
    rw [exec_waitbPred, execWaitbPred]
    exact waitBatch_next (act := fun c clean s => s.putPred c p (fun _ => clean)) hi hr hage hdone (calm_putPred hi.calm p _)

end Sys2Proof.Machine
end

section
/-! SUPPORT. The events of requests to memory: a piece performed, acknowledged, landed (R54, R77, R79, R85, R100, R264, R385). -/

namespace Sys2Proof.Machine

open Sys2Proof

section

variable {s : State} {q i : Nat} {r : Req} {p : Piece}

/-! ## A piece whose turn has come (R77, R85, R100, R385) -/

theorem pseudoChannelRead_next (h : s.piece? q i = some (r, p)) (hk : r.kind = .load) (hr : s.ripe r p = true) :
    exec (.pseudoChannelRead q i) s = .next (match p.window with
      | some w => (s.serveWindow r w none p).1.performed r i (s.serveWindow r w none p).2
      | none => (s.readPiece p).1.performed r i (s.readPiece p).2) := by
  simp only [exec_pseudoChannelRead, execPseudoChannelRead, h, hk, hr]
  cases p.window <;> rfl

theorem pseudoChannelWrite_next (h : s.piece? q i = some (r, p)) (hk : r.kind = .store) (hr : s.ripe r p = true) :
    exec (.pseudoChannelWrite q i) s = .next (((s.writeSector p.tag p.bytes).noteBytes
      (p.accs.headD ⟨[], 0, 0, 0, 0, 0, 0⟩).pa 32 true).performed r i { p with performed := true }) := by
  simp [execPseudoChannelWrite, h, hk, hr]

theorem pseudoChannelAtomic_next {op : AtomOp} {w : Bool} (h : s.piece? q i = some (r, p)) (hk : r.kind = .atom op w)
    (hr : s.ripe r p = true) :
    exec (.pseudoChannelAtomic q i) s = .next ((s.applyAtoms op p.tag p.accs).1.performed r i
      { p with accs := (s.applyAtoms op p.tag p.accs).2.1, performed := true, poisoned := (s.applyAtoms op p.tag p.accs).2.2 }) := by
  simp [execPseudoChannelAtomic, h, hk, hr]

/-! ## Acknowledgements (R79) -/

theorem writeAcknowledge_next (h : s.piece? q i = some (r, p)) (hk : r.kind.plainWrite = true) (hp : p.performed = true)
    (ha : p.acked = false) (hh : p.toHost = false) (hat : p.at_ = dieOf r.core) :
    exec (.writeAcknowledge q i) s = .next (s.acknowledge r i p) := by
  simp [execWriteAcknowledge, h, hk, hp, ha, hh, hat]

/-- R79: the flushing read acknowledges the posted writes before it, and with the last of them the request is complete. -/
theorem flushingReadCompletion_next (h : s.req? q = some r) (hk : r.kind.plainWrite = true)
    (hp : r.pieces.any (fun p => p.toHost && p.performed && !p.acked) = true) {u : Req}
    (hu : u = { r with
      pieces := r.pieces.map (fun p => if p.toHost && p.performed && !p.acked then { p with acked := true } else p) }) :
    exec (.flushingReadCompletion q) s = .next (if u.done then (s.putReq u).completeReq u else s.putReq u) := by
  subst hu
  simp only [exec_flushingReadCompletion, execFlushingReadCompletion, h]
  exact if_pos ⟨hk, hp⟩

/-! ## Landings (R54, R264) -/

theorem loadSectorLanding_next (h : s.piece? q i = some (r, p)) (hk : r.kind = .load) (hl : r.canLand p = true) :
    exec (.loadSectorLanding q i) s = .next (s.landed r i p) := by
  simp [execLoadSectorLanding, h, hk, hl]

theorem atomicReplyLanding_atom {op : AtomOp} {w : Bool} (h : s.piece? q i = some (r, p)) (hk : r.kind = .atom op w)
    (hl : r.canLand p = true) : exec (.atomicReplyLanding q i) s = .next (s.landed r i p) := by
  simp [execAtomicReplyLanding, h, hk, hl]

theorem atomicReplyLanding_bump (h : s.piece? q i = some (r, p)) (hk : r.kind = .bump) (hl : r.canLand p = true) :
    exec (.atomicReplyLanding q i) s = .next (s.bumpReply r p) := by
  simp [execAtomicReplyLanding, h, hk, hl]

end

/-- Settles O35: each event by what it does when its condition holds. -/
theorem requestEvents : Obligations.RequestEvents := by
  unfold Obligations.RequestEvents
  intro s q i r p h
  refine ⟨fun hk hr => pseudoChannelRead_next h hk hr, ?write, ?atomic, fun hk hp ha hh hat => writeAcknowledge_next h hk hp ha hh hat,
    fun hk hl => loadSectorLanding_next h hk hl, fun _ _ hk hl => atomicReplyLanding_atom h hk hl,
    fun hk hl => atomicReplyLanding_bump h hk hl, ?flush⟩
  case write =>
    intro hk hr a ha
    rw [pseudoChannelWrite_next h hk hr, List.headD_eq_head?_getD, ha, Option.getD_some]
  case atomic =>
    rintro op w hk hr x rfl
    exact pseudoChannelAtomic_next h hk hr
  case flush =>
    rintro f t rfl ht hk hp u hu
    exact flushingReadCompletion_next ht hk hp hu

end Sys2Proof.Machine
end

section
/-! SUPPORT. The host's accesses through BAR2 (R100, R296, R337). -/

namespace Sys2Proof.Machine

open Sys2Proof

/-- R296: an AtomicOp that is aligned, inside the aperture under an enabled slot, and on a sound sector. -/
theorem hostAtomicop_next {s : State} {off x y : Nat} {op : HostAtomic} {w : Bool} {z m : Nat} (hz : z = if w then 8 else 4)
    (hm : m = s.readMem (s.keyTag s.regs.b2key) (s.aperture off) z) (hpow : s.powered = true) (hoff : off % z = 0)
    (hok : s.apertureOk off z = true) (hp : s.poisoned (s.aperture off) = false) :
    exec (.hostAtomicop off op x y w) s = .next { ((s.writeMem (s.keyTag s.regs.b2key) (s.aperture off)
      (bytesLE z ((hostOp op).apply (8 * z) m (x % 2 ^ (8 * z)) (y % 2 ^ (8 * z))))).noteBytes (s.aperture off) 32
        false).noteBytes (s.aperture off) 32 true with hostReply := [m] } := by
  subst hz hm
  simp [execHostAtomicop, hpow, hoff, hok, hp]

/-- Settles O48: each event by its condition. -/
theorem hostEvents : Obligations.HostEvents := by
  unfold Obligations.HostEvents
  intro s off n x y data op w
  refine ⟨rfl, rfl, rfl, rfl, fun hpow => ⟨?read, fun hd => ?write, ?atomic⟩⟩
  case read => simp [execHostAccess, hpow]
  case write => simp [execHostAccess, hpow, hd]
  case atomic =>
    rintro z pa tag m hz rfl rfl hm hoff hok hp u rfl
    exact hostAtomicop_next hz hm hpow hoff hok hp

end Sys2Proof.Machine
end

section
/-! SUPPORT. What a byte reads as under a key pair, and what the operations of a store leave of it (R336, R385). -/

namespace Sys2Proof.Machine

open Sys2Proof

section

variable {s t : State}

/-! ## What a read depends on -/

/-- Host memory is given by bits of the address above those of a line. -/
theorem isHost_of_line {a b : Nat} (h : a / 64 = b / 64) : isHost a = isHost b := by
  have key : ∀ x, x / 2 ^ 50 = x / 64 / 2 ^ 44 := fun x => by rw [Nat.div_div_eq_div_mul]; rfl
  unfold isHost fld
  rw [key a, key b, h]

/-- A byte reads as before where the bytes of its line and the tag that the line stands under are as before. -/
theorem State.readByte_congr {b : Nat} (hb : ∀ x, x / 64 = b / 64 → t.byte x = s.byte x) (ht : t.lineTag b = s.lineTag b) (tag : Nat) :
    t.readByte tag b = s.readByte tag b := by
  have hl : t.lineBytes b = s.lineBytes b := by
    unfold State.lineBytes
    refine List.map_congr_left fun i hi => hb _ ?_
    have := List.mem_range.mp hi
    omega
  unfold State.readByte
  rw [ht, hl, hb b rfl]

theorem State.readByte_of_mem (hm : t.mem = s.mem) (ht : t.tags = s.tags) (tag b : Nat) : t.readByte tag b = s.readByte tag b :=
  State.readByte_congr (fun x _ => by unfold State.byte; rw [hm]) (by unfold State.lineTag; rw [ht]) tag

/-- A byte of host memory, or of a line that stands under the tag, reads as it is stored. -/
theorem State.readByte_plain {tag b : Nat} (h : isHost b = true ∨ s.lineTag b = tag) : s.readByte tag b = s.byte b := if_pos h

/-! ## Bytes stored -/

theorem State.byte_setTags (s : State) (m : Sparse Nat) (b : Nat) : ({ s with tags := m } : State).byte b = s.byte b := rfl

theorem State.lineTag_setTags (s : State) (m : Sparse Nat) (b : Nat) :
    ({ s with tags := m } : State).lineTag b = sget 0 m (b / 64) := rfl

/-- Storing bytes from an address on leaves the tags. -/
theorem State.tags_putBytes (s : State) (base : Nat) (l : List (Byte × Nat)) :
    (l.foldl (fun t e => t.putByte (base + e.2) e.1) s).tags = s.tags := by
  induction l generalizing s with
  | nil => rfl
  | cons e r ih => exact ih _

/-- Storing bytes from an address on: what stands at each address then. -/
theorem State.byte_putBytes (s : State) (base : Nat) (l : List Byte) (a : Nat) :
    (l.zipIdx.foldl (fun t e => t.putByte (base + e.2) e.1) s).byte a =
      if base ≤ a ∧ a < base + l.length then l.getD (a - base) 0 else s.byte a := by
  induction l using List.reverseRecOn with
  | nil => simp
  | append_singleton l x ih =>
    rw [List.zipIdx_append, List.foldl_append, List.zipIdx_singleton, List.foldl_cons, List.foldl_nil, State.byte_putByte, ih,
      List.length_append, List.length_singleton, List.getD_eq_getElem?_getD, List.getD_eq_getElem?_getD, Nat.zero_add]
    by_cases ha : a = base + l.length
    · subst ha
      simp
    · rw [if_neg ha]
      by_cases hin : base ≤ a ∧ a < base + l.length
      · rw [if_pos hin, if_pos (by omega), List.getElem?_append_left (by omega)]
      · rw [if_neg hin, if_neg (by omega)]

/-! ## A line put under a tag -/

/-- A line that `retag` is asked for and that does not stand under the tag yet. -/
theorem State.retag_moves {tag a : Nat} (h : ¬(isHost a = true ∨ s.lineTag a = tag)) : s.retag tag a =
    { ((List.range 64).map (fun i => s.readByte tag (a / 64 * 64 + i))).zipIdx.foldl (fun t e => t.putByte (a / 64 * 64 + e.2) e.1) s with
      tags := sset 0 s.tags (a / 64) tag } := by
  unfold State.retag
  rw [if_neg h]
  dsimp only
  rw [State.tags_putBytes]

/-- The bytes of the line become what they read as under the tag, and those of other lines stay. -/
theorem State.byte_retag {tag a : Nat} (h : ¬(isHost a = true ∨ s.lineTag a = tag)) (b : Nat) :
    (s.retag tag a).byte b = if b / 64 = a / 64 then s.readByte tag b else s.byte b := by
  rw [State.retag_moves h, State.byte_setTags, State.byte_putBytes, List.length_map, List.length_range]
  by_cases hb : b / 64 = a / 64
  · have hi : b - a / 64 * 64 < 64 := by omega
    rw [if_pos (by omega), if_pos hb, List.getD_eq_getElem?_getD, List.getElem?_map, List.getElem?_range hi, Option.map_some,
      Option.getD_some]
    congr 1
    omega
  · rw [if_neg (by omega), if_neg hb]

theorem State.lineTag_retag {tag a : Nat} (h : ¬(isHost a = true ∨ s.lineTag a = tag)) (b : Nat) :
    (s.retag tag a).lineTag b = if b / 64 = a / 64 then tag else s.lineTag b := by
  rw [State.retag_moves h, State.lineTag_setTags]
  split
  · next hb => rw [hb, sget_sset_self]
  · next hb => exact sget_sset_other _ _ _ hb

/-- The line then reads as it is stored. -/
theorem State.retag_stands (s : State) (tag a : Nat) : isHost a = true ∨ (s.retag tag a).lineTag a = tag := by
  by_cases h : isHost a = true ∨ s.lineTag a = tag
  · rw [State.retag, if_pos h]
    exact h
  · rw [State.lineTag_retag h, if_pos rfl]
    exact .inr rfl

/-- R336: putting a line under a tag changes no other line. -/
theorem State.readByte_retag_line {a b : Nat} (h : b / 64 ≠ a / 64) (tag k : Nat) :
    (s.retag tag a).readByte k b = s.readByte k b := by
  by_cases hs : isHost a = true ∨ s.lineTag a = tag
  · rw [State.retag, if_pos hs]
  · refine State.readByte_congr (fun x hx => ?_) ?_ k
    · rw [State.byte_retag hs, if_neg (by omega)]
    · rw [State.lineTag_retag hs, if_neg h]

/-- R336: nor what any byte reads as under that tag. -/
theorem State.readByte_retag (s : State) (tag a b : Nat) : (s.retag tag a).readByte tag b = s.readByte tag b := by
  by_cases hs : isHost a = true ∨ s.lineTag a = tag
  · rw [State.retag, if_pos hs]
  · by_cases hb : b / 64 = a / 64
    · rw [State.readByte_plain (.inr (by rw [State.lineTag_retag hs, if_pos hb])), State.byte_retag hs, if_pos hb]
    · exact State.readByte_retag_line hb tag tag

/-! ## A byte written under a tag -/

theorem State.byte_writeByte (s : State) (tag a b : Nat) (x : Byte) :
    (s.writeByte tag a x).byte b = if b = a then x else (s.retag tag a).byte b := State.byte_putByte ..

theorem State.lineTag_writeByte (s : State) (tag a b : Nat) (x : Byte) :
    (s.writeByte tag a x).lineTag b = (s.retag tag a).lineTag b := rfl

/-- A write leaves the other lines, under every key pair. -/
theorem State.readByte_writeByte_line {a b : Nat} (h : a / 64 ≠ b / 64) (tag k : Nat) (x : Byte) :
    (s.writeByte tag a x).readByte k b = s.readByte k b := by
  have hbyte : ∀ y, y / 64 = b / 64 → (s.writeByte tag a x).byte y = (s.retag tag a).byte y := fun y hy => by
    rw [State.byte_writeByte, if_neg (by rintro rfl; exact h hy)]
  exact (State.readByte_congr hbyte (s.lineTag_writeByte ..) k).trans (State.readByte_retag_line h.symm tag k)

/-- It leaves the other bytes of its own line, under the key pair of the write. -/
theorem State.readByte_writeByte_other {a b : Nat} (h : a ≠ b) (tag : Nat) (x : Byte) :
    (s.writeByte tag a x).readByte tag b = s.readByte tag b := by
  by_cases hl : a / 64 = b / 64
  · have hstand : isHost b = true ∨ (s.retag tag a).lineTag b = tag := by
      have := s.retag_stands tag a
      rwa [isHost_of_line hl, State.lineTag, hl] at this
    calc (s.writeByte tag a x).readByte tag b
        = (s.writeByte tag a x).byte b := State.readByte_plain hstand
      _ = (s.retag tag a).byte b := by rw [State.byte_writeByte, if_neg h.symm]
      _ = (s.retag tag a).readByte tag b := (State.readByte_plain hstand).symm
      _ = s.readByte tag b := s.readByte_retag tag a b
  · exact State.readByte_writeByte_line hl tag tag x

/-! ## A sector written -/

theorem State.unbuffer_sameMem (s : State) (pa : Nat) : s.SameMem (s.unbuffer pa) := by
  unfold State.unbuffer
  dsimp only
  split <;> exact ⟨rfl, rfl, rfl⟩

theorem State.noteBytes_write_sameMem (s : State) (pa n : Nat) : s.SameMem (s.noteBytes pa n true) := by
  unfold State.noteBytes
  split <;> exact ⟨rfl, rfl, rfl⟩

theorem State.SameMem.readByte (h : s.SameMem t) (tag b : Nat) : t.readByte tag b = s.readByte tag b :=
  State.readByte_of_mem h.1 h.2.2 tag b

/-- A read that each byte of a write leaves is left by the write of them in one request. -/
theorem State.readByte_writeSector {tag k b : Nat} {l : List (Nat × Byte)}
    (h : ∀ e ∈ l, ∀ s : State, (s.writeByte tag e.1 e.2).readByte k b = s.readByte k b) (s : State) :
    (s.writeSector tag l).readByte k b = s.readByte k b := by
  have hfold : ∀ t : State, (l.foldl (fun t e => t.writeByte tag e.1 e.2) t).readByte k b = t.readByte k b := by
    clear s
    induction l with
    | nil => exact fun _ => rfl
    | cons e r ih =>
      exact fun t => (ih (fun e he => h e (List.mem_cons_of_mem _ he)) _).trans (h e List.mem_cons_self t)
  unfold State.writeSector
  split
  · rfl
  · dsimp only
    split
    · rfl
    · exact ((State.unbuffer_sameMem _ _).readByte k b).trans ((hfold _).trans (State.readByte_of_mem rfl rfl k b))

/-! ## A piece performed (R79) -/

/-- Where no trap of the group awaits its entry, none is entered. -/
theorem State.tryEnter_of_none {team n : Nat} (h : ∀ g, s.group? team n = some g → g.trapping = none) : s.tryEnter team n = s := by
  cases hg : s.group? team n with
  | some g => exact State.tryEnter_calm hg (h g hg)
  | none =>
    unfold State.tryEnter
    split
    · rfl
    · next u hu =>
      have : u.group? n = none := by simpa [State.group?, hu] using hg
      rw [this]

theorem State.modGroup_teams (s : State) (team n : Nat) (f : Group → Group) :
    s.modGroup team n f = { s with teams := (s.modGroup team n f).teams } := by
  unfold State.modGroup
  split
  · unfold State.putGroup
    split <;> rfl
  · rfl

/-- An answer leaves the traps of the group. -/
theorem State.answer_trapping {team n id : Nat} (h : ∀ g, s.group? team n = some g → g.trapping = none) :
    ∀ g, (s.answer team n id).group? team n = some g → g.trapping = none := by
  intro g' hg'
  cases hg : s.group? team n with
  | none =>
    have : s.answer team n id = s := by simp [State.answer, State.modGroup, hg]
    rw [this] at hg'
    exact h g' hg'
  | some g =>
    obtain ⟨u, -, hu⟩ : ∃ u, s.team? team = some u ∧ u.group? n = some g := by
      simpa [State.group?, Option.bind_eq_some_iff] using hg
    have hself : (s.answer team n id).group? team n = _ :=
      State.group?_modGroup _ hg (show g.num = n from group?_num hu)
    rw [hself, Option.some.injEq] at hg'
    rw [← hg']
    exact h g hg

/-- A piece put back changes requests, and the candidate that is answered. -/
theorem State.performed_rest {r : Req} (h : ∀ g, s.group? r.team r.group = some g → g.trapping = none) (i : Nat) (p : Piece) :
    s.performed r i p = { s with teams := (s.performed r i p).teams, reqs := (s.performed r i p).reqs } := by
  unfold State.performed
  dsimp only
  split
  · have hput : ∀ g, (s.putReq (r.putPiece i p)).group? r.team r.group = some g → g.trapping = none := h
    rw [State.tryEnter_of_none (State.answer_trapping hput), State.answer, State.modGroup_teams]
    rfl
  · rfl

end

end Sys2Proof.Machine
end

section
/-! SUPPORT. The frames of loads and stores: of the words that send them, and of the event that performs a store (R84, R85, R256,
R336, R385). -/

namespace Sys2Proof.Machine

open Sys2Proof

section

variable {s t : State} {c : Ctx}

/-! ## The frame of what is sent -/

theorem State.issues.sendFrame (hi : s.issues c) : SendFrame s s c :=
  ⟨rfl, fun _ _ => rfl, fun _ h => h, fun _ _ => rfl, c.t, c.g, hi.group.1, rfl, fun _ _ => rfl, hi.group.2.1, rfl⟩

theorem SendFrame.request (h : SendFrame s t c) (r : Req) : SendFrame s (t.request r) c := by
  obtain ⟨he, hmem, hreq, hteam, hgroup⟩ := h
  refine ⟨?_, hmem, fun q hq => List.mem_append_left _ (hreq q hq), hteam, hgroup⟩
  rw [State.request, he]

/-- A change of the slices, candidates and flags of the group. -/
theorem SendFrame.modG (h : SendFrame s t c) {f : Group → Group}
    (hf : ∀ g, f g = { g with slices := (f g).slices, cands := (f g).cands, flags := (f g).flags }) :
    SendFrame s (t.modG c f) c := by
  obtain ⟨he, hmem, hreq, hother, v, g, hv, hvt, hvg, hg, hgt⟩ := h
  have hid : (v.putGroup (f g)).id = c.t.id := by rw [Team.putGroup_id, hvt]
  have hnum : (f g).num = c.g.num := by rw [hf, hgt]
  have hmod : t.modG c f = t.putTeam (v.putGroup (f g)) := by
    simp only [State.modG, State.modGroup, State.group?, hv, hg, Option.bind_some, State.putGroup]
  rw [hmod]
  refine ⟨?_, hmem, hreq, fun n hn => (State.team?_putTeam_other (hid.trans_ne hn.symm)).trans (hother n hn), v.putGroup (f g), f g,
    State.team?_putTeam hv hid, ?_, fun m hm => (group?_putGroup_other (hnum.trans_ne hm.symm)).trans (hvg m hm),
    group?_putGroup hg hnum, ?_⟩
  · unfold State.putTeam
    rw [he]
  · unfold Team.putGroup
    rw [hvt]
  · rw [hf, hgt]

theorem SendFrame.adv (h : SendFrame s t c) (k : Nat) : SendFrame s (t.adv c k) c := h.modG fun _ => rfl

theorem SendFrame.raiseFlag (h : SendFrame s t c) (fs : Nat) : SendFrame s (t.raiseFlag c fs) c := by
  unfold State.raiseFlag
  split
  · exact h
  · exact h.modG fun _ => rfl

/-- R84: what a plain access sends, be there a lane for it or none. -/
theorem sent_frame (hi : s.issues c) (kind : ReqKind) (dst : Dst) (fs scope k : Nat) (ps : List Piece) :
    SendFrame s (s.sent c kind dst fs scope false false k ps) c := by
  unfold State.sent
  split
  · exact hi.sendFrame.adv k
  · exact ((hi.sendFrame.adv k).request _).raiseFlag fs

/-! ## The indexed loads and stores (R260) -/

/-- A load whose checks pass sends its request. -/
theorem loadRow_next (hi : s.issues c) {fs z off d i b : Nat} (hr : c.ready s [rdS b 0, rdS (b + 1) 0, rdV i 0, wrV d] = true)
    (hf : c.flagFree fs = true) {accs : List Access}
    (haccs : accs = c.lanes.map (fun l => (⟨l, c.idxVa b i z off l, 0, 0, [l]⟩ : Access)))
    (ha : c.reaches s false true z rightsR accs = true)
    (ht : c.tagged s (pieces c.t.core 5 z (c.places s z rightsR accs)) = true) :
    loadRow s fs z off d i b = .next (s.sent c .load (.rows d 1) fs 0 false false 1
      (pieces c.t.core 5 z (c.places s z rightsR accs))) := by
  subst haccs
  exact sends_next hi hr (bind_eq_of_ok (memCheck_ok hi hf hr (List.forall_mem_nil _) ha) (sendOrdered_ok ht)) (calm_sent hi.calm ..)

/-- A store whose checks pass, and whose lane pairs agree in protected mode (R369), sends its request. -/
theorem storeRow_next (hi : s.issues c) {z off d i b : Nat} (hr : c.ready s [rdS b 0, rdS (b + 1) 0, rdV i 0, rdV d 1] = true)
    (hva : c.agrees (c.idxVa b i z off) = true) (hlow : c.agrees (fun l => (c.vec d l).toNat % 2 ^ (8 * z)) = true)
    {accs : List Access}
    (haccs : accs = c.lanes.map (fun l => (⟨l, c.idxVa b i z off l, (c.vec d l).toNat % 2 ^ (8 * z), 0, []⟩ : Access)))
    (ha : c.reaches s true true z rightsW accs = true)
    (ht : c.tagged s (pieces c.t.core 5 z (c.places s z rightsW accs)) = true) :
    storeRow s z off d i b = .next (s.sent c .store .none 0 0 false false 1
      (pieces c.t.core 5 z (c.places s z rightsW accs))) := by
  subst haccs
  exact sends_next hi hr (bind_eq_of_ok (memCheck_ok hi rfl hr (by simpa using ⟨shadow_none hva, shadow_none hlow⟩) ha)
    (sendOrdered_ok ht)) (calm_sent hi.calm ..)

/-! ## A store performed (R85, R385) -/

/-- What a performed store leaves: it is memory that the write of the sector changes, and nothing after it. -/
theorem store_performed {r : Req} {p : Piece} (hg : ∀ g, s.group? r.team r.group = some g → g.trapping = none) (a i : Nat) {u : State}
    (hu : u = ((s.writeSector p.tag p.bytes).noteBytes a 32 true).performed r i { p with performed := true }) :
    u.pal = s.pal ∧ ∀ k b, u.readByte k b = (s.writeSector p.tag p.bytes).readByte k b := by
  obtain ⟨hteams, -, hpal, -⟩ := (s.writeSector_memStep p.tag p.bytes).trans (State.noteBytes_memStep _ a 32 true)
  have hrest := State.performed_rest (s := (s.writeSector p.tag p.bytes).noteBytes a 32 true) (r := r)
    (fun g h => hg g ((State.group?_of_teams hteams).symm.trans h)) i { p with performed := true }
  rw [← hu] at hrest
  refine ⟨by rw [hrest]; exact hpal, fun k b => ?_⟩
  rw [hrest]
  exact (State.noteBytes_write_sameMem (s.writeSector p.tag p.bytes) a 32).readByte k b

end

/-- Settles O52: a word that passes its checks only sends, and a store's bytes are written one by one. -/
theorem memoryFrames : Obligations.MemoryFrames := by
  unfold Obligations.MemoryFrames
  refine ⟨fun s c k f d i b hi => ⟨?loads, ?stores⟩, ?performed⟩
  case loads =>
    intro hr e he hf _ accs haccs ha ht
    fin_cases he
    all_goals exact ⟨_, loadRow_next hi hr hf haccs ha ht, sent_frame hi ..⟩
  case stores =>
    intro hr e he hva hlow accs haccs ha ht
    fin_cases he
    all_goals exact ⟨_, storeRow_next hi hr hva hlow haccs ha ht, sent_frame hi ..⟩
  case performed =>
    intro s q i r p h hk hr hg
    obtain ⟨hpal, hread⟩ := store_performed (p := p) hg (p.accs.headD ⟨[], 0, 0, 0, 0, 0, 0⟩).pa i rfl
    refine ⟨_, pseudoChannelWrite_next h hk hr, hpal, fun b hb tag => ?line, fun b hb => ?byte⟩
    case line =>
      exact (hread tag b).trans (State.readByte_writeSector (fun e he _ => State.readByte_writeByte_line (hb e he) _ _ _) s)
    case byte =>
      exact (hread p.tag b).trans (State.readByte_writeSector (fun e he _ => State.readByte_writeByte_other (hb e he) _ _) s)

end Sys2Proof.Machine
end

section
/-! SUPPORT. The words of a transaction barrier, R53, R108 to R112, R265: what each answers on a declared barrier whose elements are
sound. -/

namespace Sys2Proof.Machine

open Sys2Proof

section

variable {s : State} {c : Ctx} {n : Nat} (hi : s.issues c) (hn : n < c.t.kernel.bars)

include hi

/-- The issuing team's barrier, as a word looks it up. -/
theorem State.issues.barrier (n : Nat) :
    ((s.team? c.t.id).map (fun t => t.barrier n)).getD Barrier.fresh = c.t.barrier n := by
  rw [hi.group.1, Option.map_some, Option.getD_some]

/-- Outside a chain the candidate of a word that ends its wait is ready at once, if the word has only changed its group. -/
theorem State.issues.ready_modG (f : Group → Group) (k : Nat) :
    ((s.modG c f).adv c k).ready c = ((s.modG c f).adv c k).hold c .ready := by
  rw [State.ready, State.adv_cur, State.modG_cur, hi.2.1, if_neg Bool.false_ne_true]

include hn

/-- R53: with no engine's lock on a front row the banks of every swappable entry are exchanged. -/
theorem swap_next (h : ∀ e ∈ s.swappable c.t.id n, s.swLockedRow e = none) (k : Bool) :
    exec (.swap k n) s = .next (((s.swappable c.t.id n).foldl (fun t e => t.swapBanks e) s).adv c 1) := by
  have hfree : (s.swappable c.t.id n).findSome? (fun e => (s.swLockedRow e).map (fun r => (e, r))) = none :=
    List.findSome?_eq_none_iff.mpr fun e he => by rw [h e he, Option.map_none]
  rw [exec_swap, execSwap]
  refine word_calm hi refs_nil (bind_eq_of_ok (chkBar_ok hn) ?free)
    (calm_adv (calm_of_teams hi.calm (foldl_teams (fun t e => swapBanks_teams t e) _ s)) 1)
  case free =>
    dsimp only
    rw [hfree]

variable (hs : c.soundBarrier s n = true)

include hs

/-- R109: an arrival is a release at `team` scope. -/
theorem arrive_next (h : s.outstanding (s.ownEarlier c.t.id c.g.num c.sl 1) = false) (k : Bool) :
    exec (.arrive k n) s = .next ((s.barrierTo c.t n Barrier.arrive).adv c 1) := by
  rw [exec_arrive, execArrive, ← modBarrier_sound hi hs]
  refine word_calm hi refs_nil (bind_eq_of_ok (chkBar_ok hn) (bind_eq_of_ok (chkFence_ok h) rfl)) (calm_adv ?calm 1)
  case calm => exact modBarrier_sound hi hs _ ▸ calm_barrierTo hi.calm n _

/-- R111: a barrier between two phases takes its new count. -/
theorem binit_next {a : Nat} (hr : c.ready s [rdS a 0] = true) (hv : (c.scal a).toNat % 2 ^ 16 ≠ 0)
    (hsec : (c.t.barrier n).sectors = 0) (harr : (c.t.barrier n).arrivals = (c.t.barrier n).reload) (k : Bool) :
    exec (.binit k n a) s = .next ((s.barrierTo c.t n (fun b => { b with
      reload := (c.scal a).toNat % 2 ^ 16, arrivals := (c.scal a).toNat % 2 ^ 16, error := false, code := 0, finfo := 0 })).adv c 1) := by
  have hidle : ¬((c.t.barrier n).sectors ≠ 0 ∨ (c.t.barrier n).arrivals ≠ (c.t.barrier n).reload) :=
    not_or.mpr ⟨not_not.mpr hsec, not_not.mpr harr⟩
  rw [exec_binit, execBinit]
  refine word_calm hi (refs_ready hi hr) (bind_eq_of_ok (chkBar_ok hn) (bind_eq_of_ok (Ctx.check_ok hr) ?sets))
    (calm_adv (calm_barrierTo hi.calm n _) 1)
  case sets =>
    simp only [if_neg hv, readBarrier_sound hs, hi.group.1, Option.getD_some, if_neg hidle]
    rfl

/-- R111: the bits of R108, in four scalars. -/
theorem bread_next {d : Nat} (hr : c.ready s [wrS d, wrS (d + 1), wrS (d + 2), wrS (d + 3)] = true) (k : Bool) :
    exec (.bread k n d) s = .next (((s.putPair c d (c.t.barrier n).bits).putPair c (d + 2)
      ((c.t.barrier n).bits / 2 ^ 64)).adv c 1) := by
  rw [exec_bread, execBread]
  refine word_calm hi (refs_ready hi hr) (bind_eq_of_ok (chkBar_ok hn) (bind_eq_of_ok (Ctx.check_ok hr) ?bits))
    (calm_adv (calm_putPair (calm_putPair hi.calm ..) ..) 1)
  case bits => simp only [readBarrier_sound hs, hi.barrier]

/-- R112: a phase that has been reached is not waited for. -/
theorem twait_next {a : Nat} (hr : c.ready s [rdS a 0] = true)
    (hreached : (c.t.barrier n).reached ((c.scal a).toNat % 16) = true) (k : Bool) (p : Nat) :
    exec (.twait k p n a) s = .next (((s.putPred c p (fun _ => true)).adv c 1).hold c .ready) := by
  rw [exec_twait, execTwait]
  refine word_calm hi (refs_ready hi hr) (bind_eq_of_ok (chkBar_ok hn) (bind_eq_of_ok (Ctx.check_ok hr) ?reached))
    (calm_hold (calm_adv (calm_putPred hi.calm ..) 1) _)
  case reached =>
    simp only [readBarrier_sound hs, hi.barrier, if_pos hreached]
    exact congrArg Except.ok (hi.ready_modG _ 1)

end

/-- Settles O19: each word passes its checks, reads its sound barrier as it stands, and leaves its group calm. -/
theorem barrierResults : Obligations.BarrierResults := by
  unfold Obligations.BarrierResults
  intro s c k n a p hi hn hs
  exact ⟨fun h => arrive_next hi hn hs h k, fun hr hv hsec harr => binit_next hi hn hs hr hv hsec harr k,
    fun hr => bread_next hi hn hs hr k, fun hr hreached => twait_next hi hn hs hr hreached k p,
    fun h => swap_next hi hn (by simpa using h) k⟩

end Sys2Proof.Machine
end

section
/-! SUPPORT. The copies at issue, R102 to R105, R113, R115, R116, R368: the checks of R104 that pass. -/

namespace Sys2Proof.Machine

open Sys2Proof

section

variable {s : State} {c : Ctx}

/-- R104 checks 5 and 6, R57, R56: a range that is clear, and valid where it is read, passes. -/
theorem RowRange.checks_ok {r : RowRange} {t : Team} {v : Option Stop} (hr : r.clear s t = true) (hv : v = none) :
    firstStop [r.chkBound t, v, r.chkPend s t, r.chkLock s t] = .ok () := by
  obtain ⟨hbound, hpend, hlock⟩ := clear_iff.mp hr
  exact firstStop_ok (by simp [hbound, hv, hpend, hlock])

/-- R104 check 8: memory ranges that meet no lock pass. -/
theorem chkMems_ok {l : List Lock} (h : ∀ m ∈ l, m.chkMem s = none) : firstStop (l.map (fun m => m.chkMem s)) = .ok () :=
  firstStop_ok (by simpa using h)

/-- R369: rows in which no pair of lanes differs pass. -/
theorem chkShadowRows_ok {r : RowRange} (h : r.dest = false → c.t.prot = true → shadowPairs s c r = []) :
    chkShadowRows s c r = .ok () := by
  refine if_neg ?_
  rintro ⟨hp, hd, hbad⟩
  rw [h hd hp, List.isEmpty_nil] at hbad
  exact Bool.noConfusion hbad

/-- R38: what is ready lies within the allocation. -/
theorem Ctx.ready.inRange {us : List Use} (h : c.ready s us = true) {u : Use} (hu : u ∈ us) : c.inRange u.loc = true :=
  (Ctx.ready_iff.mp h u hu).1

end

/-- Settles O26: each form is one `copy` under its kind, and with every check of R104 passed what is left is its launch. -/
theorem copyResults : Obligations.CopyResults := by
  unfold Obligations.CopyResults
  refine ⟨?copy, ?swatch⟩
  case copy =>
    intro s c k w d a n hi hP hn hs hops e he hprot hr snap hsnap hshape r hrange hclear hout mems hmems hmem hlocks
    have hform : exec e.1 s = copy s e.2.1 e.2.2.1 e.2.2.2.1 k e.2.2.2.2 d a n := by
      fin_cases he <;> rfl
    obtain ⟨hbound, huninit, hpend, -⟩ := chk4 hr
    subst hsnap hrange hmems
    have hmay : ¬(c.g.isP = false ∨ (c.t.prot = true ∧ (e.2.1.hasMeta = true ∨ e.2.1 = .copyCol))) := by
      rintro (h | ⟨hp, h | h⟩)
      · exact Bool.noConfusion (hP.symm.trans h)
      · exact Bool.noConfusion (h.symm.trans (hprot hp).1)
      · exact (hprot hp).2 h
    rw [hform, copy]
    refine word_calm hi (refs_ready hi hr) ?checks (calm_adv (launch_sound hi hs rfl) 1)
    case checks =>
      simp only [List.length_map, List.length_range]
      refine guard_eq_of_not hmay <| bind_eq_of_ok (chkBar_ok hn) <| bind_eq_of_ok hbound <| bind_eq_of_ok huninit <|
        bind_eq_of_ok hpend <| guard_eq_of_not (not_not.mpr hshape) <| bind_eq_of_ok (RowRange.checks_ok hclear ?valid) <|
        bind_eq_of_ok (chkMems_ok hmem) <| bind_eq_of_ok (chkShadowRows_ok ?pairs) <| bind_eq_of_ok (chkRoom_ok hops hlocks) rfl
      case valid =>
        split
        · next hread => exact (hout hread).1
        · rfl
      case pairs =>
        intro hdest hp
        exact (hout (by simpa using hdest)).2 hp
  case swatch =>
    intro s c k w d a n nd hi hP hprot hn hs hops hlocks hnd hpos hle hr snap hsnap hshape r hrange hclear hvalid
    have hcount : (if c.inRange (.s (a + 1)) = true then min 8 ((c.scal (a + 1)).toNat % 16) else 0) = nd := by
      have hin : c.inRange (.s (a + 1)) = true :=
        Ctx.ready.inRange hr (u := rdS (a + 1) 0) (List.mem_map.mpr ⟨1, List.mem_range.mpr (by omega), rfl⟩)
      rw [if_pos hin, ← hnd, min_eq_right hle]
    obtain ⟨hbound, huninit, hpend, -⟩ := chk4 hr
    subst hsnap hrange
    have hmay : ¬(c.g.isP = false ∨ c.t.prot = true) := by simp [hP, hprot]
    rw [exec_copySwatch, execCopySwatch]
    refine word_calm hi ?refs ?checks (calm_adv (launch_sound hi hs rfl) 1)
    case refs =>
      simp only [hcount]
      exact refs_ready hi hr
    case checks =>
      simp only [hcount]
      exact guard_eq_of_not hmay <| bind_eq_of_ok (chkBar_ok hn) <| bind_eq_of_ok hbound <| bind_eq_of_ok huninit <|
        bind_eq_of_ok hpend <| guard_eq_of_not (not_not.mpr hshape) <| bind_eq_of_ok (RowRange.checks_ok hclear hvalid) <|
        bind_eq_of_ok (chkRoom_ok hops hlocks) rfl

end Sys2Proof.Machine
end

section
/-! SUPPORT. The events of the copy, gather and scatter engines (R105, R109, R137, R138, R141): each by what it does when its turn has
come. -/

namespace Sys2Proof.Machine

open Sys2Proof

section

variable {s s1 : State} {n u : Nat} {o : Op} {t : Team}

/-! ## Sectors of a copy (R105, R109) -/

theorem copySectorLanding_lands (h : s.copyTurn n u = some (o, t)) (hu : s.copyUnit o t u = .ok (s1, none)) :
    exec (.copySectorLanding n u) s = .next (s1.unitsEnd o (o.unitGroup u) 1) := by
  simp only [exec_copySectorLanding, execCopySectorLanding, h, hu]

theorem copySectorLanding_faulted {f : SecFault} (h : s.copyTurn n u = some (o, t)) (hu : s.copyUnit o t u = .ok (s1, some f)) :
    exec (.copySectorLanding n u) s =
      .next ((s1.noteOp o f.code (xfinfo f.va 0)).unitsEnd { o with faulted := true } (o.unitGroup u) 1) := by
  simp only [exec_copySectorLanding, execCopySectorLanding, h, hu]

theorem copySectorFault_faults {f : SecFault} (h : s.copyTurn n u = some (o, t)) (hu : s.copyUnit o t u = .error (s1, f)) :
    exec (.copySectorFault n u) s = .next (((match f.rec_ with
      | some r => s1.opFault o r
      | none => if o.kind.outward = true then s1 else s1.noteSector t f.va).noteOp o f.code (xfinfo f.va 0)).unitsEnd
        { o with faulted := true, fault := (o.unitGroup u).foldl setBit o.fault } (o.unitGroup u) 1) := by
  cases hrec : f.rec_ <;> simp only [exec_copySectorFault, execCopySectorFault, h, hu, hrec]

/-! ## A gather (R137, R138) -/

variable (ho : s.op? n = some o) (ht : s.team? o.team = some t)

include ho ht

/-- R137: the sector beyond the address space stands for the positions that make no access. -/
theorem gatherEngineRequest_next (hk : o.kind = .gather) (hready : s.opReady o = true) (hl : o.waitingAt u ≠ [])
    (hroom : u ≠ 2 ^ 51 → s.engineRoom t (64 * u) (o.waitingAt u).length = true ∧ s.engineHeld t (64 * u) 1 = false)
    {a : State × Op} (ha : a = (o.waitingAt u).foldl (fun (a : State × Op) k => a.1.gatherPos a.2 t k)
      (if u = 2 ^ 51 then s else (s.noteSector t (64 * u)).noteSector t (64 * u + 32), o)) :
    exec (.gatherEngineRequest n u) s = .next (a.1.putOp a.2) := by
  have hgo : ¬(o.kind ≠ .gather ∨ s.opReady o = false ∨ (o.waitingAt u).isEmpty = true ∨ (decide (u ≠ 2 ^ 51) = true ∧
      (s.engineRoom t (64 * u) (o.waitingAt u).length = false ∨ s.engineHeld t (64 * u) 1 = true))) := by
    rintro (h | h | h | ⟨hu, h⟩)
    · exact h hk
    · exact Bool.noConfusion (hready.symm.trans h)
    · exact hl (List.isEmpty_iff.mp h)
    · obtain ⟨hr, hh⟩ := hroom (of_decide_eq_true hu)
      rw [hr, hh] at h
      exact h.elim Bool.noConfusion Bool.noConfusion
  have hsector : (if decide (u ≠ 2 ^ 51) = true then (s.noteSector t (64 * u)).noteSector t (64 * u + 32) else s) =
      if u = 2 ^ 51 then s else (s.noteSector t (64 * u)).noteSector t (64 * u + 32) := by
    by_cases hu : u = 2 ^ 51 <;> simp [hu]
  subst ha
  simp only [exec_gatherEngineRequest, execGatherEngineRequest, ho, ht, if_neg hgo, hsector]

/-- R138: a reply line holds 64 bytes, and so at least one returned element. -/
theorem gatherReplyLanding_lands (hk : o.kind = .gather) (hgot : o.got ≠ []) (hesz : 0 < 64 / o.form.esz) :
    exec (.gatherReplyLanding n) s = .next (s.landReplies o t ((o.got.map (fun e => e.1)).take (64 / o.form.esz))) := by
  have hgo : ¬(o.kind ≠ .gather ∨ ((o.got.map (fun e => e.1)).take (64 / o.form.esz)).isEmpty = true) := by
    simp [hk, hgot, hesz.ne', List.take_eq_nil_iff]
  simp only [exec_gatherReplyLanding, execGatherReplyLanding, ho, ht, if_neg hgo]

/-! ## A scatter (R141) -/

omit ho ht in
/-- R141: a position whose turn has come, and whose access nothing holds on its way. -/
theorem State.posReady_of (hk : o.kind = .scatter) (hu : u < o.total) (hd : nbit o.unitsDone u = false) (hready : s.opReady o = true)
    (hfirst : ∀ q < u, nbit o.unitsDone q = true ∨ o.idx.getD q 0 ≠ o.idx.getD u 0)
    (hway : o.posInTable u = true → s.engineHeld t (o.posVa u) o.form.rights = false) : s.posReady o t u = true := by
  have hbehind : (List.range u).any (fun q => !nbit o.unitsDone q && decide (o.idx.getD q 0 = o.idx.getD u 0)) = false := by
    rw [List.any_eq_false]
    intro q hq
    rcases hfirst q (List.mem_range.mp hq) with h | h
    · rw [h, Bool.not_true, Bool.false_and]
      exact Bool.false_ne_true
    · rw [decide_eq_false h, Bool.and_false]
      exact Bool.false_ne_true
  have hheld : (o.posInTable u && s.engineHeld t (o.posVa u) o.form.rights) = false := by
    cases hin : o.posInTable u
    · rfl
    · rw [hway hin]; rfl
  simp only [State.posReady, hk, hu, hd, hready, hbehind, hheld, decide_true, Bool.not_false, Bool.and_self]

theorem scatterPositionApply_next (h : s.posReady o t u = true) :
    exec (.scatterPositionApply n u) s = .next ((s.scatterPos o t u).1.positionsEnd (s.scatterPos o t u).2 t [u]) := by
  simp [execScatterPositionApply, ho, ht, h]

end

/-- Settles O37: each event by its condition. -/
theorem engineEvents : Obligations.EngineEvents := by
  unfold Obligations.EngineEvents
  intro s n u o t
  refine ⟨fun h => ?copy, fun ho ht hk => ?gather, fun ho ht hk hu hd hready hfirst hway => ?scatter⟩
  case copy =>
    exact ⟨fun _ hu => copySectorLanding_lands h hu, fun _ _ hu => copySectorLanding_faulted h hu,
      fun _ _ hu => copySectorFault_faults h hu⟩
  case gather =>
    refine ⟨?request, fun hgot hesz => gatherReplyLanding_lands ho ht hk hgot hesz⟩
    rintro hready l rfl hl hroom a ha
    exact gatherEngineRequest_next ho ht hk hready hl hroom ha
  case scatter =>
    exact scatterPositionApply_next ho ht (State.posReady_of hk hu hd hready hfirst hway)

end Sys2Proof.Machine
end

section
/-! SUPPORT. The checks of a stream word that pass (R276), and the words on barriers, masks and team rows (R130 to R132, R280, R281): what
each answers when its conditions hold. -/

namespace Sys2Proof.Machine

open Sys2Proof

/-! ## Checks (R276) -/

/-- A check of a stream word that has passed goes on. -/
theorem bind_eq_of_passed {α β : Type} {x : Except StreamStop α} {a : α} {f : α → Except StreamStop β} {r : Except StreamStop β}
    (hx : x = .ok a) (h : f a = r) : x >>= f = r := by
  subst hx
  exact h

theorem chkName_ok {b : Bool} (h : b = true) (n : Nat) : chkName b n = .ok () := if_pos h

theorem chkValue_ok {b : Bool} (h : b = true) : chkValue b = .ok () := if_pos h

theorem SCtx.chkBar_ok {c : SCtx} {n : Nat} (h : n < c.t.kernel.bars) : c.chkBar n = .ok () := chkName_ok (decide_eq_true h) n

theorem SCtx.chkTile_ok {c : SCtx} {n : Nat} (h : (c.t.tile n).isSome = true) : c.chkTile n = .ok () := chkName_ok h n

/-- Scalars that the stream holds pass. -/
theorem SCtx.chkQ_holds {c : SCtx} {l : List Nat} (h : c.holds l = true) : c.chkQ l = .ok () := chkQ_ok (holds_iff.mp h)

section

variable {s : State} {c : SCtx} (h : s.runsStream c)

include h

/-! ## Barriers (R130) -/

/-- The stream's own barrier, as a word looks it up. -/
theorem State.runsStream.barrier (n : Nat) :
    ((s.team? c.t.id).map (fun t => t.barrier n)).getD Barrier.fresh = c.t.barrier n := by
  rw [(sctx_team h).1, Option.map_some, Option.getD_some]

/-- A change of a sound barrier of the stream's team is that change. -/
theorem State.runsStream.modBarrier {n : Nat} (hs : c.soundBarrier s n = true) (f : Barrier → Barrier) :
    s.modBarrier c.t.id n f = s.barrierTo c.t n f := by
  unfold State.modBarrier
  rw [(sctx_team h).1]
  simp only [sreadBarrier hs]
  rfl

/-- R130: a phase that has been reached is not waited for. -/
theorem mwait_next {n k : Nat} (hs : c.soundBarrier s n = true) (hq : c.holds [k] = true)
    (hreached : (c.t.barrier n).reached (c.st.val k % 16) = true) : exec (.mwait n k) s = .next (s.snext c) := by
  rw [exec_mwait, execMwait]
  refine sword_next h (bind_eq_of_passed (SCtx.chkQ_holds hq) (bind_eq_of_passed (chkBarS hs) ?reached))
  case reached => simp only [sreadBarrier hs, h.barrier, if_pos hreached]

/-- R130: with no long word outstanding the arrival is counted. -/
theorem marrive_next {n : Nat} (hs : c.soundBarrier s n = true) (hdone : s.longCount c.t.id = 0) :
    exec (.marrive n) s = .next ((s.barrierTo c.t n Barrier.arrive).snext c) := by
  rw [exec_marrive, execMarrive, ← h.modBarrier hs]
  exact sword_next h (bind_eq_of_passed (chkBarS hs) (if_pos hdone))

/-! ## Team rows (R280) -/

/-- R280: a sound element of a team row under no destination lock gives its value, and the scalar its valid bit. -/
theorem qrd_next {w l : Nat} (hw : w < c.t.kernel.trows) (hlock : s.destLocked c.t.core (c.t.teamBase + w) = false)
    (hsound : (palGet s.pal c.t.core (c.t.teamBase + w) l).ecc = .sound) (d : Nat) :
    exec (.qrd d w l) s = .next ((s.modStream c.t.id (fun st =>
      if (palGet (s.seen c.t.core) c.t.core (c.t.teamBase + w) l).valid
      then st.put d (palGet (s.seen c.t.core) c.t.core (c.t.teamBase + w) l).val.toNat
      else st.lose d (palGet (s.seen c.t.core) c.t.core (c.t.teamBase + w) l).val.toNat)).snext c) := by
  rw [exec_qrd, execQrd]
  refine sword_next h (bind_eq_of_passed (chkName_ok (decide_eq_true hw) w) ?read)
  case read =>
    rw [if_neg (by simp [hlock])]
    refine bind_eq_of_passed rfl ?_
    rw [readElem_sound hsound]
    rfl

/-! ## Masks (R131, R132) -/

/-- R131: a mask block whose values are in their ranges is installed. -/
theorem mmask_next {q : Nat} (hok : c.st.maskOk q = true) (hq : q + 1 + cdiv (c.st.val (q + 1) % 32) 2 ≤ 63) :
    exec (.mmask q) s = .next ((s.modStream c.t.id (fun st => { st with
      mblk := (List.range (2 + cdiv (c.st.val (q + 1) % 32) 2)).map (fun i => c.st.val (q + i)), iter := 0 })).snext c) := by
  rw [exec_mmask, execMmask]
  exact sword_next h (bind_eq_of_passed (chkValue_ok hok) (bind_eq_of_passed (chkName_ok (decide_eq_true hq) q) rfl))

/-- R132: with no kept block left the stream jumps. -/
theorem mkeep_jumps {d : Nat} (hd : d ≠ 63) (hk : c.st.keep = []) (o : Nat) : exec (.mkeep d o) s = .next (s.sgoto c o) := by
  rw [exec_mkeep, execMkeep]
  refine sword_next h (bind_eq_of_passed (chkName_ok (decide_eq_true hd) d) ?_)
  rw [hk]

/-- R132: the next kept block is given, with whether it is the diagonal one. -/
theorem mkeep_gives {d b : Nat} {r : List Nat} (hd : d ≠ 63) (hk : c.st.keep = b :: r) (o : Nat) : exec (.mkeep d o) s =
    .next ((((s.putQ c d b).putQ c (d + 1) (if b = c.st.qblk then 1 else 0)).modStream c.t.id
      (fun st => { st with iter := st.iter + 1 })).snext c) := by
  rw [exec_mkeep, execMkeep]
  refine sword_next h (bind_eq_of_passed (chkName_ok (decide_eq_true hd) d) ?_)
  rw [hk]

end

/-- Settles O32: each word passes its checks and does what its rule says. -/
theorem streamControlResults : Obligations.StreamControlResults := by
  unfold Obligations.StreamControlResults
  intro s c d w l n k q o h
  refine ⟨?qrd, fun hs hq hreached => mwait_next h hs hq hreached, fun hs hdone => marrive_next h hs hdone,
    fun hok hq => mmask_next h hok hq, fun hd hk => mkeep_jumps h hd hk o, fun hd b r hk => mkeep_gives h hd hk o⟩
  case qrd =>
    rintro hw hlock hsound e rfl
    exact qrd_next h hw hlock hsound d

end Sys2Proof.Machine
end

section
/-! SUPPORT. The tile words and `mma` at issue (R121 to R123, R127, R129, R283, R285 to R287): with their checks passed and no lock met
they start. -/

namespace Sys2Proof.Machine

open Sys2Proof

section

variable {s : State} {c : SCtx} (h : s.runsStream c)

include h

/-! ## Tile words (R127, R129) -/

theorem mzero_next {t : Nat} (ht : (c.t.tile t).isSome = true) (hp : c.passes s [] (c.locksOf [] t true []) = true) :
    exec (.mzero t) s =
      .next ((s.startLong c .mzero none (tileWord 0 t 0 0 0) 0 1 [] t false (c.locksOf [] t true [])).snext c) := by
  rw [exec_mzero, execMzero]
  exact sword_next h (bind_eq_of_passed (SCtx.chkTile_ok ht) (bind_eq_of_passed (spass hp) rfl))

/-- R285: the formats that an `mload` widens are 0, 1 and 2. -/
theorem mload_next {t v q n : Nat} (hq : c.holds [q] = true) (hw : c.st.val q ≤ 2) (ht : (c.t.tile t).isSome = true)
    (hn : n < c.t.kernel.bars) (hrows : c.covers (mloadRows v (c.st.val q)) = true)
    (hp : c.passes s (mloadRows v (c.st.val q)) (c.locksOf (mloadRows v (c.st.val q)) t true []) = true) :
    exec (.mload t v q n) s = .next ((s.startLong c .mload (some n) (tileWord 1 t v q n) 0 1 [c.st.val q, v] t false
      (c.locksOf (mloadRows v (c.st.val q)) t true [])).snext c) := by
  rw [exec_mload, execMload]
  exact sword_next h <| bind_eq_of_passed (SCtx.chkQ_holds hq) <| bind_eq_of_passed (chkValue_ok (decide_eq_true hw)) <|
    bind_eq_of_passed (SCtx.chkTile_ok ht) <| bind_eq_of_passed (SCtx.chkBar_ok hn) <| bind_eq_of_passed (chkRowsS hrows) <|
    bind_eq_of_passed (spass hp) rfl

/-- R286: the output block lies below `q64`, so its values are those of its scalars. -/
theorem mstore_next {t v q n : Nat} (h60 : q ≤ 60)
    (hq : c.holds (q :: (List.range (if ovfOf (c.st.val q) = 2 then 3 else 1)).map (fun j => q + 1 + j)) = true) {snap : List Nat}
    (hsnap : snap = [c.st.val q, c.st.val (q + 1)] ++
      (if ovfOf (c.st.val q) = 2 then [c.st.val (q + 2), c.st.val (q + 3)] else [0, 0]) ++ [v])
    (hlegal : storeLegal snap = true) (ht : (c.t.tile t).isSome = true) (hn : n < c.t.kernel.bars)
    (hrows : c.covers (mstoreRows v (c.st.val q)) = true)
    (hp : c.passes s (mstoreRows v (c.st.val q)) (c.locksOf (mstoreRows v (c.st.val q)) t false []) = true) :
    exec (.mstore t v q n) s = .next ((s.startLong c .mstore (some n) (tileWord 2 t v q n) 0 1 snap t
      (decide (ovfOf (c.st.val q) = 2)) (c.locksOf (mstoreRows v (c.st.val q)) t false [])).snext c) := by
  have hall := holds_iff.mp hq
  have hblock : c.chkQ [q] = .ok () := chkQ_ok fun n hn => hall n (List.mem_cons.mpr (.inl (List.mem_singleton.mp hn)))
  have hlist : c.chkQ ((List.range (if ovfOf (c.st.val q) = 2 then 3 else 1)).map (fun j => q + 1 + j)) = .ok () :=
    chkQ_ok fun n hn => hall n (List.mem_cons_of_mem q hn)
  rw [exec_mstore, execMstore]
  refine sword_next h (bind_eq_of_passed hblock (bind_eq_of_passed hlist ?values))
  case values =>
    simp only [if_pos (show q + 1 < 64 by omega), if_pos (show q + 2 < 64 by omega), if_pos (show q + 3 < 64 by omega), ← hsnap]
    exact bind_eq_of_passed (chkValue_ok hlegal) <| bind_eq_of_passed (chkName_ok (decide_eq_true h60) q) <|
      bind_eq_of_passed (SCtx.chkTile_ok ht) <| bind_eq_of_passed (SCtx.chkBar_ok hn) <| bind_eq_of_passed (chkRowsS hrows) <|
      bind_eq_of_passed (spass hp) rfl

/-! ## Tiles taken and given back (R127, R287) -/

/-- R127: a name that holds no tile is given the lowest free one. -/
theorem macq_next {t x : Nat} (ht : (c.t.tile t).isNone = true) (hx : s.freeTile c.t.core = some x) (q : Nat) :
    exec (.macq t q) s = .next (((s.mapTile c.t t x).putQ c q 1).snext c) := by
  rw [exec_macq, execMacq]
  refine sword_next h (bind_eq_of_passed (chkName_ok ht t) ?_)
  rw [hx]

/-- R127: a tile whose rows no lock meets is given back. -/
theorem mrel_next {t : Nat} (ht : (c.t.tile t).isSome = true) (hfree : s.rowsLocked c.t.core (c.t.tileRow t) 512 = false) :
    exec (.mrel t) s = .next ((s.modTeam c.t.id (fun u => { u with tiles := u.tiles.set t none })).snext c) := by
  rw [exec_mrel, execMrel]
  exact sword_next h (bind_eq_of_passed (SCtx.chkTile_ok ht) (if_neg (by simp [hfree])))

/-! ## `mma` (R121 to R123, R283) -/

/-- R123: with every check passed, `mma` starts with the locks of its operands, scales and tile. -/
theorem mma_next {i e : Nat} {f : MmaForm} {m : MmaSnap} {a b : Side} (he : c.poolEntry s i = .ok e) (hres : e / 2 ^ 45 = 0)
    (hf : f = mmaForm e) (h60 : f.qf ≤ 60) (hm : m = c.st.mmaSnap f) (ha : a = m.side f false) (hb : b = m.side f true)
    (hlegal : m.legal a b = true)
    (hq : c.holds ([f.qf, f.qf + 1, f.qf + 2, f.qf + 3, f.qs] ++ (a.pair ++ b.pair).flatMap (fun x => [x, x + 1])) = true)
    (hpairs : ∀ x ∈ a.pair ++ b.pair, x ≤ 62) (ht : (c.t.tile f.t).isSome = true) (hn : f.bn < c.t.kernel.bars)
    {rows : List CRange} {locks : List Lock} (hr : rows = a.ranges m.klen ++ b.ranges m.klen) (hrows : c.covers rows = true)
    (hl : locks = c.locksOf rows f.t true (a.mems m.klen ++ b.mems m.klen)) (hp : c.passes s rows locks = true) :
    exec (.mma i) s = .next (((s.putCore c.t.core { s.core c.t.core with lastMma := s.clk (dieOf c.t.core) }).startLong c .mma
      (some f.bn) (0x10000000 + i) e (m.klen / segLen a b) m.list f.t (!(a.mems m.klen ++ b.mems m.klen).isEmpty) locks).snext c) := by
  have hall := holds_iff.mp hq
  have hblock : c.chkQ ((List.range 4).map (fun k => f.qf + k) ++ [f.qs]) = .ok () :=
    chkQ_ok fun n hn => hall n (List.mem_append_left _ hn)
  have hscales : c.chkQ ((a.pair ++ b.pair).flatMap (fun x => [x, x + 1])) = .ok () :=
    chkQ_ok fun n hn => hall n (List.mem_append_right _ hn)
  have hbelow : (a.pair ++ b.pair).all (fun n => decide (n ≤ 62)) = true :=
    List.all_eq_true.mpr fun x hx => decide_eq_true (hpairs x hx)
  subst hf hm ha hb hr hl
  rw [exec_mma, execMma]
  refine sword_next h (bind_eq_of_passed he ?entry)
  case entry =>
    simp only [if_pos hres, if_pos (show (mmaForm e).qf + 1 < 64 by omega)]
    exact bind_eq_of_passed rfl <| bind_eq_of_passed hblock <| bind_eq_of_passed hscales <|
      bind_eq_of_passed (chkValue_ok hlegal) <| bind_eq_of_passed (chkName_ok (decide_eq_true h60) _) <|
      bind_eq_of_passed (chkName_ok hbelow 63) <| bind_eq_of_passed (SCtx.chkTile_ok ht) <| bind_eq_of_passed (SCtx.chkBar_ok hn) <|
      bind_eq_of_passed (chkRowsS hrows) <| bind_eq_of_passed (spass hp) rfl

end

/-- Settles O33: each word passes its checks and meets no lock. -/
theorem tileResults : Obligations.TileResults := by
  unfold Obligations.TileResults
  intro s c t v q n i h
  refine ⟨fun ht hp => mzero_next h ht hp, ?load, ?store, fun ht _ x hx => macq_next h ht hx q,
    fun ht hfree => mrel_next h ht hfree, ?mma⟩
  case load =>
    rintro hq hw ht hn rows rfl hrows hp
    exact mload_next h hq hw ht hn hrows hp
  case store =>
    rintro h60 hq snap hsnap hlegal ht hn rows rfl hrows hp
    exact mstore_next h h60 hq hsnap hlegal ht hn hrows hp
  case mma =>
    intro e f m a b he hres hf h60 hm ha hb hlegal hq hpairs ht hn rows locks hr hrows hl hp
    exact mma_next h he hres hf h60 hm ha hb hlegal hq hpairs ht hn hr hrows hl hp

end Sys2Proof.Machine
end

section
/-! SUPPORT. The events of the matrix unit (R124, R125, R127, R128, R277, R377): each by what it does when its turn has come. -/

namespace Sys2Proof.Machine

open Sys2Proof

/-! ## Segments of an `mma` (R124, R125) -/

section

variable {s s0 s1 : State} {n now : Nat} {o : Op} {t : Team} (ho : s.op? n = some o) (ht : s.team? o.team = some t)
  (hrun : (s.runningMma t.core).map (fun p => p.id) = some n)
  (hmem : o.readsMemory = true → s.opReady o = true ∧ s.segmentHeld t o = false) (hnow : now = s.clk (dieOf t.core))
  (hramp : (s.core t.core).ramp.any (fun r => decide (now < r)) = false) (hgate : (s.core t.core).gated.any id = false)
  (hs0 : s0 = s.putCore t.core { s.core t.core with lastMma := now })

include ho ht hrun hmem hnow hramp hgate hs0

omit ho ht hgate hs0 in
/-- Nothing holds the next segment of an `mma` that the arrays run, with its scales at hand and no array ramping up. -/
theorem mmaSegment_goes : ¬((s.runningMma t.core).map (fun p => p.id) ≠ some n ∨
    (s.core t.core).ramp.any (fun r => decide (s.clk (dieOf t.core) < r)) = true ∨
    (o.readsMemory = true ∧ (s.opReady o = false ∨ s.segmentHeld t o = true))) := by
  subst hnow
  rintro (h | h | ⟨hr, h⟩)
  · exact h hrun
  · exact Bool.noConfusion (hramp.symm.trans h)
  · obtain ⟨hready, hheld⟩ := hmem hr
    rw [hready, hheld] at h
    exact h.elim Bool.noConfusion Bool.noConfusion

/-- R125: a segment that faults completes the word; a scale in memory that cannot be read leaves its fault record. -/
theorem mmaSegment_faults {e f : Nat} {r : Option FaultRec} (hf : s0.segmentFault t o o.unitsDone = (s1, some (e, f, r))) :
    exec (.mmaSegment n) s = .next (((r.elim s1 (s1.opFault o)).noteOp o e f).longEnds { o with faulted := true }) := by
  have hgo := mmaSegment_goes hrun hmem hnow hramp
  subst hnow hs0
  simp only [exec_mmaSegment, execMmaSegment, ho, ht, if_neg hgo, hgate, Bool.false_eq_true, if_false, hf]
  cases r <;> rfl

/-- R124: a segment without a fault is applied, and the last one completes the word. -/
theorem mmaSegment_applies (hf : s0.segmentFault t o o.unitsDone = (s1, none)) : exec (.mmaSegment n) s =
    .next (if o.unitsDone + 1 < o.total then (s1.applySegment t o o.unitsDone).putOp { o with unitsDone := o.unitsDone + 1 }
      else (s1.applySegment t o o.unitsDone).longEnds { o with unitsDone := o.unitsDone + 1 }) := by
  have hgo := mmaSegment_goes hrun hmem hnow hramp
  subst hnow hs0
  simp only [exec_mmaSegment, execMmaSegment, ho, ht, if_neg hgo, hgate, Bool.false_eq_true, if_false, hf]

end

/-! ## The end of a tile word (R127, R277) -/

theorem Op.samePath_iff {o p : Op} :
    o.samePath p = true ↔ p.kind.onPath = true ∧ p.team = o.team ∧ p.tile = o.tile ∧ p.id ≠ o.id := by
  simp [Op.samePath, and_assoc]

/-- R277: a tile word has its turn on its path when those of its tile that stand there began after it. -/
theorem State.pathTurn_of {s : State} {o : Op}
    (h : ∀ p ∈ s.ops, p.kind.onPath = true → p.team = o.team → p.tile = o.tile → o.id ≤ p.id) : s.pathTurn o = true := by
  refine List.all_eq_true.mpr fun p hp => ?_
  by_contra hno
  obtain ⟨hsame, hlt⟩ : o.samePath p = true ∧ p.id < o.id := by simpa using hno
  obtain ⟨hpath, hteam, htile, -⟩ := Op.samePath_iff.mp hsame
  exact absurd (h p hp hpath hteam htile) (not_le.mpr hlt)

/-- R277: what makes a tile word ready to complete. -/
theorem State.tileReady_of {s : State} {o : Op} {t : Team} (hk : o.kind.onPath = true)
    (htime : o.since + 136 ≤ s.clk (dieOf t.core)) (hcore : t.onCore = true)
    (hfirst : ∀ p ∈ s.ops, p.kind.onPath = true → p.team = o.team → p.tile = o.tile → o.id ≤ p.id)
    (hout : s.outstanding o.after = false)
    (hlist : o.kind = .mstore → ovfOf (o.snap.getD 0 0) = 2 → s.engineHeld t (olistVa o.snap) 3 = false) :
    s.tileReady o t = true := by
  have hfree : (decide (o.kind = .mstore) && decide (ovfOf (o.snap.getD 0 0) = 2) && s.engineHeld t (olistVa o.snap) 3) = false := by
    by_contra hno
    obtain ⟨⟨hstore, hovf⟩, hheld⟩ :
        (o.kind = .mstore ∧ ovfOf (o.snap.getD 0 0) = 2) ∧ s.engineHeld t (olistVa o.snap) 3 = true := by
      simpa only [Bool.not_eq_false, Bool.and_eq_true, decide_eq_true_eq] using hno
    exact Bool.noConfusion ((hlist hstore hovf).symm.trans hheld)
  simp only [State.tileReady, hk, State.pathTurn_of hfirst, htime, hcore, hout, hfree, decide_true, Bool.not_false, Bool.and_self]

/-- R277: the next words of the tile count their time from the completion. -/
theorem State.pathEnds_eq (s : State) (o : Op) (now : Nat) : s.pathEnds o now = { s with ops := s.ops.map (fun p =>
    if p.kind.onPath = true ∧ p.team = o.team ∧ p.tile = o.tile ∧ p.id ≠ o.id then { p with since := now } else p) } := by
  simp only [State.pathEnds, Op.samePath_iff]

theorem tileWordCompletion_next {s : State} {n : Nat} {o : Op} {t : Team} (ho : s.op? n = some o) (ht : s.team? o.team = some t)
    (hready : s.tileReady o t = true) : exec (.tileWordCompletion n) s =
      .next (((s.tileEffect t o).longEnds (((s.tileEffect t o).op? n).getD o)).pathEnds o (s.clk (dieOf t.core))) := by
  simp only [exec_tileWordCompletion, execTileWordCompletion, ho, ht, hready, if_true]

/-! ## Tiles granted, or refused in a deadlock (R127, R128) -/

/-- R127, R277: the oldest stream that can move, if it waits in `macq`, takes the free tile. -/
theorem macqGrant_next {s : State} {n k m z : Nat} {t : Team} {st : Stream} (ht : s.team? n = some t)
    (hfirst : (s.streams t.core).find? (fun w => !s.streamHeld w.1 w.2) = some (t, st)) (hwait : st.wait = .tile)
    (hunit : (s.core t.core).issuedAt ≠ s.clk (dieOf t.core) + 1 ∨ (s.core t.core).unit ≤ 4)
    (hk : s.freeTile t.core = some k) (hat : s.macqAt t st = some (m, z)) :
    exec (.macqGrant n) s = .next ((((s.mapTile t m k).macqEnds t z 1).tookUnit t.core 4).firstIssue n) := by
  have hspent : ¬((s.core t.core).issuedAt = s.clk (dieOf t.core) + 1 ∧ 4 < (s.core t.core).unit) := by
    rw [not_and_or, not_lt]
    exact hunit
  have hgo : ¬(decide ((s.core t.core).issuedAt = s.clk (dieOf t.core) + 1 ∧ 4 < (s.core t.core).unit) = true ∨ t.id ≠ n ∨
      st.wait ≠ .tile) := by
    rintro (h | h | h)
    · exact hspent (of_decide_eq_true h)
    · exact h (team?_id ht)
    · exact h hwait
  simp only [exec_macqGrant, execMacqGrant, ht, hfirst, if_neg hgo, hk, hat]

/-- R128: the younger of two waiting teams, by the time of the last placement. -/
def youngerWaiter (a : Option (Team × Stream)) (w : Team × Stream) : Option (Team × Stream) :=
  match a with
  | none => some w
  | some b => if b.1.placed ≤ w.1.placed then some w else some b

/-- R128: in a deadlock the request of the youngest waiting team fails. -/
theorem macqDeadlockFail_next {s : State} {n m z : Nat} {w : Team × Stream} (hdead : s.tileDeadlock n = true)
    (hw : (s.tileWaiters n).foldl youngerWaiter none = some w) (hat : s.macqAt w.1 w.2 = some (m, z)) :
    exec (.macqDeadlockFail n) s = .next (s.macqEnds w.1 z 0) := by
  have hgo : ¬(s.tileDeadlock n = false) := by simp [hdead]
  rw [exec_macqDeadlockFail, execMacqDeadlockFail, if_neg hgo]
  -- the model's own choice among the waiters is that of `youngerWaiter`
  change (match (s.tileWaiters n).foldl youngerWaiter none with
    | none => _
    | some (t, st) => _) = _
  rw [hw]
  simp only [hat]

/-! ## Gating (R377) -/

theorem arrayPowerGate_next {s : State} {n : Nat} (hidle : (s.core n).lastMma + 4096 ≤ s.clk (dieOf n))
    (hnone : s.runningMma n = none) (q : Nat) :
    exec (.arrayPowerGate n q) s = .next (s.putCore n { s.core n with gated := (s.core n).gated.set q true }) := by
  simp only [exec_arrayPowerGate, execArrayPowerGate, hidle, hnone, Option.isNone_none, and_self, if_true]

/-- Settles O39: each event by its condition. -/
theorem matrixEvents : Obligations.MatrixEvents := by
  unfold Obligations.MatrixEvents
  intro s n q o t
  refine ⟨?segment, ?tileWord, fun ht st hfirst hwait hunit k hk m z hat => macqGrant_next ht hfirst hwait hunit hk hat,
    fun hdead w hw m z hat => macqDeadlockFail_next hdead hw hat, fun hidle hnone => arrayPowerGate_next hidle hnone q⟩
  case segment =>
    intro ho ht hrun hmem now hnow hramp hgate s0 hs0
    exact ⟨fun s1 e f hf => mmaSegment_faults ho ht hrun hmem hnow hramp hgate hs0 hf,
      fun s1 e f r hf => mmaSegment_faults ho ht hrun hmem hnow hramp hgate hs0 hf,
      fun s1 hf => mmaSegment_applies ho ht hrun hmem hnow hramp hgate hs0 hf⟩
  case tileWord =>
    rintro ho ht hk htime hcore hfirst hout hlist u v rfl rfl
    rw [tileWordCompletion_next ho ht (State.tileReady_of hk htime hcore hfirst hout hlist), State.pathEnds_eq]

end Sys2Proof.Machine
end

section
/-! SUPPORT. Gathers, scatters and shadow windows at issue (R133 to R136, R140, R143, R271): the checks that pass. -/

namespace Sys2Proof.Machine

open Sys2Proof

section

variable {s : State} {c : Ctx}

/-! ## The ranges of a gather or scatter (R136) -/

section

variable {t : Team} {l : List RowRange} (h : ∀ r ∈ l, r.clear s t = true)

include h

theorem chkBounds_ok : firstStop (l.map (fun r => r.chkBound t)) = .ok () :=
  firstStop_ok (List.forall_mem_map.mpr fun r hr => (clear_iff.mp (h r hr)).1)

theorem chkPends_ok : firstStop (l.map (fun r => r.chkPend s t)) = .ok () :=
  firstStop_ok (List.forall_mem_map.mpr fun r hr => (clear_iff.mp (h r hr)).2.1)

theorem chkLocks_ok {m : Lock} (hm : m.chkMem s = none) :
    firstStop (l.map (fun r => r.chkLock s t) ++ [m.chkMem s]) = .ok () :=
  firstStop_ok (List.forall_mem_append.mpr
    ⟨List.forall_mem_map.mpr fun r hr => (clear_iff.mp (h r hr)).2.2, List.forall_mem_singleton.mpr hm⟩)

end

/-- R136: the index elements are read, and the data elements where they are the source. -/
theorem chkValids_ok {x y : Option Stop} {scat : Bool} (hx : x = none) (hy : scat = true → y = none) :
    firstStop [x, if scat then y else none] = .ok () := by
  cases scat with
  | false => exact firstStop_ok (by simp [hx])
  | true => exact firstStop_ok (by simp [hx, hy rfl])

/-- R135: a scatter reads its source at issue, a gather has none; sound elements are read without a change. -/
theorem readSource_ifScatter {scat : Bool} {o : Op} {t : Team} {f : GatherForm} {m : Nat}
    (h : scat = true → ∀ i < cdiv (m * f.esz) 4,
      (palGet s.pal t.core (t.rowAt f.w o.group (f.d + i / 32)) (i % 32)).ecc = .sound) :
    (if scat then s.readSource o t f m else (s, [])) = (s, if scat then (s.readSource o t f m).2 else []) := by
  cases scat with
  | false => rfl
  | true => exact Prod.ext (readSource_fst (h rfl)) rfl

/-! ## Shadow windows (R143) -/

/-- R143: the status word is written zero, and the window bound. -/
theorem shbind_next {ix v pa tag : Nat} {f : BindForm} {w : Window} (hi : s.issues c) (hv : c.poolEntry s ix = .ok v)
    (hf : f = bindForm v) (hok : f.ok = true) (hr : c.ready s f.uses = true)
    (hw : w = ⟨c.pair f.w, c.pair f.x, (c.scal (f.x + 2)).toNat, c.pair (f.x + 3),
      (c.scal f.t).toNat + (c.scal (f.t + 1)).toNat % 2 ^ 25 * 2 ^ 32, (c.scal (f.t + 2)).toNat, f.e⟩)
    (hshape : w.sub (s.part c.t.part) (c.scal (f.t + 1)).toNat = 0) (hlock : s.memLockSub c.t.id w.stat 8 true = 0)
    (hat : c.locate s w.stat 8 rightsW = .at_ pa tag) (hroute : (s.die (dieOf c.t.core)).rtbusy ≠ some c.t.part)
    (hfirst : s.outstanding (s.ownEarlier c.t.id c.g.num c.sl 5) = false) {t : State}
    (ht : t = (s.writeSector tag ((bytesLE 8 0).zipIdx.map (fun (b : Byte × Nat) => (pa + b.2, b.1)))).access c.t.part c.t.core pa 32
      true) (k : Bool) :
    exec (.shbind k ix) s =
      .next ((t.putPart c.t.part { t.part c.t.part with windows := (t.part c.t.part).windows ++ [w] }).adv c 1) := by
  subst hf hw ht
  rw [exec_shbind, execShbind]
  refine word_calm hi ?refs ?checks (calm_adv (calm_of_teams hi.calm ?teams) 1)
  case refs =>
    simp only [hv]
    exact refs_ready hi hr
  case checks =>
    refine bind_eq_of_ok hv <| guard_eq_of_not (by simp [hok]) <| bind_eq_of_ok (Ctx.check_ok hr) <|
      guard_eq_of_not (not_not.mpr hshape) <| bind_eq_of_ok (one_memLock hlock) <|
      bind_eq_of_ok (translateAll_ok (one_served hat) hroute) <| bind_eq_of_ok (chkFence_ok hfirst) ?_
    rw [one_places hat]
  case teams => exact ((State.writeSector_memStep ..).trans (State.access_memStep ..)).1

/-- R143: every window of the base goes; the entry holds nothing but the number of the base's pair. -/
theorem shbindOff_next {ix v : Nat} (hi : s.issues c) (hv : c.poolEntry s ix = .ok v) (hrest : v / 2 ^ 7 = 0)
    (hr : c.ready s [rdS (v % 2 ^ 7) 0, rdS (v % 2 ^ 7 + 1) 0] = true)
    (hany : (s.part c.t.part).windows.any (fun w => w.wbase == c.pair (v % 2 ^ 7)) = true) (k : Bool) :
    exec (.shbindOff k ix) s = .next ((s.putPart c.t.part { s.part c.t.part with
      windows := (s.part c.t.part).windows.filter (fun w => w.wbase != c.pair (v % 2 ^ 7)) }).adv c 1) := by
  have hbase : fld v 0 7 = v % 2 ^ 7 := by rw [fld, pow_zero, Nat.div_one]
  have hlegal : fld v 7 57 = 0 := by rw [fld, hrest, Nat.zero_mod]
  rw [← hbase] at hr hany ⊢
  rw [exec_shbindOff, execShbindOff]
  refine word_calm hi ?refs ?checks (calm_adv (calm_of_teams hi.calm (State.putPart_teams ..)) 1)
  case refs =>
    simp only [hv]
    exact refs_ready hi hr
  case checks =>
    exact bind_eq_of_ok hv <| guard_eq_of_not (not_not.mpr hlegal) <| bind_eq_of_ok (Ctx.check_ok hr) <|
      guard_eq_of_not (by simp only [hany, Bool.true_eq_false, not_false_iff]) rfl

end

/-- Settles O28: the two words are one `gatherWord`, and with every check of R136 passed what is left is its launch; a window is bound
or taken away where R143 lets it. -/
theorem gatherResults : Obligations.GatherResults := by
  unfold Obligations.GatherResults
  refine ⟨?gather, fun s c k ix v hi hv => ⟨?bind, fun hrest hr hany => shbindOff_next hi hv hrest hr hany k⟩⟩
  case bind =>
    intro f w pa tag hf hok hr hw hshape hlock hat hroute hfirst t ht
    exact shbind_next hi hv hf hok hr hw hshape hlock hat hroute hfirst ht k
  case gather =>
    intro s c k ix v hi hP hprot hops hlocks hv e he f hf hok hbn hs hr snap hsnap hshape m hm data index mask hdata hindex hmask
      hdclear hiclear hfclear hivalid hdvalid hisound hdsound mem hmem hmclear o ho
    have hform : exec e.1 s = gatherWord s e.2 (if e.2 then 1 else 0) k ix := by
      fin_cases he <;> rfl
    have hmay : ¬(c.g.isP = false ∨ c.t.prot = true) := by simp [hP, hprot]
    have hbounds : ∀ r ∈ [data, index, mask], r.clear s c.t = true := by simp [hdclear, hiclear, hfclear]
    have hrows : ∀ r ∈ [data, mask, index], r.clear s c.t = true := by simp [hdclear, hiclear, hfclear]
    have hgroup : o.group = c.g.num := by rw [ho]; rfl
    have hidx := readIndex_sound (o := o) (t := c.t) (f := f) (m := m) (by rwa [hgroup])
    have hsrc := readSource_ifScatter (scat := e.2) (o := o) (t := c.t) (f := f) (m := m) (by rwa [hgroup])
    obtain ⟨hbound, huninit, hpend, -⟩ := chk4 hr
    rw [hgroup] at hidx
    subst hf hsnap hm hdata hindex hmask hmem
    rw [hform, gatherWord]
    refine word_calm hi ?refs ?checks (calm_adv (launch_sound hi hs (by rw [ho]; rfl)) 1)
    case refs =>
      simp only [hv]
      exact refs_ready hi hr
    case checks =>
      refine bind_eq_of_ok hv <| guard_eq_of_not (by simp [hok]) <| guard_eq_of_not hmay <| bind_eq_of_ok (chkBar_ok hbn) <|
        bind_eq_of_ok hbound <| bind_eq_of_ok huninit <| bind_eq_of_ok hpend <| guard_eq_of_not (not_not.mpr hshape) <|
        bind_eq_of_ok (chkBounds_ok hbounds) <| bind_eq_of_ok (chkValids_ok hivalid hdvalid) <| bind_eq_of_ok (chkPends_ok hrows) <|
        bind_eq_of_ok (chkLocks_ok hrows hmclear) <| bind_eq_of_ok (chkRoom_ok hops hlocks) ?start
      case start =>
        simp only [List.map_cons, List.map_nil, List.getD_cons_succ, List.getD_cons_zero] at ho ⊢
        rw [← ho, hidx]
        dsimp only
        rw [hsrc]

end Sys2Proof.Machine
end

section
/-! SUPPORT. Read-ahead, translation walks, code fetches, the waits of `enq` and `twait`, and the requests to lists (R60, R146, R155, R158,
R199, R217, R274, R327): each event by what it does when its turn has come. -/

namespace Sys2Proof.Machine

open Sys2Proof

section

variable {s : State} {n m i d x : Nat} {t : Team} {g : Group} {c : Cand}

/-! ## What a candidate waits for -/

section

variable (ht : s.team? n = some t) (hg : t.group? m = some g) (hc : g.cand? i = some c)

include ht hg hc

/-- R327: the first page that the candidate waits for. -/
theorem translationWalk_next {a : Need} {l : List Need} (hw : c.wait = .xlate (a :: l)) :
    exec (.translationWalk n m i) s = .next (s.walkNeed t g c a l) := by
  simp only [exec_translationWalk, execTranslationWalk, ht, hg, hc, hw]

/-- R217: a packet of the main stream; group 32 stands for the matrix stream. -/
theorem codeFetchReturn_group {va k : Nat} (hm : m ≠ 32) (hw : c.wait = .fetch va k) (hh : s.codeHeld t.core t.part va k = false) :
    exec (.codeFetchReturn n m i) s = .next (s.fetchMain t g i va k) := by
  simp only [exec_codeFetchReturn, execCodeFetchReturn, ht, hg, hc, hw, hh, if_neg hm, Option.map_some,
    Bool.false_eq_true, if_false]

/-- R274: the queue has room again. -/
theorem enqRoomRetry_offers {l : List Nat} (hw : c.wait = .enqRoom l) (hr : s.queueRoom t.part (l.headD 0) = true) :
    exec (.enqRoomRetry n m i) s =
      .next (s.modGroup n m (fun g => g.modCand [i] (fun d => { d with wait := .offer l }))) := by
  simp only [exec_enqRoomRetry, execEnqRoomRetry, ht, hg, hc, hw, hr, Option.bind_some, if_true]

/-- R60: a `twait` that has waited 2,048 ACLK lapses. -/
theorem twaitTimeout_lapses (hl : s.twaitLapses t g c = true) :
    exec (.twaitTimeout n m i) s = .next (s.stopTwait t g c false) := by
  simp only [exec_twaitTimeout, execTwaitTimeout, ht, hg, hc, hl, Option.bind_some, Option.map_some, if_true]

end

/-- R217: a packet of the matrix stream. -/
theorem codeFetchReturn_stream {st : Stream} {va k : Nat} (ht : s.team? n = some t) (hs : t.stream = some st)
    (hw : st.wait = .fetch va k) (hh : s.codeHeld t.core t.part va k = false) :
    exec (.codeFetchReturn n 32 i) s = .next (s.fetchStream t st va k) := by
  simp only [exec_codeFetchReturn, execCodeFetchReturn, ht, hs, hw, hh, if_true, Bool.false_eq_true, if_false]

theorem State.twaitLapses_of {v p b k : Nat} (hw : c.wait = .twait v p b k) (hv : v + 2048 ≤ s.clk (dieOf t.core))
    (hp : (t.barrier b).reached k = false) (hr : t.runs = true) (hg : g.trapping = none) : s.twaitLapses t g c = true := by
  simp [State.twaitLapses, Team.phaseReached, hw, hv, hp, hr, hg]

/-- R60: with the elements of its barrier sound, and so its team alive after they are read (R361), a `twait` ends as it stands. -/
theorem stopTwait_sound {v p b k : Nat} (ht : s.team? n = some t) (hg : t.group? m = some g) (hw : c.wait = .twait v p b k)
    (hr : t.runs = true) (hs : ∀ j < 4, (palGet s.pal t.core (t.barRow b) (4 * (b % 8) + j)).ecc = .sound) (y : Bool) :
    s.stopTwait t g c y = s.modGroup n m (fun h => h.endTwait c y) := by
  have hread : s.readBarrier t b = s :=
    readBarrier_sound (c := ⟨t, g, s.pal, c.slices, [], ⟨0, 0⟩⟩) (by simpa [Ctx.soundBarrier] using hs)
  have hlive : s.liveTeam n = true := by
    have hres : t.status = .resident := of_decide_eq_true hr
    simp [State.liveTeam, ht, hres]
  simp only [State.stopTwait, hw, hread, team?_id ht, group?_num hg, hlive, if_true]

theorem Group.endTwait_twait {v p b k : Nat} (hw : c.wait = .twait v p b k) (y : Bool) : g.endTwait c y =
    ((g.setPred p (g.active c.slices) (fun _ => y)).complete c.slices ((g.slice (c.slices.headD 0)).pc.add 1)).modCand c.slices
      (fun d => { d with wait := .ready }) := by
  simp only [Group.endTwait, hw]

/-! ## Read-ahead (R146) -/

theorem prefetchIssue_reads (hin : inHbm (x * 32) = true) (hd : homeDie (x * 32) = d) (hn : (s.die d).ahead.contains x = false) :
    exec (.prefetchIssue d x) s = .next ((s.putDie d { s.die d with ahead := (s.die d).ahead ++ [x] }).tmAdd d
      (prefetchCounter (x * 32)) 1) := by
  rw [exec_prefetchIssue, execPrefetchIssue]
  exact if_pos ⟨hin, hd, hn⟩

end

/-! ## Requests to lists (R155, R158, R199) -/

section

variable {s : State} {q : Nat} {r : Req} {p : Piece} (h : s.piece? q 0 = some (r, p))

/-- R182: a request that only asks, and one that no other word's waits for, is applied by itself. -/
theorem State.askedAt_alone (halone : r.probe ≠ .none ∨ s.partner r.team r.group r.id = .none) :
    s.askedAt r p = (s.askedApply r p).1.putReq (r.putPiece 0 (s.askedApply r p).2) := by
  unfold State.askedAt
  split
  · rfl
  next hown =>
  have hp := halone.resolve_left hown
  split
  · rw [State.unlessPartner, hp]
  · rw [State.withPartner, hp]

include h

theorem appendApply_next {w : Bool} {a : LaneAcc} (hk : r.kind = .append w) (ha : p.accs.head? = some a) (hr : s.ripe r p = true) :
    exec (.appendApply q) s = .next ((s.appendList r p w p.tag a.pa).putReq (r.putPiece 0 { p with performed := true })) := by
  obtain ⟨l, hl⟩ : ∃ l, p.accs = a :: l := List.head?_eq_some_iff.mp ha
  simp only [exec_appendApply, execAppendApply, h, hk, hl, hr, Bool.true_eq_false, if_false]

theorem bumpApply_asks (hk : r.kind = .bump) (hr : s.ripe r p = true) : exec (.bumpApply q) s = .next (s.askedAt r p) := by
  simp [execBumpApply, h, hk, hr]

theorem outlierListRequest_asks (hk : r.kind = .olist) (hr : s.ripe r p = true) :
    exec (.outlierListRequest q) s = .next (s.askedAt r p) := by
  simp [execOutlierListRequest, h, hk, hr]

/-- R199, R360: the reply completes the conversion, in the lanes of a poisoned one not, or it traps on a full list. -/
theorem outlierReply_next {u : Req} {a : LaneAcc} (hk : r.kind = .olist) (hl : r.canLand p = true) (hp : r.probe = .none)
    (hu : u = r.putPiece 0 { p with landed := true }) (ha : p.accs.head? = some a) :
    exec (.outlierReply q) s = .next (if p.poisoned = true then
        State.reply ((s.putReq u).lanesDie r.team r.group p.lanes) r.team r.group r.id 2 (fun s => s.cvtEffect u)
      else if a.reply = 1 then (s.putReq u).reply r.team r.group r.id 2 (fun s => s.cvtEffect u)
      else (s.putReq u).replyTrap r.team r.group r.id 0x12 (info43 0 0 1 0 (lanesMask p.lanes))) := by
  subst hu
  simp only [exec_outlierReply, execOutlierReply, h, List.headD_eq_head?_getD, ha, Option.getD_some, State.askedReply, hp]
  rw [if_neg (by simp [hk, hl])]
  cases hpois : p.poisoned with
  | true => simp [Piece.lanes]
  | false =>
    by_cases hroom : a.reply = 1
    · simp [hroom]
    · simp [hroom]

end

/-- Settles O36: each event by its condition. -/
theorem fetchEvents : Obligations.FetchEvents := by
  unfold Obligations.FetchEvents
  refine ⟨fun s n m i d x t g c ht hg hc => ?waits, fun s q r p h => ?lists⟩
  case waits =>
    refine ⟨fun a l hw => translationWalk_next ht hg hc hw, fun va k hm hw hh => codeFetchReturn_group ht hg hc hm hw hh,
      fun st va k hs hw hh => codeFetchReturn_stream ht hs hw hh, fun l hw hr => enqRoomRetry_offers ht hg hc hw hr, ?twait,
      fun hin hd hn => prefetchIssue_reads hin hd hn⟩
    case twait =>
      intro v p b k hw hv hp hr htrap hs
      rw [twaitTimeout_lapses ht hg hc (State.twaitLapses_of hw hv hp hr htrap), stopTwait_sound ht hg hw hr hs]
      simp only [Group.endTwait_twait hw]
  case lists =>
    refine ⟨fun w a hk ha hr => appendApply_next h hk ha hr, fun halone => ⟨?bump, ?olist⟩,
      fun hk hl hp u hu a ha => outlierReply_next h hk hl hp hu ha⟩
    case bump =>
      intro hk hr
      rw [bumpApply_asks h hk hr, State.askedAt_alone halone]
      simp only [State.askedApply, hk]
    case olist =>
      intro hk hr
      rw [outlierListRequest_asks h hk hr, State.askedAt_alone halone]
      simp only [State.askedApply, hk]

end Sys2Proof.Machine
end


section
/-! SUPPORT. The start of a walk, R149, R150, R153: the checks that pass. -/

namespace Sys2Proof.Machine

open Sys2Proof

/-- Settles O27: with every check of R150 passed, the walk is launched, and takes the context that is free. -/
theorem walkResults : Obligations.WalkResults := by
  unfold Obligations.WalkResults
  intro s c k w d a n x hi hP hprot hn hs hops hlocks hfree hr snap hsnap hshape r hrange hclear o ho
  have hmay : ¬(c.g.isP = false ∨ c.t.prot = true) := by simp [hP, hprot]
  obtain ⟨hbound, huninit, hpend, -⟩ := chk4 hr
  obtain ⟨hrbound, hrpend, hrlock⟩ := clear_iff.mp hclear
  have hlaunch := launch_sound (o := o) (ls := [r.lock c.t]) (m := 4 * (walkForm snap).nrows) hi hs (by rw [ho]; rfl)
  subst hsnap hrange ho
  rw [exec_walk, execWalk]
  refine word_calm hi (refs_ready hi hr) ?checks (calm_adv (calm_of_teams hlaunch (startWalk_teams ..)) 1)
  case checks =>
    refine guard_eq_of_not hmay <| bind_eq_of_ok (chkBar_ok hn) <| bind_eq_of_ok hbound <| guard_eq_of_not (not_not.mpr hshape) <|
      bind_eq_of_ok (firstStop_ok (by simp [hrbound])) <| bind_eq_of_ok huninit <| bind_eq_of_ok hpend <|
      bind_eq_of_ok (firstStop_ok (by simp [hrpend, hrlock])) <| bind_eq_of_ok (chkRoom_ok hops hlocks) ?_
    simp only [hfree]

end Sys2Proof.Machine
end

section
/-! SUPPORT. Lists and queues, R155, R156, R158, R273, R274, R300: `bump`, `append` and `enq` where nothing stands in their way. -/

namespace Sys2Proof.Machine

open Sys2Proof

section

variable {s : State} {c : Ctx}

/-! ## Requests to a list's home (R155, R158) -/

/-- A descriptor that passes its checks meets no memory lock of its team. -/
theorem chkDescriptor_memLock {z va : Nat} {x : Nat × Nat} (h : c.chkDescriptor s z va = .ok x) :
    c.chkMemLock s true true z [oneAccess va] = .ok () := by
  unfold Ctx.chkDescriptor at h
  cases hm : c.chkMemLock s true true z [oneAccess va] with
  | ok u => rfl
  | error e => rw [hm] at h; cases h

theorem State.issues.noChain (hi : s.issues c) : s.cur.chain = false := by
  obtain ⟨-, hchain, -⟩ := hi
  exact hchain

theorem calm_request (h : s.calm c) (r : Req) : (s.request r).calm c := calm_of_teams h rfl

/-- Outside a chain a word that asks sends its request and waits where it stands. -/
theorem State.issues.ask (hi : s.issues c) (r : Req) : s.ask c r = (s.request r).hold c (.reply s.nextId none) := by
  rw [State.ask, hi.noChain, if_neg Bool.false_ne_true]
  rfl

/-- R155: `bump` asks for a chunk for each lane. -/
theorem bump_next {p d a pa tag : Nat} (hi : s.issues c) (hr : c.ready s [rdS a 0, rdS (a + 1) 0, wrV d, wrV (d + 1)] = true)
    (hlanes : c.lanes ≠ []) (hnew : s.answerOf c (fun q => decide (q = .bump)) = none) (halign : c.pair a % 32 = 0)
    (hat : c.chkDescriptor s 32 (c.pair a) = .ok (pa, tag)) (htags : c.tagged s (c.bumpAsk p d (c.pair a) pa tag).pieces = true)
    (k : Bool) :
    exec (.bump k p d a) s = .next ((s.request (c.bumpAsk p d (c.pair a) pa tag)).hold c (.reply s.nextId none)) := by
  obtain ⟨hbound, huninit, hpend, hlock⟩ := chk4 hr
  rw [exec_bump, execBump]
  refine word_calm hi (refs_ready hi hr) ?asks (calm_hold (calm_request hi.calm _) _)
  case asks =>
    simp only [hnew, List.isEmpty_eq_false_iff.mpr hlanes, Bool.false_eq_true, if_false]
    exact bind_eq_of_ok hbound <| bind_eq_of_ok huninit <| bind_eq_of_ok hpend <| bind_eq_of_ok (one_align halign) <|
      bind_eq_of_ok hlock <| bind_eq_of_ok hat <| bind_eq_of_ok (chkTags_ok htags) (congrArg Except.ok (hi.ask _))

/-- The context as `append` checks its source rows in it: the lanes whose predicate is 1 (R158). -/
def Ctx.appending (c : Ctx) (p : Nat) : Ctx := { c with lanes := c.lanes.filter (fun l => c.g.pred p l) }

/-- R158: operands that are ready, the source rows in the lanes that append, pass, and their elements are sound. -/
theorem appendRefs_sound {p : Nat} {base rows : List Use} (hi : s.issues c) (hb : c.ready s base = true)
    (hr : (c.appending p).ready s rows = true) :
    ∀ r ∈ c.refs base ++ (c.appending p).refs rows, (palGet (s.view c.t.core) c.t.core r.row r.lane).ecc = .sound :=
  List.forall_mem_append.mpr
    ⟨Ctx.refs_sound hi.group.2.2.2 hb, Ctx.refs_sound (c := c.appending p) hi.group.2.2.2 hr⟩

/-- R38: the allocation is the same for the lanes that append. -/
theorem appendBound_ok {p : Nat} {base rows : List Use} (hb : c.ready s base = true) (hr : (c.appending p).ready s rows = true) :
    c.chkBound (base ++ rows) = .ok () := by
  refine firstStop_ok (List.forall_mem_map.mpr fun u hu => if_pos ?_)
  rcases List.mem_append.mp hu with hu | hu
  · exact Ctx.ready.inRange hb hu
  · exact Ctx.ready.inRange (c := c.appending p) hr hu

/-- R158: `append` of either width sends the values of its lanes and is complete. -/
theorem append_next {wide : Bool} {f p d a pa tag n : Nat} {ps : List Piece} (hi : s.issues c)
    (hn : n = if wide then 2 else 1) (hb : c.ready s [rdS a 0, rdS (a + 1) 0] = true)
    (hlanes : c.appendLanes p ≠ []) (hf : c.flagFree f = true)
    (hr : ∀ q ∈ List.range n, (c.appending p).ready s [rdV (d + q) 1] = true)
    (hagree : c.agrees (fun l => (c.g.pred p l, if c.g.pred p l then c.partsVal false d n l else 0)) = true)
    (halign : c.pair a % 64 = 0) (hat : c.chkDescriptor s 64 (c.pair a) = .ok (pa, tag))
    (hps : ps = [⟨tag, none, (c.appendLanes p).map (fun l => ⟨(c.replyLanes l).filter (c.g.pred p), c.pair a, pa, 64,
      c.partsVal false d n l, 0, 0⟩), dieOf c.t.core, placeHome c.t.core pa, [], false, false, false, false⟩])
    (htags : c.tagged s ps = true) :
    append s wide f p d a = .next ((s.adv c 1).send c (.append wide) .none 0 [] f [] ps) := by
  have hrows : (c.appending p).ready s (partsOf false d n true false 1) = true :=
    Ctx.ready_iff.mpr <| List.forall_mem_map.mpr fun q hq => Ctx.ready_iff.mp (hr q hq) _ (List.mem_singleton_self _)
  obtain ⟨-, hbuninit, hbpend, -⟩ := chk4 hb
  obtain ⟨-, hruninit, hrpend, hrlock⟩ := chk4 hrows
  have hbound := appendBound_ok hb hrows
  subst hn hps
  rw [append]
  refine word_calm hi (appendRefs_sound hi hb hrows) ?sends (calm_send (calm_adv hi.calm 1) ..)
  case sends =>
    simp only [List.isEmpty_eq_false_iff.mpr hlanes, Bool.false_eq_true, if_false]
    exact bind_eq_of_ok (chkFlag_ok hf) <| bind_eq_of_ok (chkFull_ok hi hf) <| bind_eq_of_ok hbound <| bind_eq_of_ok hbuninit <|
      bind_eq_of_ok hruninit <| bind_eq_of_ok hbpend <| bind_eq_of_ok hrpend <| bind_eq_of_ok (one_align halign) <|
      bind_eq_of_ok hrlock <| bind_eq_of_ok (chkDescriptor_memLock hat) <|
      bind_eq_of_ok (firstStop_ok (List.forall_mem_singleton.mpr (shadow_none hagree))) <| bind_eq_of_ok hat <|
      bind_eq_of_ok (chkTags_ok htags) rfl

/-! ## Packets to a queue (R274, R300) -/

theorem State.packetRead_memStep (s : State) (t : Team) (pa : Nat) : s.MemStep (s.packetRead t pa) := by
  unfold State.packetRead
  dsimp only
  split
  · exact (s.access_memStep ..).trans (State.noteHbmError_memStep ..)
  · exact s.access_memStep ..

/-- Outside a chain a word that has waited is ready at once. -/
theorem State.ready_of_noChain (h : s.cur.chain = false) : s.ready c = s.hold c .ready := by
  rw [State.ready, h, if_neg Bool.false_ne_true]

/-- R274: the checks of an `enq` pass, and it offers the packet that it has read. -/
theorem enqueue_offers {t : State} {p a pa tag : Nat} (hi : s.issues c) (hnew : c.offering = none)
    (hr : c.ready s [rdS a 0, rdS (a + 1) 0, rdS (a + 2) 0] = true)
    (hq : (c.scal (a + 2)).toNat < 2 ^ 16) (hcount : (c.scal (a + 2)).toNat < (s.part c.t.part).qcount)
    (halign : c.pair a % 64 = 0) (hlock : s.memLockSub c.t.id (c.pair a) 64 false = 0)
    (hat : c.locate s (c.pair a) 64 rightsR = .at_ pa tag) (hroute : (s.die (dieOf c.t.core)).rtbusy ≠ some c.t.part)
    (hfirst : s.outstanding (s.earlier c.t.id c.g.num c.sl 4) = false)
    (hoffer : (s.packetRead c.t pa).offer c p ((c.scal (a + 2)).toNat ::
      (List.range 16).map (fun i => s.readMem tag (pa + 4 * i) 4)) = .ok t) (hc : t.calm c) :
    enqueue s p a = .next t := by
  rw [enqueue]
  refine word_calm hi (refs_ready hi hr) ?checks hc
  case checks =>
    rw [hnew]
    refine bind_eq_of_ok (Ctx.check_ok hr) <| (if_neg (not_or.mpr ⟨Nat.not_le.mpr hq, Nat.not_le.mpr hcount⟩)).trans <|
      bind_eq_of_ok (one_align halign) <| bind_eq_of_ok (one_memLock hlock) <|
      bind_eq_of_ok (translateAll_ok (one_served hat) hroute) <| (if_neg (by simp [hfirst])).trans ?_
    rw [one_places hat]
    exact hoffer

section

variable {v w t : State} {q p : Nat} {ws : List Nat} {x : QEntry} (hv : v.qentry c.t.part q = (w, some x)) (hw : w.held = false)

include hv hw

/-- R274, R300: with room the packet is submitted, and the form with a predicate says so. -/
theorem offer_room (hroom : x.room = true) (ht : t = w.submit c.t.part q x ws) (hheld : t.held = false)
    (hchain : t.cur.chain = false) :
    v.offer c p (q :: ws) = .ok (((if p = 7 then t else t.putPred c p (fun _ => true)).adv c 1).hold c .ready) := by
  have hcur : ((if p = 7 then t else t.putPred c p (fun _ => true)).adv c 1).cur.chain = false := by
    rw [State.adv_cur]
    split
    · exact hchain
    · rw [State.putPred, State.modG_cur, hchain]
  rw [offer_some hv, ← ht, hw, hheld, if_neg Bool.false_ne_true, if_pos hroom, if_neg Bool.false_ne_true,
    State.ready_of_noChain hcur]

/-- R274: without room the form with a predicate passes on and says so. -/
theorem offer_full (hfull : x.room = false) (hp : p ≠ 7) (hchain : w.cur.chain = false) :
    v.offer c p (q :: ws) = .ok (((w.putPred c p (fun _ => false)).adv c 1).hold c .ready) := by
  have hcur : ((w.putPred c p (fun _ => false)).adv c 1).cur.chain = false := by
    rw [State.adv_cur, State.putPred, State.modG_cur, hchain]
  rw [offer_some hv, hw, hfull, if_neg Bool.false_ne_true, if_neg Bool.false_ne_true, if_neg hp, State.ready_of_noChain hcur]

end

end

/-- Settles O30: `bump` and `append` pass their checks and send to the descriptor's home; `enq` offers the packet that it has read, and
the queue's entry says whether there is room. -/
theorem listResults : Obligations.ListResults := by
  unfold Obligations.ListResults
  refine ⟨fun s c k f p d a pa tag hi => ⟨?bump, ?append⟩, ?enq⟩
  case bump =>
    intro hr hlanes hnew halign hat htags
    exact bump_next hi hr hlanes hnew halign hat htags k
  case append =>
    intro e he hb hlanes hf hr hagree halign hat ps hps htags
    have hform : exec e.1 s = append s e.2 f p d a := by
      fin_cases he <;> rfl
    rw [hform]
    exact append_next hi rfl hb hlanes hf hr hagree halign hat hps htags
  case enq =>
    intro s v w c k p a pa tag x hi hnew hp hr hq hcount halign hlock hat hroute hfirst hv hentry hw t ht
    subst hv
    have hread : s.MemStep w := by
      have h := (s.packetRead_memStep c.t pa).trans (State.qentry_memStep _ c.t.part (c.scal (a + 2)).toNat)
      rwa [hentry] at h
    obtain ⟨hteams, hcur, -⟩ := hread
    have hcalm : w.calm c := calm_of_teams hi.calm hteams
    have hchain : w.cur.chain = false := by rw [hcur, hi.noChain]
    have henq {n : Nat} {u : State} := enqueue_offers (p := n) (t := u) hi hnew hr hq hcount halign hlock hat hroute hfirst
    refine ⟨fun hroom hheld => ?room, fun hfull => ?full⟩
    case room =>
      have hsubmit : w.MemStep t := ht ▸ w.submit_memStep ..
      obtain ⟨hteams', hcur', -⟩ := hsubmit
      have hcalm' : t.calm c := calm_of_teams hcalm hteams'
      have hoffer (n : Nat) := offer_room (p := n) hentry hw hroom ht hheld (by rw [hcur', hchain])
      refine ⟨?blocking, ?reporting⟩
      case blocking =>
        rw [exec_enq, execEnq]
        exact henq (hoffer 7) (calm_hold (calm_adv hcalm' 1) _)
      case reporting =>
        rw [exec_enqPred, execEnqPred]
        refine henq ((hoffer p).trans ?_) (calm_hold (calm_adv (calm_putPred hcalm' p _) 1) _)
        rw [if_neg hp]
    case full =>
      rw [exec_enqPred, execEnqPred]
      exact henq (offer_full hentry hw hfull hp hchain) (calm_hold (calm_adv (calm_putPred hcalm p _) 1) _)

end Sys2Proof.Machine
end

section
/-! SUPPORT. The start of an `inv`, R162, R163: the checks that pass. -/

namespace Sys2Proof.Machine

open Sys2Proof

/-- Settles O29: each check of R162 passes, since operands that are ready are so in whatever order a check takes them, and locking the
rows leaves the group calm. -/
theorem inversionResults : Obligations.InversionResults := by
  unfold Obligations.InversionResults
  intro s c k ix v f ws rs hi hrout hr hrows hroom lane hlane
  subst hlane
  have hsorted (n : Nat) := mem_sortBy (fun a b => decide (a < b)) (f.reads rs) n
  obtain ⟨hreads, hwrites⟩ := ready_app.mp hr
  obtain ⟨hscals, hread⟩ := ready_app.mp hreads
  have hrd : c.ready s ((sortBy (fun a b => decide (a < b)) (f.reads rs)).map (fun n => rdV n 0)) = true :=
    ready_of_all hread (by simp [hsorted])
  obtain ⟨-, huninit, -, -⟩ := chk4 (ready_app.mpr ⟨hscals, hrd⟩)
  obtain ⟨-, -, -, hlock⟩ := chk4 (ready_app.mpr ⟨hrd, hwrites⟩)
  obtain ⟨-, -, hpend, -⟩ := chk4 (ready_app.mpr ⟨ready_app.mpr ⟨hrd, hwrites⟩, hscals⟩)
  obtain ⟨hbound, -⟩ := chk4 hscals
  rw [exec_inv, execInv]
  refine word_calm hi ?refs ?checks ?calm
  case refs =>
    simp only [hrout]
    exact refs_ready hi hreads
  case checks =>
    refine bind_eq_of_ok hrout <| bind_eq_of_ok (chkBound_ok ?rows) <| bind_eq_of_ok hbound <| bind_eq_of_ok huninit <|
      bind_eq_of_ok hpend <| bind_eq_of_ok hlock <| guard_eq_of_not (by simp [hroom]) rfl
    case rows =>
      simpa [mem_sortBy] using hrows
  case calm =>
    refine calm_modG (calm_of_teams hi.calm ?teams) ?num ?trapping
    case teams => rfl
    case num | trapping => exact fun _ => rfl

end Sys2Proof.Machine
end

section
/-! SUPPORT. The rounds of an `inv` (R168), the return of a Carder read (R291) and the step limit of a walk (R293): each by what it does
when its condition holds. -/

namespace Sys2Proof.Machine

open Sys2Proof

section

variable {s : State} {n i : Nat} {t : Team}

/-! ## Walks (R291, R293) -/

section

variable {w : Walk} (hw : s.walk? n = some w) (ht : s.team? w.team = some t)

include hw ht

/-- R293: a walk that has executed its steps ends, once its reads have returned. -/
theorem walkStepLimit_ends (hlimit : s.atLimit w = true) (hreads : w.reads = []) :
    exec (.walkStepLimit n) s = .next (s.walkEnds w (s.walkStop t w)) := by
  simp only [exec_walkStepLimit, execWalkStepLimit, hw, ht, hlimit, hreads, List.isEmpty_nil, and_self, if_true]

section

variable {r : CRead} {o : Op} (hr : w.reads.find? (fun r => decide (r.id = i)) = some r) (ho : s.op? w.op = some o)
  (hready : s.opReady o = true) (hheld : s.engineHeld t r.va 1 = false)

include hr ho hready hheld

/-- R291: a read that succeeds writes its register. -/
theorem carderReadReturn_value {v : Nat} (hv : s.engineRead t 3 r.va r.size = .ok v) :
    exec (.carderReadReturn n i) s = .next ((s.noteSector t r.va).putWalk
      { w with regs := w.regs.set r.reg v, reads := w.reads.filter (fun q => q.id != i) }) := by
  simp [execCarderReadReturn, hw, ht, hr, ho, hready, hheld, hv]

/-- R291: a read that fails with a fault to record ends the walk with its code. -/
theorem carderReadReturn_recorded {f : SecFault} {e : FaultRec} (hf : s.engineRead t 3 r.va r.size = .error f)
    (hrec : f.rec_ = some e) :
    exec (.carderReadReturn n i) s = .next ((s.opFault o e).walkEnds w (some (f.code, xfinfo f.va 2))) := by
  simp [execCarderReadReturn, hw, ht, hr, ho, hready, hheld, hf, hrec]

/-- R291: a read that fails without one ends the walk with its code too. -/
theorem carderReadReturn_unrecorded {f : SecFault} (hf : s.engineRead t 3 r.va r.size = .error f) (hrec : f.rec_ = none) :
    exec (.carderReadReturn n i) s = .next ((s.noteSector t f.va).walkEnds w (some (f.code, xfinfo f.va 2))) := by
  simp [execCarderReadReturn, hw, ht, hr, ho, hready, hheld, hf, hrec]

end

end

/-! ## Rounds of `inv` (R168) -/

/-- The lanes of an `inv` after a round, and the state their evaluations leave: a lane that is finished stands as it is. -/
def State.lanesRound (s : State) (core : Nat) (g : Group) (f : InvForm) (iv : InvState) (rs : List Rout) : State × List InvLane :=
  iv.lanes.foldl (fun (a : State × List InvLane) x => if x.fin then (a.1, a.2 ++ [x])
    else ((a.1.laneRound core g f iv rs x).1, a.2 ++ [(a.1.laneRound core g f iv rs x).2])) (s, [])

section

variable {g : Group} {iv : InvState} {f : InvForm} {rs : List Rout} {j : Nat}

/-- The candidate that waits for the rounds of an `inv` names it. -/
theorem Group.invAt_waiting (hc : (g.cand? j).map (fun (c : Cand) => c.wait) = some (.inv iv.lock)) (hiv : g.invOf iv.lock = some iv) :
    g.invAt j = some iv := by
  simp only [Group.invAt, hc, hiv]

/-- R168: where what the lanes read is sound, a round takes each of them one evaluation on, and ends the `inv` with the last. -/
theorem State.invRound_sound {v : InvState} (hg : t.group? i = some g) (hs : s.group? t.id i = some g) (hiv : g.invOf iv.lock = some iv)
    (hf : f = invForm iv.entry) (hrs : rs = routines iv.words)
    (hsound : s.settle t.id i t.core (f.roundRefs g rs ((iv.lanes.filter (fun x => !x.fin)).map (fun x => x.lane))) = s)
    (hv : v = { iv with lanes := (s.lanesRound t.core g f iv rs).2, round := iv.round + 1, left := iv.words.length + 2 }) :
    s.invRound t i iv = if (s.lanesRound t.core g f iv rs).2.all (fun x => x.fin)
      then (s.lanesRound t.core g f iv rs).1.invEnds t.id i (g.putInv iv.lock (some v)) f v
      else (s.lanesRound t.core g f iv rs).1.putGroup t.id (g.putInv iv.lock (some v)) := by
  subst hf hrs hv
  simp only [State.invRound, hg, hsound, hs, hiv]
  rfl

/-- R168: the round of an `inv` whose cycles have issued. -/
theorem invRound_takes (ht : s.team? n = some t) (hengaged : t.engaged = true) (hg : t.group? i = some g)
    (hc : (g.cand? j).map (fun (c : Cand) => c.wait) = some (.inv iv.lock)) (hiv : g.invOf iv.lock = some iv) (hleft : iv.left = 0) :
    exec (.invRound n i j) s = .next (s.invRound t i iv) := by
  simp [execInvRound, ht, hg, Group.invAt_waiting hc hiv, hleft, hengaged]

end

end

/-- Settles O40: each event by its condition. -/
theorem walkEvents : Obligations.WalkEvents := by
  unfold Obligations.WalkEvents
  refine fun s n i => ⟨fun w hw t ht => ⟨walkStepLimit_ends hw ht, fun r o hr ho hready hheld => ⟨?value, ?fault⟩⟩, ?round⟩
  case value =>
    exact fun v hv => carderReadReturn_value hw ht hr ho hready hheld hv
  case fault =>
    intro f hf
    cases hrec : f.rec_ with
    | some e => exact carderReadReturn_recorded hw ht hr ho hready hheld hf hrec
    | none => exact carderReadReturn_unrecorded hw ht hr ho hready hheld hf hrec
  case round =>
    intro t g iv j ht hengaged hg hc hiv hleft f rs hf hrs hsound a v ha hv
    obtain rfl := team?_id ht
    obtain rfl : a = s.lanesRound t.core g f iv rs := ha
    have hs : s.group? t.id i = some g := by rw [State.group?, ht, Option.bind_some, hg]
    rw [invRound_takes ht hengaged hg hc hiv hleft, State.invRound_sound hg hs hiv hf hrs hsound hv]

end Sys2Proof.Machine
end

section
/-! SUPPORT. The clause header at the start of its clause (R172, R174), and `nop` (R226). -/

namespace Sys2Proof.Machine

open Sys2Proof

/-- R174: the flags that a wait mask names are clear. -/
theorem Group.flagsClear_iff {g : Group} {w : Nat} :
    g.flagsClear w = true ↔ ∀ i < 12, nbit w i = true → g.flags.getD i 0 = 0 := by
  simp only [Group.flagsClear, List.all_eq_true, List.mem_range, Bool.or_eq_true, Bool.not_eq_true', ← Bool.not_eq_true,
    beq_iff_eq, ← imp_iff_not_or]

/-- R172: the values of a set-flag field. -/
theorem setOk_iff {f : Nat} : setOk f = true ↔ f < 12 ∨ f = 15 := by
  simp only [setOk, Bool.or_eq_true, decide_eq_true_eq]

theorem setOk_reserved {f : Nat} (h : 12 ≤ f ∧ f < 15) : setOk f = false := by
  rw [← Bool.not_eq_true, setOk_iff]
  omega

section

variable {s : State} {c : Ctx} (hi : s.issues c) {w a b : Nat}

include hi

theorem nop_next : exec .nop s = .next (s.adv c 1) := by
  rw [exec_nop, execNop]
  exact word_calm hi refs_nil rfl (calm_adv hi.calm 1)

variable (hslot : c.pc.slot = 0) (hend : (c.g.slice (c.sl.headD 0)).hdrEnd ≤ c.pc.packet)
  (hflags : ∀ i < 12, nbit w i = true → c.g.flags.getD i 0 = 0)

include hslot hend hflags

omit hi in
/-- At a clause start whose flags are clear, a header neither is misplaced nor waits. -/
theorem clause_admitted : ¬(c.pc.slot ≠ 0 ∨ c.pc.packet < (c.g.slice (c.sl.headD 0)).hdrEnd) ∧ ¬c.g.flagsClear w = false := by
  rw [not_or, not_ne_iff, not_lt, Bool.not_eq_false]
  exact ⟨⟨hslot, hend⟩, Group.flagsClear_iff.mpr hflags⟩

theorem clause_next (ha : a < 12 ∨ a = 15) (hb : b < 12 ∨ b = 15) (l y : Nat) : exec (.clause w a b l y) s =
    .next (s.modG c (fun g => g.startClause c.sl c.pc (headerWord w a b l y) l y (s.clk (dieOf c.t.core)))) := by
  obtain ⟨hplace, hclear⟩ := clause_admitted hslot hend hflags
  have hset : ¬(setOk a = false ∨ setOk b = false) := by
    rw [not_or, Bool.not_eq_false, Bool.not_eq_false]
    exact ⟨setOk_iff.mpr ha, setOk_iff.mpr hb⟩
  rw [exec_clause, execClause]
  refine word_calm hi refs_nil ?_ (calm_modG hi.calm (fun _ => rfl) (fun _ => rfl))
  rw [if_neg hplace, if_neg hclear, if_neg hset]

theorem clause_setReserved (h : setOk a = false ∨ setOk b = false) (l y : Nat) :
    exec (.clause w a b l y) s = .next (s.trapped c 1 (infoSub 4)) := by
  obtain ⟨hplace, hclear⟩ := clause_admitted hslot hend hflags
  rw [exec_clause, execClause]
  refine word_traps hi refs_nil ?_
  rw [if_neg hplace, if_neg hclear]
  exact guard_eq_of h

end

/-- Settles O11: the header passes its place and its flags, and its set-flag fields decide. -/
theorem clauseResults : Obligations.ClauseResults := by
  unfold Obligations.ClauseResults
  intro s c w a b l y hi
  refine ⟨nop_next hi, fun hslot hend hflags => ⟨fun ha hb => ?opens, fun hres => ?traps⟩⟩
  case opens => exact clause_next hi hslot hend hflags ha hb l y
  case traps => exact clause_setReserved hi hslot hend hflags (hres.imp setOk_reserved setOk_reserved) l y

end Sys2Proof.Machine
end

section
/-! SUPPORT. Fields of a word, and layouts: the fields of an encoding below its opcode (R5, R170). -/

namespace Sys2Proof

/-! ## Fields of a word (R5, R170) -/

theorem fld_lt {w lo n k : Nat} (h : 2 ^ n ≤ k) : fld w lo n < k := (Nat.mod_lt _ (by positivity)).trans_le h

/-- Two fields side by side make one. -/
theorem fld_add (w lo n m : Nat) : fld w lo (n + m) = fld w lo n + 2 ^ n * fld w (lo + n) m := by
  simp only [fld, Nat.pow_add, Nat.mod_mul, Nat.div_div_eq_div_mul]

/-- A number has one quotient and one remainder. -/
theorem digit_eq_iff {p x y a b : Nat} (hx : x < p) (hy : y < p) : x + p * a = y + p * b ↔ a = b ∧ x = y := by
  have hp : 0 < p := by omega
  constructor
  · intro h
    obtain ⟨hdiv, hmod⟩ := (Nat.div_mod_unique hp).mpr ⟨rfl, hx⟩
    rw [h] at hdiv hmod
    rw [← hdiv, ← hmod, Nat.add_mul_div_left _ _ hp, Nat.add_mul_mod_self_left, Nat.div_eq_of_lt hy, Nat.mod_eq_of_lt hy]
    exact ⟨Nat.zero_add b, rfl⟩
  · rintro ⟨rfl, rfl⟩
    rfl

/-- Two words agree on a field when they agree on its two parts. -/
theorem fld_add_eq_iff {w v lo n m : Nat} :
    fld w lo (n + m) = fld v lo (n + m) ↔ fld w (lo + n) m = fld v (lo + n) m ∧ fld w lo n = fld v lo n := by
  rw [fld_add, fld_add, digit_eq_iff (fld_lt le_rfl) (fld_lt le_rfl)]

/-- The fields of an encoding below its opcode, the highest first: the lowest bit and the width of each, and what stands in
it, where it is not reserved. -/
abbrev Layout := List (Nat × Nat × Option Nat)

namespace Layout

/-- The fields fill the bits below `k`. -/
def fills (k : Nat) : Layout → Bool
  | [] => decide (k = 0)
  | (lo, n, _) :: r => decide (lo + n = k) && fills lo r

/-- The fields added to what stands above them. -/
def put (acc : Nat) : Layout → Nat
  | [] => acc
  | (_, _, none) :: r => put acc r
  | (lo, _, some x) :: r => put (acc + if lo = 0 then x else x * 2 ^ lo) r

/-- Each value fits its field. -/
def fits (b : Bool) : Layout → Bool
  | [] => b
  | (_, _, none) :: r => fits b r
  | (_, n, some x) :: r => fits (b && decide (x < 2 ^ n)) r

/-- The fields of `w` are those of the layout. -/
@[reducible] def holds (w : Nat) : Layout → Prop
  | [] => True
  | (lo, n, x) :: r => fld w lo n = x.getD 0 ∧ holds w r

theorem put_eq_add (acc : Nat) (l : Layout) : l.put acc = acc + l.put 0 := by
  induction l generalizing acc with
  | nil => rfl
  | cons e r ih =>
    obtain ⟨lo, n, x⟩ := e
    cases x with
    | none => exact ih acc
    | some x => rw [put, ih, put, ih (0 + _)]; omega

theorem fits_eq_and (b : Bool) (l : Layout) : l.fits b = (b && l.fits true) := by
  induction l generalizing b with
  | nil => simp [fits]
  | cons e r ih =>
    obtain ⟨lo, n, x⟩ := e
    cases x with
    | none => exact ih b
    | some x => rw [fits, ih, fits, ih (true && _), Bool.true_and, Bool.and_assoc]

/-- The highest field is added to the fields below it. -/
theorem put_cons (lo n : Nat) (x : Option Nat) (r : Layout) : put 0 ((lo, n, x) :: r) = x.getD 0 * 2 ^ lo + put 0 r := by
  cases x with
  | none => simp [put]
  | some x =>
    rw [put, put_eq_add]
    split <;> simp [*]

theorem fits_cons (lo n : Nat) (x : Option Nat) (r : Layout) :
    fits true ((lo, n, x) :: r) = true ↔ x.getD 0 < 2 ^ n ∧ r.fits true = true := by
  cases x with
  | none => simp [fits]
  | some x => rw [fits, fits_eq_and]; simp

theorem fills_cons {k lo n : Nat} {x : Option Nat} {r : Layout} :
    fills k ((lo, n, x) :: r) = true ↔ k = lo + n ∧ r.fills lo = true := by
  rw [fills, Bool.and_eq_true, decide_eq_true_eq, eq_comm]

theorem put_lt {l : Layout} {k : Nat} (hl : l.fills k = true) (h : l.fits true = true) : l.put 0 < 2 ^ k := by
  induction l generalizing k with
  | nil => simp [put]
  | cons e r ih =>
    obtain ⟨lo, n, x⟩ := e
    obtain ⟨rfl, hfill⟩ := fills_cons.mp hl
    obtain ⟨hx, hr⟩ := (fits_cons ..).mp h
    have hlow := ih hfill hr
    have hhigh : (x.getD 0 + 1) * 2 ^ lo ≤ 2 ^ n * 2 ^ lo := Nat.mul_le_mul_right _ hx
    rw [put_cons, Nat.add_comm lo, Nat.pow_add]
    linarith

/-- Values that fit their fields, added up, are the low bits of a word exactly when they are its fields. -/
theorem holds_iff {w k : Nat} {l : Layout} (hl : l.fills k = true) : l.holds w ↔ l.fits true = true ∧ l.put 0 = w % 2 ^ k := by
  induction l generalizing k with
  | nil =>
    obtain rfl : k = 0 := by simpa [fills] using hl
    simp [holds, fits, put, Nat.mod_one]
  | cons e r ih =>
    obtain ⟨lo, n, x⟩ := e
    obtain ⟨rfl, hfill⟩ := fills_cons.mp hl
    have hsplit : w % 2 ^ (lo + n) = w % 2 ^ lo + 2 ^ lo * fld w lo n := by
      rw [Nat.pow_add, Nat.mod_mul, fld]
    rw [holds, ih hfill, fits_cons, put_cons, hsplit]
    constructor
    · rintro ⟨hx, hr, hput⟩
      exact ⟨⟨hx ▸ fld_lt le_rfl, hr⟩, by rw [hx, hput, Nat.add_comm, Nat.mul_comm]⟩
    · rintro ⟨⟨-, hr⟩, hput⟩
      rw [Nat.add_comm, Nat.mul_comm, digit_eq_iff (put_lt hfill hr) (Nat.mod_lt _ (Nat.two_pow_pos _))] at hput
      exact ⟨hput.1.symm, hr, hput.2⟩

end Layout

end Sys2Proof
end

section
/-! SUPPORT. When a word, or a word and its literal, is the encoding of a well-formed instruction (R171, R176, R177). -/

namespace Sys2Proof

/-! ## Words and instructions -/

/-- The word `w` with the next slot `lit` is the encoding of `i`, which is well-formed. -/
def Instr.stands (i : Instr) (slot w lit : Nat) : Prop :=
  i.wf = true ∧ (encode i = [w] ∨ slot ≠ 2 ∧ encode i = [w, lit])

/-- What follows a word as its literal (R177). -/
def Literal (slot lit : Nat) (t : List Nat) : Prop := t = [] ∨ slot ≠ 2 ∧ t = [lit]

theorem Instr.stands_iff_of_encode {i : Instr} {slot w lit v : Nat} {t : List Nat} (h : encode i = v :: t) :
    i.stands slot w lit ↔ i.wf = true ∧ v = w ∧ Literal slot lit t := by
  simp only [Instr.stands, Literal, h, List.cons.injEq]
  tauto

/-- A step without an encoding stands in no word. -/
theorem Instr.not_stands_of_encode {i : Instr} {slot w lit : Nat} (h : encode i = []) : ¬i.stands slot w lit := by
  rintro ⟨-, hword | ⟨-, hword⟩⟩ <;> rw [h] at hword <;> cases hword

/-- A number with nothing outside the `n` bits from `lo` up. -/
theorem dvd_and_lt_of_fld {K lo n : Nat} (h : fld K lo n * 2 ^ lo = K) : 2 ^ lo ∣ K ∧ K < 2 ^ (lo + n) := by
  refine ⟨⟨fld K lo n, (Nat.mul_comm ..).trans h |>.symm⟩, ?_⟩
  rw [← h, Nat.add_comm, Nat.pow_add]
  exact Nat.mul_lt_mul_of_pos_right (fld_lt le_rfl) (Nat.two_pow_pos lo)

/-- A word is the bits above a place and the bits below it. -/
theorem word_eq_iff {B lo b w : Nat} (hw : w < 2 ^ 32) (hlo : lo ≤ 32) (hdvd : 2 ^ lo ∣ B) (hB : B < 2 ^ 32) (hb : b < 2 ^ lo) :
    B + b = w ↔ fld w lo (32 - lo) = fld B lo (32 - lo) ∧ b = w % 2 ^ lo := by
  have hsplit : ∀ v < 2 ^ 32, v = v % 2 ^ lo + 2 ^ lo * fld v lo (32 - lo) := fun v hv => by
    have hall := fld_add v 0 lo (32 - lo)
    rwa [Nat.add_sub_cancel' hlo, Nat.zero_add, fld, fld, Nat.pow_zero, Nat.div_one, Nat.mod_eq_of_lt hv] at hall
  have hbase := hsplit B hB
  rw [Nat.mod_eq_zero_of_dvd hdvd, Nat.zero_add] at hbase
  calc B + b = w
    _ ↔ b + 2 ^ lo * fld B lo (32 - lo) = w % 2 ^ lo + 2 ^ lo * fld w lo (32 - lo) := by
      rw [← hsplit w hw, ← hbase, Nat.add_comm]
    _ ↔ _ := by rw [digit_eq_iff hb (Nat.mod_lt _ (Nat.two_pow_pos lo)), eq_comm (a := fld B lo _)]

/-- The bits above the fields of a main-stream word: the chain bit, the major and the `n` bits below it (R171, R179). -/
@[reducible] def OpcodeIs (w K : Nat) (k : Bool) (lo n : Nat) : Prop :=
  decide (fld w 31 1 = 1) = k ∧ fld w 26 5 = fld K 26 5 ∧ fld w lo n = fld K lo n

theorem chain_eq_iff (w : Nat) (k : Bool) : fld w 31 1 = k.toNat ↔ decide (fld w 31 1 = 1) = k := by
  have hbit : fld w 31 1 < 2 := fld_lt le_rfl
  cases k
  · rw [decide_eq_false_iff_not, Bool.toNat_false]
    omega
  · rw [decide_eq_true_iff, Bool.toNat_true]

theorem dvd_chain {lo : Nat} (k : Bool) (h : lo ≤ 31) : 2 ^ lo ∣ k.toNat * 2147483648 :=
  (Nat.pow_dvd_pow 2 h).trans (Nat.dvd_mul_left ..)

/-- A chain bit above an opcode leaves the fields of the opcode. -/
theorem fld_add_chain {K lo n : Nat} (k : Bool) (h : lo + n ≤ 31) : fld (K + k.toNat * 2147483648) lo n = fld K lo n := by
  obtain ⟨q, hq⟩ := dvd_chain k h
  rw [hq, fld, Nat.pow_add, Nat.mul_assoc, Nat.add_mul_div_left _ _ (Nat.two_pow_pos lo), Nat.add_mul_mod_self_left, fld]

theorem opcodeIs_iff {w K lo n : Nat} (k : Bool) (hn : lo + n = 26) (hK : K < 2147483648) :
    fld w lo (32 - lo) = fld (K + k.toNat * 2147483648) lo (32 - lo) ↔ OpcodeIs w K k lo n := by
  have htop : fld (K + k.toNat * 2147483648) 31 1 = k.toNat := by
    have := k.toNat_lt
    simp only [fld]
    omega
  rw [show 32 - lo = n + 5 + 1 by omega, fld_add_eq_iff, fld_add_eq_iff, show lo + (n + 5) = 31 by omega, hn, htop,
    fld_add_chain k (by decide), fld_add_chain k (by omega), chain_eq_iff]

/-- The checks of a form beyond the widths of its fields all pass. -/
@[reducible] def Checks : List Bool → Prop
  | [] => True
  | e :: es => e = true ∧ Checks es

theorem foldl_and_iff (es : List Bool) (b : Bool) : es.foldl and b = true ↔ b = true ∧ Checks es := by
  induction es generalizing b with
  | nil => simp [Checks]
  | cons e r ih => rw [List.foldl_cons, ih, Bool.and_eq_true, and_assoc]

section

variable {i : Instr} {slot w lit K B : Nat} {k : Bool} {t : List Nat} (hw : w < 2 ^ 32)

include hw

/-- A word stands for an instruction when its opcode and its fields are those of the instruction, and what else the form asks
holds. -/
theorem Instr.stands_iff_of_layout {p : Prop} (lo : Nat) (l : Layout) (hl : l.fills lo = true) (hlo : lo ≤ 32)
    (henc : encode i = l.put B :: t) (hwf : i.wf = true ↔ l.fits true = true ∧ p) (hdvd : 2 ^ lo ∣ B) (hB : B < 2 ^ 32) :
    i.stands slot w lit ↔ fld w lo (32 - lo) = fld B lo (32 - lo) ∧ l.holds w ∧ p ∧ Literal slot lit t := by
  rw [Instr.stands_iff_of_encode henc, hwf, Layout.holds_iff hl, Layout.put_eq_add]
  constructor
  · rintro ⟨⟨hfits, hp⟩, hword, ht⟩
    obtain ⟨hop, hput⟩ := (word_eq_iff hw hlo hdvd hB (Layout.put_lt hl hfits)).mp hword
    exact ⟨hop, ⟨hfits, hput⟩, hp, ht⟩
  · rintro ⟨hop, ⟨hfits, hput⟩, hp, ht⟩
    exact ⟨⟨hfits, hp⟩, (word_eq_iff hw hlo hdvd hB (Layout.put_lt hl hfits)).mpr ⟨hop, hput⟩, ht⟩

/-- An instruction without a chain bit stands where the bits of the opcode and the fields are its own. -/
theorem Instr.stands_iff_plain (lo : Nat) (l : Layout) (hl : l.fills lo = true) (hlo : lo ≤ 32) (henc : encode i = [l.put B])
    (hwf : i.wf = l.fits true) (hB : fld B lo (32 - lo) * 2 ^ lo = B) :
    i.stands slot w lit ↔ fld w lo (32 - lo) = fld B lo (32 - lo) ∧ l.holds w := by
  obtain ⟨hdvd, hlt⟩ := dvd_and_lt_of_fld hB
  rw [Nat.add_sub_cancel' hlo] at hlt
  rw [Instr.stands_iff_of_layout hw (p := True) lo l hl hlo henc (by rw [hwf, and_true]) hdvd hlt]
  simp [Literal]

/-- A main-stream instruction, with its literal slot `t` and what its form asks beyond its fields. -/
theorem Instr.stands_iff_main {p : Prop} (lo n : Nat) (l : Layout) (hl : l.fills lo = true) (hn : lo + n = 26)
    (henc : encode i = l.put (K + k.toNat * 2147483648) :: t) (hwf : i.wf = true ↔ l.fits true = true ∧ p)
    (hK : fld K lo (31 - lo) * 2 ^ lo = K) :
    i.stands slot w lit ↔ OpcodeIs w K k lo n ∧ l.holds w ∧ p ∧ Literal slot lit t := by
  obtain ⟨hdvd, hlt⟩ := dvd_and_lt_of_fld hK
  rw [show lo + (31 - lo) = 31 by omega] at hlt
  have := k.toNat_lt
  rw [Instr.stands_iff_of_layout hw lo l hl (by omega) henc hwf (hdvd.add (dvd_chain k (by omega))) (by omega),
    opcodeIs_iff k hn hlt]

/-- A main-stream instruction of one word stands where its opcode and its fields are, if the values that its form excludes, by the
checks `es`, are not among them. -/
theorem Instr.stands_of_fields (lo n : Nat) (l : Layout) (es : List Bool) (hl : l.fills lo = true) (hn : lo + n = 26)
    (henc : encode i = [l.put (K + k.toNat * 2147483648)]) (hwf : i.wf = es.foldl and (l.fits true))
    (hK : fld K lo (31 - lo) * 2 ^ lo = K) (hop : OpcodeIs w K k lo n) (hf : l.holds w) (hes : Checks es) : i.stands slot w lit :=
  (Instr.stands_iff_main hw lo n l hl hn henc (hwf ▸ foldl_and_iff ..) hK).mpr ⟨hop, hf, hes, .inl rfl⟩

omit hw in
theorem Instr.stands.fields (h : i.stands slot w lit) (hw : w < 2 ^ 32) (lo n : Nat) (l : Layout) (es : List Bool)
    (hl : l.fills lo = true) (hn : lo + n = 26) (henc : encode i = [l.put (K + k.toNat * 2147483648)])
    (hwf : i.wf = es.foldl and (l.fits true)) (hK : fld K lo (31 - lo) * 2 ^ lo = K) :
    OpcodeIs w K k lo n ∧ l.holds w ∧ Checks es := by
  obtain ⟨hop, hf, hes, -⟩ := (Instr.stands_iff_main hw lo n l hl hn henc (hwf ▸ foldl_and_iff ..) hK).mp h
  exact ⟨hop, hf, hes⟩

omit hw in
/-- The check `v` of a literal or a short value `z` implies that its field holds it. -/
theorem Instr.wf_iff_of_literal {b v : Bool} {M z : Nat} {l : Layout} (hfit : l.fits true = (b && decide (z < 2 ^ M)))
    (hwf : i.wf = (b && v)) (hz : v = true → z < 2 ^ M) : i.wf = true ↔ l.fits true = true ∧ v = true := by
  simp only [hfit, hwf, Bool.and_eq_true, decide_eq_true_eq]
  exact ⟨fun ⟨hb, h⟩ => ⟨⟨hb, hz h⟩, h⟩, fun ⟨⟨hb, _⟩, h⟩ => ⟨hb, h⟩⟩

/-- A main-stream instruction with a place for a literal: its lowest field is `z` and the literal slot is `t`, and with its check
`v` the value `z` fits. -/
theorem Instr.stands_of_literal {b v : Bool} (M z lo n : Nat) (l : Layout) (hl : l.fills lo = true) (hn : lo + n = 26)
    (henc : encode i = l.put (K + k.toNat * 2147483648) :: t) (hfit : l.fits true = (b && decide (z < 2 ^ M)))
    (hwf : i.wf = (b && v)) (hz : v = true → z < 2 ^ M) (hK : fld K lo (31 - lo) * 2 ^ lo = K)
    (hop : OpcodeIs w K k lo n) (hf : l.holds w) (hv : v = true) (ht : Literal slot lit t) : i.stands slot w lit :=
  (Instr.stands_iff_main hw lo n l hl hn henc (Instr.wf_iff_of_literal hfit hwf hz) hK).mpr ⟨hop, hf, hv, ht⟩

omit hw in
theorem Instr.stands.literal {b v : Bool} (h : i.stands slot w lit) (hw : w < 2 ^ 32) (M z lo n : Nat) (l : Layout)
    (hl : l.fills lo = true) (hn : lo + n = 26) (henc : encode i = l.put (K + k.toNat * 2147483648) :: t)
    (hfit : l.fits true = (b && decide (z < 2 ^ M))) (hwf : i.wf = (b && v)) (hz : v = true → z < 2 ^ M)
    (hK : fld K lo (31 - lo) * 2 ^ lo = K) : OpcodeIs w K k lo n ∧ l.holds w ∧ v = true ∧ Literal slot lit t :=
  (Instr.stands_iff_main hw lo n l hl hn henc (Instr.wf_iff_of_literal hfit hwf hz) hK).mp h

end

/-! ## Literals (R176, R177) -/

/-- The immediate `m` is what a word and its next slot give: the word's low `n` bits, or with the bit above them the literal. -/
def Imm.At (m : Imm) (slot w lit n : Nat) (k : Bool) : Prop :=
  match m with
  | .short v => fld w n 1 = 0 ∧ fld w 0 n = v
  | .lit x => fld w n 1 = 1 ∧ fld w 0 n = 0 ∧ ¬(slot = 2 ∨ k = true) ∧ lit = x

/-- The target `o` is what a word and its next slot give: the word's low `n` bits, or with the literal code in them the literal. -/
def Tgt.At (o : Tgt) (slot w lit n : Nat) (k : Bool) : Prop :=
  match o with
  | .off v => fld w 0 n ≠ 2 ^ (n - 1) ∧ fld w 0 n = v
  | .lit x => fld w 0 n = 2 ^ (n - 1) ∧ ¬(slot = 2 ∨ k = true) ∧ lit = x

section

variable {slot w lit n : Nat} {k : Bool}

/-- A literal stands in the next slot, where there is one and the word is in no chain. -/
theorem literal_iff (hlit : lit < 2 ^ 32) {x : Nat} :
    (!k && decide (x < 4294967296)) = true ∧ Literal slot lit [x] ↔ ¬(slot = 2 ∨ k = true) ∧ lit = x := by
  simp only [Literal, Bool.and_eq_true, Bool.not_eq_true', decide_eq_true_eq, reduceCtorEq, false_or, List.cons.injEq, and_true,
    not_or, Bool.not_eq_true]
  constructor
  · rintro ⟨⟨hk, -⟩, hslot, rfl⟩
    exact ⟨⟨hslot, hk⟩, rfl⟩
  · rintro ⟨⟨hslot, hk⟩, rfl⟩
    exact ⟨⟨hk, hlit⟩, hslot, rfl⟩

theorem Imm.at_iff (hlit : lit < 2 ^ 32) {m : Imm} :
    m.At slot w lit n k ↔ fld w 0 (n + 1) = m.field (2 ^ n) ∧ m.wf k (2 ^ n) = true ∧ Literal slot lit m.literal := by
  have hlow : fld w 0 n < 2 ^ n := fld_lt le_rfl
  have hfield : ∀ b y, y < 2 ^ n → (fld w 0 (n + 1) = y + 2 ^ n * b ↔ fld w n 1 = b ∧ fld w 0 n = y) := fun b y hy => by
    rw [fld_add, Nat.zero_add, digit_eq_iff hlow hy]
  cases m with
  | short v =>
    have := hfield 0 v
    simp only [Imm.At, Imm.field, Imm.wf, Imm.literal, Literal, decide_eq_true_eq, true_or, and_true]
    constructor
    · rintro ⟨hbit, rfl⟩
      exact ⟨(this hlow).mpr ⟨hbit, rfl⟩, hlow⟩
    · exact fun ⟨h, hv⟩ => (this hv).mp h
  | lit x =>
    have := hfield 1 0 (Nat.two_pow_pos n)
    rw [Nat.zero_add, Nat.mul_one] at this
    simp only [Imm.At, Imm.field, Imm.wf, Imm.literal, literal_iff hlit, this, and_assoc]

theorem Tgt.at_iff (hlit : lit < 2 ^ 32) (hn : 0 < n) {o : Tgt} :
    o.At slot w lit n k ↔ fld w 0 n = o.field (2 ^ (n - 1)) ∧ o.wf k (2 ^ (n - 1)) = true ∧ Literal slot lit o.literal := by
  cases o with
  | off v =>
    have hpow : 2 * 2 ^ (n - 1) = 2 ^ n := by rw [← Nat.pow_succ', Nat.succ_eq_add_one, Nat.sub_add_cancel hn]
    simp only [Tgt.At, Tgt.field, Tgt.wf, Tgt.literal, Literal, Bool.and_eq_true, decide_eq_true_eq, true_or, and_true, hpow]
    constructor
    · rintro ⟨hne, rfl⟩
      exact ⟨rfl, fld_lt le_rfl, hne⟩
    · rintro ⟨rfl, -, hne⟩
      exact ⟨hne, rfl⟩
  | lit x => simp only [Tgt.At, Tgt.field, Tgt.wf, Tgt.literal, literal_iff hlit]

end

/-- An immediate fits the field with its literal bit. -/
theorem Imm.field_lt {m : Imm} {k : Bool} {n : Nat} (h : m.wf k (2 ^ n) = true) : m.field (2 ^ n) < 2 ^ (n + 1) := by
  have hpos := Nat.two_pow_pos n
  rw [Nat.pow_succ]
  cases m with
  | short v =>
    have hv : v < 2 ^ n := of_decide_eq_true h
    simp only [Imm.field]
    omega
  | lit x =>
    simp only [Imm.field]
    omega

/-- A target fits its field. -/
theorem Tgt.field_lt {o : Tgt} {k : Bool} {n : Nat} (h : o.wf k (2 ^ n) = true) : o.field (2 ^ n) < 2 ^ (n + 1) := by
  have hpos := Nat.two_pow_pos n
  rw [Nat.pow_succ']
  cases o with
  | off v =>
    rw [Tgt.wf, Bool.and_eq_true, decide_eq_true_eq] at h
    exact h.1
  | lit x =>
    simp only [Tgt.field]
    omega

/-! ## What a decoder answers -/

/-- A check that passes leaves the rest of the decoder. -/
theorem pass_guard {α : Type} {p : Prop} [Decidable p] {e d r : α} (h : ¬p) (hd : d = r) : (if p then e else d) = r := by
  rw [if_neg h, hd]

theorem pass_reserved {α : Type} {x : Nat} {e d r : α} (h : x = 0) (hd : d = r) : (if x ≠ 0 then e else d) = r :=
  pass_guard (not_not.mpr h) hd

/-- An instruction that a decoder answers stands in the word. -/
def Decoded.Sound (slot w lit : Nat) : Decoded → Prop
  | .ok i => i.stands slot w lit
  | .illegal _ => True

namespace Decoded

variable {slot w lit n sub : Nat} {k : Bool} {d : Decoded}

theorem sound_guard {p : Prop} [Decidable p] (h : ¬p → d.Sound slot w lit) :
    (if p then illegal sub else d).Sound slot w lit := by
  split
  · trivial
  · exact h ‹_›

/-- A check that a reserved field is 0. -/
theorem sound_reserved {x : Nat} (h : x = 0 → d.Sound slot w lit) : (if x ≠ 0 then illegal sub else d).Sound slot w lit :=
  sound_guard fun h0 => h (not_not.mp h0)

theorem sound_imm {f : Imm → Instr} (h : ∀ m : Imm, m.At slot w lit n k → (f m).stands slot w lit) :
    (if fld w n 1 = 0 then ok (f (.short (fld w 0 n))) else if fld w 0 n ≠ 0 then illegal 3
      else if slot = 2 ∨ k = true then illegal 5 else ok (f (.lit lit))).Sound slot w lit := by
  split
  · exact h _ ⟨‹_›, rfl⟩
  · have hbit : fld w n 1 < 2 := fld_lt le_rfl
    exact sound_reserved fun h0 => sound_guard fun hlit => h _ ⟨by omega, h0, hlit, rfl⟩

theorem imm_eq {f : Imm → Instr} {m : Imm} (h : m.At slot w lit n k) :
    (if fld w n 1 = 0 then ok (f (.short (fld w 0 n))) else if fld w 0 n ≠ 0 then illegal 3
      else if slot = 2 ∨ k = true then illegal 5 else ok (f (.lit lit))) = ok (f m) := by
  cases m with
  | short v =>
    obtain ⟨hbit, rfl⟩ := h
    rw [if_pos hbit]
  | lit x =>
    obtain ⟨hbit, h0, hlit, rfl⟩ := h
    rw [if_neg (by omega)]
    exact pass_reserved h0 (pass_guard hlit rfl)

theorem sound_tgt {f : Tgt → Instr} (h : ∀ o : Tgt, o.At slot w lit n k → (f o).stands slot w lit) :
    (if fld w 0 n = 2 ^ (n - 1) then if slot = 2 ∨ k = true then illegal 5 else ok (f (.lit lit))
      else ok (f (.off (fld w 0 n)))).Sound slot w lit := by
  split
  · exact sound_guard fun hlit => h _ ⟨‹_›, hlit, rfl⟩
  · exact h _ ⟨‹_›, rfl⟩

theorem tgt_eq {f : Tgt → Instr} {o : Tgt} (h : o.At slot w lit n k) :
    (if fld w 0 n = 2 ^ (n - 1) then if slot = 2 ∨ k = true then illegal 5 else ok (f (.lit lit))
      else ok (f (.off (fld w 0 n)))) = ok (f o) := by
  cases o with
  | off v =>
    obtain ⟨hne, rfl⟩ := h
    rw [if_neg hne]
  | lit x =>
    obtain ⟨hcode, hlit, rfl⟩ := h
    rw [if_pos hcode]
    exact pass_guard hlit rfl

end Decoded

end Sys2Proof
end

section
/-! SUPPORT. The layouts of the main stream, and the decoder by major (R172, R179). -/

namespace Sys2Proof

/-! ## The layouts of the main stream (R172, R179)

One for each form of word; instructions that share a form share its layout, and differ in what stands above it. -/

namespace Layout

def scal2 (d b : Nat) : Layout := [(10, 10, some d), (0, 10, some b)]
def scalImm (d z : Nat) : Layout := [(12, 10, some d), (0, 12, some z)]
def branch (a b z : Nat) : Layout := [(13, 10, some a), (6, 7, some b), (0, 6, some z)]
def rows (d a s b : Nat) : Layout := [(15, 7, some d), (8, 7, some a), (7, 1, some s), (0, 7, some b)]
def rowImm (d a z : Nat) : Layout := [(15, 7, some d), (8, 7, some a), (0, 8, some z)]
def rows2 (d a : Nat) : Layout := [(15, 7, some d), (8, 7, some a), (0, 8, none)]
def cmp (t p a s b : Nat) : Layout :=
  [(21, 2, some t), (18, 3, none), (15, 3, some p), (8, 7, some a), (7, 1, some s), (0, 7, some b)]
def preds (d a b : Nat) : Layout := [(18, 3, none), (15, 3, some d), (11, 4, none), (8, 3, some a), (3, 5, none), (0, 3, some b)]
def preds2 (d a : Nat) : Layout := [(18, 3, none), (15, 3, some d), (11, 4, none), (8, 3, some a), (3, 5, none), (0, 3, none)]
def rows3 (d a b : Nat) : Layout := [(15, 7, some d), (8, 7, some a), (7, 1, none), (0, 7, some b)]
def lanes (d a j : Nat) : Layout := [(15, 7, some d), (8, 7, some a), (7, 1, none), (5, 2, none), (0, 5, some j)]
def ballot (d a : Nat) : Layout := [(15, 7, some d), (11, 4, none), (8, 3, some a), (7, 1, none), (0, 7, none)]
def vote (d a : Nat) : Layout := [(18, 4, none), (15, 3, some d), (11, 4, none), (8, 3, some a), (7, 1, none), (0, 7, none)]
def ptest (d a : Nat) : Layout := [(18, 4, none), (15, 3, some d), (8, 7, some a), (7, 1, none), (0, 7, none)]
def mem (f d a b : Nat) : Layout := [(20, 2, some f), (13, 7, some d), (6, 7, some a), (0, 6, some b)]
def loadScal (z f e o q d a : Nat) : Layout :=
  [(20, 2, some z), (18, 2, some f), (17, 1, some e), (16, 1, some o), (13, 3, some q), (6, 7, some d), (0, 6, some a)]
def storeScal (z e o q d a : Nat) : Layout :=
  [(20, 2, some z), (18, 2, none), (17, 1, some e), (16, 1, some o), (13, 3, some q), (6, 7, some d), (0, 6, some a)]
def atom (o q f d u a : Nat) : Layout :=
  [(20, 2, some o), (17, 3, some q), (15, 2, some f), (8, 7, some d), (7, 1, some u), (0, 7, some a)]
def swld (f d a : Nat) : Layout := [(20, 2, some f), (13, 7, some d), (6, 7, some a), (0, 6, none)]
def swst (d a b : Nat) : Layout := [(20, 2, none), (13, 7, some d), (6, 7, some a), (0, 6, some b)]
def copy (v d a b : Nat) : Layout := [(21, 1, some v), (14, 7, some d), (7, 7, some a), (1, 6, some b), (0, 1, none)]
def copyCol (d a b : Nat) : Layout := [(21, 1, none), (14, 7, some d), (7, 7, some a), (1, 6, some b), (0, 1, none)]
def pool (j : Nat) : Layout := [(12, 6, none), (0, 12, some j)]
def bar (b : Nat) : Layout := [(19, 3, none), (13, 6, some b), (10, 3, none), (0, 10, none)]
def barScal (b a : Nat) : Layout := [(19, 3, none), (13, 6, some b), (10, 3, none), (0, 10, some a)]
def barPred (p b a : Nat) : Layout := [(19, 3, some p), (13, 6, some b), (10, 3, none), (0, 10, some a)]
def fence (q : Nat) : Layout := [(19, 3, none), (13, 6, none), (10, 3, some q), (0, 10, none)]
def batch (a : Nat) : Layout := [(19, 3, none), (13, 6, none), (10, 3, none), (0, 10, some a)]
def batchPred (p a : Nat) : Layout := [(19, 3, some p), (13, 6, none), (10, 3, none), (0, 10, some a)]
def braTgt (p z : Nat) : Layout := [(18, 3, some p), (14, 4, none), (0, 14, some z)]
def callTgt (d z : Nat) : Layout := [(12, 10, some d), (0, 12, some z)]
def ret (d : Nat) : Layout := [(12, 10, some d), (0, 12, none)]
def bare : Layout := [(0, 22, none)]
def markTgt (z : Nat) : Layout := [(14, 8, none), (0, 14, some z)]
def brk (p b : Nat) : Layout := [(21, 1, none), (18, 3, some p), (14, 4, some b), (0, 14, none)]
def regang (b : Nat) : Layout := [(18, 4, none), (14, 4, some b), (0, 14, none)]
def sysScal (r d : Nat) : Layout := [(16, 5, some r), (10, 6, none), (0, 10, some d)]
def sysVec (r d : Nat) : Layout := [(16, 5, some r), (10, 6, none), (7, 3, none), (0, 7, some d)]
def sput (r d : Nat) : Layout := [(21, 1, none), (16, 5, some r), (10, 6, none), (0, 10, some d)]
def trap (b : Nat) : Layout := [(8, 14, none), (0, 8, some b)]
def red (d a s : Nat) : Layout := [(15, 7, some d), (8, 7, some a), (7, 1, some s), (0, 7, none)]
def bump (p d a : Nat) : Layout := [(20, 2, none), (17, 3, some p), (10, 7, some d), (3, 7, some a), (0, 3, none)]
def append (f p d a : Nat) : Layout := [(20, 2, some f), (17, 3, some p), (10, 7, some d), (3, 7, some a), (0, 3, none)]
def enq (a : Nat) : Layout := [(10, 7, none), (3, 7, some a), (0, 3, none)]
def enqPred (p a : Nat) : Layout := [(20, 2, none), (17, 3, some p), (10, 7, none), (3, 7, some a), (0, 3, none)]
def cvt (s t r x d a : Nat) : Layout :=
  [(22, 4, some s), (18, 4, some t), (15, 3, some r), (14, 1, some x), (7, 7, some d), (0, 7, some a)]
def header (v a b l y : Nat) : Layout := [(14, 12, some v), (10, 4, some a), (6, 4, some b), (1, 5, some l), (0, 1, some y)]

end Layout

/-! ## The majors (R179) -/

section

variable {slot w lit : Nat}

theorem decodeMain_SR (h : fld w 26 5 = 1) : decodeMain slot w lit = decodeSR slot w lit (fld w 31 1 = 1) := by
  simp only [decodeMain, h]

theorem decodeMain_SI (h : fld w 26 5 = 2) : decodeMain slot w lit = decodeSI slot w lit (fld w 31 1 = 1) := by
  simp only [decodeMain, h]

theorem decodeMain_SB (h : fld w 26 5 = 3) : decodeMain slot w lit = decodeSB slot w lit (fld w 31 1 = 1) := by
  simp only [decodeMain, h]

theorem decodeMain_VR (h : fld w 26 5 = 4) : decodeMain slot w lit = decodeVR slot w lit (fld w 31 1 = 1) := by
  simp only [decodeMain, h]

theorem decodeMain_VI (h : fld w 26 5 = 5) : decodeMain slot w lit = decodeVI slot w lit (fld w 31 1 = 1) := by
  simp only [decodeMain, h]

theorem decodeMain_F32 (h : fld w 26 5 = 6) : decodeMain slot w lit = decodeF32 slot w lit (fld w 31 1 = 1) := by
  simp only [decodeMain, h]

theorem decodeMain_FMA (h : fld w 26 5 = 7) : decodeMain slot w lit = decodeFMA slot w lit (fld w 31 1 = 1) := by
  simp only [decodeMain, h]

theorem decodeMain_VC (h : fld w 26 5 = 8) : decodeMain slot w lit = decodeVC slot w lit (fld w 31 1 = 1) := by
  simp only [decodeMain, h]

theorem decodeMain_Cvt (h : fld w 26 5 = 9) : decodeMain slot w lit = decodeCvt slot w lit (fld w 31 1 = 1) := by
  simp only [decodeMain, h]

theorem decodeMain_TR (h : fld w 26 5 = 10) : decodeMain slot w lit = decodeTR slot w lit (fld w 31 1 = 1) := by
  simp only [decodeMain, h]

theorem decodeMain_LX (h : fld w 26 5 = 11) : decodeMain slot w lit = decodeLX slot w lit (fld w 31 1 = 1) := by
  simp only [decodeMain, h]

theorem decodeMain_M (h : fld w 26 5 = 12) : decodeMain slot w lit = decodeM slot w lit (fld w 31 1 = 1) := by
  simp only [decodeMain, h]

theorem decodeMain_AT (h : fld w 26 5 = 13) : decodeMain slot w lit = decodeAT slot w lit (fld w 31 1 = 1) := by
  simp only [decodeMain, h]

theorem decodeMain_SW (h : fld w 26 5 = 14) : decodeMain slot w lit = decodeSW slot w lit (fld w 31 1 = 1) := by
  simp only [decodeMain, h]

theorem decodeMain_CP (h : fld w 26 5 = 15) : decodeMain slot w lit = decodeCP slot w lit (fld w 31 1 = 1) := by
  simp only [decodeMain, h]

theorem decodeMain_BF (h : fld w 26 5 = 16) : decodeMain slot w lit = decodeBF slot w lit (fld w 31 1 = 1) := by
  simp only [decodeMain, h]

theorem decodeMain_Branch (h : fld w 26 5 = 17) : decodeMain slot w lit = decodeBranch slot w lit (fld w 31 1 = 1) := by
  simp only [decodeMain, h]

theorem decodeMain_Token (h : fld w 26 5 = 18) : decodeMain slot w lit = decodeToken slot w lit (fld w 31 1 = 1) := by
  simp only [decodeMain, h]

theorem decodeMain_SY (h : fld w 26 5 = 19) : decodeMain slot w lit = decodeSY slot w lit (fld w 31 1 = 1) := by
  simp only [decodeMain, h]

theorem decodeMain_Inv (h : fld w 26 5 = 20) : decodeMain slot w lit = decodeInv slot w lit (fld w 31 1 = 1) := by
  simp only [decodeMain, h]

theorem decodeMain_RD (h : fld w 26 5 = 21) : decodeMain slot w lit = decodeRD slot w lit (fld w 31 1 = 1) := by
  simp only [decodeMain, h]

theorem decodeMain_EQ (h : fld w 26 5 = 22) : decodeMain slot w lit = decodeEQ slot w lit (fld w 31 1 = 1) := by
  simp only [decodeMain, h]

theorem decodeMain_header (h : fld w 26 5 = 31) : decodeMain slot w lit = decodeHeader w (fld w 31 1 = 1) := by
  simp only [decodeMain, h]

end

end Sys2Proof
end

section
/-! SUPPORT. What the decoder of the main stream answers stands in the word (R179, R245). -/

namespace Sys2Proof

/-! ## What the decoder answers stands in the word -/

/-- R176: the scopes that a word may name. -/
theorem scopeOk_iff {o q : Nat} : scopeOk o q = true ↔ ¬5 < q ∧ ¬(o = 0 ∧ q ≠ 0) := by
  simp only [scopeOk, Bool.and_eq_true, Bool.or_eq_true, decide_eq_true_eq]
  omega

/-! ### The conversions (R245) -/

/-- A form of conversion that the checks of R245 allow has neither reserved values in its word nor reserved bits in its
extension. -/
theorem cvtOk_fields {s t r : Nat} {x : Option Nat} (h : cvtOk s t r x = true) :
    ¬(12 < s ∨ 12 < t ∨ 4 < r ∨ (s = 0 ∧ t = 0) ∨ (s ≠ 0 ∧ t ≠ 0)) ∧ ¬(fld (x.getD 0) 0 6 ≠ 0 ∨ fld (x.getD 0) 26 6 ≠ 0) := by
  simp only [cvtOk, Bool.and_eq_true, decide_eq_true_eq, bne_iff_ne, ne_eq, decide_eq_decide] at h
  obtain ⟨⟨⟨⟨⟨⟨⟨⟨⟨⟨hs, ht⟩, hr⟩, hside⟩, -⟩, hlow⟩, hhigh⟩, -⟩, -⟩, -⟩, -⟩ := h
  refine ⟨by omega, ?_⟩
  simp only [fld]
  omega

/-- The extension of a conversion: the next slot where the word's literal bit is set, which is in no chain and has a next slot. -/
theorem extension_iff {slot w lit : Nat} {k : Bool} (hlit : lit < 2 ^ 32) {x : Option Nat} :
    fld w 14 1 = x.toList.length ∧ litOk k x = true ∧ Literal slot lit x.toList ↔
      (if fld w 14 1 = 1 then some lit else none) = x ∧ ¬(x.isSome = true ∧ (slot = 2 ∨ k = true)) := by
  have hbit : fld w 14 1 = 0 ∨ fld w 14 1 = 1 := by
    have : fld w 14 1 < 2 := fld_lt le_rfl
    omega
  cases x with
  | none => rcases hbit with hb | hb <;> simp [hb, litOk, Literal]
  | some v =>
    rw [show litOk k (some v) = (!k && decide (v < 4294967296)) from rfl, Option.toList_some, literal_iff hlit]
    rcases hbit with hb | hb
    · simp [hb]
    · simp [hb, and_comm]

theorem Instr.stands_cvt_iff {slot w lit s t r d a : Nat} {x : Option Nat} {k : Bool} (hw : w < 2 ^ 32) (hlit : lit < 2 ^ 32) :
    (Instr.cvt k s t r x d a).stands slot w lit ↔ (decide (fld w 31 1 = 1) = k ∧ fld w 26 5 = 9) ∧
      ((if fld w 14 1 = 1 then some lit else none) = x ∧ ¬(x.isSome = true ∧ (slot = 2 ∨ k = true))) ∧ cvtOk s t r x = true ∧
      fld w 22 4 = s ∧ fld w 18 4 = t ∧ fld w 15 3 = r ∧ fld w 7 7 = d ∧ fld w 0 7 = a := by
  have hbit : (if x.isSome then 16384 else 0) = x.toList.length * 2 ^ 14 := by cases x <;> simp
  have hlen : x.toList.length < 2 ^ 1 := by cases x <;> simp
  have henc : encode (.cvt k s t r x d a) =
      Layout.put (603979776 + k.toNat * 2147483648) (.cvt s t r x.toList.length d a) :: x.toList := by
    change (603979776 + k.toNat * 2147483648 + s * 4194304 + t * 262144 + r * 32768 + (if x.isSome then 16384 else 0) + d * 128 +
      a) :: x.toList = _
    rw [hbit]
    rfl
  have hwf : (Instr.cvt k s t r x d a).wf = true ↔
      Layout.fits true (.cvt s t r x.toList.length d a) = true ∧ litOk k x = true ∧ cvtOk s t r x = true := by
    change (decide (s < 2 ^ 4) && decide (t < 2 ^ 4) && decide (r < 2 ^ 3) && litOk k x && decide (d < 2 ^ 7) &&
      decide (a < 2 ^ 7) && cvtOk s t r x) = true ↔ _
    simp only [Layout.cvt, Layout.fits, Bool.and_eq_true, decide_eq_true_eq]
    tauto
  rw [Instr.stands_iff_main hw 26 0 _ rfl rfl henc hwf rfl, ← extension_iff hlit]
  simp only [Layout.cvt, Layout.holds, Option.getD_some]
  constructor
  · rintro ⟨⟨hc, hm, -⟩, ⟨hs, ht, hr, hx, hd, ha, -⟩, ⟨hok, hcvt⟩, hl⟩
    exact ⟨⟨hc, hm⟩, ⟨hx, hok, hl⟩, hcvt, hs, ht, hr, hd, ha⟩
  · rintro ⟨⟨hc, hm⟩, ⟨hx, hok, hl⟩, hcvt, hs, ht, hr, hd, ha⟩
    exact ⟨⟨hc, hm, by simp [fld, Nat.mod_one]⟩, ⟨hs, ht, hr, hx, hd, ha, trivial⟩, ⟨hok, hcvt⟩, hl⟩

section

open Decoded

variable {slot w lit : Nat} (hw : w < 2 ^ 32)

include hw

theorem decodeHeader_sound (hm : fld w 26 5 = 31) : (decodeHeader w (fld w 31 1 = 1)).Sound slot w lit := by
  refine sound_guard fun hc => Iff.mpr (Instr.stands_iff_plain hw 26 (.header _ _ _ _ _) rfl (by decide) rfl rfl rfl) ?_
  have hchain : fld w 31 1 = 0 := (chain_eq_iff w false).mpr (Bool.not_eq_true _ ▸ hc)
  exact ⟨(fld_add_eq_iff (n := 5) (m := 1)).mpr ⟨hchain, hm⟩, rfl, rfl, rfl, rfl, rfl, trivial⟩

theorem decodeSR_sound (hm : fld w 26 5 = 1) : (decodeSR slot w lit (fld w 31 1 = 1)).Sound slot w lit := by
  unfold decodeSR
  split
  case h_28 => trivial
  all_goals
    exact Instr.stands_of_fields hw 20 6 (.scal2 _ _) [] rfl rfl rfl rfl rfl ⟨rfl, hm, ‹_›⟩ ⟨rfl, rfl, trivial⟩ trivial

theorem decodeVR_sound (hm : fld w 26 5 = 4) : (decodeVR slot w lit (fld w 31 1 = 1)).Sound slot w lit := by
  unfold decodeVR
  split
  case h_17 => trivial
  all_goals
    exact Instr.stands_of_fields hw 22 4 (.rows _ _ _ _) [] rfl rfl rfl rfl rfl ⟨rfl, hm, ‹_›⟩ ⟨rfl, rfl, rfl, rfl, trivial⟩ trivial

theorem decodeF32_sound (hm : fld w 26 5 = 6) : (decodeF32 slot w lit (fld w 31 1 = 1)).Sound slot w lit := by
  unfold decodeF32
  split
  case h_9 => trivial
  case h_6 | h_7 =>
    exact sound_reserved fun h0 => Instr.stands_of_fields hw 22 4 (.rows2 _ _) [] rfl rfl rfl rfl rfl ⟨rfl, hm, ‹_›⟩
      ⟨rfl, rfl, h0, trivial⟩ trivial
  all_goals
    exact Instr.stands_of_fields hw 22 4 (.rows _ _ _ _) [] rfl rfl rfl rfl rfl ⟨rfl, hm, ‹_›⟩ ⟨rfl, rfl, rfl, rfl, trivial⟩ trivial

theorem decodeFMA_sound (hm : fld w 26 5 = 7) : (decodeFMA slot w lit (fld w 31 1 = 1)).Sound slot w lit := by
  unfold decodeFMA
  split
  case h_15 => trivial
  all_goals
    exact Instr.stands_of_fields hw 22 4 (.rows _ _ _ _) [] rfl rfl rfl rfl rfl ⟨rfl, hm, ‹_›⟩ ⟨rfl, rfl, rfl, rfl, trivial⟩ trivial

theorem decodeVC_sound (hm : fld w 26 5 = 8) : (decodeVC slot w lit (fld w 31 1 = 1)).Sound slot w lit := by
  unfold decodeVC
  split
  case h_8 => trivial
  case h_7 h6 =>
    split
    case h_5 => trivial
    case h_4 =>
      exact sound_reserved fun h18 => sound_reserved fun h11 => sound_reserved fun h3 =>
        sound_reserved fun h0 => sound_guard fun hd =>
        Instr.stands_of_fields hw 21 5 (.preds2 _ _) [_ ≠ 7] rfl rfl rfl rfl rfl
          ⟨rfl, hm, (fld_add_eq_iff (n := 2) (m := 3)).mpr ⟨h6, ‹_›⟩⟩
          ⟨h18, rfl, h11, rfl, h3, h0, trivial⟩ ⟨decide_eq_true hd, trivial⟩
    all_goals
      exact sound_reserved fun h18 => sound_reserved fun h11 => sound_reserved fun h3 =>
        sound_guard fun hd => Instr.stands_of_fields hw 21 5 (.preds _ _ _) [_ ≠ 7] rfl rfl rfl rfl rfl
          ⟨rfl, hm, (fld_add_eq_iff (n := 2) (m := 3)).mpr ⟨h6, ‹_›⟩⟩
          ⟨h18, rfl, h11, rfl, h3, rfl, trivial⟩ ⟨decide_eq_true hd, trivial⟩
  all_goals
    exact sound_guard fun ht => sound_reserved fun h18 => sound_guard fun hp =>
      Instr.stands_of_fields hw 23 3 (.cmp _ _ _ _ _) [_ ≠ 3, _ ≠ 7] rfl rfl rfl rfl rfl ⟨rfl, hm, ‹_›⟩
        ⟨rfl, h18, rfl, rfl, rfl, rfl, trivial⟩ ⟨decide_eq_true ht, decide_eq_true hp, trivial⟩

theorem decodeTR_sound (hm : fld w 26 5 = 10) : (decodeTR slot w lit (fld w 31 1 = 1)).Sound slot w lit := by
  unfold decodeTR
  split
  case h_11 => trivial
  all_goals
    exact sound_reserved fun h0 => Instr.stands_of_fields hw 22 4 (.rows2 _ _) [] rfl rfl rfl rfl rfl ⟨rfl, hm, ‹_›⟩
      ⟨rfl, rfl, h0, trivial⟩ trivial

theorem decodeLX_sound (hm : fld w 26 5 = 11) : (decodeLX slot w lit (fld w 31 1 = 1)).Sound slot w lit := by
  unfold decodeLX
  split
  case h_14 => trivial
  case h_5 =>
    exact sound_reserved fun h7 => Instr.stands_of_fields hw 22 4 (.rows3 _ _ _) [] rfl rfl rfl rfl rfl ⟨rfl, hm, ‹_›⟩
      ⟨rfl, rfl, h7, rfl, trivial⟩ trivial
  case h_6 | h_7 | h_8 =>
    exact sound_reserved fun h7 => sound_reserved fun h5 =>
      Instr.stands_of_fields hw 22 4 (.lanes _ _ _) [] rfl rfl rfl rfl rfl ⟨rfl, hm, ‹_›⟩
        ⟨rfl, rfl, h7, h5, rfl, trivial⟩ trivial
  case h_9 | h_12 =>
    exact sound_reserved fun h7 => sound_reserved fun h0 => sound_reserved fun h11 =>
      Instr.stands_of_fields hw 22 4 (.ballot _ _) [] rfl rfl rfl rfl rfl ⟨rfl, hm, ‹_›⟩
        ⟨rfl, h11, rfl, h7, h0, trivial⟩ trivial
  case h_10 | h_11 =>
    exact sound_reserved fun h7 => sound_reserved fun h0 => sound_reserved fun h11 =>
      sound_reserved fun h18 => sound_guard fun hd =>
      Instr.stands_of_fields hw 22 4 (.vote _ _) [_ ≠ 7] rfl rfl rfl rfl rfl ⟨rfl, hm, ‹_›⟩
        ⟨h18, rfl, h11, rfl, h7, h0, trivial⟩ ⟨decide_eq_true hd, trivial⟩
  case h_13 =>
    exact sound_reserved fun h7 => sound_reserved fun h0 => sound_reserved fun h18 =>
      sound_guard fun hd => Instr.stands_of_fields hw 22 4 (.ptest _ _) [_ ≠ 7] rfl rfl rfl rfl rfl ⟨rfl, hm, ‹_›⟩
        ⟨h18, rfl, rfl, h7, h0, trivial⟩ ⟨decide_eq_true hd, trivial⟩
  all_goals
    exact Instr.stands_of_fields hw 22 4 (.rows _ _ _ _) [] rfl rfl rfl rfl rfl ⟨rfl, hm, ‹_›⟩ ⟨rfl, rfl, rfl, rfl, trivial⟩ trivial

theorem decodeM_sound (hm : fld w 26 5 = 12) : (decodeM slot w lit (fld w 31 1 = 1)).Sound slot w lit := by
  unfold decodeM
  split
  case h_15 => trivial
  case h_13 =>
    exact sound_guard fun hf => sound_guard fun hq => sound_guard fun ho =>
      Instr.stands_of_fields hw 22 4 (.loadScal _ _ _ _ _ _ _) [_ ≠ 3, scopeOk _ _] rfl rfl rfl rfl rfl ⟨rfl, hm, ‹_›⟩
        ⟨rfl, rfl, rfl, rfl, rfl, rfl, rfl, trivial⟩ ⟨decide_eq_true hf, scopeOk_iff.mpr ⟨hq, ho⟩, trivial⟩
  case h_14 =>
    exact sound_reserved fun h18 => sound_guard fun hq => sound_guard fun ho =>
      Instr.stands_of_fields hw 22 4 (.storeScal _ _ _ _ _ _) [scopeOk _ _] rfl rfl rfl rfl rfl ⟨rfl, hm, ‹_›⟩
        ⟨rfl, h18, rfl, rfl, rfl, rfl, rfl, trivial⟩ ⟨scopeOk_iff.mpr ⟨hq, ho⟩, trivial⟩
  all_goals
    exact Instr.stands_of_fields hw 22 4 (.mem _ _ _ _) [] rfl rfl rfl rfl rfl ⟨rfl, hm, ‹_›⟩ ⟨rfl, rfl, rfl, rfl, trivial⟩ trivial

theorem decodeAT_sound (hm : fld w 26 5 = 13) : (decodeAT slot w lit (fld w 31 1 = 1)).Sound slot w lit := by
  unfold decodeAT
  split
  case h_15 => trivial
  all_goals
    exact sound_guard fun hf => sound_guard fun hq => sound_guard fun ho =>
      Instr.stands_of_fields hw 22 4 (.atom _ _ _ _ _ _) [_ ≠ 3, scopeOk _ _] rfl rfl rfl rfl rfl ⟨rfl, hm, ‹_›⟩
        ⟨rfl, rfl, rfl, rfl, rfl, rfl, trivial⟩ ⟨decide_eq_true hf, scopeOk_iff.mpr ⟨hq, ho⟩, trivial⟩

theorem decodeSW_sound (hm : fld w 26 5 = 14) : (decodeSW slot w lit (fld w 31 1 = 1)).Sound slot w lit := by
  unfold decodeSW
  split
  case h_14 => trivial
  case h_1 | h_7 =>
    exact sound_reserved fun h0 => sound_guard fun hf =>
      Instr.stands_of_fields hw 22 4 (.swld _ _ _) [_ ≠ 3] rfl rfl rfl rfl rfl ⟨rfl, hm, ‹_›⟩
        ⟨rfl, rfl, rfl, h0, trivial⟩ ⟨decide_eq_true hf, trivial⟩
  case h_3 | h_4 | h_9 | h_10 =>
    exact sound_guard fun hf => Instr.stands_of_fields hw 22 4 (.mem _ _ _ _) [_ ≠ 3] rfl rfl rfl rfl rfl ⟨rfl, hm, ‹_›⟩
      ⟨rfl, rfl, rfl, rfl, trivial⟩ ⟨decide_eq_true hf, trivial⟩
  case h_13 h22 =>
    exact sound_reserved fun h18 => sound_reserved fun h12 =>
      Instr.stands_of_fields hw 18 8 (.pool _) [] rfl rfl rfl rfl rfl
        ⟨rfl, hm, (fld_add_eq_iff (n := 4) (m := 4)).mpr ⟨h22, h18⟩⟩ ⟨h12, rfl, trivial⟩ trivial
  all_goals
    exact sound_reserved fun h20 => Instr.stands_of_fields hw 22 4 (.swst _ _ _) [] rfl rfl rfl rfl rfl ⟨rfl, hm, ‹_›⟩
      ⟨h20, rfl, rfl, rfl, trivial⟩ trivial

theorem decodeCP_sound (hm : fld w 26 5 = 15) : (decodeCP slot w lit (fld w 31 1 = 1)).Sound slot w lit := by
  unfold decodeCP
  split
  case h_17 => trivial
  case h_2 =>
    exact sound_reserved fun h0 => sound_reserved fun h21 =>
      Instr.stands_of_fields hw 22 4 (.copyCol _ _ _) [] rfl rfl rfl rfl rfl ⟨rfl, hm, ‹_›⟩
        ⟨h21, rfl, rfl, rfl, h0, trivial⟩ trivial
  case h_16 h22 =>
    split
    case h_5 => trivial
    all_goals
      exact sound_reserved fun h12 => Instr.stands_of_fields hw 18 8 (.pool _) [] rfl rfl rfl rfl rfl
        ⟨rfl, hm, (fld_add_eq_iff (n := 4) (m := 4)).mpr ⟨h22, ‹_›⟩⟩ ⟨h12, rfl, trivial⟩ trivial
  all_goals
    exact sound_reserved fun h0 => Instr.stands_of_fields hw 22 4 (.copy _ _ _ _) [] rfl rfl rfl rfl rfl ⟨rfl, hm, ‹_›⟩
      ⟨rfl, rfl, rfl, rfl, h0, trivial⟩ trivial

theorem decodeBF_sound (hm : fld w 26 5 = 16) : (decodeBF slot w lit (fld w 31 1 = 1)).Sound slot w lit := by
  unfold decodeBF
  split
  case h_10 => trivial
  case h_1 | h_5 =>
    exact sound_reserved fun h19 => sound_reserved fun h10 => sound_reserved fun h0 =>
      Instr.stands_of_fields hw 22 4 (.bar _) [] rfl rfl rfl rfl rfl ⟨rfl, hm, ‹_›⟩
        ⟨h19, rfl, h10, h0, trivial⟩ trivial
  case h_2 | h_3 =>
    exact sound_reserved fun h19 => sound_reserved fun h10 =>
      Instr.stands_of_fields hw 22 4 (.barScal _ _) [] rfl rfl rfl rfl rfl ⟨rfl, hm, ‹_›⟩
        ⟨h19, rfl, h10, rfl, trivial⟩ trivial
  case h_4 =>
    exact sound_reserved fun h10 => sound_guard fun hp =>
      Instr.stands_of_fields hw 22 4 (.barPred _ _ _) [_ ≠ 7] rfl rfl rfl rfl rfl ⟨rfl, hm, ‹_›⟩
        ⟨rfl, rfl, h10, rfl, trivial⟩ ⟨decide_eq_true hp, trivial⟩
  case h_6 =>
    exact sound_reserved fun h19 => sound_reserved fun h13 => sound_reserved fun h0 =>
      sound_guard fun hq => Instr.stands_of_fields hw 22 4 (.fence _) [_ < 6] rfl rfl rfl rfl rfl ⟨rfl, hm, ‹_›⟩
        ⟨h19, h13, rfl, h0, trivial⟩ ⟨decide_eq_true (Nat.lt_succ_of_le (not_lt.mp hq)), trivial⟩
  case h_9 =>
    exact sound_reserved fun h13 => sound_reserved fun h10 => sound_guard fun hp =>
      Instr.stands_of_fields hw 22 4 (.batchPred _ _) [_ ≠ 7] rfl rfl rfl rfl rfl ⟨rfl, hm, ‹_›⟩
        ⟨rfl, h13, h10, rfl, trivial⟩ ⟨decide_eq_true hp, trivial⟩
  all_goals
    exact sound_reserved fun h19 => sound_reserved fun h13 => sound_reserved fun h10 =>
      Instr.stands_of_fields hw 22 4 (.batch _) [] rfl rfl rfl rfl rfl ⟨rfl, hm, ‹_›⟩
        ⟨h19, h13, h10, rfl, trivial⟩ trivial

theorem decodeSY_sound (hm : fld w 26 5 = 19) : (decodeSY slot w lit (fld w 31 1 = 1)).Sound slot w lit := by
  unfold decodeSY
  split
  case h_5 => trivial
  case h_1 h22 =>
    refine sound_reserved fun h10 => sound_guard fun hr => ?_
    have hr14 : fld w 16 5 < 14 := by omega
    split
    · exact sound_guard fun h0 => Instr.stands_of_fields hw 21 5 (.sysScal _ _) [_ < 14, _ ≠ 0] rfl rfl rfl rfl rfl
        ⟨rfl, hm, (fld_add_eq_iff (n := 1) (m := 4)).mpr ⟨h22, ‹_›⟩⟩ ⟨rfl, h10, rfl, trivial⟩
        ⟨decide_eq_true hr14, decide_eq_true h0, trivial⟩
    · have hbit : fld w 21 1 < 2 := fld_lt le_rfl
      exact sound_reserved fun h7 => Instr.stands_of_fields hw 21 5 (.sysVec _ _) [_ < 14] rfl rfl rfl rfl rfl
        ⟨rfl, hm, (fld_add_eq_iff (n := 1) (m := 4)).mpr ⟨h22, show fld w 21 1 = 1 by omega⟩⟩
        ⟨rfl, h10, h7, rfl, trivial⟩ ⟨decide_eq_true hr14, trivial⟩
  case h_2 =>
    exact sound_reserved fun h10 => sound_reserved fun h21 => sound_guard fun hr =>
      Instr.stands_of_fields hw 22 4 (.sput _ _) [_ < 14] rfl rfl rfl rfl rfl ⟨rfl, hm, ‹_›⟩
        ⟨h21, rfl, h10, rfl, trivial⟩ ⟨decide_eq_true (Nat.lt_succ_of_le (not_lt.mp hr)), trivial⟩
  case h_3 h22 =>
    refine sound_reserved fun h8 => sound_guard fun hlow => ?_
    have service : ∀ v, fld w 0 8 = fld v 0 8 → fld v 8 14 = 0 → fld v 22 4 = 2 → fld w 0 26 = fld v 0 26 := fun v h0 h8' h22' =>
      (fld_add_eq_iff (n := 8) (m := 18)).mpr
        ⟨(fld_add_eq_iff (n := 14) (m := 4)).mpr ⟨h22.trans h22'.symm, h8.trans h8'.symm⟩, h0⟩
    split
    next hr =>
      exact Instr.stands_of_fields hw 0 26 [] [] rfl rfl rfl rfl rfl ⟨rfl, hm, service _ hr rfl rfl⟩ trivial trivial
    next hr =>
      split
      next hk =>
        exact Instr.stands_of_fields hw 0 26 [] [] rfl rfl rfl rfl rfl ⟨rfl, hm, service _ hk rfl rfl⟩ trivial trivial
      next hk =>
        exact Instr.stands_of_fields hw 22 4 (.trap _) [0x22 ≤ _] rfl rfl rfl rfl rfl ⟨rfl, hm, h22⟩
          ⟨h8, rfl, trivial⟩ ⟨decide_eq_true (by omega), trivial⟩
  case h_4 =>
    exact sound_reserved fun h0 => Instr.stands_of_fields hw 22 4 .bare [] rfl rfl rfl rfl rfl ⟨rfl, hm, ‹_›⟩
      ⟨h0, trivial⟩ trivial

theorem decodeInv_sound (hm : fld w 26 5 = 20) : (decodeInv slot w lit (fld w 31 1 = 1)).Sound slot w lit := by
  unfold decodeInv
  split
  case h_2 => trivial
  case h_1 h22 =>
    exact sound_reserved fun h18 => sound_reserved fun h12 =>
      Instr.stands_of_fields hw 18 8 (.pool _) [] rfl rfl rfl rfl rfl
        ⟨rfl, hm, (fld_add_eq_iff (n := 4) (m := 4)).mpr ⟨h22, h18⟩⟩ ⟨h12, rfl, trivial⟩ trivial

theorem decodeRD_sound (hm : fld w 26 5 = 21) : (decodeRD slot w lit (fld w 31 1 = 1)).Sound slot w lit := by
  unfold decodeRD
  split
  case h_11 => trivial
  case h_9 | h_10 =>
    exact Instr.stands_of_fields hw 22 4 (.rows _ _ _ _) [] rfl rfl rfl rfl rfl ⟨rfl, hm, ‹_›⟩ ⟨rfl, rfl, rfl, rfl, trivial⟩ trivial
  all_goals
    exact sound_reserved fun h0 => Instr.stands_of_fields hw 22 4 (.red _ _ _) [] rfl rfl rfl rfl rfl ⟨rfl, hm, ‹_›⟩
      ⟨rfl, rfl, rfl, h0, trivial⟩ trivial

theorem decodeEQ_sound (hm : fld w 26 5 = 22) : (decodeEQ slot w lit (fld w 31 1 = 1)).Sound slot w lit := by
  unfold decodeEQ
  split
  case h_5 => trivial
  case h_1 =>
    exact sound_reserved fun h0 => sound_reserved fun h20 => sound_guard fun hp =>
      Instr.stands_of_fields hw 22 4 (.bump _ _ _) [_ ≠ 7] rfl rfl rfl rfl rfl ⟨rfl, hm, ‹_›⟩
        ⟨h20, rfl, rfl, rfl, h0, trivial⟩ ⟨decide_eq_true hp, trivial⟩
  case h_4 h22 =>
    refine sound_reserved fun h0 => sound_reserved fun h20 => sound_reserved fun h10 => ?_
    split
    next hp =>
      exact Instr.stands_of_fields hw 17 9 (.enq _) [] rfl rfl rfl rfl rfl ⟨rfl, hm, (fld_add_eq_iff (n := 3) (m := 6)).mpr
        ⟨(fld_add_eq_iff (n := 2) (m := 4)).mpr ⟨h22, h20⟩, hp⟩⟩ ⟨h10, rfl, h0, trivial⟩ trivial
    next hp =>
      exact Instr.stands_of_fields hw 22 4 (.enqPred _ _) [_ ≠ 7] rfl rfl rfl rfl rfl ⟨rfl, hm, ‹_›⟩
        ⟨h20, rfl, h10, rfl, h0, trivial⟩ ⟨decide_eq_true hp, trivial⟩
  all_goals
    exact sound_reserved fun h0 => sound_guard fun hf =>
      Instr.stands_of_fields hw 22 4 (.append _ _ _ _) [_ ≠ 3] rfl rfl rfl rfl rfl ⟨rfl, hm, ‹_›⟩
        ⟨rfl, rfl, rfl, rfl, h0, trivial⟩ ⟨decide_eq_true hf, trivial⟩

variable (hlit : lit < 2 ^ 32)

include hlit

theorem decodeSI_sound (hm : fld w 26 5 = 2) : (decodeSI slot w lit (fld w 31 1 = 1)).Sound slot w lit := by
  unfold decodeSI
  split
  case h_12 => trivial
  all_goals
    refine sound_imm fun m hat => ?_
    obtain ⟨hz, hv, ht⟩ := (Imm.at_iff hlit).mp hat
    exact Instr.stands_of_literal hw 12 _ 22 4 (.scalImm _ _) rfl rfl rfl rfl rfl (Imm.field_lt (n := 11)) rfl ⟨rfl, hm, ‹_›⟩
      ⟨rfl, hz, trivial⟩ hv ht

theorem decodeSB_sound (hm : fld w 26 5 = 3) : (decodeSB slot w lit (fld w 31 1 = 1)).Sound slot w lit := by
  unfold decodeSB
  split
  case h_7 => trivial
  all_goals
    refine sound_tgt (n := 6) fun o hat => ?_
    obtain ⟨hz, hv, ht⟩ := (Tgt.at_iff hlit (by decide)).mp hat
    exact Instr.stands_of_literal hw 6 _ 23 3 (.branch _ _ _) rfl rfl rfl rfl rfl (Tgt.field_lt (n := 5)) rfl ⟨rfl, hm, ‹_›⟩
      ⟨rfl, rfl, hz, trivial⟩ hv ht

theorem decodeVI_sound (hm : fld w 26 5 = 5) : (decodeVI slot w lit (fld w 31 1 = 1)).Sound slot w lit := by
  unfold decodeVI
  split
  case h_16 => trivial
  all_goals
    refine sound_imm fun m hat => ?_
    obtain ⟨hz, hv, ht⟩ := (Imm.at_iff hlit).mp hat
    exact Instr.stands_of_literal hw 8 _ 22 4 (.rowImm _ _ _) rfl rfl rfl rfl rfl (Imm.field_lt (n := 7)) rfl ⟨rfl, hm, ‹_›⟩
      ⟨rfl, rfl, hz, trivial⟩ hv ht

theorem decodeBranch_sound (hm : fld w 26 5 = 17) : (decodeBranch slot w lit (fld w 31 1 = 1)).Sound slot w lit := by
  unfold decodeBranch
  split
  case h_5 => trivial
  case h_1 h22 =>
    refine sound_reserved fun h14 => ?_
    split
    · refine sound_tgt (n := 14) fun o hat => ?_
      obtain ⟨hz, hv, ht⟩ := (Tgt.at_iff hlit (by decide)).mp hat
      exact Instr.stands_of_literal hw 14 _ 21 5 (.braTgt _ _) rfl rfl rfl rfl rfl (Tgt.field_lt (n := 13)) rfl
        ⟨rfl, hm, (fld_add_eq_iff (n := 1) (m := 4)).mpr ⟨h22, ‹_›⟩⟩ ⟨rfl, h14, hz, trivial⟩ hv ht
    · refine sound_tgt (n := 14) fun o hat => ?_
      have hbit : fld w 21 1 < 2 := fld_lt le_rfl
      obtain ⟨hz, hv, ht⟩ := (Tgt.at_iff hlit (by decide)).mp hat
      exact Instr.stands_of_literal hw 14 _ 21 5 (.braTgt _ _) rfl rfl rfl rfl rfl (Tgt.field_lt (n := 13)) rfl
        ⟨rfl, hm, (fld_add_eq_iff (n := 1) (m := 4)).mpr ⟨h22, show fld w 21 1 = 1 by omega⟩⟩
        ⟨rfl, h14, hz, trivial⟩ hv ht
  case h_2 =>
    refine sound_tgt (n := 12) fun o hat => ?_
    obtain ⟨hz, hv, ht⟩ := (Tgt.at_iff hlit (by decide)).mp hat
    exact Instr.stands_of_literal hw 12 _ 22 4 (.callTgt _ _) rfl rfl rfl rfl rfl (Tgt.field_lt (n := 11)) rfl ⟨rfl, hm, ‹_›⟩
      ⟨rfl, hz, trivial⟩ hv ht
  case h_3 =>
    exact sound_reserved fun h0 => Instr.stands_of_fields hw 22 4 (.ret _) [] rfl rfl rfl rfl rfl ⟨rfl, hm, ‹_›⟩
      ⟨rfl, h0, trivial⟩ trivial
  case h_4 =>
    exact sound_reserved fun h0 => Instr.stands_of_fields hw 22 4 .bare [] rfl rfl rfl rfl rfl ⟨rfl, hm, ‹_›⟩
      ⟨h0, trivial⟩ trivial

theorem decodeToken_sound (hm : fld w 26 5 = 18) : (decodeToken slot w lit (fld w 31 1 = 1)).Sound slot w lit := by
  unfold decodeToken
  split
  case h_5 => trivial
  case h_1 =>
    refine sound_reserved fun h14 => sound_tgt (n := 14) fun o hat => ?_
    obtain ⟨hz, hv, ht⟩ := (Tgt.at_iff hlit (by decide)).mp hat
    exact Instr.stands_of_literal (b := true) hw 14 _ 22 4 (.markTgt _) rfl rfl rfl rfl rfl (Tgt.field_lt (n := 13)) rfl
      ⟨rfl, hm, ‹_›⟩ ⟨h14, hz, trivial⟩ hv ht
  case h_2 =>
    exact sound_reserved fun h0 => Instr.stands_of_fields hw 22 4 .bare [] rfl rfl rfl rfl rfl ⟨rfl, hm, ‹_›⟩
      ⟨h0, trivial⟩ trivial
  case h_3 =>
    exact sound_reserved fun h21 => sound_reserved fun h0 =>
      Instr.stands_of_fields hw 22 4 (.brk _ _) [] rfl rfl rfl rfl rfl ⟨rfl, hm, ‹_›⟩
        ⟨h21, rfl, rfl, h0, trivial⟩ trivial
  case h_4 =>
    exact sound_reserved fun h18 => sound_reserved fun h0 =>
      Instr.stands_of_fields hw 22 4 (.regang _) [] rfl rfl rfl rfl rfl ⟨rfl, hm, ‹_›⟩
        ⟨h18, rfl, h0, trivial⟩ trivial

theorem decodeCvt_sound (hm : fld w 26 5 = 9) : (decodeCvt slot w lit (fld w 31 1 = 1)).Sound slot w lit := by
  refine sound_guard fun _ => sound_guard fun hslot => sound_guard fun _ => sound_guard fun hok => ?_
  exact (Instr.stands_cvt_iff hw hlit).mpr
    ⟨⟨rfl, hm⟩, ⟨rfl, hslot⟩, Bool.eq_true_of_not_eq_false hok, rfl, rfl, rfl, rfl, rfl⟩

/-- A word that decodes in the main stream is the encoding of what it decodes to. -/
theorem decodeMain_sound : (decodeMain slot w lit).Sound slot w lit := by
  simp only [decodeMain]
  split
  case h_1 =>
    split
    next h0 => exact ⟨rfl, .inl (h0 ▸ rfl)⟩
    next => trivial
  case h_2 hm => exact decodeCvt_sound hw hlit hm
  case h_3 hm => exact decodeSR_sound hw hm
  case h_4 hm => exact decodeSI_sound hw hlit hm
  case h_5 hm => exact decodeSB_sound hw hlit hm
  case h_6 hm => exact decodeVR_sound hw hm
  case h_7 hm => exact decodeVI_sound hw hlit hm
  case h_8 hm => exact decodeF32_sound hw hm
  case h_9 hm => exact decodeFMA_sound hw hm
  case h_10 hm => exact decodeVC_sound hw hm
  case h_11 hm => exact decodeTR_sound hw hm
  case h_12 hm => exact decodeLX_sound hw hm
  case h_13 hm => exact decodeM_sound hw hm
  case h_14 hm => exact decodeAT_sound hw hm
  case h_15 hm => exact decodeSW_sound hw hm
  case h_16 hm => exact decodeCP_sound hw hm
  case h_17 hm => exact decodeBF_sound hw hm
  case h_18 hm => exact decodeBranch_sound hw hlit hm
  case h_19 hm => exact decodeToken_sound hw hlit hm
  case h_20 hm => exact decodeSY_sound hw hm
  case h_21 hm => exact decodeInv_sound hw hm
  case h_22 hm => exact decodeRD_sound hw hm
  case h_23 hm => exact decodeEQ_sound hw hm
  case h_24 hm => exact decodeHeader_sound hw hm
  case h_25 => trivial

end

end Sys2Proof
end

section
/-! SUPPORT. The encoding of a main-stream instruction decodes to it; the round trip of the main stream (R170 to R183). -/

namespace Sys2Proof

/-! ## A word decodes to the instruction that stands in it -/

/-- Agreement with the word of a trap that is a service (R232). -/
theorem service_fields {w v : Nat} (h : fld w 0 26 = fld v 0 26) :
    fld w 22 4 = fld v 22 4 ∧ fld w 8 14 = fld v 8 14 ∧ fld w 0 8 = fld v 0 8 := by
  obtain ⟨hhigh, h0⟩ := (fld_add_eq_iff (n := 8) (m := 18)).mp h
  obtain ⟨h22, h8⟩ := (fld_add_eq_iff (n := 14) (m := 4)).mp hhigh
  exact ⟨h22, h8, h0⟩

section

open Decoded

/-- The encoding of a well-formed instruction of the main stream decodes to it: its fields are those that its major's decoder
reads, and no check of the decoder stops it. -/
theorem decodeMain_of_stands {i : Instr} {slot w lit : Nat} (hw : w < 2 ^ 32) (hlit : lit < 2 ^ 32)
    (hs : ∀ o : StreamOp, o.instr ≠ i) (hc : ∀ o : CarderOp, o.instr ≠ i) (h : i.stands slot w lit) :
    decodeMain slot w lit = .ok i := by
  cases i with
  | clause v a b l y =>
    obtain ⟨hop, rfl, rfl, rfl, rfl, rfl, -⟩ :=
      (Instr.stands_iff_plain hw 26 (.header v a b l y) rfl (by decide) rfl rfl rfl).mp h
    obtain ⟨h31, h26⟩ := (fld_add_eq_iff (n := 5) (m := 1)).mp hop
    rw [decodeMain_header h26]
    exact pass_guard (by rw [(chain_eq_iff w false).mp h31]; decide) rfl
  | nop =>
    obtain ⟨-, h0, -⟩ := (Instr.stands_iff_of_encode (t := []) rfl).mp h
    subst h0
    rfl
  | sMovB32 c d b | sAddN32 c d b | sSubN32 c d b | sMulN32 c d b | sMulhiN32 c d b | sMulhiS32 c d b | sAndB32 c d b
  | sOrB32 c d b | sXorB32 c d b | sNotB32 c d b | sShlB32 c d b | sShrN32 c d b | sShrS32 c d b | sMinN32 c d b
  | sMinS32 c d b | sMaxN32 c d b | sMaxS32 c d b | sMovB64 c d b | sAddN64 c d b | sSubN64 c d b | sMulN64 c d b
  | sAndB64 c d b | sOrB64 c d b | sXorB64 c d b | sShlB64 c d b | sShrN64 c d b | sShrS64 c d b =>
    obtain ⟨⟨rfl, h26, h20⟩, ⟨rfl, rfl, -⟩, -⟩ := h.fields hw 20 6 (.scal2 d b) [] rfl rfl rfl rfl rfl
    rw [decodeMain_SR h26, decodeSR, h20]
    rfl
  | siMovB32 c d i | siAddN32 c d i | siMulN32 c d i | siAndB32 c d i | siOrB32 c d i | siXorB32 c d i | siShlB32 c d i
  | siShrN32 c d i | siShrS32 c d i | siMovB64 c d i | siAddN64 c d i =>
    obtain ⟨⟨rfl, h26, h22⟩, ⟨rfl, hz, -⟩, hv, ht⟩ :=
      h.literal hw 12 _ 22 4 (.scalImm d _) rfl rfl rfl rfl rfl (Imm.field_lt (n := 11)) rfl
    rw [decodeMain_SI h26, decodeSI, h22]
    exact imm_eq ((Imm.at_iff hlit).mpr ⟨hz, hv, ht⟩)
  | beq c a b o | bne c a b o | bltS32 c a b o | bgeS32 c a b o | bltN32 c a b o | bgeN32 c a b o =>
    obtain ⟨⟨rfl, h26, h23⟩, ⟨rfl, rfl, hz, -⟩, hv, ht⟩ :=
      h.literal hw 6 _ 23 3 (.branch a b _) rfl rfl rfl rfl rfl (Tgt.field_lt (n := 5)) rfl
    rw [decodeMain_SB h26, decodeSB, h23]
    exact tgt_eq ((Tgt.at_iff hlit (by decide)).mpr ⟨hz, hv, ht⟩)
  | vAddN32 c d a s b | vSubN32 c d a s b | vMulN32 c d a s b | vMulhiN32 c d a s b | vMulhiS32 c d a s b | vAndB32 c d a s b
  | vOrB32 c d a s b | vXorB32 c d a s b | vShlB32 c d a s b | vShrN32 c d a s b | vShrS32 c d a s b | vMinN32 c d a s b
  | vMinS32 c d a s b | vMaxN32 c d a s b | vMaxS32 c d a s b | vAddsatS32 c d a s b =>
    obtain ⟨⟨rfl, h26, h22⟩, ⟨rfl, rfl, rfl, rfl, -⟩, -⟩ := h.fields hw 22 4 (.rows d a s b) [] rfl rfl rfl rfl rfl
    rw [decodeMain_VR h26, decodeVR, h22]
    rfl
  | viAddN32 c d a i | viSubN32 c d a i | viMulN32 c d a i | viMulhiN32 c d a i | viMulhiS32 c d a i | viAndB32 c d a i
  | viOrB32 c d a i | viXorB32 c d a i | viShlB32 c d a i | viShrN32 c d a i | viShrS32 c d a i | viMinN32 c d a i
  | viMinS32 c d a i | viMaxN32 c d a i | viMaxS32 c d a i =>
    obtain ⟨⟨rfl, h26, h22⟩, ⟨rfl, rfl, hz, -⟩, hv, ht⟩ :=
      h.literal hw 8 _ 22 4 (.rowImm d a _) rfl rfl rfl rfl rfl (Imm.field_lt (n := 7)) rfl
    rw [decodeMain_VI h26, decodeVI, h22]
    exact imm_eq ((Imm.at_iff hlit).mpr ⟨hz, hv, ht⟩)
  | faddF32 c d a s b | fsubF32 c d a s b | fmulF32 c d a s b | fminF32 c d a s b | fmaxF32 c d a s b | fcpsgnF32 c d a s b =>
    obtain ⟨⟨rfl, h26, h22⟩, ⟨rfl, rfl, rfl, rfl, -⟩, -⟩ := h.fields hw 22 4 (.rows d a s b) [] rfl rfl rfl rfl rfl
    rw [decodeMain_F32 h26, decodeF32, h22]
    rfl
  | fabsF32 c d a | fnegF32 c d a =>
    obtain ⟨⟨rfl, h26, h22⟩, ⟨rfl, rfl, h0, -⟩, -⟩ := h.fields hw 22 4 (.rows2 d a) [] rfl rfl rfl rfl rfl
    rw [decodeMain_F32 h26, decodeF32, h22]
    exact pass_reserved h0 rfl
  | fmaF32 c d a s b | fnmaF32 c d a s b | faddF16 c d a s b | fsubF16 c d a s b | fmulF16 c d a s b | fmaF16 c d a s b
  | faddBf16 c d a s b | fsubBf16 c d a s b | fmulBf16 c d a s b | fmaBf16 c d a s b | fminF16 c d a s b | fmaxF16 c d a s b
  | fminBf16 c d a s b | fmaxBf16 c d a s b =>
    obtain ⟨⟨rfl, h26, h22⟩, ⟨rfl, rfl, rfl, rfl, -⟩, -⟩ := h.fields hw 22 4 (.rows d a s b) [] rfl rfl rfl rfl rfl
    rw [decodeMain_FMA h26, decodeFMA, h22]
    rfl
  | vcmpEq c t p a s b | vcmpNe c t p a s b | vcmpLt c t p a s b | vcmpLe c t p a s b | vcmpGt c t p a s b
  | vcmpGe c t p a s b =>
    obtain ⟨⟨rfl, h26, h23⟩, ⟨rfl, h18, rfl, rfl, rfl, rfl, -⟩, ht, hp, -⟩ :=
      h.fields hw 23 3 (.cmp t p a s b) [t ≠ 3, p ≠ 7] rfl rfl rfl rfl rfl
    rw [decodeMain_VC h26, decodeVC, h23]
    exact pass_guard (of_decide_eq_true ht) (pass_reserved h18 (pass_guard (of_decide_eq_true hp) rfl))
  | pand c d a b | por c d a b | pxor c d a b =>
    obtain ⟨⟨rfl, h26, hop⟩, ⟨h18, rfl, h11, rfl, h3, rfl, -⟩, hd, -⟩ :=
      h.fields hw 21 5 (.preds d a b) [d ≠ 7] rfl rfl rfl rfl rfl
    obtain ⟨h23, h21⟩ := (fld_add_eq_iff (n := 2) (m := 3)).mp hop
    rw [decodeMain_VC h26, decodeVC, h23, h21]
    exact pass_reserved h18 (pass_reserved h11 (pass_reserved h3 (pass_guard (of_decide_eq_true hd) rfl)))
  | pnot c d a =>
    obtain ⟨⟨rfl, h26, hop⟩, ⟨h18, rfl, h11, rfl, h3, h0, -⟩, hd, -⟩ := h.fields hw 21 5 (.preds2 d a) [d ≠ 7] rfl rfl rfl rfl rfl
    obtain ⟨h23, h21⟩ := (fld_add_eq_iff (n := 2) (m := 3)).mp hop
    rw [decodeMain_VC h26, decodeVC, h23, h21]
    exact pass_reserved h18 (pass_reserved h11 (pass_reserved h3 (pass_reserved h0 (pass_guard (of_decide_eq_true hd) rfl))))
  | cvt c s t r x d a =>
    obtain ⟨⟨rfl, h26⟩, ⟨rfl, hslot⟩, hok, rfl, rfl, rfl, rfl, rfl⟩ := (Instr.stands_cvt_iff hw hlit).mp h
    obtain ⟨hform, hext⟩ := cvtOk_fields hok
    rw [decodeMain_Cvt h26]
    exact pass_guard hform (pass_guard hslot (pass_guard hext (pass_guard (ne_false_of_eq_true hok) rfl)))
  | rcpF32 c d a | rsqrtF32 c d a | sqrtF32 c d a | exp2F32 c d a | log2F32 c d a | sinpiF32 c d a | cospiF32 c d a
  | tanhF32 c d a | sigmF32 c d a | erfF32 c d a =>
    obtain ⟨⟨rfl, h26, h22⟩, ⟨rfl, rfl, h0, -⟩, -⟩ := h.fields hw 22 4 (.rows2 d a) [] rfl rfl rfl rfl rfl
    rw [decodeMain_TR h26, decodeTR, h22]
    exact pass_reserved h0 rfl
  | vgetB32 c d a s b | vputB32 c d a s b | xreadB32 c d a s b | xwriteB32 c d a s b =>
    obtain ⟨⟨rfl, h26, h22⟩, ⟨rfl, rfl, rfl, rfl, -⟩, -⟩ := h.fields hw 22 4 (.rows d a s b) [] rfl rfl rfl rfl rfl
    rw [decodeMain_LX h26, decodeLX, h22]
    rfl
  | shflIdxB32 c d a b =>
    obtain ⟨⟨rfl, h26, h22⟩, ⟨rfl, rfl, h7, rfl, -⟩, -⟩ := h.fields hw 22 4 (.rows3 d a b) [] rfl rfl rfl rfl rfl
    rw [decodeMain_LX h26, decodeLX, h22]
    exact pass_reserved h7 rfl
  | shflUpB32 c d a j | shflDownB32 c d a j | shflXorB32 c d a j =>
    obtain ⟨⟨rfl, h26, h22⟩, ⟨rfl, rfl, h7, h5, rfl, -⟩, -⟩ := h.fields hw 22 4 (.lanes d a j) [] rfl rfl rfl rfl rfl
    rw [decodeMain_LX h26, decodeLX, h22]
    exact pass_reserved h7 (pass_reserved h5 rfl)
  | ballotB32 c d a | pmovB32 c d a =>
    obtain ⟨⟨rfl, h26, h22⟩, ⟨rfl, h11, rfl, h7, h0, -⟩, -⟩ := h.fields hw 22 4 (.ballot d a) [] rfl rfl rfl rfl rfl
    rw [decodeMain_LX h26, decodeLX, h22]
    exact pass_reserved h7 (pass_reserved h0 (pass_reserved h11 rfl))
  | voteAny c d a | voteAll c d a =>
    obtain ⟨⟨rfl, h26, h22⟩, ⟨h18, rfl, h11, rfl, h7, h0, -⟩, hd, -⟩ := h.fields hw 22 4 (.vote d a) [d ≠ 7] rfl rfl rfl rfl rfl
    rw [decodeMain_LX h26, decodeLX, h22]
    exact pass_reserved h7 (pass_reserved h0 (pass_reserved h11 (pass_reserved h18 (pass_guard (of_decide_eq_true hd) rfl))))
  | ptestB32 c d a =>
    obtain ⟨⟨rfl, h26, h22⟩, ⟨h18, rfl, rfl, h7, h0, -⟩, hd, -⟩ := h.fields hw 22 4 (.ptest d a) [d ≠ 7] rfl rfl rfl rfl rfl
    rw [decodeMain_LX h26, decodeLX, h22]
    exact pass_reserved h7 (pass_reserved h0 (pass_reserved h18 (pass_guard (of_decide_eq_true hd) rfl)))
  | ldB8 c f d a b | ldB16 c f d a b | ldB32 c f d a b | ldB8Fa c f d a b | ldB16Fa c f d a b | ldB32Fa c f d a b
  | ldB8Fb c f d a b | ldB16Fb c f d a b | ldB32Fb c f d a b | stB8 c f d a b | stB16 c f d a b | stB32 c f d a b =>
    obtain ⟨⟨rfl, h26, h22⟩, ⟨rfl, rfl, rfl, rfl, -⟩, -⟩ := h.fields hw 22 4 (.mem f d a b) [] rfl rfl rfl rfl rfl
    rw [decodeMain_M h26, decodeM, h22]
    rfl
  | ldScalarAddress c z f e o q d a =>
    obtain ⟨⟨rfl, h26, h22⟩, ⟨rfl, rfl, rfl, rfl, rfl, rfl, rfl, -⟩, hf, hscope, -⟩ :=
      h.fields hw 22 4 (.loadScal z f e o q d a) [f ≠ 3, scopeOk o q] rfl rfl rfl rfl rfl
    obtain ⟨hq, ho⟩ := scopeOk_iff.mp hscope
    rw [decodeMain_M h26, decodeM, h22]
    exact pass_guard (of_decide_eq_true hf) (pass_guard hq (pass_guard ho rfl))
  | stScalarAddress c z e o q d a =>
    obtain ⟨⟨rfl, h26, h22⟩, ⟨rfl, h18, rfl, rfl, rfl, rfl, rfl, -⟩, hscope, -⟩ :=
      h.fields hw 22 4 (.storeScal z e o q d a) [scopeOk o q] rfl rfl rfl rfl rfl
    obtain ⟨hq, ho⟩ := scopeOk_iff.mp hscope
    rw [decodeMain_M h26, decodeM, h22]
    exact pass_reserved h18 (pass_guard hq (pass_guard ho rfl))
  | atomAddN32 c o q f d u a | atomAddN64 c o q f d u a | atomAddF32 c o q f d u a | atomMinS32 c o q f d u a
  | atomMinN32 c o q f d u a | atomMaxS32 c o q f d u a | atomMaxN32 c o q f d u a | atomAndB32 c o q f d u a
  | atomOrB32 c o q f d u a | atomXorB32 c o q f d u a | atomXchgB32 c o q f d u a | atomCasB32 c o q f d u a
  | atomXchgB64 c o q f d u a | atomCasB64 c o q f d u a =>
    obtain ⟨⟨rfl, h26, h22⟩, ⟨rfl, rfl, rfl, rfl, rfl, rfl, -⟩, hf, hscope, -⟩ :=
      h.fields hw 22 4 (.atom o q f d u a) [f ≠ 3, scopeOk o q] rfl rfl rfl rfl rfl
    obtain ⟨hq, ho⟩ := scopeOk_iff.mp hscope
    rw [decodeMain_AT h26, decodeAT, h22]
    exact pass_guard (of_decide_eq_true hf) (pass_guard hq (pass_guard ho rfl))
  | swldB32 c f d a | swldB32Far c f d a =>
    obtain ⟨⟨rfl, h26, h22⟩, ⟨rfl, rfl, rfl, h0, -⟩, hf, -⟩ := h.fields hw 22 4 (.swld f d a) [f ≠ 3] rfl rfl rfl rfl rfl
    rw [decodeMain_SW h26, decodeSW, h22]
    exact pass_reserved h0 (pass_guard (of_decide_eq_true hf) rfl)
  | swstB32 c d a b | swredAddN32 c d a b | swredOrB32 c d a b | swstB32Far c d a b | swredAddN32Far c d a b
  | swredOrB32Far c d a b =>
    obtain ⟨⟨rfl, h26, h22⟩, ⟨h20, rfl, rfl, rfl, -⟩, -⟩ := h.fields hw 22 4 (.swst d a b) [] rfl rfl rfl rfl rfl
    rw [decodeMain_SW h26, decodeSW, h22]
    exact pass_reserved h20 rfl
  | swatomAddN32 c f d a b | swatomCasB32 c f d a b | swatomAddN32Far c f d a b | swatomCasB32Far c f d a b =>
    obtain ⟨⟨rfl, h26, h22⟩, ⟨rfl, rfl, rfl, rfl, -⟩, hf, -⟩ := h.fields hw 22 4 (.mem f d a b) [f ≠ 3] rfl rfl rfl rfl rfl
    rw [decodeMain_SW h26, decodeSW, h22]
    exact pass_guard (of_decide_eq_true hf) rfl
  | exportSwatch c j =>
    obtain ⟨⟨rfl, h26, hop⟩, ⟨h12, rfl, -⟩, -⟩ := h.fields hw 18 8 (.pool j) [] rfl rfl rfl rfl rfl
    obtain ⟨h22, h18⟩ := (fld_add_eq_iff (n := 4) (m := 4)).mp hop
    rw [decodeMain_SW h26, decodeSW, h22]
    exact pass_reserved h18 (pass_reserved h12 rfl)
  | copyRows c v d a b | copyRowsX24 c v d a b | copySwatch c v d a b | copyOutTeam c v d a b | copyOutClu c v d a b
  | copyOutDie c v d a b | copyOutMod c v d a b | copyOutSys c v d a b | copyOutC24Team c v d a b | copyOutC24Clu c v d a b
  | copyOutC24Die c v d a b | copyOutC24Mod c v d a b | copyOutC24Sys c v d a b | walk c v d a b =>
    obtain ⟨⟨rfl, h26, h22⟩, ⟨rfl, rfl, rfl, rfl, h0, -⟩, -⟩ := h.fields hw 22 4 (.copy v d a b) [] rfl rfl rfl rfl rfl
    rw [decodeMain_CP h26, decodeCP, h22]
    exact pass_reserved h0 rfl
  | copyCol c d a b =>
    obtain ⟨⟨rfl, h26, h22⟩, ⟨h21, rfl, rfl, rfl, h0, -⟩, -⟩ := h.fields hw 22 4 (.copyCol d a b) [] rfl rfl rfl rfl rfl
    rw [decodeMain_CP h26, decodeCP, h22]
    exact pass_reserved h0 (pass_reserved h21 rfl)
  | gather c j | scatter c j | shbind c j | shbindOff c j =>
    obtain ⟨⟨rfl, h26, hop⟩, ⟨h12, rfl, -⟩, -⟩ := h.fields hw 18 8 (.pool j) [] rfl rfl rfl rfl rfl
    obtain ⟨h22, h18⟩ := (fld_add_eq_iff (n := 4) (m := 4)).mp hop
    rw [decodeMain_CP h26, decodeCP, h22, h18]
    exact pass_reserved h12 rfl
  | arrive c b | swap c b =>
    obtain ⟨⟨rfl, h26, h22⟩, ⟨h19, rfl, h10, h0, -⟩, -⟩ := h.fields hw 22 4 (.bar b) [] rfl rfl rfl rfl rfl
    rw [decodeMain_BF h26, decodeBF, h22]
    exact pass_reserved h19 (pass_reserved h10 (pass_reserved h0 rfl))
  | binit c b a | bread c b a =>
    obtain ⟨⟨rfl, h26, h22⟩, ⟨h19, rfl, h10, rfl, -⟩, -⟩ := h.fields hw 22 4 (.barScal b a) [] rfl rfl rfl rfl rfl
    rw [decodeMain_BF h26, decodeBF, h22]
    exact pass_reserved h19 (pass_reserved h10 rfl)
  | twait c p b a =>
    obtain ⟨⟨rfl, h26, h22⟩, ⟨rfl, rfl, h10, rfl, -⟩, hp, -⟩ := h.fields hw 22 4 (.barPred p b a) [p ≠ 7] rfl rfl rfl rfl rfl
    rw [decodeMain_BF h26, decodeBF, h22]
    exact pass_reserved h10 (pass_guard (of_decide_eq_true hp) rfl)
  | fence c q =>
    obtain ⟨⟨rfl, h26, h22⟩, ⟨h19, h13, rfl, h0, -⟩, hq, -⟩ := h.fields hw 22 4 (.fence q) [q < 6] rfl rfl rfl rfl rfl
    rw [decodeMain_BF h26, decodeBF, h22]
    have hle := not_lt.mpr (Nat.le_of_lt_succ (of_decide_eq_true hq))
    exact pass_reserved h19 (pass_reserved h13 (pass_reserved h0 (pass_guard hle rfl)))
  | cbatch c a | waitb c a =>
    obtain ⟨⟨rfl, h26, h22⟩, ⟨h19, h13, h10, rfl, -⟩, -⟩ := h.fields hw 22 4 (.batch a) [] rfl rfl rfl rfl rfl
    rw [decodeMain_BF h26, decodeBF, h22]
    exact pass_reserved h19 (pass_reserved h13 (pass_reserved h10 rfl))
  | waitbPred c p a =>
    obtain ⟨⟨rfl, h26, h22⟩, ⟨rfl, h13, h10, rfl, -⟩, hp, -⟩ := h.fields hw 22 4 (.batchPred p a) [p ≠ 7] rfl rfl rfl rfl rfl
    rw [decodeMain_BF h26, decodeBF, h22]
    exact pass_reserved h13 (pass_reserved h10 (pass_guard (of_decide_eq_true hp) rfl))
  | bra c p o =>
    obtain ⟨⟨rfl, h26, hop⟩, ⟨rfl, h14, hz, -⟩, hv, ht⟩ :=
      h.literal hw 14 _ 21 5 (.braTgt p _) rfl rfl rfl rfl rfl (Tgt.field_lt (n := 13)) rfl
    obtain ⟨h22, h21⟩ := (fld_add_eq_iff (n := 1) (m := 4)).mp hop
    rw [decodeMain_Branch h26, decodeBranch, h22]
    exact pass_reserved h14 (if_pos h21 |>.trans <| tgt_eq ((Tgt.at_iff hlit (by decide)).mpr ⟨hz, hv, ht⟩))
  | braU c p o =>
    obtain ⟨⟨rfl, h26, hop⟩, ⟨rfl, h14, hz, -⟩, hv, ht⟩ :=
      h.literal hw 14 _ 21 5 (.braTgt p _) rfl rfl rfl rfl rfl (Tgt.field_lt (n := 13)) rfl
    obtain ⟨h22, h21⟩ := (fld_add_eq_iff (n := 1) (m := 4)).mp hop
    rw [decodeMain_Branch h26, decodeBranch, h22]
    exact pass_reserved h14 (if_neg (by rw [h21]; decide) |>.trans <| tgt_eq ((Tgt.at_iff hlit (by decide)).mpr ⟨hz, hv, ht⟩))
  | call c d o =>
    obtain ⟨⟨rfl, h26, h22⟩, ⟨rfl, hz, -⟩, hv, ht⟩ :=
      h.literal hw 12 _ 22 4 (.callTgt d _) rfl rfl rfl rfl rfl (Tgt.field_lt (n := 11)) rfl
    rw [decodeMain_Branch h26, decodeBranch, h22]
    exact tgt_eq ((Tgt.at_iff hlit (by decide)).mpr ⟨hz, hv, ht⟩)
  | ret c d =>
    obtain ⟨⟨rfl, h26, h22⟩, ⟨rfl, h0, -⟩, -⟩ := h.fields hw 22 4 (.ret d) [] rfl rfl rfl rfl rfl
    rw [decodeMain_Branch h26, decodeBranch, h22]
    exact pass_reserved h0 rfl
  | exit c =>
    obtain ⟨⟨rfl, h26, h22⟩, ⟨h0, -⟩, -⟩ := h.fields hw 22 4 .bare [] rfl rfl rfl rfl rfl
    rw [decodeMain_Branch h26, decodeBranch, h22]
    exact pass_reserved h0 rfl
  | mark c o =>
    obtain ⟨⟨rfl, h26, h22⟩, ⟨h14, hz, -⟩, hv, ht⟩ :=
      h.literal (b := true) hw 14 _ 22 4 (.markTgt _) rfl rfl rfl rfl rfl (Tgt.field_lt (n := 13)) rfl
    rw [decodeMain_Token h26, decodeToken, h22]
    exact pass_reserved h14 (tgt_eq ((Tgt.at_iff hlit (by decide)).mpr ⟨hz, hv, ht⟩))
  | join c =>
    obtain ⟨⟨rfl, h26, h22⟩, ⟨h0, -⟩, -⟩ := h.fields hw 22 4 .bare [] rfl rfl rfl rfl rfl
    rw [decodeMain_Token h26, decodeToken, h22]
    exact pass_reserved h0 rfl
  | brk c p b =>
    obtain ⟨⟨rfl, h26, h22⟩, ⟨h21, rfl, rfl, h0, -⟩, -⟩ := h.fields hw 22 4 (.brk p b) [] rfl rfl rfl rfl rfl
    rw [decodeMain_Token h26, decodeToken, h22]
    exact pass_reserved h21 (pass_reserved h0 rfl)
  | regang c b =>
    obtain ⟨⟨rfl, h26, h22⟩, ⟨h18, rfl, h0, -⟩, -⟩ := h.fields hw 22 4 (.regang b) [] rfl rfl rfl rfl rfl
    rw [decodeMain_Token h26, decodeToken, h22]
    exact pass_reserved h18 (pass_reserved h0 rfl)
  | sgetScalar c r d =>
    obtain ⟨⟨rfl, h26, hop⟩, ⟨rfl, h10, rfl, -⟩, hr, hr0, -⟩ :=
      h.fields hw 21 5 (.sysScal r d) [r < 14, r ≠ 0] rfl rfl rfl rfl rfl
    obtain ⟨h22, h21⟩ := (fld_add_eq_iff (n := 1) (m := 4)).mp hop
    rw [decodeMain_SY h26, decodeSY, h22]
    exact pass_reserved h10 (pass_guard (not_lt.mpr (Nat.le_of_lt_succ (of_decide_eq_true hr)))
      ((if_pos h21).trans (pass_guard (of_decide_eq_true hr0) rfl)))
  | sgetVector c r d =>
    obtain ⟨⟨rfl, h26, hop⟩, ⟨rfl, h10, h7, rfl, -⟩, hr, -⟩ := h.fields hw 21 5 (.sysVec r d) [r < 14] rfl rfl rfl rfl rfl
    obtain ⟨h22, h21⟩ := (fld_add_eq_iff (n := 1) (m := 4)).mp hop
    rw [decodeMain_SY h26, decodeSY, h22]
    exact pass_reserved h10 (pass_guard (not_lt.mpr (Nat.le_of_lt_succ (of_decide_eq_true hr)))
      ((if_neg (by rw [h21]; decide)).trans (pass_reserved h7 rfl)))
  | sput c r d =>
    obtain ⟨⟨rfl, h26, h22⟩, ⟨h21, rfl, h10, rfl, -⟩, hr, -⟩ := h.fields hw 22 4 (.sput r d) [r < 14] rfl rfl rfl rfl rfl
    rw [decodeMain_SY h26, decodeSY, h22]
    exact pass_reserved h10 (pass_reserved h21 (pass_guard (not_lt.mpr (Nat.le_of_lt_succ (of_decide_eq_true hr))) rfl))
  | trap c b =>
    obtain ⟨⟨rfl, h26, h22⟩, ⟨h8, rfl, -⟩, hb, -⟩ := h.fields hw 22 4 (.trap b) [0x22 ≤ b] rfl rfl rfl rfl rfl
    have hge : 0x22 ≤ fld w 0 8 := of_decide_eq_true hb
    rw [decodeMain_SY h26, decodeSY, h22]
    exact pass_reserved h8 (pass_guard (by omega) ((if_neg (by omega)).trans (if_neg (by omega))))
  | trapRegisterHandler c =>
    obtain ⟨⟨rfl, h26, hop⟩, -, -⟩ := h.fields hw 0 26 [] [] rfl rfl rfl rfl rfl
    obtain ⟨h22, h8, h0⟩ := service_fields hop
    rw [decodeMain_SY h26, decodeSY, h22]
    exact pass_reserved h8 (pass_guard (by rw [h0]; decide) (if_pos h0))
  | trapKillService c =>
    obtain ⟨⟨rfl, h26, hop⟩, -, -⟩ := h.fields hw 0 26 [] [] rfl rfl rfl rfl rfl
    obtain ⟨h22, h8, h0⟩ := service_fields hop
    rw [decodeMain_SY h26, decodeSY, h22]
    exact pass_reserved h8 (pass_guard (by rw [h0]; decide) ((if_neg (by rw [h0]; decide)).trans (if_pos h0)))
  | rte c =>
    obtain ⟨⟨rfl, h26, h22⟩, ⟨h0, -⟩, -⟩ := h.fields hw 22 4 .bare [] rfl rfl rfl rfl rfl
    rw [decodeMain_SY h26, decodeSY, h22]
    exact pass_reserved h0 rfl
  | inv c j =>
    obtain ⟨⟨rfl, h26, hop⟩, ⟨h12, rfl, -⟩, -⟩ := h.fields hw 18 8 (.pool j) [] rfl rfl rfl rfl rfl
    obtain ⟨h22, h18⟩ := (fld_add_eq_iff (n := 4) (m := 4)).mp hop
    rw [decodeMain_Inv h26, decodeInv, h22]
    exact pass_reserved h18 (pass_reserved h12 rfl)
  | vredAddF32 c d a s | vredAddN32 c d a s | vredMinF32 c d a s | vredMaxF32 c d a s | vredMinS32 c d a s
  | vredMaxS32 c d a s | vredAndB32 c d a s | vredOrB32 c d a s =>
    obtain ⟨⟨rfl, h26, h22⟩, ⟨rfl, rfl, rfl, h0, -⟩, -⟩ := h.fields hw 22 4 (.red d a s) [] rfl rfl rfl rfl rfl
    rw [decodeMain_RD h26, decodeRD, h22]
    exact pass_reserved h0 rfl
  | vredLmF32 c d a s b | vredLmBf16 c d a s b =>
    obtain ⟨⟨rfl, h26, h22⟩, ⟨rfl, rfl, rfl, rfl, -⟩, -⟩ := h.fields hw 22 4 (.rows d a s b) [] rfl rfl rfl rfl rfl
    rw [decodeMain_RD h26, decodeRD, h22]
    rfl
  | bump c p d a =>
    obtain ⟨⟨rfl, h26, h22⟩, ⟨h20, rfl, rfl, rfl, h0, -⟩, hp, -⟩ := h.fields hw 22 4 (.bump p d a) [p ≠ 7] rfl rfl rfl rfl rfl
    rw [decodeMain_EQ h26, decodeEQ, h22]
    exact pass_reserved h0 (pass_reserved h20 (pass_guard (of_decide_eq_true hp) rfl))
  | appendB32 c f p d a | appendB64 c f p d a =>
    obtain ⟨⟨rfl, h26, h22⟩, ⟨rfl, rfl, rfl, rfl, h0, -⟩, hf, -⟩ := h.fields hw 22 4 (.append f p d a) [f ≠ 3] rfl rfl rfl rfl rfl
    rw [decodeMain_EQ h26, decodeEQ, h22]
    exact pass_reserved h0 (pass_guard (of_decide_eq_true hf) rfl)
  | enq c a =>
    obtain ⟨⟨rfl, h26, hop⟩, ⟨h10, rfl, h0, -⟩, -⟩ := h.fields hw 17 9 (.enq a) [] rfl rfl rfl rfl rfl
    obtain ⟨hhigh, hp⟩ := (fld_add_eq_iff (n := 3) (m := 6)).mp hop
    obtain ⟨h22, h20⟩ := (fld_add_eq_iff (n := 2) (m := 4)).mp hhigh
    rw [decodeMain_EQ h26, decodeEQ, h22]
    exact pass_reserved h0 (pass_reserved h20 (pass_reserved h10 (if_pos hp)))
  | enqPred c p a =>
    obtain ⟨⟨rfl, h26, h22⟩, ⟨h20, rfl, h10, rfl, h0, -⟩, hp, -⟩ :=
      h.fields hw 22 4 (.enqPred p a) [p ≠ 7] rfl rfl rfl rfl rfl
    rw [decodeMain_EQ h26, decodeEQ, h22]
    exact pass_reserved h0 (pass_reserved h20 (pass_reserved h10 (if_neg (of_decide_eq_true hp))))
  | mnop => exact absurd rfl (hs .mnop) | qmov d a => exact absurd rfl (hs (.qmov d a))
  | qadd d a b => exact absurd rfl (hs (.qadd d a b)) | qsub d a b => exact absurd rfl (hs (.qsub d a b))
  | qmul d a b => exact absurd rfl (hs (.qmul d a b)) | qand d a b => exact absurd rfl (hs (.qand d a b))
  | qor d a b => exact absurd rfl (hs (.qor d a b)) | qshl d a b => exact absurd rfl (hs (.qshl d a b))
  | qshr d a b => exact absurd rfl (hs (.qshr d a b)) | qli d i => exact absurd rfl (hs (.qli d i))
  | qlih d i => exact absurd rfl (hs (.qlih d i)) | qrd d w l => exact absurd rfl (hs (.qrd d w l))
  | mwait n k => exact absurd rfl (hs (.mwait n k)) | marrive n => exact absurd rfl (hs (.marrive n))
  | mloop d o => exact absurd rfl (hs (.mloop d o)) | mkeep d o => exact absurd rfl (hs (.mkeep d o))
  | mjmp o => exact absurd rfl (hs (.mjmp o)) | mend => exact absurd rfl (hs .mend) | mma i => exact absurd rfl (hs (.mma i))
  | mzero t => exact absurd rfl (hs (.mzero t)) | mload t v q n => exact absurd rfl (hs (.mload t v q n))
  | mstore t v q n => exact absurd rfl (hs (.mstore t v q n)) | macq t q => exact absurd rfl (hs (.macq t q))
  | mrel t => exact absurd rfl (hs (.mrel t)) | mmask q => exact absurd rfl (hs (.mmask q))
  | cnop => exact absurd rfl (hc .cnop) | cmov d a => exact absurd rfl (hc (.cmov d a))
  | cli d i => exact absurd rfl (hc (.cli d i)) | cadd d a b => exact absurd rfl (hc (.cadd d a b))
  | csub d a b => exact absurd rfl (hc (.csub d a b)) | cmul d a b => exact absurd rfl (hc (.cmul d a b))
  | cand d a b => exact absurd rfl (hc (.cand d a b)) | cor d a b => exact absurd rfl (hc (.cor d a b))
  | caddi d a i => exact absurd rfl (hc (.caddi d a i)) | cshli d a n => exact absurd rfl (hc (.cshli d a n))
  | cshri d a n => exact absurd rfl (hc (.cshri d a n)) | crd8 d a i => exact absurd rfl (hc (.crd8 d a i))
  | crd16 d a i => exact absurd rfl (hc (.crd16 d a i)) | crd32 d a i => exact absurd rfl (hc (.crd32 d a i))
  | crd64 d a i => exact absurd rfl (hc (.crd64 d a i)) | cemit8 a b => exact absurd rfl (hc (.cemit8 a b))
  | cemit16 a b => exact absurd rfl (hc (.cemit16 a b)) | cemit32 a b => exact absurd rfl (hc (.cemit32 a b))
  | cbeq a b t => exact absurd rfl (hc (.cbeq a b t)) | cbne a b t => exact absurd rfl (hc (.cbne a b t))
  | cblt a b t => exact absurd rfl (hc (.cblt a b t)) | cbge a b t => exact absurd rfl (hc (.cbge a b t))
  | cjmp t => exact absurd rfl (hc (.cjmp t)) | cend => exact absurd rfl (hc .cend)
  | _ => exact absurd h (Instr.not_stands_of_encode rfl)

end

/-- Settles O54: what the decoder answers stands in the word, and the word of an instruction decodes to it. -/
theorem mainRoundTrip : Obligations.MainRoundTrip := by
  unfold Obligations.MainRoundTrip
  intro i slot w lit hw hlit hs hc
  refine ⟨fun h => ?sound, decodeMain_of_stands hw hlit hs hc⟩
  have hsound := decodeMain_sound (slot := slot) hw hlit
  rwa [h] at hsound

end Sys2Proof
end

section
/-! SUPPORT. The words of the matrix stream and of the Carder, and their round trip (R184, R185, R275, R276, R289, R290). -/

namespace Sys2Proof

/-! ## The words of the matrix stream and of the Carder (R184, R185, R275, R289, R290) -/

namespace Layout

def qmov (d a : Nat) : Layout := [(16, 6, some d), (10, 6, some a), (4, 6, none), (0, 4, none)]
def qregs (d a b : Nat) : Layout := [(16, 6, some d), (10, 6, some a), (4, 6, some b), (0, 4, none)]
def qimm (d i : Nat) : Layout := [(16, 6, some d), (0, 16, some i)]
def qrd (d v l : Nat) : Layout := [(16, 6, some d), (14, 2, none), (6, 8, some v), (1, 5, some l), (0, 1, none)]
def mwait (n k : Nat) : Layout := [(16, 6, some n), (10, 6, some k), (0, 10, none)]
def marrive (n : Nat) : Layout := [(16, 6, some n), (0, 16, none)]
def mjmp (o : Nat) : Layout := [(16, 6, none), (0, 16, some o)]
def mma (i : Nat) : Layout := [(18, 4, none), (12, 6, none), (0, 12, some i)]
def tile (t : Nat) : Layout := [(19, 3, some t), (0, 19, none)]
def tileRows (t v q n : Nat) : Layout := [(19, 3, some t), (12, 7, some v), (6, 6, some q), (0, 6, some n)]
def macq (t q : Nat) : Layout := [(19, 3, some t), (16, 3, none), (10, 6, some q), (0, 10, none)]
def mmask (q : Nat) : Layout := [(16, 6, none), (10, 6, some q), (0, 10, none)]
def cbare : Layout := [(0, 27, none)]
def cmov (d a : Nat) : Layout := [(23, 4, some d), (19, 4, some a), (0, 19, none)]
def cli (d i : Nat) : Layout := [(23, 4, some d), (15, 8, none), (0, 15, some i)]
def cregs (d a b : Nat) : Layout := [(23, 4, some d), (19, 4, some a), (15, 4, some b), (0, 15, none)]
def cimm (d a i : Nat) : Layout := [(23, 4, some d), (19, 4, some a), (15, 4, none), (0, 15, some i)]
def cshift (d a n : Nat) : Layout := [(23, 4, some d), (19, 4, some a), (6, 13, none), (0, 6, some n)]
def cemit (a b : Nat) : Layout := [(23, 4, none), (19, 4, some a), (15, 4, some b), (0, 15, none)]
def cbranch (a b t : Nat) : Layout := [(23, 4, none), (19, 4, some a), (15, 4, some b), (8, 7, none), (0, 8, some t)]
def cjmp (t : Nat) : Layout := [(8, 19, none), (0, 8, some t)]

end Layout

/-- In the last slot of a packet no literal follows, so that only a word by itself is left. -/
theorem Instr.stands_last_iff {i : Instr} {w lit : Nat} : i.stands 2 w lit ↔ i.wf = true ∧ encode i = [w] := by
  simp [Instr.stands]

section

variable {i : Instr} {w B : Nat} (l : Layout)

/-- A word of the matrix stream stands for an instruction when bit 31, the major, the minor and the fields are its own. -/
theorem Instr.stands_stream_iff (hw : w < 2 ^ 32) (hl : l.fills 22 = true) (henc : encode i = [l.put B]) (hwf : i.wf = l.fits true)
    (hB : fld B 22 10 * 2 ^ 22 = B) :
    i.stands 2 w 0 ↔ ((fld w 31 1 = fld B 31 1 ∧ fld w 26 5 = fld B 26 5) ∧ fld w 22 4 = fld B 22 4) ∧ l.holds w := by
  rw [Instr.stands_iff_plain hw 22 l hl (by decide) henc hwf hB, fld_add_eq_iff (n := 4) (m := 6), fld_add_eq_iff (n := 5) (m := 1)]

theorem Instr.stands_of_stream (hw : w < 2 ^ 32) (hl : l.fills 22 = true) (henc : encode i = [l.put B]) (hwf : i.wf = l.fits true)
    (hB : fld B 22 10 * 2 ^ 22 = B) (h31 : fld w 31 1 = fld B 31 1) (h26 : fld w 26 5 = fld B 26 5)
    (h22 : fld w 22 4 = fld B 22 4)
    (hf : l.holds w) : i.stands 2 w 0 :=
  (Instr.stands_stream_iff l hw hl henc hwf hB).mpr ⟨⟨⟨h31, h26⟩, h22⟩, hf⟩

theorem Instr.stands.stream (h : i.stands 2 w 0) (hw : w < 2 ^ 32) (hl : l.fills 22 = true) (henc : encode i = [l.put B])
    (hwf : i.wf = l.fits true) (hB : fld B 22 10 * 2 ^ 22 = B) :
    ((fld w 31 1 = fld B 31 1 ∧ fld w 26 5 = fld B 26 5) ∧ fld w 22 4 = fld B 22 4) ∧ l.holds w :=
  (Instr.stands_stream_iff l hw hl henc hwf hB).mp h

/-- A word of the Carder stands for an instruction when the operation and the fields are its own. -/
theorem Instr.stands_of_carder (hw : w < 2 ^ 32) (hl : l.fills 27 = true) (henc : encode i = [l.put B]) (hwf : i.wf = l.fits true)
    (hB : fld B 27 5 * 2 ^ 27 = B) (h27 : fld w 27 5 = fld B 27 5) (hf : l.holds w) : i.stands 2 w 0 :=
  (Instr.stands_iff_plain hw 27 l hl (by decide) henc hwf hB).mpr ⟨h27, hf⟩

theorem Instr.stands.carder (h : i.stands 2 w 0) (hw : w < 2 ^ 32) (hl : l.fills 27 = true) (henc : encode i = [l.put B])
    (hwf : i.wf = l.fits true) (hB : fld B 27 5 * 2 ^ 27 = B) : fld w 27 5 = fld B 27 5 ∧ l.holds w :=
  (Instr.stands_iff_plain hw 27 l hl (by decide) henc hwf hB).mp h

end

/-! ### The matrix stream -/

/-- An operation that the decoder of the stream answers stands in the word. -/
def StreamSound (w : Nat) : Except Nat StreamOp → Prop
  | .ok o => o.instr.stands 2 w 0
  | .error _ => True

theorem StreamSound.guard {w sub : Nat} {p : Prop} [Decidable p] {r : Except Nat StreamOp} (h : ¬p → StreamSound w r) :
    StreamSound w (if p then .error sub else r) := by
  split
  · trivial
  · exact h ‹_›

/-- A check that a reserved field is 0. -/
theorem StreamSound.reserved {w x sub : Nat} {r : Except Nat StreamOp} (h : x = 0 → StreamSound w r) :
    StreamSound w (if x ≠ 0 then .error sub else r) := .guard fun h0 => h (not_not.mp h0)

theorem decodeStreamOp_sound {w : Nat} (hw : w < 2 ^ 32) : StreamSound w (decodeStreamOp w) := by
  refine StreamSound.guard fun hc => ?_
  have h31 : fld w 31 1 = 0 := by
    have : fld w 31 1 < 2 := fld_lt le_rfl
    omega
  split
  case h_1 =>
    split
    · subst w; exact Instr.stands_last_iff.mpr ⟨rfl, rfl⟩
    · trivial
  case h_2 h26 =>
    split
    case h_1 =>
      exact .reserved fun h0 => .reserved fun h4 =>
        Instr.stands_of_stream (.qmov _ _) hw rfl rfl rfl rfl h31 h26 ‹_› ⟨rfl, rfl, h4, h0, trivial⟩
    case h_9 | h_10 => exact Instr.stands_of_stream (.qimm _ _) hw rfl rfl rfl rfl h31 h26 ‹_› ⟨rfl, rfl, trivial⟩
    case h_11 =>
      exact .reserved fun h14 => .reserved fun h0 =>
        Instr.stands_of_stream (.qrd _ _ _) hw rfl rfl rfl rfl h31 h26 ‹_› ⟨rfl, h14, rfl, rfl, h0, trivial⟩
    case h_12 => trivial
    all_goals
      exact .reserved fun h0 => Instr.stands_of_stream (.qregs _ _ _) hw rfl rfl rfl rfl h31 h26 ‹_› ⟨rfl, rfl, rfl, h0, trivial⟩
  case h_3 h26 =>
    split
    case h_1 => exact .reserved fun h0 => Instr.stands_of_stream (.mwait _ _) hw rfl rfl rfl rfl h31 h26 ‹_› ⟨rfl, rfl, h0, trivial⟩
    case h_2 => exact .reserved fun h0 => Instr.stands_of_stream (.marrive _) hw rfl rfl rfl rfl h31 h26 ‹_› ⟨rfl, h0, trivial⟩
    case h_3 => trivial
  case h_4 h26 =>
    split
    case h_1 | h_2 => exact Instr.stands_of_stream (.qimm _ _) hw rfl rfl rfl rfl h31 h26 ‹_› ⟨rfl, rfl, trivial⟩
    case h_3 => exact .reserved fun h16 => Instr.stands_of_stream (.mjmp _) hw rfl rfl rfl rfl h31 h26 ‹_› ⟨h16, rfl, trivial⟩
    case h_4 => exact .reserved fun h0 => Instr.stands_of_stream .bare hw rfl rfl rfl rfl h31 h26 ‹_› ⟨h0, trivial⟩
    case h_5 => trivial
  case h_5 h26 =>
    split
    case h_1 =>
      exact .reserved fun h18 => .reserved fun h12 =>
        Instr.stands_of_stream (.mma _) hw rfl rfl rfl rfl h31 h26 ‹_› ⟨h18, h12, rfl, trivial⟩
    case h_2 => trivial
  case h_6 h26 =>
    split
    case h_1 => exact .reserved fun h0 => Instr.stands_of_stream (.tile _) hw rfl rfl rfl rfl h31 h26 ‹_› ⟨rfl, h0, trivial⟩
    case h_2 | h_3 => exact Instr.stands_of_stream (.tileRows _ _ _ _) hw rfl rfl rfl rfl h31 h26 ‹_› ⟨rfl, rfl, rfl, rfl, trivial⟩
    case h_4 => trivial
  case h_7 h26 =>
    split
    case h_1 =>
      exact .reserved fun h16 => .reserved fun h0 =>
        Instr.stands_of_stream (.macq _ _) hw rfl rfl rfl rfl h31 h26 ‹_› ⟨rfl, h16, rfl, h0, trivial⟩
    case h_2 => exact .reserved fun h0 => Instr.stands_of_stream (.tile _) hw rfl rfl rfl rfl h31 h26 ‹_› ⟨rfl, h0, trivial⟩
    case h_3 =>
      exact .reserved fun h16 => .reserved fun h0 =>
        Instr.stands_of_stream (.mmask _) hw rfl rfl rfl rfl h31 h26 ‹_› ⟨h16, rfl, h0, trivial⟩
    case h_4 => trivial
  case h_8 => trivial

theorem decodeStreamOp_of_stands {o : StreamOp} {w : Nat} (hw : w < 2 ^ 32) (h : o.instr.stands 2 w 0) :
    decodeStreamOp w = .ok o := by
  have hpass : ∀ {r : Except Nat StreamOp}, fld w 31 1 = 0 → r = .ok o → (if fld w 31 1 = 1 then .error 3 else r) = .ok o :=
    fun h31 => pass_guard (by rw [h31]; decide)
  cases o with
  | mnop =>
    obtain ⟨-, hword⟩ := Instr.stands_last_iff.mp h
    cases hword
    rfl
  | qmov d a =>
    obtain ⟨⟨⟨h31, h26⟩, h22⟩, rfl, rfl, h4, h0, -⟩ := h.stream (.qmov d a) hw rfl rfl rfl rfl
    refine hpass h31 ?_
    rw [h26, h22]
    exact pass_reserved h0 (pass_reserved h4 rfl)
  | qadd d a b | qsub d a b | qmul d a b | qand d a b | qor d a b | qshl d a b | qshr d a b =>
    obtain ⟨⟨⟨h31, h26⟩, h22⟩, rfl, rfl, rfl, h0, -⟩ := h.stream (.qregs d a b) hw rfl rfl rfl rfl
    refine hpass h31 ?_
    rw [h26, h22]
    exact pass_reserved h0 rfl
  | qli d i | qlih d i | mloop d i | mkeep d i =>
    obtain ⟨⟨⟨h31, h26⟩, h22⟩, rfl, rfl, -⟩ := h.stream (.qimm d i) hw rfl rfl rfl rfl
    refine hpass h31 ?_
    rw [h26, h22]
    rfl
  | qrd d v l =>
    obtain ⟨⟨⟨h31, h26⟩, h22⟩, rfl, h14, rfl, rfl, h0, -⟩ := h.stream (.qrd d v l) hw rfl rfl rfl rfl
    refine hpass h31 ?_
    rw [h26, h22]
    exact pass_reserved h14 (pass_reserved h0 rfl)
  | mwait n k =>
    obtain ⟨⟨⟨h31, h26⟩, h22⟩, rfl, rfl, h0, -⟩ := h.stream (.mwait n k) hw rfl rfl rfl rfl
    refine hpass h31 ?_
    rw [h26, h22]
    exact pass_reserved h0 rfl
  | marrive n =>
    obtain ⟨⟨⟨h31, h26⟩, h22⟩, rfl, h0, -⟩ := h.stream (.marrive n) hw rfl rfl rfl rfl
    refine hpass h31 ?_
    rw [h26, h22]
    exact pass_reserved h0 rfl
  | mjmp o =>
    obtain ⟨⟨⟨h31, h26⟩, h22⟩, h16, rfl, -⟩ := h.stream (.mjmp o) hw rfl rfl rfl rfl
    refine hpass h31 ?_
    rw [h26, h22]
    exact pass_reserved h16 rfl
  | mend =>
    obtain ⟨⟨⟨h31, h26⟩, h22⟩, h0, -⟩ := h.stream .bare hw rfl rfl rfl rfl
    refine hpass h31 ?_
    rw [h26, h22]
    exact pass_reserved h0 rfl
  | mma i =>
    obtain ⟨⟨⟨h31, h26⟩, h22⟩, h18, h12, rfl, -⟩ := h.stream (.mma i) hw rfl rfl rfl rfl
    refine hpass h31 ?_
    rw [h26, h22]
    exact pass_reserved h18 (pass_reserved h12 rfl)
  | mzero t | mrel t =>
    obtain ⟨⟨⟨h31, h26⟩, h22⟩, rfl, h0, -⟩ := h.stream (.tile t) hw rfl rfl rfl rfl
    refine hpass h31 ?_
    rw [h26, h22]
    exact pass_reserved h0 rfl
  | mload t v q n | mstore t v q n =>
    obtain ⟨⟨⟨h31, h26⟩, h22⟩, rfl, rfl, rfl, rfl, -⟩ := h.stream (.tileRows t v q n) hw rfl rfl rfl rfl
    refine hpass h31 ?_
    rw [h26, h22]
    rfl
  | macq t q =>
    obtain ⟨⟨⟨h31, h26⟩, h22⟩, rfl, h16, rfl, h0, -⟩ := h.stream (.macq t q) hw rfl rfl rfl rfl
    refine hpass h31 ?_
    rw [h26, h22]
    exact pass_reserved h16 (pass_reserved h0 rfl)
  | mmask q =>
    obtain ⟨⟨⟨h31, h26⟩, h22⟩, h16, rfl, h0, -⟩ := h.stream (.mmask q) hw rfl rfl rfl rfl
    refine hpass h31 ?_
    rw [h26, h22]
    exact pass_reserved h16 (pass_reserved h0 rfl)

/-! ### The Carder -/

/-- An operation that the Carder's decoder answers stands in the word. -/
def CarderSound (w : Nat) : Option CarderOp → Prop
  | some o => o.instr.stands 2 w 0
  | none => True

theorem CarderSound.guard {w : Nat} {p : Prop} [Decidable p] {r : Option CarderOp} (h : ¬p → CarderSound w r) :
    CarderSound w (if p then none else r) := by
  split
  · trivial
  · exact h ‹_›

theorem CarderSound.reserved {w x : Nat} {r : Option CarderOp} (h : x = 0 → CarderSound w r) :
    CarderSound w (if x ≠ 0 then none else r) := .guard fun h0 => h (not_not.mp h0)

theorem CarderSound.reserved₂ {w x y : Nat} {r : Option CarderOp} (h : x = 0 → y = 0 → CarderSound w r) :
    CarderSound w (if x ≠ 0 ∨ y ≠ 0 then none else r) :=
  .guard fun h0 => (not_or.mp h0).elim fun hx hy => h (not_not.mp hx) (not_not.mp hy)

theorem pass_reserved₂ {α : Type} {x y : Nat} {e d r : α} (hx : x = 0) (hy : y = 0) (hd : d = r) :
    (if x ≠ 0 ∨ y ≠ 0 then e else d) = r := pass_guard (not_or.mpr ⟨not_not.mpr hx, not_not.mpr hy⟩) hd

theorem decodeCarderOp_sound {w : Nat} (hw : w < 2 ^ 32) : CarderSound w (decodeCarderOp w) := by
  unfold decodeCarderOp
  split
  case h_1 | h_24 => exact .reserved fun h0 => Instr.stands_of_carder .cbare hw rfl rfl rfl rfl ‹_› ⟨h0, trivial⟩
  case h_2 => exact .reserved fun h0 => Instr.stands_of_carder (.cmov _ _) hw rfl rfl rfl rfl ‹_› ⟨rfl, rfl, h0, trivial⟩
  case h_3 => exact .reserved fun h15 => Instr.stands_of_carder (.cli _ _) hw rfl rfl rfl rfl ‹_› ⟨rfl, h15, rfl, trivial⟩
  case h_4 | h_5 | h_6 | h_7 | h_8 =>
    exact .reserved fun h0 => Instr.stands_of_carder (.cregs _ _ _) hw rfl rfl rfl rfl ‹_› ⟨rfl, rfl, rfl, h0, trivial⟩
  case h_9 | h_12 | h_13 | h_14 | h_15 =>
    exact .reserved fun h15 => Instr.stands_of_carder (.cimm _ _ _) hw rfl rfl rfl rfl ‹_› ⟨rfl, rfl, h15, rfl, trivial⟩
  case h_10 | h_11 =>
    exact .reserved fun h6 => Instr.stands_of_carder (.cshift _ _ _) hw rfl rfl rfl rfl ‹_› ⟨rfl, rfl, h6, rfl, trivial⟩
  case h_16 | h_17 | h_18 =>
    exact .reserved₂ fun h0 h23 => Instr.stands_of_carder (.cemit _ _) hw rfl rfl rfl rfl ‹_› ⟨h23, rfl, rfl, h0, trivial⟩
  case h_19 | h_20 | h_21 | h_22 =>
    exact .reserved₂ fun h8 h23 => Instr.stands_of_carder (.cbranch _ _ _) hw rfl rfl rfl rfl ‹_› ⟨h23, rfl, rfl, h8, rfl, trivial⟩
  case h_23 => exact .reserved fun h8 => Instr.stands_of_carder (.cjmp _) hw rfl rfl rfl rfl ‹_› ⟨h8, rfl, trivial⟩
  case h_25 => trivial

theorem decodeCarderOp_of_stands {o : CarderOp} {w : Nat} (hw : w < 2 ^ 32) (h : o.instr.stands 2 w 0) :
    decodeCarderOp w = some o := by
  cases o with
  | cnop | cend =>
    obtain ⟨h27, h0, -⟩ := h.carder .cbare hw rfl rfl rfl rfl
    rw [decodeCarderOp, h27]
    exact pass_reserved h0 rfl
  | cmov d a =>
    obtain ⟨h27, rfl, rfl, h0, -⟩ := h.carder (.cmov d a) hw rfl rfl rfl rfl
    rw [decodeCarderOp, h27]
    exact pass_reserved h0 rfl
  | cli d i =>
    obtain ⟨h27, rfl, h15, rfl, -⟩ := h.carder (.cli d i) hw rfl rfl rfl rfl
    rw [decodeCarderOp, h27]
    exact pass_reserved h15 rfl
  | cadd d a b | csub d a b | cmul d a b | cand d a b | cor d a b =>
    obtain ⟨h27, rfl, rfl, rfl, h0, -⟩ := h.carder (.cregs d a b) hw rfl rfl rfl rfl
    rw [decodeCarderOp, h27]
    exact pass_reserved h0 rfl
  | caddi d a i | crd8 d a i | crd16 d a i | crd32 d a i | crd64 d a i =>
    obtain ⟨h27, rfl, rfl, h15, rfl, -⟩ := h.carder (.cimm d a i) hw rfl rfl rfl rfl
    rw [decodeCarderOp, h27]
    exact pass_reserved h15 rfl
  | cshli d a n | cshri d a n =>
    obtain ⟨h27, rfl, rfl, h6, rfl, -⟩ := h.carder (.cshift d a n) hw rfl rfl rfl rfl
    rw [decodeCarderOp, h27]
    exact pass_reserved h6 rfl
  | cemit8 a b | cemit16 a b | cemit32 a b =>
    obtain ⟨h27, h23, rfl, rfl, h0, -⟩ := h.carder (.cemit a b) hw rfl rfl rfl rfl
    rw [decodeCarderOp, h27]
    exact pass_reserved₂ h0 h23 rfl
  | cbeq a b t | cbne a b t | cblt a b t | cbge a b t =>
    obtain ⟨h27, h23, rfl, rfl, h8, rfl, -⟩ := h.carder (.cbranch a b t) hw rfl rfl rfl rfl
    rw [decodeCarderOp, h27]
    exact pass_reserved₂ h8 h23 rfl
  | cjmp t =>
    obtain ⟨h27, h8, rfl, -⟩ := h.carder (.cjmp t) hw rfl rfl rfl rfl
    rw [decodeCarderOp, h27]
    exact pass_reserved h8 rfl

/-- Settles O55: what a decoder answers stands in the word, and the word of an operation decodes to it. -/
theorem streamAndCarderRoundTrip : Obligations.StreamAndCarderRoundTrip := by
  unfold Obligations.StreamAndCarderRoundTrip
  refine ⟨fun o w hw => ⟨fun h => ?_, fun h => ?_⟩, fun o w hw => ⟨fun h => ?_, fun h => ?_⟩⟩
  · have hsound := decodeStreamOp_sound hw
    rw [h] at hsound
    exact Instr.stands_last_iff.mp hsound
  · exact decodeStreamOp_of_stands hw (Instr.stands_last_iff.mpr h)
  · have hsound := decodeCarderOp_sound hw
    rw [h] at hsound
    exact Instr.stands_last_iff.mp hsound
  · exact decodeCarderOp_of_stands hw (Instr.stands_last_iff.mpr h)

/-- Settles O56: each word is one that its decoder computes. -/
theorem wordsDecode : Obligations.WordsDecode := by
  unfold Obligations.WordsDecode
  decide

end Sys2Proof
end

section
/-! SUPPORT. Scalar words, R213, R214, R227 to R229: what each shape of word writes, in the words of `Spec`. -/

namespace Sys2Proof.Machine

open Sys2Proof

/-! ## The 64-bit functions of R213 -/

theorem shrS64_eq (x : Long) (n : Nat) : (shrSL x n).toNat = Spec.shrS64 x.toNat n := by
  have hsext : sext 64 x.toNat = x.toInt := by
    simp only [sext, BitVec.toInt_eq_toNat_cond]
    have := x.isLt
    split <;> split <;> omega
  rw [Spec.shrS64, hsext, ← wrap_toInt, shrSL, BitVec.toInt_sshiftRight, Int.shiftRight_eq_div_pow]
  push_cast
  rfl

section

variable {s : State} {c : Ctx} (hi : s.issues c)
include hi

/-! ## Words whose function the table of R213 names -/

theorem scal2_computes {d b : Nat} (hr : c.ready s [rdS b 1, rwS d] = true) {f g : Word → Word → Word}
    (hf : ∀ x y, f x y = g x y) : scal2 s d b f = .next ((s.putScal c d (g (c.scal d) (c.scal b))).adv c 1) := by
  rw [scal2_next hi hr, hf]

theorem long2_computes {d b : Nat} (hr : c.ready s [rdS b 1, rdS (b + 1) 1, rwS d, rwS (d + 1)] = true) {f : Long → Long → Long}
    {g : Nat → Nat → Nat} (hf : ∀ x y, (f x y).toNat = g x.toNat y.toNat) :
    long2 s d b f = .next ((s.putPair c d (g (c.pair d) (c.pair b))).adv c 1) := by
  rw [long2_next hi hr, hf, long_toNat, long_toNat]

theorem longShift_computes {d b : Nat} (hr : c.ready s [rdS b 1, rwS d, rwS (d + 1)] = true) {f : Long → Nat → Long}
    {g : Nat → Nat → Nat} (hf : ∀ x n, (f x n).toNat = g x.toNat n) :
    longShift s d b f = .next ((s.putPair c d (g (c.pair d) (c.scal b).toNat)).adv c 1) := by
  rw [longShift_next hi hr, hf, long_toNat]

theorem scalI_computes {d : Nat} {i : Imm} (hr : c.ready s [rwS d] = true) {v w : Word} {f g : Word → Word → Word} (hv : v = w)
    (hf : ∀ x y, f x y = g x y) : scalI s d i v f = .next ((s.putScal c d (g (c.scal d) w)).adv c (immSlots i)) := by
  rw [scalI_next hi hr, hf, hv]

end

/-- Settles O1: each word has the shape of its row of the table, and its function is that of R213. -/
theorem scalarResults : Obligations.ScalarResults := by
  unfold Obligations.ScalarResults
  intro s c k d b hi
  refine ⟨fun hr e he => ?words, fun hr => ⟨scal1_next hi hr id, scal1_next hi hr (fun y => ~~~y)⟩,
    fun hr => directPair_next hi hr (fun c => c.pair b), fun hr e he => ?pairs, fun hr e he => ?shifts⟩
  case words =>
    fin_cases he
    · exact scal2_computes hi hr addW_eq
    · exact scal2_computes hi hr subW_eq
    · exact scal2_computes hi hr mulW_eq
    · exact scal2_next hi hr mulhiN
    · exact scal2_next hi hr mulhiS
    · exact scal2_next hi hr andW
    · exact scal2_next hi hr orW
    · exact scal2_next hi hr xorW
    · exact scal2_computes hi hr shlW_eq
    · exact scal2_computes hi hr shrN_eq
    · exact scal2_computes hi hr shrS_eq
    · exact scal2_computes hi hr minN_eq
    · exact scal2_computes hi hr minS_eq
    · exact scal2_computes hi hr maxN_eq
    · exact scal2_computes hi hr maxS_eq
  case pairs =>
    fin_cases he
    · exact long2_computes hi hr add64_eq
    · exact long2_computes hi hr sub64_eq
    · exact long2_computes hi hr mul64_eq
    · exact long2_computes hi hr BitVec.toNat_and
    · exact long2_computes hi hr BitVec.toNat_or
    · exact long2_computes hi hr BitVec.toNat_xor
  case shifts =>
    fin_cases he
    · exact longShift_computes hi hr shl64_eq
    · exact longShift_computes hi hr shrN64_eq
    · exact longShift_computes hi hr shrS64_eq

/-- Settles O2: each word is its register form's function on D and the immediate of R214. -/
theorem scalarImmediateResults : Obligations.ScalarImmediateResults := by
  unfold Obligations.ScalarImmediateResults
  intro s c k d i hi
  refine ⟨fun hr e he => ?words, fun hr => ?mov, fun hr => ?mov64, fun hr => ?add64⟩
  case words =>
    fin_cases he
    · exact scalI_computes hi hr (imm11 i) addW_eq
    · exact scalI_computes hi hr (imm11 i) mulW_eq
    · exact scalI_computes hi hr (immz 11 i) fun _ _ => rfl
    · exact scalI_computes hi hr (immz 11 i) fun _ _ => rfl
    · exact scalI_computes hi hr (immz 11 i) fun _ _ => rfl
    · exact scalI_computes hi hr (immz 11 i) shlW_eq
    · exact scalI_computes hi hr (immz 11 i) shrN_eq
    · exact scalI_computes hi hr (immz 11 i) shrS_eq
  case mov =>
    rw [exec_siMovB32, execSiMovB32, directScal_next hi hr, imm11]
  case mov64 =>
    rw [exec_siMovB64, execSiMovB64, directPair_next hi hr, immL]
  case add64 =>
    rw [exec_siAddN64, execSiAddN64, directPair_next hi hr (fun c => (c.long d + immLong i).toNat), add64_eq, long_toNat, immL]

end Sys2Proof.Machine
end

section
/-! SUPPORT. Calls, system registers, `trap` and `rte`, R223 to R234: what each word answers once its checks have passed. -/

namespace Sys2Proof.Machine

open Sys2Proof

section

variable {s : State} {c : Ctx}

/-! ## Calls and returns (R223, R224) -/

theorem call_next (hi : s.issues c) {d : Nat} {o : Tgt} (hr : c.ready s [wrS d] = true) (ht : c.canEnter s (c.target 12 o) = true)
    (hn : c.canEnter s ((c.pc.packet : Int) + 1) = true) (k : Bool) : exec (.call k d o) s =
      .next ((s.putScal c d (BitVec.ofNat 32 (c.pc.packet + 1))).gotoAll c (c.target 12 o).toNat) := by
  rw [exec_call, execCall]
  exact word_calm hi (refs_ready hi hr)
    (bind_eq_of_ok (Ctx.check_ok hr) (bind_eq_of_ok (chkTarget_ok ht) (bind_eq_of_ok (chkTarget_ok hn) rfl)))
    (calm_gotoAll (calm_putScal hi.calm ..) _)

theorem ret_next (hi : s.issues c) {d : Nat} (hr : c.ready s [rdS d 0] = true) (ht : c.canEnter s ((c.scal d).toNat : Int) = true)
    (k : Bool) : exec (.ret k d) s = .next (s.gotoAll c (c.scal d).toNat) := by
  rw [exec_ret, execRet]
  exact word_calm hi (refs_ready hi hr) (bind_eq_of_ok (Ctx.check_ok hr) (bind_eq_of_ok (chkTarget_ok ht) rfl))
    (calm_gotoAll hi.calm _)

/-! ## System registers (R180, R227 to R229) -/

theorem sysPair_iff {r : Nat} : sysPair r = true ↔ r = 8 ∨ r = 9 ∨ r = 12 := by
  simp [sysPair, or_assoc]

theorem sysPair_eq_false {r : Nat} (h8 : r ≠ 8) (h9 : r ≠ 9) (h12 : r ≠ 12) : sysPair r = false := by
  simp [sysPair, h8, h9, h12]

theorem Group.sysPut_num (g : Group) (r v : Nat) : (g.sysPut r v).num = g.num := by
  unfold Group.sysPut
  split <;> rfl

theorem Group.sysPut_trapping (g : Group) (r v : Nat) : (g.sysPut r v).trapping = g.trapping := by
  unfold Group.sysPut
  split <;> rfl

/-- The scalars that `sput` reads, and what they hold: a pair for a register that is one. -/
def sputUses (r d : Nat) : List Use := if sysPair r then [rdS d 0, rdS (d + 1) 0] else [rdS d 0]
def Ctx.sputValue (c : Ctx) (r d : Nat) : Nat := if sysPair r then c.pair d else (c.scal d).toNat

/-- R229: a register that may be written is, and a timer match that this makes due is looked at (R33). -/
theorem sput_next (hi : s.issues c) {r d : Nat} (hr : c.ready s (sputUses r d) = true) (ha : sputAllowed c.g r = true) (k : Bool) :
    exec (.sput k r d) s =
      .next (((s.modG c (fun g => g.sysPut r (c.sputValue r d))).adv c 1).dropTimer c.t.id c.g.num) := by
  rw [exec_sput, execSput]
  exact word_calm hi (refs_ready hi hr) (bind_eq_of_ok (Ctx.check_ok hr) (if_neg (by simp [ha])))
    (calm_dropTimer (calm_adv (calm_modG hi.calm (fun g => g.sysPut_num ..) (fun g => g.sysPut_trapping ..)) 1))

theorem sgetScalar_next (hi : s.issues c) {r d : Nat} (hp : sysPair r = false) (hr : c.ready s [wrS d] = true) (k : Bool) :
    exec (.sgetScalar k r d) s = .next ((s.putScal c d (BitVec.ofNat 32 (c.sysReg r))).adv c 1) := by
  rw [exec_sgetScalar, execSgetScalar, if_neg (by simp [hp])]
  exact directScal_next hi hr (fun c => BitVec.ofNat 32 (c.sysReg r))

theorem sgetScalar_pair_next (hi : s.issues c) {r d : Nat} (hp : sysPair r = true) (hr : c.ready s [wrS d, wrS (d + 1)] = true)
    (k : Bool) : exec (.sgetScalar k r d) s = .next ((s.putPair c d (c.sysReg r)).adv c 1) := by
  rw [exec_sgetScalar, execSgetScalar, if_pos hp]
  exact directPair_next hi hr (fun c => c.sysReg r)

theorem sgetVector_next (hi : s.issues c) {r d : Nat} (hp : sysPair r = false) (hr : c.ready s [wrV d] = true) (k : Bool) :
    exec (.sgetVector k r d) s = .next ((s.putRow c d (fun l => BitVec.ofNat 32 (c.sysLane r l))).adv c 1) := by
  rw [exec_sgetVector, execSgetVector, if_neg (by simp [hp])]
  exact directRow_next hi hr (fun c l => BitVec.ofNat 32 (c.sysLane r l))

theorem sgetVector_pair_next (hi : s.issues c) {r d : Nat} (hp : sysPair r = true) (hr : c.ready s [wrV d, wrV (d + 1)] = true)
    (k : Bool) : exec (.sgetVector k r d) s =
      .next (((s.putRow c d (fun l => BitVec.ofNat 32 (c.sysLane r l))).putRow c (d + 1)
        (fun l => BitVec.ofNat 32 (c.sysLane r l / 2 ^ 32))).adv c 1) := by
  rw [exec_sgetVector, execSgetVector, if_pos hp]
  exact direct_write hi hr (by simp)

/-! ## `trap` (R232) -/

/-- TRAPINFO with LANES alone. -/
theorem info43_lanes (lanes : Nat) : info43 0 0 0 0 lanes = lanes := by
  simp [info43]

/-- R232, R310: the trap is raised with TRAPPC at the next word, and entered if nothing holds it back. -/
theorem trapWord_next (hi : s.issues c) (n : Nat) :
    trapWord s n = .next ((s.raise c.t.id c.g.num ⟨n, c.mask, c.pc.add 1, c.sl⟩).tryEnter c.t.id c.g.num) := by
  have hchain := hi.2.1
  refine word_enters hi refs_nil ?raises (by rw [State.raise_chain hchain, hchain])
  case raises =>
    dsimp only
    rw [if_neg (by simp [hchain]), info43_lanes]

/-! ## `rte` (R233, R234) -/

/-- Reading sound elements of the trap frame changes nothing. -/
theorem State.readFrame_all_sound {t : Team} {g : Group} {l : List (Nat × Nat)}
    (h : ∀ x ∈ l, (palGet s.pal t.core (g.trapRow + x.1) x.2).ecc = .sound) : s.readFrame t g l = s := by
  unfold State.readFrame
  induction l with
  | nil => rfl
  | cons x r ih =>
    rw [List.foldl_cons, readElem_sound (h x List.mem_cons_self)]
    exact ih fun y hy => h y (List.mem_cons_of_mem x hy)

theorem Group.restoreTrap_num (g : Group) (fresh : Bool) (now : Nat) : (g.restoreTrap fresh now).num = g.num := by
  unfold Group.restoreTrap
  split <;> rfl

theorem Group.restoreTrap_trapping (g : Group) (fresh : Bool) (now : Nat) : (g.restoreTrap fresh now).trapping = g.trapping := by
  unfold Group.restoreTrap
  split <;> rfl

/-- With a sound frame and its team alive, the issuing group is restored. -/
theorem leaveTrap_sound (hi : s.issues c) (hk : c.t.status ≠ .killed)
    (h : ∀ x ∈ frameCells, (palGet s.pal c.t.core (c.g.trapRow + x.1) x.2).ecc = .sound) :
    s.leaveTrap c.t c.g c.g.pcWritten = s.modG c (fun g => g.restoreTrap g.pcWritten (s.clk (dieOf c.t.core))) := by
  obtain ⟨hteam, hnum, hgroup, -⟩ := hi.group
  have hread : s.readFrame c.t c.g frameCells = s := State.readFrame_all_sound h
  unfold State.leaveTrap
  simp only [hread, State.liveGroup?_of hteam hnum hk, State.modG, State.modGroup, hgroup]

/-- R233: the checks of `rte`, each of which passes. -/
theorem rte_next (hi : s.issues c) (hin : c.g.inprog = true) (hlive : ∀ i ∈ c.g.liveSlices, i ∈ c.sl) (hslot : c.g.trappc % 4 ≠ 3)
    (hput : c.g.pcWritten = true → c.g.trappc % 4 = 0 ∧ c.canEnter s ((c.g.trappc / 4 : Nat) : Int) = true)
    (hk : c.t.status ≠ .killed) (hf : ∀ x ∈ frameCells, (palGet s.pal c.t.core (c.g.trapRow + x.1) x.2).ecc = .sound) (k : Bool) :
    exec (.rte k) s = .next (s.modG c (fun g => g.restoreTrap g.pcWritten (s.clk (dieOf c.t.core)))) := by
  rw [exec_rte, execRte]
  refine word_calm hi refs_nil ?passes (calm_modG hi.calm (fun g => g.restoreTrap_num ..) (fun g => g.restoreTrap_trapping ..))
  case passes =>
    dsimp only
    rw [if_neg (by simp [hin]), if_neg (by simpa using hlive),
      if_neg (not_or.mpr ⟨hslot, fun ⟨hw, h0⟩ => h0 (hput hw).1⟩), leaveTrap_sound hi hk hf]
    split
    · next hw => exact bind_eq_of_ok (chkTarget_ok (hput hw).2) rfl
    · rfl

end

/-- Settles O15: with its operand ready and its packets entered, each word passes its checks. -/
theorem callResults : Obligations.CallResults := by
  unfold Obligations.CallResults
  intro s c k d o hi
  exact ⟨fun hr ht hn => call_next hi hr ht hn k, fun hr ht => ret_next hi hr ht k⟩

/-- Settles O16: a register is one scalar or a pair, and the writable ones are written. -/
theorem systemRegisterResults : Obligations.SystemRegisterResults := by
  unfold Obligations.SystemRegisterResults
  intro s c k r d hi
  exact ⟨fun h8 h9 h12 hr => sgetScalar_next hi (sysPair_eq_false h8 h9 h12) hr k,
    fun hp hr => sgetScalar_pair_next hi (sysPair_iff.mpr hp) hr k,
    fun h8 h9 h12 hr => sgetVector_next hi (sysPair_eq_false h8 h9 h12) hr k,
    fun hp hr => sgetVector_pair_next hi (sysPair_iff.mpr hp) hr k,
    fun hr => ⟨sput_next hi (r := 7) hr rfl k, fun hin => sput_next hi (r := 11) hr hin k⟩,
    fun hr => ⟨sput_next hi (r := 9) hr rfl k, fun hin => sput_next hi (r := 12) hr hin k⟩⟩

/-- Settles O17: the three words are one `trapWord` under their codes. -/
theorem trapWordResults : Obligations.TrapWordResults := by
  unfold Obligations.TrapWordResults
  intro s c k n hi e he
  fin_cases he
  · exact trapWord_next hi n
  · exact trapWord_next hi 0x20
  · exact trapWord_next hi 0x21

/-- Settles O18: each check of R233 passes, and the frame is sound. -/
theorem returnFromTrap : Obligations.ReturnFromTrap := by
  unfold Obligations.ReturnFromTrap
  intro s c k hi hin hlive hslot hput hk hf
  exact rte_next hi hin (by simpa using hlive) hslot hput hk hf k

end Sys2Proof.Machine
end

section
/-! SUPPORT. Vector, floating and predicate words, shuffles, reductions and conversions, R238 to R253: what each shape of word writes,
in the words of the rules. -/

namespace Sys2Proof.Machine

open Sys2Proof

section

variable {s : State} {c : Ctx}

/-! ## Words whose function the table of R213 names (R238, R239) -/

theorem vec2_computes (hi : s.issues c) {d a bs b : Nat} (hr : c.ready s [rdV a 0, rdB bs b, wrV d] = true)
    {f g : Word → Word → Word} (hf : ∀ x y, f x y = g x y) :
    vec2 s d a bs b f = .next ((s.putRow c d (fun l => g (c.vec a l) (if bs = 1 then c.scal b else c.vec b l))).adv c 1) := by
  have hfun : f = g := funext₂ hf
  subst hfun
  exact vec2_next hi hr f

theorem vecI_computes (hi : s.issues c) {d a : Nat} {i : Imm} (hr : c.ready s [rdV a 0, wrV d] = true) {v w : Word}
    {f g : Word → Word → Word} (hv : v = w) (hf : ∀ x y, f x y = g x y) :
    vecI s d a i v f = .next ((s.putRow c d (fun l => g (c.vec a l) w)).adv c (immSlots i)) := by
  have hfun : f = g := funext₂ hf
  subst hfun hv
  exact vecI_next hi hr v f

/-! ## Shuffles (R250, R363, R369) -/

/-- What a lane reads: its own element beyond the edges, else that of its source lane if it lives. -/
theorem shfl_lane (g : Group) {i : Nat} (f : Nat → Int) {l : Nat} (hl : l ∈ c.lanes) :
    c.touchVal (c.shflTouches g i f) l = if f l < 0 ∨ 31 < f l then some (c.vec i l)
      else if g.live (f l).toNat = true then some (c.vec i (f l).toNat) else none := by
  unfold Ctx.shflTouches
  rw [touchVal_eq hl _ (fun k t e => by split at e <;> [skip; split at e] <;> cases e <;> rfl)]
  split
  · rfl
  · split <;> rfl

theorem mem_shfl {g : Group} {i : Nat} {f : Nat → Int} {t : Touch} (h : t ∈ c.shflTouches g i f) :
    (∃ l ∈ c.lanes, (f l < 0 ∨ 31 < f l) ∧ t = ⟨l, .v i, l⟩) ∨
      ∃ l ∈ c.lanes, ¬(f l < 0 ∨ 31 < f l) ∧ g.live (f l).toNat = true ∧ t = ⟨l, .v i, (f l).toNat⟩ := by
  obtain ⟨l, hl, ht⟩ := List.mem_filterMap.mp h
  split at ht
  · next he => cases ht; exact .inl ⟨l, hl, he, rfl⟩
  · next he =>
    split at ht
    · next hv => cases ht; exact .inr ⟨l, hl, he, hv, rfl⟩
    · cases ht

theorem shuffle_next (hi : s.issues c) {d i : Nat} {idx : List Use} {src : Ctx → Nat → Int} {illegal bounds : Ctx → List (Option Stop)}
    {f : Nat → Int} (hf : src c = f) (hr : c.ready s (⟨.v i, 0, false, false⟩ :: idx ++ [wrV d]) = true)
    (hill : ∀ x ∈ illegal c, x = none) (hb : ∀ x ∈ bounds c, x = none)
    (hedge : ∀ l ∈ c.lanes, (f l < 0 ∨ 31 < f l) → c.reachable s false ⟨l, .v i, l⟩ = true)
    (hlive : ∀ l ∈ c.lanes, ¬(f l < 0 ∨ 31 < f l) → c.g.live (f l).toNat = true →
      c.reachable s false ⟨l, .v i, (f l).toNat⟩ = true) :
    shuffle s d i idx src illegal bounds = .next (((s.putRow c d (fun l => if f l < 0 ∨ 31 < f l then c.vec i l
      else if c.g.live (f l).toNat then c.vec i (f l).toNat else 0)).putPred c 6
      (fun l => !decide (f l < 0 ∨ 31 < f l) && !c.g.live (f l).toNat)).adv c 1) := by
  subst hf
  have hts : ∀ t ∈ c.shflTouches c.g i (src c), c.reachable s false t = true := fun t ht => by
    obtain ⟨l, hl, he, rfl⟩ | ⟨l, hl, he, hv, rfl⟩ := mem_shfl ht
    · exact hedge l hl he
    · exact hlive l hl he hv
  have hrow : s.putRow c d (fun l => (c.touchVal (c.shflTouches c.g i (src c)) l).getD 0) =
      s.putRow c d (fun l => if src c l < 0 ∨ 31 < src c l then c.vec i l
        else if c.g.live (src c l).toNat then c.vec i (src c l).toNat else 0) := by
    refine putRow_congr fun l hl => ?_
    rw [shfl_lane _ _ hl]
    split
    · rfl
    · split <;> rfl
  have hpred (t : State) : t.putPred c 6 (fun l => (c.touchVal (c.shflTouches c.g i (src c)) l).isNone) =
      t.putPred c 6 (fun l => !decide (src c l < 0 ∨ 31 < src c l) && !c.g.live (src c l).toNat) := by
    refine putPred_congr fun l hl => ?_
    rw [shfl_lane _ _ hl]
    split
    · next he => simp [he]
    · next he => cases c.g.live (src c l).toNat <;> simp [he]
  obtain ⟨g, hg, h0⟩ := calm_adv (calm_putPred (calm_putRow hi.calm d (fun l => if src c l < 0 ∨ 31 < src c l then c.vec i l
    else if c.g.live (src c l).toNat then c.vec i (src c l).toNat else 0)) 6
    (fun l => !decide (src c l < 0 ∨ 31 < src c l) && !c.g.live (src c l).toNat)) 1
  unfold shuffle
  refine wordFrom_next hi (touchRefs_sound hi hr hts) ?_ hg h0
  exact bind_eq_of_ok (firstStop_ok hill) (bind_eq_of_ok (chkIndexed_ok hr hb hts) (by simp only [hrow, hpred]))

/-- The operands of `shfl.idx` in the order of the word. -/
theorem ready_insert {u v w : Use} (huw : c.ready s [u, w] = true) (hv : c.ready s [v] = true) : c.ready s [u, v, w] = true := by
  simp only [Ctx.ready, List.all_cons, Bool.and_eq_true] at huw hv ⊢
  exact ⟨huw.1, hv.1, huw.2⟩

/-! ## Reductions (R252, R253) -/

/-- A reduction runs its operation up the tree over the lanes that take part. -/
theorem reduce_next (hi : s.issues c) {d a bs ident : Nat} {op : Nat → Nat → Nat → Nat} {f : Nat → Nat → Nat} (hf : op c.g.mode = f)
    (hr : c.ready s [rdV a 0, redDst bs d] = true) :
    reduce s d a bs ident op = .next ((s.putRed c bs d (BitVec.ofNat 32 (tree f
      (allLanes.map (fun l => if c.primaries.contains l then (c.vec a l).toNat else ident))))).adv c 1) := by
  subst hf
  exact direct_write hi hr (putRed_teams ..)

theorem redInt_addW (m : Nat) : redInt addW m = fun x y => (x + y) % 2 ^ 32 := by
  funext x y
  simp [redInt, addW]

theorem redInt_minS (m : Nat) : redInt minS m = fun x y =>
    if (BitVec.ofNat 32 x).toInt ≤ (BitVec.ofNat 32 y).toInt then x % 2 ^ 32 else y % 2 ^ 32 := by
  funext x y
  unfold redInt minS
  split <;> rfl

theorem redInt_maxS (m : Nat) : redInt maxS m = fun x y =>
    if (BitVec.ofNat 32 x).toInt ≤ (BitVec.ofNat 32 y).toInt then y % 2 ^ 32 else x % 2 ^ 32 := by
  funext x y
  unfold redInt maxS
  split <;> rfl

theorem redInt_andW (m : Nat) : redInt andW m = fun x y => (x &&& y) % 2 ^ 32 := by
  funext x y
  rw [redInt, andW, ← BitVec.ofNat_and, BitVec.toNat_ofNat]

theorem redInt_orW (m : Nat) : redInt orW m = fun x y => (x ||| y) % 2 ^ 32 := by
  funext x y
  rw [redInt, orW, ← BitVec.ofNat_or, BitVec.toNat_ofNat]

/-- R253: the loss-masked sums read A only in the lanes whose bit in sM is 1, and there A is valid. -/
theorem reduceLm_next (hi : s.issues c) {d a bs m : Nat}
    (hr : c.ready s [⟨.v a, 0, false, false⟩, rdS m 1, redDst bs d, redDst bs (d + 1)] = true) (hd : bs = 0 → d ≠ 127)
    (hv : ∀ l ∈ c.lanes, (c.scal m).getLsbD l = true → (c.elem (.v a) l).good = true) (hl : c.unlocked s (rdV a 0) = true)
    {res : Ctx → Nat} {v : Nat} (hres : res c = v) :
    reduceLm s d a bs m res = .next (((s.putRed c bs d (BitVec.ofNat 32 v)).putRed c bs (d + 1)
      (BitVec.ofNat 32 (c.lmParts m).length)).adv c 1) := by
  subst hres
  have hgood (l : Nat) (h : l ∈ c.lmLanes m) : (c.elem (.v a) l).good = true := by
    obtain ⟨h1, h2⟩ := List.mem_filter.mp h
    exact hv l h1 h2
  have hus := Ctx.ready_iff.mp hr
  have hrd : ∀ u ∈ (if (c.lmLanes m).isEmpty then [⟨.v a, 0, false, false⟩, rdS m 1, redDst bs d, redDst bs (d + 1)]
      else [rdV a 0, ⟨.v a, 0, false, false⟩, rdS m 1, redDst bs d, redDst bs (d + 1)]),
      c.settled s u.loc = true ∧ c.unlocked s u = true := by
    have hin := fun u hu => (hus u hu).2.2
    split
    · exact hin
    · exact List.forall_mem_cons.mpr ⟨⟨(hin _ (List.mem_cons_self ..)).1, hl⟩, hin⟩
  unfold reduceLm
  refine word_calm hi ?sound ?body (calm_adv (calm_of_teams hi.calm (by rw [putRed_teams, putRed_teams])) 1)
  case sound =>
    intro r hm
    rcases List.mem_append.mp hm with hm | hm
    · exact Ctx.refs_sound hi.group.2.2.2 hr r hm
    · obtain ⟨l, hl, rfl⟩ := List.mem_map.mp hm
      simpa [Ctx.elem, Ctx.rowOf, hi.group.2.2.2] using (Elem.good_iff.mp (hgood l hl)).1
  case body =>
    have hbad : (c.lmLanes m).filter (fun l => !(c.elem (.v a) l).valid) = [] :=
      List.filter_eq_nil_iff.mpr fun l h => by simp [(Elem.good_iff.mp (hgood l h)).2]
    have hm : c.uninit (rdS m 1) = none := Ctx.uninit_none (hus _ (by simp)).2.1
    refine bind_eq_of_ok (firstStop_ok (by simpa using hd)) <| bind_eq_of_ok (chk4 hr).1 <|
      bind_eq_of_ok (firstStop_ok (by simp [hbad, hm])) <| bind_eq_of_ok (chkPend_ok fun u hu => (hrd u hu).1) <|
      bind_eq_of_ok (chkLock_ok fun u hu => (hrd u hu).2) rfl

/-! ## Conversions (R246) -/

/-- A conversion none of whose lanes meets an outlier writes each lane's code. -/
theorem cvt_next (hi : s.issues c) {src dst rnd : Nat} {x : Option Nat} {d a : Nat}
    (hr : c.ready s ((cvtForm src dst rnd x).uses d a) = true) (hn : s.answerOf c (fun q => decide (q = .olist)) = none)
    (ho : ∀ l ∈ c.lanes, c.cvtLane (cvtForm src dst rnd x) a l ≠ .outlier) (k : Bool) :
    exec (.cvt k src dst rnd x d a) s = .next ((c.lanes.foldl (fun t l => t.putCvt c.t.core (c.g.vecRow d) dst
      (cvtForm src dst rnd x).pos l (c.cvtLane (cvtForm src dst rnd x) a l).written) s).adv c (if x.isSome then 2 else 1)) := by
  have houts : ((c.lanes.map (fun l => (l, c.cvtLane (cvtForm src dst rnd x) a l))).filter (fun e => decide (e.2 = .outlier))).map
      (fun e => e.1) = [] := by
    simpa [List.filter_eq_nil_iff] using ho
  have hteams := foldl_teams (f := fun t l => t.putCvt c.t.core (c.g.vecRow d) dst (cvtForm src dst rnd x).pos l
    (c.cvtLane (cvtForm src dst rnd x) a l).written) (fun _ _ => putCvt_teams ..) c.lanes s
  rw [exec_cvt]
  unfold execCvt
  refine word_calm hi (refs_ready hi hr) ?_ (calm_adv (calm_of_teams hi.calm hteams) (if x.isSome then 2 else 1))
  rw [hn]
  refine bind_eq_of_ok (Ctx.check_ok hr) ?_
  dsimp only
  rw [if_pos (by rw [houts]; rfl), List.map_map, List.foldl_map]
  rfl

end

/-- Settles O3: each word has the shape of its rule, and its function is that of R213. -/
theorem vectorIntegerResults : Obligations.VectorIntegerResults := by
  unfold Obligations.VectorIntegerResults
  intro s c k d a bs b i hi
  refine ⟨fun hr e he => ?rows, fun hr e he => ?immediates⟩
  case rows =>
    fin_cases he
    · exact vec2_computes hi hr addW_eq
    · exact vec2_computes hi hr subW_eq
    · exact vec2_computes hi hr mulW_eq
    · exact vec2_next hi hr mulhiN
    · exact vec2_next hi hr mulhiS
    · exact vec2_next hi hr andW
    · exact vec2_next hi hr orW
    · exact vec2_next hi hr xorW
    · exact vec2_computes hi hr shlW_eq
    · exact vec2_computes hi hr shrN_eq
    · exact vec2_computes hi hr shrS_eq
    · exact vec2_computes hi hr minN_eq
    · exact vec2_computes hi hr minS_eq
    · exact vec2_computes hi hr maxN_eq
    · exact vec2_computes hi hr maxS_eq
    · exact vec2_computes hi hr addsat_eq
  case immediates =>
    fin_cases he
    · exact vecI_computes hi hr (imm7 i) addW_eq
    · exact vecI_computes hi hr (imm7 i) subW_eq
    · exact vecI_computes hi hr (imm7 i) mulW_eq
    · exact vecI_computes hi hr (immz 7 i) fun _ _ => rfl
    · exact vecI_computes hi hr (imm7 i) fun _ _ => rfl
    · exact vecI_computes hi hr (immz 7 i) fun _ _ => rfl
    · exact vecI_computes hi hr (immz 7 i) fun _ _ => rfl
    · exact vecI_computes hi hr (immz 7 i) fun _ _ => rfl
    · exact vecI_computes hi hr (immz 7 i) shlW_eq
    · exact vecI_computes hi hr (immz 7 i) shrN_eq
    · exact vecI_computes hi hr (immz 7 i) shrS_eq
    · exact vecI_computes hi hr (immz 7 i) minN_eq
    · exact vecI_computes hi hr (imm7 i) minS_eq
    · exact vecI_computes hi hr (immz 7 i) maxN_eq
    · exact vecI_computes hi hr (imm7 i) maxS_eq

/-- Settles O4: each word has the shape of its rule under the MODE of its group. -/
theorem floatResults : Obligations.FloatResults := by
  unfold Obligations.FloatResults
  refine ⟨fun s c k d a bs b hi => ⟨fun hr e he => ?two, fun hr e he => ?three, fun hr =>
    ⟨float1_next hi hr (fun _ x => x &&& 0x7FFFFFFF#32), float1_next hi hr (fun _ x => x ^^^ 0x80000000#32)⟩⟩,
    fun s c k d a hi hr e he => ?one⟩
  case two =>
    fin_cases he
    all_goals exact directRow_next hi hr _
  case three =>
    fin_cases he
    all_goals exact directRow_next hi hr _
  case one =>
    fin_cases he
    all_goals exact directRow_next hi hr _

/-- Settles O5: each word writes its predicate, scalar or row from the lanes it looks at. -/
theorem predicateResults : Obligations.PredicateResults := by
  unfold Obligations.PredicateResults
  intro s c k t p a bs b d hi
  refine ⟨fun hr e he => ?compare, fun e he => ?combine, directPred_next hi (us := []) rfl _, directPred_next hi (us := []) rfl _,
    fun hr => directScal_next hi hr _, fun hr => directRow_next hi hr _, fun hr => directPred_next hi hr _⟩
  case compare =>
    fin_cases he
    all_goals exact vcmp_next hi hr
  case combine =>
    fin_cases he
    all_goals exact directPred_next hi (us := []) rfl _

/-- Settles O8: the four forms are one shuffle under their source lanes. -/
theorem shuffleResults : Obligations.ShuffleResults := by
  unfold Obligations.ShuffleResults
  intro s c k d i j hi hr e he hidx hdist hedge hlive
  fin_cases he
  · obtain ⟨hj, hlane⟩ := hidx rfl
    exact shuffle_next hi (idx := [rdV j 1]) rfl (ready_insert hr hj) nofun (by simpa using laneBound_none hlane) hedge hlive
  · exact shuffle_next hi (idx := []) rfl hr (distOk_none (hdist rfl)) nofun hedge hlive
  · exact shuffle_next hi (idx := []) rfl hr (distOk_none (hdist rfl)) nofun hedge hlive
  · exact shuffle_next hi (idx := []) rfl hr (distOk_none (hdist rfl)) nofun hedge hlive

/-- Settles O9: each reduction runs its function up the tree; the halves of the BF16 sum are its columns 0 and 1. -/
theorem reductionResults : Obligations.ReductionResults := by
  unfold Obligations.ReductionResults
  refine ⟨fun s c k d a bs hi hr e he => ?trees, fun s c k d a bs m hi hr hd hv hl => ⟨reduceLm_next hi hr hd hv hl rfl,
    reduceLm_next hi hr hd hv hl ?halves⟩⟩
  case trees =>
    fin_cases he
    · exact reduce_next hi rfl hr
    · exact reduce_next hi (redInt_addW _) hr
    · exact reduce_next hi rfl hr
    · exact reduce_next hi rfl hr
    · exact reduce_next hi (redInt_minS _) hr
    · exact reduce_next hi (redInt_maxS _) hr
    · exact reduce_next hi (redInt_andW _) hr
    · exact reduce_next hi (redInt_orW _) hr
  case halves =>
    simp only [Nat.mul_zero, pow_zero, Nat.div_one, Nat.mul_one]

/-- Settles O10: with no outlier no record is asked for, and each lane's code is written. -/
theorem conversionResults : Obligations.ConversionResults := by
  unfold Obligations.ConversionResults
  exact fun s c k src dst rnd d a x hi hr hn ho => cvt_next hi hr hn ho k

end Sys2Proof.Machine
end

section
/-! SUPPORT. Loads, stores and atomics at issue, R256 to R264: with its checks passed each word sends its accesses. -/

namespace Sys2Proof.Machine

open Sys2Proof

section

variable {s : State} {c : Ctx}

/-! ## The scalar address (R261) -/

theorem ldScalarAddress_next (hi : s.issues c) {z f ds o sc d a : Nat}
    (hr : c.ready s ([rdS a 0, rdS (a + 1) 0] ++ partsOf (decide (ds = 1)) d (partCount (2 ^ z)) false true 3) = true)
    (hf : c.flagFree f = true) {accs : List Access}
    (haccs : accs = if c.lanes = [] then [] else [(⟨0, c.pair a, 0, 0, if ds = 1 then [] else c.lanes⟩ : Access)])
    (ha : c.reaches s false true (2 ^ z) rightsR accs = true)
    (ht : c.tagged s (pieces c.t.core 5 (2 ^ z) (c.places s (2 ^ z) rightsR accs)) = true) (k : Bool) :
    exec (.ldScalarAddress k z f ds o sc d a) s = .next (s.sent c .load (dstOf (decide (ds = 1)) d (partCount (2 ^ z))) f sc false
      (decide (o = 1)) 1 (pieces c.t.core 5 (2 ^ z) (c.places s (2 ^ z) rightsR accs))) := by
  have hone : (if c.lanes.isEmpty then [] else [(⟨0, c.pair a, 0, 0, if decide (ds = 1) then [] else c.lanes⟩ : Access)]) = accs := by
    simp only [haccs, List.isEmpty_iff, decide_eq_true_eq]
  rw [exec_ldScalarAddress]
  refine sends_next hi hr ?_ (calm_sent hi.calm ..)
  dsimp only
  rw [hone]
  exact bind_eq_of_ok (memCheck_ok hi hf hr (List.forall_mem_nil _) ha) (sendOrdered_ok ht)

theorem stScalarAddress_next (hi : s.issues c) {z ds o sc d a : Nat}
    (hr : c.ready s ([rdS a 0, rdS (a + 1) 0] ++ partsOf (decide (ds = 1)) d (partCount (2 ^ z)) true false 1) = true)
    (hv : c.agrees (fun l => c.partsVal (decide (ds = 1)) d (partCount (2 ^ z)) l % 2 ^ (8 * 2 ^ z)) = true) {accs : List Access}
    (haccs : accs = match c.lanes.getLast? with
      | none => []
      | some l => [(⟨0, c.pair a, c.partsVal (decide (ds = 1)) d (partCount (2 ^ z)) l % 2 ^ (8 * 2 ^ z), 0, []⟩ : Access)])
    (ha : c.reaches s true true (2 ^ z) rightsW accs = true)
    (ht : c.tagged s (pieces c.t.core 5 (2 ^ z) (c.places s (2 ^ z) rightsW accs)) = true) (k : Bool) :
    exec (.stScalarAddress k z ds o sc d a) s = .next (s.sent c .store .none 0 sc (decide (o = 1)) false 1
      (pieces c.t.core 5 (2 ^ z) (c.places s (2 ^ z) rightsW accs))) := by
  subst haccs
  rw [exec_stScalarAddress]
  exact sends_next hi hr (bind_eq_of_ok (memCheck_ok hi rfl hr (by simpa using shadow_none hv) ha) (sendOrdered_ok ht))
    (calm_sent hi.calm ..)

/-! ## Atomics (R263, R264) -/

/-- The operand words of an atomic, and for `cas` as many again. -/
theorem atomParts_eq (op : AtomOp) (wide : Bool) : (if op = .cas then 2 * (if wide then 2 else 1) else if wide then 2 else 1) =
    (if op = .cas then 2 else 1) * (if wide then 2 else 1) := by
  split <;> simp

/-- R296: the PCIe AtomicOps. -/
theorem hostAtom_eq (op : AtomOp) : hostAtom op = (decide (op = .addN) || decide (op = .xchg) || decide (op = .cas)) := by
  cases op <;> rfl

theorem atomic_next (hi : s.issues c) {op : AtomOp} {wide : Bool} {o sc f d u a : Nat} (hf : c.flagFree f = true)
    (hr : c.ready s (partsOf (decide (u = 1)) d ((if op = .cas then 2 else 1) * (if wide then 2 else 1)) true false 2 ++
      (if u = 1 then [rdS a 0, rdS (a + 1) 0] else [rdV a 0, rdV (a + 1) 0]) ++
      partsOf (decide (u = 1)) d (if wide then 2 else 1) false true 3) = true)
    {va x y : Nat → Nat} (hva : va = fun l => (c.vec a l).toNat + (c.vec (a + 1) l).toNat * 2 ^ 32)
    (hx : x = fun l => c.partsVal (decide (u = 1)) d (if wide then 2 else 1) l)
    (hy : y = fun l => if op = .cas then c.partsVal (decide (u = 1)) (d + if wide then 2 else 1) (if wide then 2 else 1) l else 0)
    (hag : u = 1 ∨ c.agrees va = true ∧ c.agrees (fun l => (x l, y l)) = true) {accs : List Access}
    (haccs : accs = if u = 1 then [(⟨0, c.pair a, x 0, y 0, []⟩ : Access)]
      else c.primaries.map (fun l => ⟨l, va l, x l, y l, if c.t.prot then c.lanes.filter (fun m => m / 2 == l / 2) else [l]⟩))
    (ha : c.reaches s true ((decide (op = .addN) || decide (op = .xchg) || decide (op = .cas)) && Config.hostAtomics s.ps)
      (if wide then 8 else 4) rightsRW accs = true)
    (ht : c.tagged s (pieces c.t.core 6 (if wide then 8 else 4) (c.places s (if wide then 8 else 4) rightsRW accs)) = true) :
    atomic s op wide o sc f d u a = .next (s.sent c (.atom op wide) (dstOf (decide (u = 1)) d (if wide then 2 else 1)) f sc
      (decide (2 ≤ o)) (decide (o % 2 = 1)) 1 (pieces c.t.core 6 (if wide then 8 else 4)
        (c.places s (if wide then 8 else 4) rightsRW accs))) := by
  rw [← hostAtom_eq] at ha
  rw [← atomParts_eq] at hr
  subst hva hx hy haccs
  unfold atomic
  by_cases hu : u = 1
  · simp only [hu, if_true, decide_true] at hr ha ht ⊢
    exact sends_next hi hr (bind_eq_of_ok (memCheck_ok hi hf hr (List.forall_mem_nil _) ha) (sendOrdered_ok ht)) (calm_sent hi.calm ..)
  · obtain ⟨hva, hxy⟩ := hag.resolve_left hu
    simp only [hu, if_false, decide_false, Bool.false_eq_true] at hr ha ht hxy ⊢
    exact sends_next hi hr (bind_eq_of_ok (memCheck_ok hi hf hr (by simpa using ⟨shadow_none hva, shadow_none hxy⟩) ha)
      (sendOrdered_ok ht)) (calm_sent hi.calm ..)

end

/-- Settles O21: each form is one load or store of a row under its flag and size. -/
theorem loadStoreResults : Obligations.LoadStoreResults := by
  unfold Obligations.LoadStoreResults
  refine fun s c k f d i b hi => ⟨?loads, ?stores⟩
  case loads =>
    rintro hr e he hf - accs haccs ha ps rfl ht
    fin_cases he
    all_goals exact loadRow_next hi hr hf haccs ha ht
  case stores =>
    rintro hr e he hva hlow accs haccs ha ps rfl ht
    fin_cases he
    all_goals exact storeRow_next hi hr hva hlow haccs ha ht

/-- Settles O22: each word passes its checks and sends its one access. -/
theorem scalarAddressResults : Obligations.ScalarAddressResults := by
  unfold Obligations.ScalarAddressResults
  refine fun s c k z f ds o sc d a hi => ⟨?load, ?store⟩
  case load =>
    rintro hr hf accs haccs ha ps rfl ht
    exact ldScalarAddress_next hi hr hf haccs ha ht k
  case store =>
    rintro hr hv accs haccs ha ps rfl ht
    exact stScalarAddress_next hi hr hv haccs ha ht k

/-- Settles O23: the fourteen words are one `atomic` under their operations and widths. -/
theorem atomicResults : Obligations.AtomicResults := by
  unfold Obligations.AtomicResults
  rintro s c k o sc f d u a hi hf e he hr va x y hva hx hy hag accs haccs ha ps rfl ht
  have hnext := atomic_next hi (o := o) (sc := sc) hf hr hva hx hy hag haccs ha ht
  fin_cases he
  all_goals exact hnext

end Sys2Proof.Machine
end

section
/-! SUPPORT. Swatch words at issue, R267, R268. -/

namespace Sys2Proof.Machine

open Sys2Proof

section

variable {s : State} {c : Ctx}

theorem barrierTo_nextId (s : State) (t : Team) (n : Nat) (f : Barrier → Barrier) :
    (s.barrierTo t n f).nextId = s.nextId ∧ (s.barrierTo t n f).swreqs = s.swreqs := by
  unfold State.barrierTo
  dsimp only
  split
  · exact modTeam_next ..
  · exact modTeam_next ..

/-- What a swatch word asks for: the row of its handle, with D's lanes, its barrier and its flag. -/
def Ctx.swRequest (c : Ctx) (s : State) (op : SwOp) (far : Bool) (fs d h n : Nat) : SwReq :=
  ⟨s.nextId, op, c.t.id, c.g.num, c.sl, c.t.core, c.pair h, (c.scal (h + 2)).toNat,
    if far then (c.scal (h + 3)).toNat % 2 ^ 16 else s.regs.modid, d, if op = .ld then none else some n,
    c.flagOf fs, c.lanes.map (fun l => (l, c.vec d l, c.vec (d + 1) l)), [], 0, 0,
    (s.earlier c.t.id c.g.num c.sl 5 ++ s.fencedOf c.t.id c.g.num).dedup, none, .none⟩

/-- Its operands: the handle and the row, of a far form the module, the rows of D that it sends, and D where it reads. -/
def swUses (op : SwOp) (far : Bool) (d h : Nat) : List Use :=
  [rdS h 0, rdS (h + 1) 0, rdS (h + 2) 0] ++ (if far then [rdS (h + 3) 0] else []) ++
    (List.range op.sends).map (fun i => rdV (d + i) 2) ++ (if op.reads then [wrV d] else [])

/-- What lets a swatch word pass its checks. -/
structure Ctx.SwPasses (c : Ctx) (s : State) (op : SwOp) (far : Bool) (fs d h n : Nat) : Prop where
  lanes : c.lanes ≠ []
  ready : c.ready s (swUses op far d h) = true
  flag : c.flagFree fs = true
  bar : op ≠ .ld → n < c.t.kernel.bars ∧ c.agrees (fun l => (c.vec d l, if op.sends = 2 then c.vec (d + 1) l else 0)) = true
  fresh : op.reads = true → s.swAnswer c = none
  route : (s.die (dieOf c.t.core)).rtbusy ≠ some c.t.part
  way : c.chkSwRoute s op far h = .ok ()

/-- A write or reduction counts one arrival and 4 sectors on its barrier, and its request leaves (R268). -/
def State.swSends (s : State) (c : Ctx) (r : SwReq) : State :=
  let s1 := (s.modBar c.t.id r.bar (fun b => b.begin_ 4)).adv c 1
  { s1 with nextId := s1.nextId + 1, swreqs := s1.swreqs ++ [{ r with id := s1.nextId }] }

theorem swSends_sound (hi : s.issues c) {n : Nat} (hs : c.soundBarrier s n = true) {r : SwReq} (hb : r.bar = some n) :
    s.swSends c r = { ((s.barrierTo c.t n (fun b => b.begin_ 4)).adv c 1) with
      nextId := s.nextId + 1, swreqs := s.swreqs ++ [{ r with id := s.nextId }] } := by
  obtain ⟨hid, hreqs⟩ := barrierTo_nextId s c.t n (fun b => b.begin_ 4)
  obtain ⟨hid', hreqs'⟩ := modG_next (s.barrierTo c.t n (fun b => b.begin_ 4)) c (fun g => g.complete c.sl (c.pc.add 1))
  have hmod : s.modBar c.t.id r.bar (fun b => b.begin_ 4) = s.barrierTo c.t n (fun b => b.begin_ 4) := by
    rw [hb]
    exact modBarrier_sound hi hs _
  simp only [State.swSends, hmod, State.adv, hid', hid, hreqs', hreqs]

/-- A check that only words with a barrier make. -/
theorem check_unless {p : Prop} [Decidable p] {x : Except Stop Unit} {f : Unit → Except Stop State} {r : Except Stop State}
    (hx : ¬p → x = .ok ()) (h : f () = r) : (if p then Except.ok () >>= f else x >>= f) = r := by
  split
  · rw [ok_bind, h]
  · next hp => rw [hx hp, ok_bind, h]

/-- With its checks passed a swatch word asks, or counts and sends (R268). -/
theorem swatch_next (hi : s.issues c) {op : SwOp} {far : Bool} {fs d h n : Nat} (hp : c.SwPasses s op far fs d h n) {t : State}
    (ht : (if op.reads then s.askSwatch c { c.swRequest s op far fs d h n with id := 0 }
      else s.swSends c { c.swRequest s op far fs d h n with id := 0 }) = t) (hc : t.calm c) :
    swatch s op far fs d h n = .next t := by
  subst ht
  obtain ⟨hscalsData, hdst⟩ := ready_app.mp hp.ready
  obtain ⟨hscals, hdata⟩ := ready_app.mp hscalsData
  have hdataDst := ready_app.mpr ⟨hdata, hdst⟩
  have hans : (if op.reads then s.swAnswer c else none) = none := by
    split
    · next hreads => exact hp.fresh hreads
    · rfl
  have hshadow : (if op = .ld then none else c.shadow 2 (fun l => (c.vec d l, if op.sends = 2 then c.vec (d + 1) l else 0))) = none := by
    split
    · rfl
    · next hld => exact shadow_none (hp.bar hld).2
  unfold swatch
  refine word_calm hi (refs_ready hi hscalsData) ?body hc
  case body =>
    rw [hans]
    refine bind_eq_of_ok (chkFlag_ok hp.flag) <| bind_eq_of_ok (chkFull_ok hi hp.flag) <| bind_eq_of_ok (chk4 hdataDst).1 <|
      check_unless (fun hld => chkBar_ok (hp.bar hld).1) <| bind_eq_of_ok (chk4 hscals).1 <|
      bind_eq_of_ok (chk4 hscalsData).2.1 <| bind_eq_of_ok (chk4 hp.ready).2.2.1 <|
      bind_eq_of_ok (chk4 hdataDst).2.2.2 <| bind_eq_of_ok (firstStop_ok (by simpa using hshadow)) <|
      guard_eq_of_not hp.route ?sends
    case sends =>
      rw [if_neg (by simpa using hp.lanes)]
      refine bind_eq_of_ok hp.way ?_
      dsimp only
      split <;> rfl

theorem swatch_reads_next (hi : s.issues c) {op : SwOp} {far : Bool} {fs d h n : Nat} (hp : c.SwPasses s op far fs d h n)
    (ho : op.reads = true) : swatch s op far fs d h n = .next (State.hold { s with
      nextId := s.nextId + 1, swreqs := s.swreqs ++ [c.swRequest s op far fs d h n] } c (.reply s.nextId none)) := by
  refine swatch_next hi hp ?asks (calm_hold (calm_of_teams (t := { s with
    nextId := s.nextId + 1, swreqs := s.swreqs ++ [c.swRequest s op far fs d h n] }) hi.calm rfl) _)
  case asks =>
    rw [if_pos ho, State.askSwatch, if_neg (by simp [hi.2.1])]
    rfl

theorem swatch_writes_next (hi : s.issues c) {op : SwOp} {far : Bool} {fs d h n : Nat} (hp : c.SwPasses s op far fs d h n)
    (ho : op.reads = false) (hs : c.soundBarrier s n = true) : swatch s op far fs d h n =
      .next { ((s.barrierTo c.t n (fun b => b.begin_ 4)).adv c 1) with
        nextId := s.nextId + 1, swreqs := s.swreqs ++ [c.swRequest s op far fs d h n] } := by
  have hld : op ≠ .ld := fun hld => by simp [hld, SwOp.reads] at ho
  have hbar : (c.swRequest s op far fs d h n).bar = some n := if_neg hld
  exact swatch_next hi hp ((if_neg (by simp [ho])).trans
    (swSends_sound hi hs (r := { c.swRequest s op far fs d h n with id := 0 }) hbar))
    (calm_of_teams (calm_adv (calm_barrierTo hi.calm n _) 1) rfl)

end

/-- Settles O24: the twelve words are one `swatch` under their operations; near or far, its checks pass. -/
theorem swatchWordResults : Obligations.SwatchWordResults := by
  unfold Obligations.SwatchWordResults
  rintro s c k f d h n hi hl e he hr hf hbar hfresh hroute hway r rfl
  fin_cases he
  · exact ⟨swatch_reads_next hi (n := 0) ⟨hl, hr, hf, fun h => absurd rfl h, hfresh, hroute, hway⟩, nofun⟩
  · exact ⟨swatch_reads_next hi (n := 0) ⟨hl, hr, hf, fun h => absurd rfl h, hfresh, hroute, hway⟩, nofun⟩
  all_goals exact ⟨swatch_reads_next hi ⟨hl, hr, hf, hbar, hfresh, hroute, hway⟩,
    swatch_writes_next hi ⟨hl, hr, hf, hbar, hfresh, hroute, hway⟩⟩

end Sys2Proof.Machine
end

section
/-! SUPPORT. The scalar words and the jumps of a matrix stream (R278 to R282), and the words of the Carder (R289 to R293). -/

namespace Sys2Proof.Machine

open Sys2Proof

section

variable {s : State} {c : SCtx} (h : s.runsStream c)

include h

/-! ## Stream words (R278, R281) -/

/-- A scalar word whose two operands are valid; its function is taken modulo 2^32 at the write. -/
theorem qword_next {d a b : Nat} (hq : c.holds [a, b] = true) (f : Nat → Nat → Nat) :
    qword s d a b f = .next ((s.putQ c d (f (c.st.val a) (c.st.val b))).snext c) :=
  sword_next h (bind_eq_of_passed (SCtx.chkQ_holds hq) rfl)

theorem qword_mod_next {d a b : Nat} (hq : c.holds [a, b] = true) (f : Nat → Nat → Nat) :
    qword s d a b f = .next ((s.putQ c d (f (c.st.val a) (c.st.val b) % 2 ^ 32)).snext c) := by
  rw [putQ_mod]
  exact qword_next h hq f

theorem mloop_next {d : Nat} (hq : c.holds [d] = true) (o : Nat) : exec (.mloop d o) s =
    .next (if (c.st.val d + 2 ^ 32 - 1) % 2 ^ 32 = 0 then (s.putQ c d 0).snext c
      else (s.putQ c d ((c.st.val d + 2 ^ 32 - 1) % 2 ^ 32)).sgoto c o) := by
  rw [exec_mloop, execMloop]
  refine sword_next h (bind_eq_of_passed (SCtx.chkQ_holds hq) ?_)
  dsimp only
  split
  · next hz => rw [hz]
  · rfl

end

/-! ## What an emission writes over (R41, R292) -/

/-- A whole element is written over whatever stood there. -/
theorem putBits_whole (old : Elem) (v : Nat) : putBits old 32 0 v = Elem.of (BitVec.ofNat 32 v) := by
  have hbase : ∀ b < 2 ^ 32, BitVec.ofNat 32 (b - b / 2 ^ 0 % 2 ^ 32 * 2 ^ 0 + v % 2 ^ 32 * 2 ^ 0) = BitVec.ofNat 32 v := fun b hb => by
    apply BitVec.eq_of_toNat_eq
    simp only [BitVec.toNat_ofNat]
    omega
  unfold putBits
  dsimp only
  rw [hbase]
  split
  · exact BitVec.isLt _
  · decide

/-- The element under an emission: a narrow one reads it, where it is sound; a whole one does not look at it. -/
theorem emitOver_next {s : State} {k : KCtx} {row num lane z b p : Nat} {op : Op} (hs : z = 4 ∨ (palGet s.pal k.t.core row lane).ecc = .sound) :
    ∃ old, s.emitOver op k.t.core row num lane z = (s, some old) ∧
      putBits old (8 * z) (8 * (p * z % 4)) b = putBits (palGet s.pal k.t.core row lane) (8 * z) (8 * (p * z % 4)) b := by
  unfold State.emitOver
  by_cases hz : z = 4
  · subst hz
    refine ⟨Elem.blank, if_pos rfl, ?_⟩
    rw [Nat.mul_mod_left]
    exact (putBits_whole _ b).trans (putBits_whole _ b).symm
  · rw [if_neg hz, readElem_sound (hs.resolve_left hz)]
    exact ⟨_, rfl, rfl⟩

section

variable {s : State} {k : KCtx} {o : CarderOp} (h : s.runsCarder k o)

include h

/-! ## Reads of the Carder (R291) -/

/-- A read in range and aligned is outstanding. -/
theorem cread_next {z d a i : Nat} (h0 : 0 ≤ (k.reg a : Int) + sext 15 i) (h1 : (k.reg a : Int) + sext 15 i < 2 ^ 57)
    (hz : ((k.reg a : Int) + sext 15 i).toNat % z = 0) :
    cread s o z d a i = .next (s.putWalk { k.w.stepped (s.clk (dieOf k.t.core)) with
      reads := k.w.reads ++ [⟨k.w.steps, d, ((k.reg a : Int) + sext 15 i).toNat, z⟩] }) := by
  rw [cread, cword_next h]
  dsimp only
  rw [if_neg (by omega), if_neg (not_not.mpr hz)]
  rfl

/-! ## Emissions (R292) -/

theorem cemit_next {z a b row lane : Nat} (hp : (k.reg a + 1) * z ≤ 128 * k.o.walkForm.nrows)
    (hrow : row = k.o.regionRow k.t (k.reg a * z / 128)) (hlane : lane = k.reg a * z % 128 / 4)
    (hs : z = 4 ∨ (palGet s.pal k.t.core row lane).ecc = .sound) :
    cemit s o z a b = .next ((s.putElem k.t.core row lane (putBits (palGet s.pal k.t.core row lane) (8 * z)
      (8 * (k.reg a * z % 4)) (k.reg b))).putWalk (k.w.stepped (s.clk (dieOf k.t.core)))) := by
  subst hrow hlane
  obtain ⟨old, hold, hbits⟩ := emitOver_next (num := k.o.walkRow + k.reg a * z / 128) (b := k.reg b) (p := k.reg a) (op := k.o) hs
  rw [cemit, cword_next h]
  dsimp only
  rw [if_neg (by omega), hold]
  dsimp only
  rw [hbits]

/-! ## Branches (R289, R290) -/

/-- A branch whose target lies inside the section where it is taken. -/
theorem cbranch_next {i : Nat} {taken : KCtx → Bool} {b : Bool} (hb : taken k = b) (hi : b = true → i < k.t.kernel.cardlen) :
    cbranch s o i taken = .next (s.putWalk (if b then { k.w.stepped (s.clk (dieOf k.t.core)) with pc := i }
      else k.w.stepped (s.clk (dieOf k.t.core)))) := by
  subst hb
  rw [cbranch, cword_next h]
  dsimp only
  cases ht : taken k
  · rw [if_pos rfl, if_neg Bool.false_ne_true]
  · rw [if_neg (by simp), if_neg (by have := hi ht; omega), if_pos rfl]

end

/-- Settles O31: each word passes its checks and writes or goes on. -/
theorem streamScalarResults : Obligations.StreamScalarResults := by
  unfold Obligations.StreamScalarResults
  intro s c d a b i o h
  refine ⟨sword_next h rfl, sword_next h rfl, sword_next h rfl, sword_next h rfl, sword_next h rfl,
    fun hq => qword_next h (by simpa [SCtx.holds] using hq) (fun x _ => x), fun hq e he => ?words, fun hq => mloop_next h hq o⟩
  case words =>
    fin_cases he
    · exact qword_mod_next h hq (fun x y => x + y)
    · exact qword_mod_next h hq (fun x y => x + 2 ^ 32 - y)
    · exact qword_mod_next h hq (fun x y => x * y)
    · exact qword_next h hq (fun x y => x &&& y)
    · exact qword_next h hq (fun x y => x ||| y)
    · exact qword_mod_next h hq (fun x y => x * 2 ^ (y % 32))
    · exact qword_next h hq (fun x y => x / 2 ^ (y % 32))

/-- Settles O34: each word that does not wait steps its walk and does what its rule says. -/
theorem carderResults : Obligations.CarderResults := by
  unfold Obligations.CarderResults
  refine ⟨fun s k d a b i n e he h => ?registers, ?others⟩
  case registers =>
    fin_cases he
    · exact cword_next h
    all_goals exact calu_next h
  case others =>
    rintro s k d a b i w rfl
    refine ⟨fun e he h h0 h1 hz => ?reads, fun e he h hp row lane hrow hlane hs => ?emissions, fun e he h hi => ?branches,
      fun h => cword_next (act := fun k _ => s.walkEnds k.w none) h⟩
    case reads =>
      fin_cases he
      all_goals exact cread_next h h0 h1 hz
    case emissions =>
      fin_cases he
      all_goals exact cemit_next h hp hrow hlane hs
    case branches =>
      fin_cases he
      all_goals exact cbranch_next h rfl hi

end Sys2Proof.Machine
end

section
/-! SUPPORT. The entry of a raised trap with a user handler, R310, R311. -/

namespace Sys2Proof.Machine

open Sys2Proof

section

variable {s : State} {n m p : Nat} {t : Team} {g : Group} {r : TrapRec}

@[simp] theorem State.writeFrame_teams (s : State) (core : Nat) (g : Group) : (s.writeFrame core g).teams = s.teams :=
  foldl_teams (fun _ _ => State.putElem_teams ..) _ _

/-- The group in its handler: what the trap saves, then the gang at the handler's packet. -/
def State.entered (s : State) (t : Team) (g : Group) (r : TrapRec) (p : Nat) : Group :=
  ((s.inClauses t g).save r true).gangAt p (s.clk (dieOf t.core))

theorem State.entered_num (s : State) (t : Team) (g : Group) (r : TrapRec) (p : Nat) : (s.entered t g r p).num = g.num := rfl

/-- The frame depends on what is saved, and the gang leaves of it what the frame shows only in its slices and candidates. -/
theorem State.enter_handler (ht : s.team? n = some t) (hg : t.group? m = some g) (hin : g.inprog = false)
    (hh : s.handler t.core g r.code = some p) (hk : t.status ≠ .killed)
    (hs : ∀ i, handlerPlace r.code = some i → (palGet s.pal t.core (g.trapRow + 9) i).ecc = .sound) :
    s.enter t g r = (s.writeFrame t.core ((s.inClauses t g).save r true)).putGroup n (s.entered t g r p) := by
  have hlive : s.liveGroup? n m = some g := State.liveGroup?_of ht hg hk
  have hsome : s.handler t.core (s.inClauses t g) r.code = some p := hh
  cases hp : handlerPlace r.code with
  | none => simp [State.handler, hp] at hh
  | some i =>
    simp only [State.enter, hin, Bool.false_eq_true, if_false, hp, State.readFrame_sound (hs i hp), team?_id ht, group?_num hg,
      hlive, hsome, State.entered]

end

/-- Settles O41: the entry puts back the group that its steps leave, and each field is read off it. -/
theorem trapEntry : Obligations.TrapEntry := by
  unfold Obligations.TrapEntry
  intro s n m p t g r ht hg hr _ hw hin hh hk hs
  have hframe : ((s.writeFrame t.core ((s.inClauses t g).save r true)).putGroup n (s.entered t g r p)).group? n m =
      some (s.entered t g r p) := by
    refine State.group?_putGroup ?team hg ((s.entered_num t g r p).trans (group?_num hg))
    case team =>
      rw [State.team?, State.writeFrame_teams]
      exact ht
  refine ⟨_, s.entered t g r p, ?enters, hframe, rfl, rfl, rfl, rfl, rfl, rfl, rfl, rfl, rfl, rfl, rfl, rfl, rfl⟩
  case enters =>
    rw [exec_trapEntry, execTrapEntry, State.tryEnter_enters ht hg hr hw, State.enter_handler ht hg hin hh hk hs]

end Sys2Proof.Machine
end

section
/-! SUPPORT. Power-on, R326 to R357, R374, R376. -/

namespace Sys2Proof.Machine

open Sys2Proof

/-! Every table is empty at power-on, so that each entry of one is its fresh value. -/

theorem reset_part (p : Nat) : State.reset.part p = Part.fresh := rfl
theorem reset_die (d : Nat) : State.reset.die d = Die.fresh := rfl
theorem reset_link (d e m : Nat) : State.reset.link d e m = Link.fresh := rfl
theorem reset_chan (d e m : Nat) : State.reset.chan d e m = Chan.fresh := rfl
theorem reset_port (n : Nat) : State.reset.port n = Port.fresh := rfl
theorem reset_key (k : Nat) : State.reset.key k = KeySlot.fresh := rfl
theorem reset_lnkMap (d e : Nat) : State.reset.lnkMap d e = 0xFAC688 := rfl
theorem reset_owner (c : Nat) : State.reset.owner c = 0xFF := rfl

/-- No cycle of a fresh die has begun when no time has passed. -/
theorem reset_clk (d : Nat) : State.reset.clk d = 0 := by
  rw [State.clk, reset_die]
  rfl

/-- A key slot but 0 is not enabled. -/
theorem reset_keyEn {k : Nat} (h : 0 < k) : State.reset.keyEn k = false := by
  rw [State.keyEn, if_neg (by omega), reset_key]
  rfl

/-- Settles O58: the registers of the module are `Regs.fresh`, and those of its parts their fresh values. -/
theorem resetValues : Obligations.ResetValues := by
  unfold Obligations.ResetValues
  rintro r p d e m n rfl - - - - -
  refine ⟨⟨rfl, rfl, reset_clk d, rfl, rfl, reset_owner, rfl, rfl, rfl, rfl, rfl, rfl, rfl, rfl, rfl, rfl, rfl, rfl, rfl⟩, ?part, ?die,
    ?link, ?ackto, ?tx, ?rx, reset_lnkMap d e, ?lweight, ?port, fun k h => reset_keyEn h, rfl⟩
  case part =>
    rintro q rfl
    rw [reset_part]
    decide
  case die =>
    rintro x rfl
    rw [reset_die]
    exact ⟨rfl, rfl, rfl, rfl, rfl, rfl, rfl, rfl, rfl, fun _ => rfl⟩
  case link => rw [reset_link]; rfl
  case ackto => rw [reset_link]; rfl
  case tx => rw [reset_chan]; rfl
  case rx => rw [reset_chan]; rfl
  case lweight => rw [reset_port]; rfl
  case port => rw [reset_port]; rfl

/-- Settles O59: nothing is listed at power-on. -/
theorem resetIsCanonical : Obligations.ResetIsCanonical := by
  unfold Obligations.ResetIsCanonical
  exact ⟨rfl, rfl, fun _ => rfl, fun _ _ _ => rfl, fun _ => rfl⟩

end Sys2Proof.Machine
end

section
/-! SUPPORT. The packets at a slot's head (R300 to R304): what each event answers where its reads succeed and its packet is well formed. -/

namespace Sys2Proof.Machine

open Sys2Proof

section

variable {s s1 s2 : State} {i v : Nat} {h : HwSlot} {e : QEntry} {w : List Nat}

/-- A read that succeeds goes on with its value. -/
theorem State.readFor_ok {va n : Nat} (hv : s.qread h.part h.queue va n = (s1, .ok v)) (k : State → Nat → State) :
    s.readFor i h va n k = k s1 v := by
  simp only [State.readFor, hv]

/-- R304: the slice of a mapped queue that has run out. -/
theorem sliceExpiry_next (hs : s.slot? i = some h) (ho : s.sliceOver h = true) : exec (.sliceExpiry i) s =
    .next (if s.waiterFor h = true then s.unmap i else s.putSlot i (some { h with sliceAt := s.ns 0 })) := by
  simp only [exec_sliceExpiry, execSliceExpiry, hs, ho, Bool.true_eq_false, if_false]
  split <;> rfl

/-- R300: a slot whose packet has not started reads its head. -/
theorem headPoll_next (hs : s.slot? i = some h) (hn : h.started = false) (hb : (s.part h.part).wdBusy = false) :
    exec (.headPoll i) s = .next (s.poll i h) := by
  simp [execHeadPoll, hs, hn, hb]

/-- R300: the scan of an unmapped queue that is pending, or set aside, and can have a slot. -/
theorem pendingScan_next {p q b k : Nat} (hq : q < (s.part p).qcount) (hn : s.slotOf p q = none) (hboot : s.regs.bootst = 1)
    (hb : (s.part p).wdBusy = false) (hv : s.qread p q ((s.part p).pendbase + q) 1 = (s1, .ok b))
    (hp : b ≠ 0 ∨ (s.parked? p q).isSome = true) (hk : s1.claim p q = some k) :
    exec (.pendingScan p q) s = .next (s1.takeUp p q k (decide (b ≠ 0))) := by
  have hwait : ¬(b = 0 ∧ (s.parked? p q).isNone = true) := fun ⟨h0, hnone⟩ => by
    rcases hp with hp | hp
    · exact hp h0
    · simp [Option.isNone_iff_eq_none.mp hnone] at hp
  have hmay : ¬((s.part p).qcount ≤ q ∨ (s.slotOf p q).isSome = true ∨ s.regs.bootst ≠ 1 ∨ (s.part p).wdBusy = true) := by
    simp [hn, hboot, hb, hq]
  simp only [exec_pendingScan, execPendingScan, if_neg hmay, hv, if_neg hwait, hk]

/-! ## KERNEL (R301 to R303, R308) -/

/-- The descriptor as the code store holds it. -/
theorem State.descriptor_resident {desc : Nat} {c : CodeItem} (hc : s.resident h.part desc = some c) (k : State → Nat → State) :
    s.descriptor i h desc k = k s c.val := by
  simp only [State.descriptor, hc]

/-- The descriptor as memory holds it. -/
theorem State.descriptor_read {desc : Nat} (hn : s.resident h.part desc = none)
    (hv : s.qread h.part h.queue desc 64 = (s1, .ok v)) (k : State → Nat → State) : s.descriptor i h desc k = k s1 v := by
  simp only [State.descriptor, hn, State.readFor_ok hv]

/-- A KERNEL whose descriptor and arguments can be read and that passes the checks of R303 is launched. -/
theorem kernel_launches {m : Nat} {k : Kernel} {args : List Nat} (hh : s.headOf i 1 = some (h, e, w)) (hok : (kernelPacket w).ok = true)
    (hdesc : ∀ f : State → Nat → State, s.descriptor i h (kernelPacket w).desc f = f s1 v)
    (hargs : ∀ f : State → Nat → State, (if (kernelPacket w).narg ≤ 8 then f s1 0
      else s1.readFor i h (kernelPacket w).args (4 * ((kernelPacket w).narg - 8)) f) = f s2 m)
    (hk : k = kernelOf (kernelPacket w).desc v)
    (ha : args = (List.range (kernelPacket w).narg).map (fun i => if i < 8 then w.getD (8 + i) 0 else fld m (32 * (i - 8)) 32))
    (hst : s2.kernelStatus h.part (kernelPacket w) k (decide (fld v 432 80 = 0)) (h.compact.map (fun c => c.1)) = 0) :
    exec (.kernel i) s = .next ((s2.launchKernel h e.cls (kernelPacket w) k args v).consume i { h with
      compact := none
      timer := if (h.compact.map (fun c => c.1)).getD (kernelPacket w).grid = 0 then 0 else h.timer } e) := by
  subst hk ha
  simp only [exec_kernel, execKernel, hh, hok, Bool.true_eq_false, if_false]
  refine congrArg Host.Outcome.next ((hdesc _).trans ((hargs _).trans ?_))
  simp only [hst, ne_eq, not_true_eq_false, if_false]

theorem kernel_refused (hh : s.headOf i 1 = some (h, e, w)) (hok : (kernelPacket w).ok = false) :
    exec (.kernel i) s = .next (s.refuse i h statusType) := by
  simp only [exec_kernel, execKernel, hh, hok, if_true]

/-! ## COND, WAIT, SIGNAL, COMPACT, BARRIER (R301, R302) -/

theorem cond_next {n : Nat} (hn : n = if nbit (pbyte w 4) 3 then 8 else 4) (hh : s.headOf i 2 = some (h, e, w))
    (hok : condOk w = true) (hv : s.qread h.part h.queue (plong w 8) n = (s1, .ok v)) : exec (.cond i) s =
    .next (s1.complete i { h with
      skip := (if condTest (pbyte w 4 % 8) (8 * n) (v &&& plong w 16) (plong w 24) = true then pbyte w 5 else pbyte w 6) } e) := by
  subst hn
  simp only [exec_cond, execCond, hh, hok, Bool.true_eq_false, if_false, State.readFor_ok hv]

/-- The fields of a COND that hold what R301 and R302 allow. -/
theorem condOk_of {n : Nat} (hn : n = if nbit (pbyte w 4) 3 then 8 else 4) (h1 : pbyte w 4 / 16 = 0) (h2 : pbyte w 4 % 8 ≤ 5)
    (h3 : pzero w 7 8 = true) (h4 : pzero w 32 64 = true) (h5 : plong w 8 % n = 0)
    (h6 : n = 4 → plong w 16 < 2 ^ 32 ∧ plong w 24 < 2 ^ 32) : condOk w = true := by
  have hbig : (n == 4 && (decide (2 ^ 32 ≤ plong w 16) || decide (2 ^ 32 ≤ plong w 24))) = false := by
    simp only [Bool.and_eq_false_imp, beq_iff_eq, Bool.or_eq_false_iff, decide_eq_false_iff_not, not_le]
    exact h6
  unfold condOk
  dsimp only
  rw [← hn, hbig, h3, h4]
  simp [h1, h2, h5]

theorem wait_next (hh : s.headOf i 3 = some (h, e, w)) (hok : tokenOk w = true)
    (hv : s.qread h.part h.queue (plong w 8) 8 = (s1, .ok v)) : exec (.wait i) s =
    .next (if plong w 16 ≤ v then s1.complete i h e else s1.putSlot i (some { h with started := true })) := by
  simp only [exec_wait, execWait, hh, hok, Bool.true_eq_false, if_false, State.readFor_ok hv]

theorem tokenWaitSatisfied_next (hh : s.headOf i 3 = some (h, e, w)) (hs : h.started = true)
    (hv : s.qread h.part h.queue (plong w 8) 8 = (s1, .ok v)) (hp : plong w 16 ≤ v) :
    exec (.tokenWaitSatisfied i) s = .next (s1.complete i h e) := by
  simp only [exec_tokenWaitSatisfied, execTokenWaitSatisfied, hh, hs, Bool.true_eq_false, if_false, State.readFor_ok hv, if_pos hp]

theorem signal_next {pa tag : Nat} (hh : s.headOf i 4 = some (h, e, w)) (hok : tokenOk w = true)
    (ht : s.tokenAt h.part (plong w 8) 3 = .ok (pa, tag)) : exec (.signal i) s =
    .next (((((s.writeMem tag pa (bytesLE 8 (s.readMem tag pa 8 + plong w 16))).learn schedCore h.part (plong w 8) 3).access h.part
      schedCore pa 32 false).noteBytes pa 32 true).complete i h e) := by
  simp only [exec_signal, execSignal, hh, hok, Bool.true_eq_false, if_false, ht]

/-- A COMPACT whose next packet is a KERNEL with the argument that it names sets the grid of it. -/
theorem compact_next {next c : Nat} (hh : s.headOf i 5 = some (h, e, w)) (hok : compactOk w = true)
    (hnext : s.qread h.part h.queue (e.packetVa (e.rdidx + 1)) 64 = (s1, .ok next))
    (hc : s1.qread h.part h.queue (plong w 8) 4 = (s2, .ok c)) (htype : pbyte (packetWords next) 0 = 1)
    (harg : nbit (pbyte w 24) 7 = true → pbyte w 24 % 16 < pbyte (packetWords next) 24 % 32) :
    exec (.compact i) s = .next (s2.consume i { h with
      compact := some (min (cdiv c (w.getD 4 0)) (w.getD 5 0), if nbit (pbyte w 24) 7 then some (pbyte w 24 % 16, c) else none)
      timer := 0 } e) := by
  have horder : ¬(pbyte (packetWords next) 0 ≠ 1 ∨ (nbit (pbyte w 24) 7 = true ∧ pbyte (packetWords next) 24 % 32 ≤ pbyte w 24 % 16)) :=
    not_or.mpr ⟨not_not.mpr htype, fun ⟨hb, hle⟩ => absurd (harg hb) (by omega)⟩
  simp only [exec_compact, execCompact, hh, hok, Bool.true_eq_false, if_false, State.readFor_ok hnext, State.readFor_ok hc, if_neg horder]
  simp only [htype, Nat.one_ne_zero, if_false]

theorem barrier_next (hh : s.headOf i 6 = some (h, e, w)) : exec (.barrier i) s =
    .next (if pzero w 4 64 = true then s.complete i h e else s.refuse i h statusType) := by
  simp only [exec_barrier, execBarrier, hh]
  split <;> rfl

end

/-- Settles O43: each event by its packet, where its fields are well formed and its reads succeed. -/
theorem packetEvents : Obligations.PacketEvents := by
  unfold Obligations.PacketEvents
  rintro s i h e w x rfl
  refine ⟨headPoll_next, sliceExpiry_next, fun hh => ⟨kernel_refused hh, ?kernel⟩, ?cond, ?wait, ?signal, ?compact, barrier_next,
    fun p q b k s1 hq hn hboot hb hv hp hk => pendingScan_next hq hn hboot hb hv hp hk⟩
  case kernel =>
    intro s1 s2 v m k args hok hdesc hargs hk ha hst
    refine kernel_launches (s1 := s1) hh hok (fun f => ?_) (fun f => ?_) hk ha hst
    · split at hdesc
      · next c hc =>
        obtain ⟨rfl, rfl⟩ := hdesc
        exact State.descriptor_resident hc f
      · next hn => exact State.descriptor_read hn hdesc f
    · split at hargs
      · next hle =>
        obtain ⟨rfl, rfl⟩ := hargs
        exact if_pos hle
      · next hgt => rw [if_neg hgt, State.readFor_ok hargs]
  case cond =>
    rintro n hn hh h1 h2 h3 h4 h5 h6 s1 v hv k rfl
    exact cond_next hn hh (condOk_of hn h1 h2 h3 h4 h5 h6) hv
  case wait =>
    intro s1 v hh hok hv
    exact ⟨wait_next hh hok hv, fun hs hp => tokenWaitSatisfied_next hh hs hv hp⟩
  case signal =>
    rintro pa tag hh hok ht u rfl v rfl
    exact signal_next hh hok ht
  case compact =>
    intro hh h1 h2 h3 h4 h5 h6 h7 h8 s1 s2 next c hnext hc htype harg
    have hok : compactOk w = true := by
      simp only [compactOk, h1, h2, h3, h4, decide_true, Bool.and_true, Bool.true_and, Bool.and_eq_true, decide_eq_true_eq]
      exact ⟨⟨⟨h5, h6⟩, h7⟩, h8⟩
    exact compact_next (h := h) hh hok hnext hc htype harg

end Sys2Proof.Machine
end

section
/-! SUPPORT. Flipped bits, lost sectors, mirroring, the watchdog and partition resets (R357, R365, R366, R371 to R373, R385): what
each event answers where its guard holds. -/

namespace Sys2Proof.Machine

open Sys2Proof

@[simp] theorem palGet_palPut_self (p : Sparse Elem) (c r l : Nat) (e : Elem) : palGet (palPut p c r l e) c r l = e := by
  simp [palGet, palPut]

@[simp] theorem State.poisoned_setPoison_self (s : State) (pa : Nat) (b : Bool) : (s.setPoison pa b).poisoned pa = b := by
  simp [State.poisoned, State.setPoison]

variable {s : State} {n m l v : Nat} {f : Bool}

/-- R365: the flip of a Palette element that its check bits can still report. -/
theorem paletteSoftError_next (hn : n < Config.cores) (hm : m < Config.rows) (hl : l < 32)
    (he : (palGet s.pal n m l).ecc ≠ .uncorrectable) : exec (.paletteSoftError n m l f) s = .next { s with
      pal := palPut s.pal n m l { palGet s.pal n m l with ecc := if f then .uncorrectable else .correctable } } := by
  rw [exec_paletteSoftError, execPaletteSoftError, if_pos ⟨hn, hm, hl, he⟩]

/-- R366: a run that has no mirror, with room for one. -/
theorem mirrorBuild_next {r : Nat × Nat} {x : Nat} (hfit : s.allocatedRows n ≤ Config.mirrorRows)
    (hr : s.runToMirror n m = some r) (hx : s.mirrorRoom n r.2 = some x) {u : State}
    (hu : u = (List.range r.2).foldl (fun (s : State) i => s.copyRow n (r.1 + i) (x + i)) s) :
    exec (.mirrorBuild n m) s = .next (u.putCore n { u.core n with mirrors := (u.core n).mirrors ++ [⟨r.1, r.2, x⟩] }) := by
  subst hu
  simp only [exec_mirrorBuild, execMirrorBuild, if_neg (Nat.not_lt.mpr hfit), hr, hx]

/-- R371: the timer of a slot has reached its limit. -/
theorem watchdogExpiry_next {h : HwSlot} (hs : s.slot? n = some h) (hlim : h.limit ≠ 0) (ht : h.limit * 1000000 ≤ h.timer)
    (hb : (s.part h.part).wdBusy = false) :
    exec (.watchdogExpiry n) s = .next (s.beginReset h.part false (some h.queue)) := by
  have hmay : ¬(h.limit = 0 ∨ h.timer < h.limit * 1000000 ∨ (s.part h.part).wdBusy = true) := by
    simp [hlim, ht, hb]
  simp only [exec_watchdogExpiry, execWatchdogExpiry, hs, if_neg hmay]

/-- R357, R373: a write of WDCTL. -/
theorem wdctlReset_next (hm : s.managed = true) (hn : n < 64) {u : State}
    (hu : u = s.putPart n { s.part n with wdTimeout := v % 2 ^ 16 }) : exec (.wdctlReset n v) s =
      .next (if nbit v 31 = true ∧ (s.part n).wdBusy = false then u.beginReset n true none else u) := by
  subst hu
  have hmay : ¬(s.managed = false ∨ 64 ≤ n) := by simp [hm, hn]
  rw [exec_wdctlReset, execWdctlReset, if_neg hmay]
  split <;> rfl

/-- R372 steps 3 and 4: the end of a reset whose teams are quiet. -/
theorem resetComplete_next (hb : (s.part n).wdBusy = true) (hq : ∀ t ∈ s.teams, t.part = n → s.teamQuiet t = true) {u : State}
    (hu : u = (s.teams.filter (fun t => decide (t.part = n))).foldl (fun (s : State) t => s.sweepTeam t) s) :
    exec (.resetComplete n) s = .next ((List.range 384).foldl (fun (s : State) k => s.startWalks k)
      (u.putPart n { u.part n with windows := [], wdBusy := false, wdResets := satAdd 16 (u.part n).wdResets 1 })) := by
  subst hu
  have hall : (s.teams.filter (fun t => decide (t.part = n))).all (fun t => s.teamQuiet t) = true := by
    refine List.all_eq_true.mpr fun t ht => ?_
    obtain ⟨hmem, hpart⟩ := List.mem_filter.mp ht
    exact hq t hmem (of_decide_eq_true hpart)
  have hmay : ¬((s.part n).wdBusy = false ∨
      (s.teams.filter (fun t => decide (t.part = n))).all (fun t => s.teamQuiet t) = false) := by
    simp only [hb, hall, Bool.true_eq_false, or_self, not_false_iff]
  rw [exec_resetComplete, execResetComplete, if_neg hmay]

/-- Settles O45: each event under the condition of its rule; an element or a sector reads back as it was marked. -/
theorem reliabilityEvents : Obligations.ReliabilityEvents := by
  unfold Obligations.ReliabilityEvents
  intro s n m l v f
  refine ⟨?palette, ?sector, ?mirror, ?watchdog, ?wdctl, ?complete⟩
  case palette =>
    intro hn hm hl he
    exact ⟨_, paletteSoftError_next hn hm hl he, palGet_palPut_self .., rfl⟩
  case sector =>
    intro hin
    exact ⟨s.setPoison (32 * n) true, by rw [exec_hbmUncorrectableError, execHbmUncorrectableError, if_pos hin],
      State.poisoned_setPoison_self .., rfl⟩
  case mirror => exact fun r x hfit hr hx u hu => mirrorBuild_next hfit hr hx hu
  case watchdog => exact fun h hs hlim ht hb => watchdogExpiry_next hs hlim ht hb
  case wdctl => exact fun hm hn u hu => wdctlReset_next hm hn hu
  case complete => exact fun hb hq u hu => resetComplete_next hb hq hu

end Sys2Proof.Machine
end

section
/-! SUPPORT. Writes of the management registers, and the events of boot, attestation, alarms, power and ageing (R298, R326, R330 to
R340, R356, R374 to R380): what each answers where its guard holds. -/

namespace Sys2Proof.Machine

open Sys2Proof

section

variable {s : State} {p v : Nat}

/-! ## The guards that register writes share -/

/-- A write of a partition's register, while management is available. -/
theorem State.partWrite_managed (hm : s.managed = true) (hp : p < 64) (f : Part → Part) :
    s.partWrite p f = s.putPart p (f (s.part p)) := by
  rw [State.partWrite, if_pos ⟨hm, hp⟩]

/-- A write of a module register, while management is available. -/
theorem State.regWrite_managed (hm : s.managed = true) (f : Regs → Regs) : s.regWrite f = { s with regs := f s.regs } := by
  rw [State.regWrite, if_pos hm]

/-- A write of a key slot's register, while management is available. -/
theorem State.keyWrite_managed (hm : s.managed = true) (h0 : 0 < p) (hp : p < 4096) (f : KeySlot → KeySlot) :
    s.keyWrite p f = s.putKey p (f (s.key p)) := by
  rw [State.keyWrite, if_pos ⟨hm, h0, hp⟩]

/-! ## Registers of a partition -/

/-- R298: QCFG within its limits. -/
theorem qcfgWrite_next (hm : s.managed = true) (hp : p < 64) (hslots : fld v 17 9 ≤ 256) (hcount : fld v 0 17 ≤ 65536)
    (hsum : fld v 0 17 + s.otherQueues p ≤ 65536) : exec (.qcfgWrite p v) s =
      .next (s.putPart p { s.part p with slotmax := fld v 17 9, qcount := fld v 0 17 }) := by
  have hmay : ¬(256 < fld v 17 9 ∨ 65536 < fld v 0 17 ∨ 65536 < fld v 0 17 + s.otherQueues p) := by omega
  rw [exec_qcfgWrite, execQcfgWrite, if_neg hmay, State.partWrite_managed hm hp]

/-- R331: PTROOT of an idle partition. -/
theorem ptrootWrite_next (hp : p < 64) {u : State} (hu : u = s.onRead p) (hm : u.managed = true) (hi : u.partIdle p = true) :
    exec (.ptrootWrite p v) s =
      .next ((u.putPart p { u.part p with ptroot := fld v 21 31 * 2 ^ 21, ptrootEn := nbit v 0 }).tlbDrop p 0 (2 ^ 57)) := by
  subst hu
  have hmay : ¬((s.onRead p).managed = false ∨ 64 ≤ p ∨ (s.onRead p).partIdle p = false) := by simp [hm, hi, hp]
  rw [exec_ptrootWrite, execPtrootWrite, if_neg hmay, State.partWrite_managed hm hp]

/-- R331: SHBASE of an idle partition. -/
theorem shbaseWrite_next (hp : p < 64) {u : State} (hu : u = s.onRead p) (hm : u.managed = true) (hi : u.partIdle p = true) :
    exec (.shbaseWrite p v) s = .next (u.putPart p { u.part p with shbase := fld v 30 27 * 2 ^ 30 }) := by
  subst hu
  rw [exec_shbaseWrite, execShbaseWrite, if_pos hi, State.partWrite_managed hm hp]

/-- R331: SHSIZE of an idle partition. -/
theorem shsizeWrite_next (hp : p < 64) {u : State} (hu : u = s.onRead p) (hm : u.managed = true) (hi : u.partIdle p = true) :
    exec (.shsizeWrite p v) s = .next (u.putPart p { u.part p with shsize := v % 2 ^ 32 }) := by
  subst hu
  rw [exec_shsizeWrite, execShsizeWrite, if_pos hi, State.partWrite_managed hm hp]

/-- R356: OPTLTO other than 0. -/
theorem optltoWrite_next (hm : s.managed = true) (hp : p < 64) (hv : v % 2 ^ 16 ≠ 0) :
    exec (.optltoWrite p v) s = .next (s.putPart p { s.part p with optlto := v % 2 ^ 16 }) := by
  rw [exec_optltoWrite, execOptltoWrite, if_neg hv, State.partWrite_managed hm hp]

/-- R330: TLBINV of an aligned range while none runs. -/
theorem tlbinv_next (hm : s.managed = true) (hp : p < 64) {z a : Nat} (hz : z = fld v 57 6) (ha : a = fld v 16 41 * 2 ^ 16)
    (hb : (s.part p).tlbBusy = false) (hz41 : z ≤ 41) (halign : a % 2 ^ (z + 16) = 0) {u : State}
    (hu : u = s.tlbDrop p a (2 ^ (z + 16))) : exec (.tlbinv p v) s = .next (u.putPart p { u.part p with
      tlbBusy := true, tlbLog2 := z, tlbVa := a
      tlbWait := (s.reqs.filter (fun r => decide (r.part = p) && r.under a (2 ^ (z + 16)))).map (fun r => r.id) }) := by
  subst hz ha hu
  have hmay : ¬(s.managed = false ∨ 64 ≤ p ∨ (s.part p).tlbBusy = true ∨ 41 < fld v 57 6 ∨
      fld v 16 41 * 2 ^ 16 % 2 ^ (fld v 57 6 + 16) ≠ 0) := by
    simp only [hm, hb, halign, Bool.true_eq_false, Bool.false_eq_true, ne_eq, not_true_eq_false, false_or, or_false]
    omega
  have hdrop : (s.tlbDrop p (fld v 16 41 * 2 ^ 16) (2 ^ (fld v 57 6 + 16))).managed = true := hm
  rw [exec_tlbinv, execTlbinv, if_neg hmay]
  exact congrArg _ (State.partWrite_managed hdrop hp _)

/-- R330: the end of an invalidation that no noted request is still under. -/
theorem tlbinvComplete_next (hb : (s.part p).tlbBusy = true) (hr : s.reqs.any (fun r =>
      (s.part p).tlbWait.contains r.id && r.under (s.part p).tlbVa (2 ^ ((s.part p).tlbLog2 + 16))) = false) {u : State}
    (hu : u = s.tlbDrop p (s.part p).tlbVa (2 ^ ((s.part p).tlbLog2 + 16))) :
    exec (.tlbinvComplete p) s = .next (u.putPart p { u.part p with tlbBusy := false, tlbWait := [] }) := by
  subst hu
  have hmay : ¬((s.part p).tlbBusy = false ∨ s.reqs.any (fun r =>
      (s.part p).tlbWait.contains r.id && r.under (s.part p).tlbVa (2 ^ ((s.part p).tlbLog2 + 16))) = true) := by
    simp only [hb, hr, Bool.true_eq_false, Bool.false_eq_true, or_self, not_false_iff]
  rw [exec_tlbinvComplete, execTlbinvComplete, if_neg hmay]

/-! ## Registers of the module -/

/-- R333: CLUOWN of an unused cluster, with a partition or 0xFF. -/
theorem cluownWrite_next (hm : s.managed = true) (hp : p < 384) (hv : v % 256 < 64 ∨ v % 256 = 0xFF)
    (hc : s.clusterUsed p = false) : exec (.cluownWrite p v) s =
      .next { s with regs := { s.regs with cluOwn := sset 0xFF s.regs.cluOwn p (v % 256) } } := by
  have hmay : ¬(384 ≤ p ∨ (64 ≤ v % 256 ∧ v % 256 ≠ 0xFF) ∨ s.clusterUsed p = true) := by
    simp only [hc, Bool.false_eq_true, or_false]
    omega
  rw [exec_cluownWrite, execCluownWrite, if_neg hmay, State.regWrite_managed hm]

/-- R335: KSCTL. -/
theorem ksctlWrite_next (hm : s.managed = true) (h0 : 0 < p) (hp : p < 4096) :
    exec (.ksctlWrite p v) s = .next (s.putKey p { s.key p with en := nbit v 7, owner := v % 64 }) := by
  rw [exec_ksctlWrite, execKsctlWrite, State.keyWrite_managed hm h0 hp]

/-- R335: KSKEY1 of a disabled slot. -/
theorem kskey1Write_next (hm : s.managed = true) (h0 : 0 < p) (hp : p < 4096) (he : (s.key p).en = false) :
    exec (.kskey1Write p v) s = .next (s.putKey p { s.key p with key1 := v % 2 ^ 128 }) := by
  rw [exec_kskey1Write, execKskey1Write, if_neg (by simp [he]), State.keyWrite_managed hm h0 hp]

/-- R335: KSKEY2 of a disabled slot. -/
theorem kskey2Write_next (hm : s.managed = true) (h0 : 0 < p) (hp : p < 4096) (he : (s.key p).en = false) :
    exec (.kskey2Write p v) s = .next (s.putKey p { s.key p with key2 := v % 2 ^ 128 }) := by
  rw [exec_kskey2Write, execKskey2Write, if_neg (by simp [he]), State.keyWrite_managed hm h0 hp]

/-- R340: ALARMPOL before it is locked. -/
theorem alarmpolWrite_next (hm : s.managed = true) (hl : s.regs.alarmLock = false) : exec (.alarmpolWrite v) s =
    .next { s with regs := { s.regs with alarmPol := fld v 0 14, alarmLock := nbit v 31 } } := by
  rw [exec_alarmpolWrite, execAlarmpolWrite, if_neg (by simp [hl]), State.regWrite_managed hm]

/-- R326: MODID while there is no team. -/
theorem modidWrite_next (hm : s.managed = true) (ht : s.teams = []) :
    exec (.modidWrite v) s = .next { s with regs := { s.regs with modid := v % 64 } } := by
  rw [exec_modidWrite, execModidWrite, if_pos (by simp [ht]), State.regWrite_managed hm]

/-! ## Telemetry -/

/-- R380: GO of TMSNAP. -/
theorem tmsnapGo_next (hm : s.managed = true) (hd : p < Config.dies) (hv : nbit v 63 = true) :
    exec (.tmsnapGo p v) s = .next (s.putDie p
      { s.die p with tm := { (s.die p).tm with
        latched := freeCounters.foldl (fun m off => sset 0 m off (s.liveCount p off)) (s.die p).tm.live
        frozen := true, stamp := s.clk p % 2 ^ 62 } }) := by
  have hmay : ¬(s.managed = false ∨ Config.dies ≤ p ∨ nbit v 63 = false) := by simp [hm, hv, Nat.not_le.mpr hd]
  rw [exec_tmsnapGo, execTmsnapGo, if_neg hmay]

/-- R380: FROZEN written. -/
theorem frozenWrite_next (hm : s.managed = true) (hd : p < Config.dies) : exec (.frozenWrite p v) s =
    .next (s.putDie p { s.die p with tm := { (s.die p).tm with frozen := nbit v 62 } }) := by
  have hmay : ¬(s.managed = false ∨ Config.dies ≤ p) := by simp [hm, Nat.not_le.mpr hd]
  rw [exec_frozenWrite, execFrozenWrite, if_neg hmay]

/-- R8, R295: a write of some bytes of BAR0. -/
theorem registerWrite_next (hm : s.managed = true) (off z : Nat) :
    exec (.registerWrite off z v) s = .next (State.regWrites z off z v s) := by
  rw [exec_registerWrite, execRegisterWrite, if_pos hm]

end

/-- Settles O46: each register write with management available and its rule's condition met. -/
theorem registerEvents : Obligations.RegisterEvents := by
  unfold Obligations.RegisterEvents
  intro s p v hm
  refine ⟨?part, ?complete, ?cluown, ?key, ?alarmpol, ?modid, ?die, ?reg⟩
  case part =>
    intro hp
    exact ⟨fun hslots hcount hsum => qcfgWrite_next hm hp hslots hcount hsum,
      fun u hu hum hi => ⟨ptrootWrite_next hp hu hum hi, shbaseWrite_next hp hu hum hi, shsizeWrite_next hp hu hum hi⟩,
      fun hv => optltoWrite_next hm hp hv,
      fun z a hz ha hb hz41 halign u hu => tlbinv_next hm hp hz ha hb hz41 halign hu⟩
  case complete => exact fun hb hr u hu => tlbinvComplete_next hb hr hu
  case cluown => exact fun hp hv hc => cluownWrite_next hm hp hv hc
  case key =>
    intro h0 hp
    exact ⟨ksctlWrite_next hm h0 hp, fun he => ⟨kskey1Write_next hm h0 hp he, kskey2Write_next hm h0 hp he⟩⟩
  case alarmpol => exact fun hl => alarmpolWrite_next hm hl
  case modid => exact fun ht => modidWrite_next hm ht
  case die => exact fun hd => ⟨fun hv => tmsnapGo_next hm hd hv, frozenWrite_next hm hd⟩
  case reg => exact fun off z => registerWrite_next hm off z

section

variable {s : State} {v n m : Nat}

/-! ## Boot and attestation -/

/-- R338: BOOTGO at rest, with a length in its bounds. -/
theorem bootgo_next (hm : s.managed = true) (hb : s.regs.bootst = 0 ∨ s.regs.bootst = 2) (halign : v % 2 ^ 32 % 256 = 0)
    (hlo : 256 ≤ v % 2 ^ 32) (hhi : v % 2 ^ 32 ≤ 2 ^ 28) :
    exec (.bootgo v) s = .next { s with regs := { s.regs with bootst := 3, bootLen := v % 2 ^ 32 } } := by
  have hmay : ¬(s.regs.bootst = 1 ∨ s.regs.bootst = 3 ∨ v % 2 ^ 32 % 256 ≠ 0 ∨ v % 2 ^ 32 < 256 ∨ 2 ^ 28 < v % 2 ^ 32) := by omega
  rw [exec_bootgo, execBootgo, if_neg hmay, State.regWrite_managed hm]

/-- R339: GO while no report is under way. -/
theorem attcmdGo_next (hm : s.managed = true) (hv : nbit v 0 = true) (hg : s.regs.attGo = false) :
    exec (.attcmdGo v) s = .next { s with regs := { s.regs with attGo := true, attErr := false } } := by
  rw [exec_attcmdGo, execAttcmdGo, if_pos ⟨hv, hg⟩, State.regWrite_managed hm]

/-- R334: ALARMRAISE. -/
theorem alarmraise_next (hm : s.managed = true) (hv : nbit v 0 = true) :
    exec (.alarmraise v) s = .next (s.raiseAlarm sourceSoftware dieModule 0) := by
  rw [exec_alarmraise, execAlarmraise, if_pos ⟨hm, hv⟩]

/-- R338: the check of an image under way ends by its signature. -/
theorem bootCheckComplete_next (hb : s.regs.bootst = 3) : exec .bootCheckComplete s =
    if Config.signatureOk s.imageBytes = true then
      .next { s.imageRead with regs := { s.imageRead.regs with bootst := 1, image := s.imageBytes, bootNs := s.imageRead.ns 0 } }
    else .next (State.raiseAlarm { s.imageRead with regs := { s.imageRead.regs with bootst := 2 } } sourceFwsig dieModule 0) := by
  rw [exec_bootCheckComplete, execBootCheckComplete, if_neg (by simp [hb])]

/-- R339: the report reaches the host through the primary port. -/
theorem attestationReportWritten_ok (hg : s.regs.attGo = true) (hup : s.regs.primaryUp = true) {u : State}
    (hu : u = s.writeMem 0 (2 ^ 50 + s.regs.attDest) s.report) : exec (.attestationReportWritten true) s =
      .next { u with regs := { u.regs with attGo := false, attErr := false } } := by
  subst hu
  rw [exec_attestationReportWritten, execAttestationReportWritten, if_neg (by simp [hg])]
  simp only [hup, Bool.and_self, if_true, Bool.not_true]

/-- R339: a report that cannot be written. -/
theorem attestationReportWritten_failed (hg : s.regs.attGo = true) : exec (.attestationReportWritten false) s =
    .next { s with regs := { s.regs with attGo := false, attErr := true } } := by
  rw [exec_attestationReportWritten, execAttestationReportWritten, if_neg (by simp [hg])]
  rfl

/-! ## Power -/

/-- R340: an event of a source while the module has power. -/
theorem alarmEvent_next (hp : s.powered = true) (hv : v < 7) : exec (.alarmEvent v n m) s = .next (s.alarm v n m) := by
  rw [exec_alarmEvent, execAlarmEvent, if_pos ⟨hp, hv⟩]

/-- R374: power comes on. -/
theorem powerOn_next (hp : s.powered = false) : exec .powerOn s = .next { State.reset with
    agenda := s.agenda, nextId := s.nextId, free := s.free, mem := s.mem, poison := s.poison } := by
  rw [exec_powerOn, execPowerOn, if_neg (by simp [hp])]

/-- R375: a draw above the cap lowers every die's clock. -/
theorem powerThrottle_above (hp : s.powered = true) (hb : s.regs.bootst = 1) (hv : s.regs.cap < v) {u : State}
    (hu : u = { s with regs := { s.regs with draw := v % 2 ^ 32 } }) : exec (.powerThrottle v) s =
      .next (State.clocks { u with regs := { u.regs with aclkMhz := slower s.regs.aclkMhz } } (fun d => slower d.aclk)) := by
  subst hu
  rw [exec_powerThrottle, execPowerThrottle, if_neg (by simp [hp]), if_neg (by simp [hb]), if_pos hv]

/-- R375: a draw from 95 % of the cap to the cap leaves the clocks. -/
theorem powerThrottle_within (hp : s.powered = true) (hb : s.regs.bootst = 1) (hv : v ≤ s.regs.cap)
    (hlow : s.regs.cap * 95 ≤ v * 100) :
    exec (.powerThrottle v) s = .next { s with regs := { s.regs with draw := v % 2 ^ 32 } } := by
  rw [exec_powerThrottle, execPowerThrottle, if_neg (by simp [hp]), if_neg (by simp [hb]), if_neg (Nat.not_lt.mpr hv),
    if_neg (Nat.not_lt.mpr hlow)]

/-- R375: a temperature below 110 °C sets the die's clock. -/
theorem dieTemperature_next (hp : s.powered = true) (hb : s.regs.bootst = 1) (hn : n < Config.dies) (hv : v < 110) :
    exec (.dieTemperature n v) s = .next (s.putDie n { (s.die n).setClock s.ps
      (if 95 ≤ v then slower (s.die n).aclk else faster s.regs.aclkMhz (s.die n).aclk) with temp := v }) := by
  have hmay : ¬(s.powered = false ∨ Config.dies ≤ n) := by simp [hp, Nat.not_le.mpr hn]
  simp only [exec_dieTemperature, execDieTemperature, if_neg hmay, if_neg (Nat.not_le.mpr hv), if_neg (not_not.mpr hb)]

/-- R378: the measurement of an empty cluster. -/
theorem ageingMeasurement_next (hp : s.powered = true) (hb : s.regs.bootst = 1) (hn : n < 384)
    (hempty : ∀ t ∈ s.teams, clusterOf t.core = n → t.onCore = false) : exec (.ageingMeasurement n v m) s =
      if Config.fusedMaxMargin n % 256 < v then .next (s.putCluster n { s.cluster n with retire := true })
      else .next (s.putCluster n
        { s.cluster n with margin := some v, index := if v = Config.fusedMaxMargin n % 256 then 255 else m % 256 }) := by
  have hnone : s.teams.any (fun t => decide (clusterOf t.core = n) && t.onCore) = false := by
    simpa [List.any_eq_false] using hempty
  have hmay : ¬(s.powered = false ∨ s.regs.bootst ≠ 1 ∨ 384 ≤ n ∨
      s.teams.any (fun t => decide (clusterOf t.core = n) && t.onCore) = true) := by
    simp only [hp, hb, hnone, Bool.true_eq_false, Bool.false_eq_true, ne_eq, not_true_eq_false, false_or, or_false]
    omega
  rw [exec_ageingMeasurement, execAgeingMeasurement, if_neg hmay]

end

/-- Settles O47: each event under the condition of its rule; without power the addresses from 2^50 on keep their bytes, since the
table of memory loses only keys below. -/
theorem securityAndPowerEvents : Obligations.SecurityAndPowerEvents := by
  unfold Obligations.SecurityAndPowerEvents
  intro s v n m
  refine ⟨?managed, ?boot, ?report, ?alarm, ?off, ?on, ?throttle, ?temp, ?age⟩
  case managed =>
    intro hm
    exact ⟨fun hb halign hlo hhi => bootgo_next hm hb halign hlo hhi, fun hv hg => attcmdGo_next hm hv hg,
      fun hv => alarmraise_next hm hv⟩
  case boot =>
    rintro hb u rfl
    exact ⟨fun hs => by rw [bootCheckComplete_next hb, if_pos hs],
      fun hs => by rw [bootCheckComplete_next hb, if_neg (by simp [hs])]⟩
  case report =>
    intro hg
    exact ⟨fun hup u hu => attestationReportWritten_ok hg hup hu, attestationReportWritten_failed hg⟩
  case alarm => exact fun hp hv => alarmEvent_next hp hv
  case off =>
    refine ⟨_, by rw [exec_powerOff, execPowerOff], rfl, rfl, rfl, rfl, fun a ha => ?_⟩
    exact sget_filter memDefault s.mem (fun k => decide (2 ^ 50 ≤ k)) (decide_eq_true ha)
  case on => exact fun hp => powerOn_next hp
  case throttle =>
    intro hp hb u hu
    exact ⟨fun hv => powerThrottle_above hp hb hv hu, fun hv hlow => hu ▸ powerThrottle_within hp hb hv hlow⟩
  case temp =>
    intro hp hb hn
    exact ⟨fun hlo hhi => by rw [dieTemperature_next hp hb hn hhi, if_pos hlo],
      fun hlo => by rw [dieTemperature_next hp hb hn (by omega), if_neg (Nat.not_le.mpr hlo)]⟩
  case age =>
    intro hp hb hn hempty
    exact ⟨fun hv => by rw [ageingMeasurement_next hp hb hn hempty, if_pos hv],
      fun hv => by rw [ageingMeasurement_next hp hb hn hempty, if_neg (Nat.not_lt.mpr hv)]⟩

end Sys2Proof.Machine
end

section
/-! SUPPORT. The die links (R342 to R348, R350): what a send, a receipt, a replay and a module's turn answer where their guard holds. -/

namespace Sys2Proof.Machine

open Sys2Proof

section

variable {s : State} {d e m v : Nat} {ok lf : Bool}

/-! ## LNKCTL -/

/-- R346, R348: WIDEN on an active module. -/
theorem widen_next (hm : s.managed = true) (hl : (s.link d e m).state = 2) : exec (.widen d e m) s =
    .next ((s.startRetrain d e m false).modEnds d e m (fun k => { k with x32 := false })) := by
  rw [exec_widen, execWiden, if_pos ⟨hm, hl⟩]

/-- The guard that CLR and OFF share. -/
theorem linkctl_guard (hm : s.managed = true) (ho : (opposite d e).isSome = true) (h8 : m < 8) :
    ¬(s.managed = false ∨ (opposite d e).isNone = true ∨ 8 ≤ m) := by
  rintro (h | h | h)
  · simp [hm] at h
  · simp [Option.isNone_iff_eq_none.mp h] at ho
  · omega

/-- R348: CLR. -/
theorem clr_next (hm : s.managed = true) (ho : (opposite d e).isSome = true) (h8 : m < 8) : exec (.clr d e m) s =
    .next (s.modLink d e m (fun k => { k with crcerr := 0, replay := 0, dup := 0, retrain := 0 })) := by
  rw [exec_clr, execClr, if_neg (linkctl_guard hm ho h8)]

/-- R347: OFF. -/
theorem linkOff_down (hm : s.managed = true) (ho : (opposite d e).isSome = true) (h8 : m < 8) (hv : nbit v 0 = true) :
    exec (.linkOff d e m v) s = .next ((s.modLink d e m (fun k => { k with off := true })).linkDown d e m) := by
  rw [exec_linkOff, execLinkOff, if_neg (linkctl_guard hm ho h8), if_pos hv]

/-- R347: OFF taken back: the module trains, unless its other end is off. -/
theorem linkOff_train (hm : s.managed = true) (ho : (opposite d e).isSome = true) (h8 : m < 8) (hv : nbit v 0 = false)
    (hoff : (s.link d e m).off = true) {u : State} (hu : u = s.modLink d e m (fun k => { k with off := false })) :
    exec (.linkOff d e m v) s =
      .next (if u.moduleOff d e m then u else u.modEnds d e m (fun k => { k with state := 1, fails := 0 })) := by
  subst hu
  rw [exec_linkOff, execLinkOff, if_neg (linkctl_guard hm ho h8), if_neg (by simp [hv]), if_pos hoff]

/-! ## FLIT_SEND -/

/-- R343: what is ready goes in as many flits as it needs, the last of which carries it. -/
theorem flitSend_next {l : List (Nat × Nat)} (hs : (s.link d e (s.moduleOf d e m)).state = 2) (h8 : m < 8)
    (hl : l = s.packed 0 (s.readyPieces d e m)) (hne : l ≠ []) (hroom : (s.chan d e m).held.length + s.flitsOf l ≤ 64) :
    exec (.flitSend d e m) s = .next (((List.range (s.flitsOf l - 1)).foldl (fun (s : State) _ =>
      s.flit d e m []) (s.placePieces l inFlight)).flit d e m l) := by
  subst hl
  have hmay : ¬((s.link d e (s.moduleOf d e m)).state ≠ 2 ∨ 8 ≤ m ∨
      64 < (s.chan d e m).held.length + s.flitsOf (s.packed 0 (s.readyPieces d e m)) ∨
      (s.packed 0 (s.readyPieces d e m)).isEmpty = true) := by
    simp only [hs, List.isEmpty_iff, hne, ne_eq, not_true_eq_false, false_or, or_false]
    omega
  rw [exec_flitSend, execFlitSend, if_neg hmay]

/-- Pieces that fit one payload take one flit. -/
theorem State.flitsOf_fits {l : List (Nat × Nat)} (h : (l.map s.bytesOf).sum ≤ 248) : s.flitsOf l = 1 := by
  unfold State.flitsOf cdiv
  omega

/-- A piece above one payload takes the flits of its bytes. -/
theorem State.flitsOf_large {l : List (Nat × Nat)} (h : 248 < (l.map s.bytesOf).sum) :
    s.flitsOf l = cdiv ((l.map s.bytesOf).sum) 248 := by
  unfold State.flitsOf cdiv
  omega

/-! ## Timers -/

/-- The event of a die edge other than the optical one. -/
theorem atEdge_link (he : e ≠ 4) (port : Nat → State) (link : State) : atEdge d e s port link = .next link := by
  rw [atEdge, if_neg he]

/-- R344: the oldest held flit has waited ACKTO. -/
theorem replayTimeout_link (hs : (s.link d e (s.moduleOf d e m)).state = 2) (he : e ≠ 4) (hh : (s.chan d e m).held ≠ [])
    (ht : (s.chan d e m).heldSince + max 16 (s.link d e (s.moduleOf d e m)).ackto ≤ s.ns d) :
    exec (.replayTimeout d e m) s = .next (s.replay d e m) := by
  have hheld : (s.chan d e m).held.isEmpty = false := by simpa using hh
  rw [exec_replayTimeout, execReplayTimeout, atEdge_link he, State.linkTimeout, if_pos ⟨hs, hheld, ht⟩]

/-- R345: an acceptance has stood 8 ns without an ACK. -/
theorem ackDelayExpiry_link (hs : (s.link d e (s.moduleOf d e m)).state = 2) (he : e ≠ 4) (hu : (s.chan d e m).unacked ≠ 0)
    (ht : (s.chan d e m).lastRx + 8 ≤ s.ns d) : exec (.ackDelayExpiry d e m) s = .next (s.sendAck d e m) := by
  rw [exec_ackDelayExpiry, execAckDelayExpiry, atEdge_link he, State.linkAckDelay, if_pos ⟨hs, hu, ht⟩]

/-! ## Receipts -/

section

variable {f : Flit} {u : State}

/-- A flit of the event's TYPE is acted on. -/
theorem State.receive_type (ht : s.takeFlit d e m = some (f, u)) (act : Flit → State → State) :
    s.receive d e m f.type ok act = act f u := by
  simp only [State.receive, ht, if_true]

/-- R345: a data flit whose CRC fails. -/
theorem dataFlitReceive_bad (ht : s.takeFlit d e m = some (f, u)) (hf : f.type = 1) :
    exec (.dataFlitReceive d e m false) s = .next (u.badCrc d e m (some f.chan)) := by
  rw [exec_dataFlitReceive, execDataFlitReceive, ← hf, State.receive_type ht]
  rfl

/-- R345: a data flit whose CRC holds, by how far its sequence number is ahead. -/
theorem dataFlitReceive_good (ht : s.takeFlit d e m = some (f, u)) (hf : f.type = 1) {k : Nat}
    (hk : k = (f.seq + 256 - (u.chan d e f.chan).rx) % 256) : exec (.dataFlitReceive d e m true) s =
      .next (if k = 0 then u.accept d e f
        else if 192 ≤ k then (u.modLink d e m (fun k => { k with dup := satAdd 16 k.dup 1 })).sendAck d e f.chan
        else if k ≤ 63 then u.sendNak d e f.chan else u.startRetrain d e m false) := by
  subst hk
  rw [exec_dataFlitReceive, execDataFlitReceive, ← hf, State.receive_type ht]
  rfl

/-- R343: a flit of a TYPE that there is not. -/
theorem dataFlitReceive_unknown (ht : s.takeFlit d e m = some (f, u)) (hf : 4 ≤ f.type) : exec (.dataFlitReceive d e m ok) s =
    .next (if ok then u.startRetrain d e m false else u.badCrc d e m none) := by
  have h1 : f.type ≠ 1 := by omega
  have h0 : f.type ≠ 0 := by omega
  simp only [exec_dataFlitReceive, execDataFlitReceive, State.receive, ht, if_neg h1, if_neg h0, if_pos hf]

/-- R344: an ACK. -/
theorem ackReceive_link (ht : s.takeFlit d e m = some (f, u)) (hf : f.type = 2) (he : e ≠ 4) : exec (.ackReceive d e m ok) s =
    .next (if ok then u.freeBefore d e f.chan ((f.aseq + 1) % 256) else u.badCrc d e m none) := by
  rw [exec_ackReceive, execAckReceive, atEdge_link he, State.linkAck, ← hf, State.receive_type ht]

/-- R344: a NAK. -/
theorem nakReceive_link (ht : s.takeFlit d e m = some (f, u)) (hf : f.type = 3) (he : e ≠ 4) : exec (.nakReceive d e m ok) s =
    .next (if ok = false then u.badCrc d e m none
      else if (u.chan d e f.chan).knows f.aseq = true then (u.freeBefore d e f.chan f.aseq).replay d e f.chan else u) := by
  rw [exec_nakReceive, execNakReceive, atEdge_link he, State.linkNak, ← hf, State.receive_type ht]

end

/-! ## Routes -/

/-- R350: GO while no swap runs. -/
theorem rtswap_next (hm : s.managed = true) (hv : nbit v 31 = true) (hb : (s.die d).rtbusy = none) :
    exec (.rtswap d v) s = .next (s.putDie d { s.die d with rtbusy := some (v % 64) }) := by
  rw [exec_rtswap, execRtswap, if_pos ⟨hm, hv, by simp [hb]⟩]

/-- R350: the swap once every admitted request has its reply. -/
theorem routeSwapComplete_next {p : Nat} (hb : (s.die d).rtbusy = some p) (ha : s.admitted d p = false) :
    exec (.routeSwapComplete d) s = .next (s.putDie d { s.die d with
      rtbusy := none
      rtbank := if nbit (s.die d).rtbank p then (s.die d).rtbank - 2 ^ p else (s.die d).rtbank + 2 ^ p }) := by
  simp only [exec_routeSwapComplete, execRouteSwapComplete, hb, ha, Bool.false_eq_true, if_false]

end

/-- Settles O49: each event of a link under the condition of its rule. -/
theorem linkEvents : Obligations.LinkEvents := by
  unfold Obligations.LinkEvents
  intro s d e m v ok lf
  refine ⟨?ctl, ?active, ?receive, ?trained, ?swap, ?swapped⟩
  case ctl =>
    intro hm ho h8
    exact ⟨fun hl => widen_next hm hl, clr_next hm ho h8, fun hv => linkOff_down hm ho h8 hv,
      fun hv hoff u hu => linkOff_train hm ho h8 hv hoff hu⟩
  case active =>
    rintro hs c rfl
    refine ⟨?one, ?several, fun he hh ht => replayTimeout_link hs he hh ht, fun he hu ht => ackDelayExpiry_link hs he hu ht⟩
    case one =>
      intro h8 hroom l hl hne hfit
      have hn : s.flitsOf l = 1 := State.flitsOf_fits hfit
      rw [flitSend_next hs h8 hl hne (by omega), hn]
      rfl
    case several =>
      intro h8 l k hl hbig hk hroom
      have hn : s.flitsOf l = k := hk ▸ State.flitsOf_large hbig
      have hne : l ≠ [] := by
        rintro rfl
        simp at hbig
      rw [flitSend_next hs h8 hl hne (by omega), hn]
  case receive =>
    intro f u ht
    exact ⟨fun hf k hk => ⟨dataFlitReceive_bad ht hf, dataFlitReceive_good ht hf hk⟩,
      fun hf => dataFlitReceive_unknown ht hf, fun hf he => ackReceive_link ht hf he, fun hf he => nakReceive_link ht hf he⟩
  case trained =>
    intro he
    exact ⟨by rw [exec_retrainComplete, execRetrainComplete, if_neg he],
      by rw [exec_edgeHoldExpiry, execEdgeHoldExpiry, if_neg he]⟩
  case swap => exact fun hm hv hb => rtswap_next hm hv hb
  case swapped => exact fun p hb ha => routeSwapComplete_next hb ha

end Sys2Proof.Machine
end

section
/-! SUPPORT. The optical ports (R351 to R354): what a send, a receipt, a replay and a delivery's turn answer where their guard
holds. -/

namespace Sys2Proof.Machine

open Sys2Proof

section

variable {s : State} {k d x : Nat} {b : LBlock} {ok lf : Bool}

/-! ## Edge 4 -/

/-- The event of the optical port of a die. -/
theorem atEdge_port (hk : portOf d = some k) (port : Nat → State) (link : State) : atEdge d 4 s port link = .next (port k) := by
  rw [atEdge, if_pos rfl, hk]
  rfl

/-- R346, R352: a training of a port ends. -/
theorem retrainComplete_port (hk : portOf d = some k) :
    exec (.retrainComplete d 4 x ok lf) s = .next (s.portTrained k ok (if lf then max 1 x else 0)) := by
  simp only [exec_retrainComplete, execRetrainComplete, if_true, hk]

/-- R351: 1 ms without a port. -/
theorem edgeHoldExpiry_port (hk : portOf d = some k) : exec (.edgeHoldExpiry d 4) s = .next (s.portExpires k) := by
  simp only [exec_edgeHoldExpiry, execEdgeHoldExpiry, if_true, hk]

/-- R351: a port that is not down goes down. -/
theorem opticalPortDown_next (h : (s.port k).state ≠ 0) : exec (.opticalPortDown k) s = .next (s.portDown k) := by
  rw [exec_opticalPortDown, execOpticalPortDown, if_neg h]

/-! ## Sending, R353 -/

section

variable {u t : State} {o : Op} {y : Dest} {i : Nat}

/-- Class S alone waits. -/
theorem opticalBlockSend_s (hs : (s.port k).state = 2) (hu : u = s.putPort k { s.port k with turn := ((s.port k).turn + 1) % 16 })
    (ht : u.sendS k = some t) (hl : u.classLToSend k = none) : exec (.opticalBlockSend k) s = .next t := by
  subst hu
  rw [exec_opticalBlockSend, execOpticalBlockSend, if_neg (not_not.mpr hs)]
  simp only [ht, hl]

/-- Class L alone waits. -/
theorem opticalBlockSend_l (hs : (s.port k).state = 2) (hu : u = s.putPort k { s.port k with turn := ((s.port k).turn + 1) % 16 })
    (ht : u.sendS k = none) (hl : u.classLToSend k = some (o, y, i)) :
    exec (.opticalBlockSend k) s = .next (u.sendL o y i) := by
  subst hu
  rw [exec_opticalBlockSend, execOpticalBlockSend, if_neg (not_not.mpr hs)]
  simp only [ht, hl]

/-- Both classes wait: the port's turn is class L's for LWEIGHT of 16. -/
theorem opticalBlockSend_both (hs : (s.port k).state = 2)
    (hu : u = s.putPort k { s.port k with turn := ((s.port k).turn + 1) % 16 })
    (ht : u.sendS k = some t) (hl : u.classLToSend k = some (o, y, i)) : exec (.opticalBlockSend k) s =
      .next (if (s.port k).turn < (s.port k).lweight then u.sendL o y i else t) := by
  subst hu
  rw [exec_opticalBlockSend, execOpticalBlockSend, if_neg (not_not.mpr hs)]
  simp only [ht, hl]
  split <;> rfl

end

/-! ## Class S, R352 -/

section

variable {p : Port}

/-- A class S block whose CRC fails. -/
theorem classSBlockReceive_bad (hs : (s.port k).state = 2) (hp : p = { s.port k with seen := (s.port k).seen + 1 }) :
    exec (.classSBlockReceive k x false) s =
      .next (s.putPort k (if p.badCrc.state = 2 then p.badCrc.sayNak else p.badCrc)) := by
  subst hp
  rw [exec_classSBlockReceive, execClassSBlockReceive, if_neg (not_not.mpr hs), if_pos rfl]

/-- A class S block whose CRC holds, by how far its sequence number is ahead. -/
theorem classSBlockReceive_good (hs : (s.port k).state = 2) (hp : p = { s.port k with seen := (s.port k).seen + 1 }) {a : Nat}
    (ha : a = (x % 65536 + 65536 - (s.port k).rx) % 65536) : exec (.classSBlockReceive k x true) s =
      .next (if a = 0 then (s.putPort k p).acceptS k
        else if 65536 - 8192 ≤ a then s.putPort k p.sayAck
        else if a < 8192 then s.putPort k p.sayNak else s.putPort k p.retrains) := by
  subst hp ha
  rw [exec_classSBlockReceive, execClassSBlockReceive, if_neg (not_not.mpr hs), if_neg (by decide)]
  simp only [apply_ite Host.Outcome.next]

/-- An ACK of the other module's port. -/
theorem ackReceive_port (hk : portOf d = some k) (hs : (s.port k).state = 2)
    (hp : p = { s.port k with seen := (s.port k).seen + 1 }) : exec (.ackReceive d 4 x ok) s =
      .next (s.putPort k (if ok then p.freeBefore (s.ns (portDie k)) ((x + 1) % 65536) else p.badCrc)) := by
  subst hp
  rw [exec_ackReceive, execAckReceive, atEdge_port hk, State.portAck, if_neg (not_not.mpr hs)]

/-- A NAK of the other module's port. -/
theorem nakReceive_port (hk : portOf d = some k) (hs : (s.port k).state = 2)
    (hp : p = { s.port k with seen := (s.port k).seen + 1 }) : exec (.nakReceive d 4 x ok) s =
      .next (s.putPort k (if ok = false then p.badCrc
        else if (p.held.any (fun f => f.seq == x) || p.tx == x) = true then
          (p.freeBefore (s.ns (portDie k)) x).replays (s.ns (portDie k)) else p)) := by
  subst hp
  rw [exec_nakReceive, execNakReceive, atEdge_port hk, State.portNak, if_neg (not_not.mpr hs)]
  simp only [apply_ite (s.putPort k)]

end

/-- The oldest held block has waited its time. -/
theorem replayTimeout_port (hk : portOf d = some k) (hs : (s.port k).state = 2) (hh : (s.port k).held ≠ [])
    (ht : (s.port k).heldSince + portAckto ≤ s.ns (portDie k)) :
    exec (.replayTimeout d 4 x) s = .next (s.putPort k ((s.port k).replays (s.ns (portDie k)))) := by
  have hheld : (s.port k).held.isEmpty = false := by simpa using hh
  rw [exec_replayTimeout, execReplayTimeout, atEdge_port hk, if_pos ⟨hs, hheld, ht⟩]

/-- An acceptance has stood 8 ns without an ACK. -/
theorem ackDelayExpiry_port (hk : portOf d = some k) (hs : (s.port k).state = 2) (hu : (s.port k).unacked ≠ 0)
    (ht : (s.port k).lastRx + 8 ≤ s.ns (portDie k)) :
    exec (.ackDelayExpiry d 4 x) s = .next (s.putPort k (s.port k).sayAck) := by
  rw [exec_ackDelayExpiry, execAckDelayExpiry, atEdge_port hk, if_pos ⟨hs, hu, ht⟩]

/-! ## Class L, R354 -/

/-- A class L block whose CRC fails. -/
theorem classLBlockArrival_bad (hs : (s.port k).state = 2) : exec (.classLBlockArrival k b false) s =
    .next (s.modPort k (fun p => { p with lcrc := satAdd 16 p.lcrc 1 })) := by
  rw [exec_classLBlockArrival, execClassLBlockArrival, if_neg (not_not.mpr hs), if_pos rfl]

/-- A delivery that waits for a class L block: it has its name, and a block of that number has not landed. -/
def awaitsBlock (b : LBlock) (y : LDelivery) : Bool :=
  decide (y.sender = b.sender) && decide (y.handle = b.handle) && decide (y.baselo = b.baselo) && decide (y.count = b.count) &&
    !y.landed.contains b.b

/-- A class L block goes to the delivery that waits for it. -/
theorem classLBlockArrival_awaited (hs : (s.port k).state = 2) (h0 : b.count ≠ 0) (hc : b.count ≤ 4096)
    (hb : b.b < blocksOf b.count) {y : LDelivery} (hy : s.ldels.find? (awaitsBlock b) = some y) :
    exec (.classLBlockArrival k b true) s = .next (if y.ended then s.lateBlock y b.b else s.landBlock y b) := by
  have hmay : ¬(b.count = 0 ∨ 4096 < b.count ∨ blocksOf b.count ≤ b.b) := by omega
  unfold awaitsBlock at hy
  rw [exec_classLBlockArrival, execClassLBlockArrival, if_neg (not_not.mpr hs), if_neg (by decide), if_neg hmay]
  simp only [hy, apply_ite Host.Outcome.next]

/-- A class L block that no delivery waits for opens one. -/
theorem classLBlockArrival_new (hs : (s.port k).state = 2) (h0 : b.count ≠ 0) (hc : b.count ≤ 4096)
    (hb : b.b < blocksOf b.count) (hy : s.ldels.find? (awaitsBlock b) = none) :
    exec (.classLBlockArrival k b true) s = .next (s.newLDel k b) := by
  have hmay : ¬(b.count = 0 ∨ 4096 < b.count ∨ blocksOf b.count ≤ b.b) := by omega
  unfold awaitsBlock at hy
  rw [exec_classLBlockArrival, execClassLBlockArrival, if_neg (not_not.mpr hs), if_neg (by decide), if_neg hmay]
  simp only [hy]

/-- OPTLTO has passed since a delivery's admission. -/
theorem classLTimeout_next {y : LDelivery} {t : Team} (hy : s.ldels.find? (fun y => y.id == x) = some y) (he : y.ended = false)
    (ht : s.team? y.team = some t) (hto : y.since + 1000 * (s.part t.part).optlto ≤ s.ns (portDie y.port)) :
    exec (.classLTimeout x) s =
      .next ((s.endLDel y).modPort y.port (fun p => { p with ltimeout := satAdd 16 p.ltimeout 1 })) := by
  simp only [exec_classLTimeout, execClassLTimeout, hy, ht, he, Option.map_some, Option.getD_some, Bool.false_eq_true, false_or,
    if_neg (Nat.not_lt.mpr hto)]

end

/-- Settles O50: each event of an optical port under the condition of its rule. -/
theorem opticalEvents : Obligations.OpticalEvents := by
  unfold Obligations.OpticalEvents
  intro s k d x b ok lf
  refine ⟨?edge, fun h => opticalPortDown_next h, ?active, fun y t hy he ht hto => classLTimeout_next hy he ht hto⟩
  case edge => exact fun hk => ⟨retrainComplete_port hk, edgeHoldExpiry_port hk⟩
  case active =>
    intro hs
    refine ⟨?send, ?classS, classLBlockArrival_bad hs, ?classL⟩
    case send =>
      intro u hu
      exact ⟨fun t ht hl => opticalBlockSend_s hs hu ht hl, fun o y i ht hl => opticalBlockSend_l hs hu ht hl,
        fun t o y i ht hl => opticalBlockSend_both hs hu ht hl⟩
    case classS =>
      intro p a hp ha
      exact ⟨classSBlockReceive_bad hs hp, classSBlockReceive_good hs hp ha, fun hk =>
        ⟨ackReceive_port hk hs hp, nakReceive_port hk hs hp, fun hh ht => replayTimeout_port hk hs hh ht,
          fun hu ht => ackDelayExpiry_port hk hs hu ht⟩⟩
    case classL =>
      exact fun h0 hc hb => ⟨fun y hy => classLBlockArrival_awaited hs h0 hc hb hy, fun hy => classLBlockArrival_new hs h0 hc hb hy⟩

end Sys2Proof.Machine
end
